-- ==== Sys2Proof/Word.lean ====
section
/-! DEFINITION. Sys2Proof/Word.lean: the words the machine computes on (spec/01 R6, spec/02 R26). -/

namespace Sys2Proof

/-- A 64-bit register, queue entry or system register (R6). -/
abbrev W64 := BitVec 64
/-- A 32-bit word: an FP32 code, an accumulator cell, a stream record (R26). -/
abbrev W32 := BitVec 32
/-- The smallest addressable unit of every memory (R297). -/
abbrev Byte := BitVec 8
/-- A vector register: 1,024 bytes, byte i at bits 8i+7 to 8i (R6, R26). -/
abbrev VReg := BitVec 8192
/-- A lane mask: 1,024 bits (R6). -/
abbrev KReg := BitVec 1024
/-- A 60-bit syllable (R46, R48). -/
abbrev Syllable := BitVec 60

/-- The number of cores of a package: 4 dies of 9 clusters of 8 cores (R1, R22). -/
def numCores : Nat := 288
/-- Cores of one die (R22). -/
def coresPerDie : Nat := 72
/-- Cores of one cluster (R22). -/
def coresPerCluster : Nat := 8
/-- Clusters of the package (R1). -/
def numClusters : Nat := 36
/-- HBM stacks of the package (R1). -/
def numStacks : Nat := 12

end Sys2Proof
end

