-- ==== Sys2Proof/Syntax.lean ====
section
/-! DEFINITION. Sys2Proof/Syntax.lean: the instructions of the opcode table. A slot instruction carries the fields of its
body format (spec/03 R48, R50) as encoded, because a value that an instruction does not accept still decodes and traps only
under a true guard (spec/04 R77); a device step carries the units it names. -/

namespace Sys2Proof

/-- The guard of a syllable: predicate number G and negate N (R48). -/
structure Guard where
  pred : BitVec 4
  neg : Bool
  deriving DecidableEq, Repr, Inhabited

/-- Format A3: destination, three sources, 17-bit modifier (R50). -/
structure A3 where
  guard : Guard
  d : BitVec 7
  s1 : BitVec 7
  s2 : BitVec 7
  s3 : BitVec 7
  m : BitVec 17
  deriving DecidableEq, Repr, Inhabited

/-- Format AI: destination, source, 31-bit immediate (R50). -/
structure AI where
  guard : Guard
  d : BitVec 7
  s1 : BitVec 7
  imm : BitVec 31
  deriving DecidableEq, Repr, Inhabited

/-- Format WI: destination, 38-bit immediate (R50). -/
structure WI where
  guard : Guard
  d : BitVec 7
  imm : BitVec 38
  deriving DecidableEq, Repr, Inhabited

/-- Format BR: link destination, signed halfword offset, branch modifier (R50, R53). -/
structure BrF where
  guard : Guard
  link : BitVec 7
  off : BitVec 32
  md : BitVec 6
  deriving DecidableEq, Repr, Inhabited

/-- Format EN: tag destination, three operand or layout-group fields, 17-bit engine modifier (R50). -/
structure EN where
  guard : Guard
  tag : BitVec 7
  o1 : BitVec 7
  o2 : BitVec 7
  o3 : BitVec 7
  em : BitVec 17
  deriving DecidableEq, Repr, Inhabited

/-- The two streams of a core (R278). -/
inductive Side where
  | execute
  | access
  deriving DecidableEq, Repr, Inhabited

/-- The kinds of field unit of a cluster (R264). -/
inductive UnitKind where
  | matrix
  | copy
  | special
  | gather
  | surrogate
  deriving DecidableEq, Repr, Inhabited

/-- A storage that can enter retention mode: a scratchpad bank of a core, or the overhead store of a matrix array of a
cluster (R439). -/
inductive RetentionUnit where
  | bank (core bank : Nat)
  | overhead (cluster array : Nat)
  deriving DecidableEq, Repr, Inhabited

/-- What the next transfer of the sector or metadata area at a raw address of a stack meets (R415): for each attempt the beats in error with
the lanes in error, and the lanes that the walking patterns find to fail. -/
structure BusFault where
  stack : Nat
  raw : Nat
  attempts : List (List (Nat × BitVec 64))
  lanes : List Nat
  deriving DecidableEq, Repr, Inhabited

/-- An error that on-chip storage is found to have, which its code does not correct (R437, R438): a 64-bit word of a scratchpad or of chip
shared memory; a register; a word of the element side of the latches; an entry of a scalar or vector queue; the partial state of an
operation; a commit buffer, undo buffer, side log, checkpoint, deque or save area of a core; state that the launches of a context share; a
word of a cache that is fetched again; a line of a check-bit cache; a record of an array or transfer log; telemetry, counters or
trace of a unit; a surrogate sample. -/
inductive Upset where
  | scratchpad (core addr : Nat)
  | csm (addr : Nat)
  | scalar (core n : Nat)
  | access (core n : Nat)
  | vector (core n : Nat)
  | mask (core n : Nat)
  | latch (core word : Nat)
  | entry (core queue idx : Nat)
  | ventry (core queue idx : Nat)
  | engine (core queue : Nat)
  | launchState (core : Nat)
  | shared (asid : Nat)
  | refetched (core : Nat)
  | checkLine (stack group : Nat)
  | logRecord (stack : Nat) (transfer : Bool) (idx : Nat)
  | telemetry (unit : Nat)
  | sample (launch idx : Nat)
  deriving DecidableEq, Repr, Inhabited

/-- Where system software and the loader place one kernel of a module (R337): the code entry's virtual address, size
exponent, device base and host base, and the offsets of the code, the dictionary and the layout records in it. -/
structure KernelPlan where
  va : Nat
  sizeM : Nat
  pa : Nat
  hbase : Nat
  codeOff : Nat
  dictOff : Nat
  layoutOff : Nat
  tableAddr : Nat
  ttAddr : Nat
  deriving DecidableEq, Repr, Inhabited

/-- Where the loader places the template entries of a kernel: entry index, device base, host base, step metadata (R337, R355). -/
structure EntryPlan where
  kernel : Nat
  index : Nat
  pa : Nat
  hbase : Nat
  smeta : Nat
  deriving DecidableEq, Repr, Inhabited

/-- The whole placement of a module load (R337). -/
structure LoadPlan where
  deferred : Bool
  enough : Bool
  kernels : List KernelPlan
  entries : List EntryPlan
  weights : List Nat
  deriving DecidableEq, Repr, Inhabited

/-- The instructions and steps of spec/opcode_table.json, one constructor per row. -/
inductive Instr where
  -- control slots (R72)
  | add (o : A3)
  | sub (o : A3)
  | mul (o : A3)
  | mulh (o : A3)
  | mulhn (o : A3)
  | div (o : A3)
  | divn (o : A3)
  | rem (o : A3)
  | remn (o : A3)
  | andS (o : A3)
  | orS (o : A3)
  | xorS (o : A3)
  | andn (o : A3)
  | shl (o : A3)
  | shr (o : A3)
  | sar (o : A3)
  | rotr (o : A3)
  | minS (o : A3)
  | maxS (o : A3)
  | minn (o : A3)
  | maxn (o : A3)
  | clz (o : A3)
  | ctz (o : A3)
  | popc (o : A3)
  | sext (o : A3)
  | zext (o : A3)
  | bfx (o : A3)
  | bfi (o : A3)
  | sel (o : A3)
  | addi (o : AI)
  | cmpi (o : AI)
  | movi (o : WI)
  | movhi (o : WI)
  | cmp (o : A3)
  | plog (o : A3)
  | ptst (o : A3)
  | fadds (o : A3)
  | fmuls (o : A3)
  | fmas (o : A3)
  | fcmps (o : A3)
  | fcvts (o : A3)
  | fmms (o : A3)
  | bri (o : BrF)
  | br (o : A3)
  | call (o : BrF)
  | ret (o : A3)
  | trap (o : A3)
  | eret (o : A3)
  | sysr (o : AI)
  | sysw (o : AI)
  | brk (o : A3)
  | loopm (o : A3)
  | lbrk (o : A3)
  | spawn (o : A3)
  | susp (o : A3)
  | steal (o : A3)
  | launchMsg (o : A3)
  | bend (o : A3)
  | qsend (o : A3)
  | evpost (o : A3)
  | bstat (o : A3)
  | sgbeg (o : A3)
  | sgend (o : A3)
  | sginv (o : A3)
  | sgcfg (o : A3)
  /-- Hint n (0-63); the WI fields together carry h (R76). -/
  | hint (n : BitVec 6) (o : WI)
  -- vector slots (R73)
  | vadd (o : A3)
  | vsub (o : A3)
  | vmul (o : A3)
  | vmulh (o : A3)
  | vmac (o : A3)
  | vdot4 (o : A3)
  | vdot2 (o : A3)
  | vmin (o : A3)
  | vmax (o : A3)
  | vabs (o : A3)
  | vshl (o : A3)
  | vshr (o : A3)
  | vsar (o : A3)
  | vand (o : A3)
  | vor (o : A3)
  | vxor (o : A3)
  | vsadd (o : A3)
  | vssub (o : A3)
  | vrshr (o : A3)
  | vnarw (o : A3)
  | vwide (o : A3)
  | vcmp (o : A3)
  | klog (o : A3)
  | kpop (o : A3)
  | kfst (o : A3)
  | kset (o : A3)
  | vsel (o : A3)
  | vfadd (o : A3)
  | vfsub (o : A3)
  | vfmul (o : A3)
  | vfma (o : A3)
  | vfmin (o : A3)
  | vfmax (o : A3)
  | vfcmp (o : A3)
  | vfsgn (o : A3)
  | vfcls (o : A3)
  | vxdot (o : A3)
  | vxadd (o : A3)
  | vsum (o : A3)
  | vscan (o : A3)
  | vcvt (o : A3)
  | vcvt8 (o : A3)
  | vmxq (o : A3)
  | vmxdq (o : A3)
  | vexp (o : A3)
  | vpack (o : A3)
  | vunpk (o : A3)
  | vperm (o : A3)
  | vshuf (o : A3)
  | vslide (o : A3)
  | vbcst (o : A3)
  | vextr (o : A3)
  | vins (o : A3)
  | vmov (o : A3)
  | vmovi (o : WI)
  | swr (o : A3)
  | srd (o : A3)
  | scnt (o : A3)
  -- memory slots (R75)
  | aadd (o : A3)
  | asub (o : A3)
  | aaddi (o : AI)
  | ashl (o : A3)
  | amul (o : A3)
  | aand (o : A3)
  | amin (o : A3)
  | acmp (o : A3)
  | amovi (o : WI)
  | ld (o : A3)
  | st (o : A3)
  | ldacq (o : A3)
  | strel (o : A3)
  | vld (o : A3)
  | vlds (o : A3)
  | vldx (o : A3)
  | vst (o : A3)
  | vsts (o : A3)
  | vstx (o : A3)
  | feset (o : A3)
  | fetst (o : A3)
  | amo (o : A3)
  | cas (o : A3)
  | red (o : A3)
  | vred (o : A3)
  | fence (o : A3)
  | qfence (o : A3)
  | cpy (o : EN)
  | cpyt (o : EN)
  | cpyn (o : EN)
  | cpym (o : EN)
  | xlatq (o : A3)
  | mma (o : EN)
  | mlat (o : EN)
  | mcfg (o : EN)
  | sfn (o : EN)
  | gath (o : EN)
  | scat (o : EN)
  -- steps of the device (rows without an encoding)
  /-- A stream's part of the next bundle issues once its pops, pushes and ordering conditions are met. (R58) -/
  | streamPartIssue (core : Nat) (side : Side)
  /-- The WAIT count of a bundle runs out and the stream may issue its next part. (R58) -/
  | stallCountExpiry (core : Nat) (side : Side)
  /-- A fixed-latency result is written at the end of its landing stream cycle. (R59) -/
  | resultLands (core : Nat) (side : Side)
  /-- The value of an off-core load, AMO or CAS arrives and its pending register or queue entry is filled. (R188) -/
  | offCoreLoadReturn (core req : Nat)
  /-- A scratchpad access performs at the end of stream cycle t+3. (R195) -/
  | scratchpadAccessPoint (core : Nat)
  /-- The core records EPC, ECAUSE and EADDR, sets STATUS.EXC, holds in-flight results and continues at EVEC. (R126) -/
  | trapEntry (core : Nat)
  /-- A segment close waits for its loads, commits the segment, releases the commit buffer and performs the release points. (R293) -/
  | segmentClose (core : Nat)
  /-- A core waiting at a rendezvous boundary proceeds once no group partner has its rewind flag raised. (R295) -/
  | rendezvous (core : Nat)
  /-- A side-log entry whose subpage is present is performed as the original access would have been. (R364) -/
  | sideLogReplay (core idx : Nat)
  /-- An engine operation reaches the head of its queue after its predecessor has performed and starts. (R265) -/
  | operationStart (core queue : Nat)
  /-- Each cluster cycle the field units of a kind are bound to candidates by rank, marking lower-ranked operations for demotion. (R267) -/
  | fieldArbitration (cluster : Nat) (kind : UnitKind)
  /-- An engine step ends and the operation migrates, is demoted, promoted, parked or proceeds. (R268) -/
  | stepBoundary (core queue : Nat)
  /-- After seven cycles without a free bench cycle the bench stalls the stream part for one cycle. (R272) -/
  | benchCycleSteal (core : Nat) (side : Side)
  /-- An MMA claims its C tile once every line is full and earlier overlapping claims are done, emptying all 128 lines. (R176) -/
  | mmaClaim (core queue : Nat)
  /-- An MMA applies one K-block to every cell of its partial tile. (R179) -/
  | mmaStep (core queue : Nat)
  /-- An MMA writes C back in ascending line order, filling each line, and completes. (R180) -/
  | mmaWriteBack (core queue : Nat)
  /-- An MLAT checks its record, reads its blocks and writes the latch in one action. (R181) -/
  | mlatPerform (core queue : Nat)
  /-- A copy moves and converts 4 KiB of destination bytes, waiting on empty or absent sources. (R212) -/
  | copyStep (core queue : Nat)
  /-- All destination bytes have landed and full bits are set, so the copy completes. (R212) -/
  | copyPerformed (core queue : Nat)
  /-- A special-function step evaluates 1,024 elements. (R218) -/
  | sfnStep (core : Nat)
  /-- A gather or scatter step moves 1,024 indexed rows. (R220) -/
  | gatherStep (core : Nat)
  /-- A surrogate invocation evaluates the network for 256 lanes with one weight generation and completes. (R388) -/
  | surrogateInvocation (core : Nat)
  /-- An event record held at its source enters a core's EQ once there is room. (R13) -/
  | eventEntry (core idx : Nat)
  /-- A message from an outgoing buffer enters the target IQ or MB once there is room. (R233) -/
  | messageArrival (core : Nat)
  /-- A waiting steal request is answered with a record or nothing and the stealer resumes. (R231) -/
  | stealAnswer (core : Nat)
  /-- A placed continuation record arrives at the top of another core's deque. (R229) -/
  | dequeTopDelivery (idx : Nat)
  /-- An atomic, reduction or cell request is applied once at its home unit and acknowledged. (R257) -/
  | remoteAtomicRequest (core req : Nat)
  /-- A source resends an unacknowledged request with its original tag after a timeout. (R260) -/
  | requestResend (core req : Nat)
  /-- The global tick advances and each launch's frame counter advances or stands still. (R283) -/
  | globalTick
  /-- The frame counter starts at frame 0 tick 0 at the kickoff or grant tick. (R345) -/
  | frameCounterStart (launch : Nat)
  /-- A timetable entry starts once the previous entry has ended and its release tick is reached. (R284) -/
  | entryStart (core : Nat)
  /-- At a frame's end the home processes each region's samples and moves states in index order. (R390) -/
  | frameEndProcessing (launch : Nat)
  /-- A posted launch record arrives in a context's mailbox and is checked. (R343) -/
  | launchMessage (asid window : Nat) (words : List W64)
  /-- The coordinator grants waiting launches by rank and arrival, pre-empting lower-ranked holders. (R344) -/
  | grantDecision
  /-- A granted launch's cores are set up with cleared scratchpad, dictionary, table and initial registers. (R345) -/
  | grant (launch : Nat)
  /-- A halted core closes its segment and saves its context into its save area. (R347) -/
  | contextSave (core : Nat)
  /-- A pre-empted launch's context is restored on the same cores and its streams continue. (R347) -/
  | resumption (launch : Nat)
  /-- Once all cores have ended and operations performed, cores are released, the digest computed and the end record written. (R349) -/
  | launchEnd (launch : Nat)
  /-- A record is written to the host event area and WIDX advanced once there is room. (R348) -/
  | hostEventPost (asid : Nat)
  /-- System software creates a context with an ASID and rank. (R339) -/
  | contextCreate (asid rank : Nat)
  /-- System software destroys a context. (R339) -/
  | contextDestroy (asid : Nat)
  /-- System software writes a context's rank, which applies at the next arbitration and grant decision. (R339) -/
  | rankWrite (asid rank : Nat)
  /-- System software writes a die slot table entry, effective at the next slot cycle 0. (R350) -/
  | slotTableWrite (die idx : Nat) (value : W32)
  /-- Each die-fabric cycle a port or engine serves the slot owner or the next waiting context. (R350) -/
  | dieFabricArbitration (die port : Nat) (ready : List Nat)
  /-- A debugger halts a launch at bundle boundaries without closing segments. (R351) -/
  | debugHalt (launch : Nat)
  /-- A debug-halted launch resumes issue from the halt boundary. (R351) -/
  | debugResume (launch : Nat)
  /-- System software loads a module, which is checked, relocated and mapped or refused. (R336) -/
  | moduleLoad (asid addr size : Nat) (plan : LoadPlan)
  /-- System software unloads a module, refused while any launch of it exists. (R338) -/
  | moduleUnload (handle : Nat)
  /-- System software registers a context's host event area. (R348) -/
  | registerHostEventArea (asid base size widx ridx : Nat)
  /-- System software asks the migration controller to move subpages to device memory. (R359) -/
  | moveToDevice (asid va count : Nat)
  /-- System software asks the migration controller to move subpages to host memory. (R359) -/
  | moveToHost (asid va count hbase : Nat)
  /-- System software asks the migration controller to duplicate subpages on both sides. (R359) -/
  | duplicate (asid va count hbase : Nat)
  /-- System software asks the migration controller to clear subpages' PRESENT bits. (R359) -/
  | unmap (asid va count : Nat)
  /-- An access meeting PRESENT = 0 sends one fault request to the migration controller. (R360) -/
  | faultRequest (core va : Nat) (write : Bool)
  /-- System software declares a fault unresolvable, ending the launch or discarding a CPYN remainder. (R360) -/
  | declareUnresolvable (asid va : Nat)
  /-- The controller moves a subpage by stop and copy after every invalidate is acknowledged. (R365) -/
  | migration (idx : Nat)
  /-- A lookup unit acknowledges an invalidate once accesses already translated to the subpage have performed. (R366) -/
  | invalidate (core idx : Nat)
  /-- The 50 µs hold-off on a losing side's migration request ends. (R368) -/
  | holdOffExpiry (idx : Nat)
  /-- A replay hold lasting 2^20 ticks is a divergence that ends the launch. (R375) -/
  | replayHoldTimeout (launch : Nat)
  /-- A sector is transferred, decoded, reconstructed if needed and decrypted. (R414) -/
  | hbmSectorRead (pa key asid : Nat) (flips : List (Nat × Byte)) (bus : List BusFault)
  /-- A write reads the old image, merges, re-encodes, writes and sends a parity delta. (R417) -/
  | hbmSectorWrite (pa key asid : Nat) (data : List Byte) (bus : List BusFault)
  /-- A parity controller XORs a delta into the parity sector and acknowledges durability. (R417) -/
  | parityDelta (idx : Nat)
  /-- Markhor declares a stack lost, ends affected launches and resends unacknowledged requests. (R422) -/
  | stackLost (stack : Nat)
  /-- System software requests re-striping to 10 + 1 over the surviving stacks. (R424) -/
  | restripe
  /-- The re-striping cursor moves down by one stripe. (R424) -/
  | restripeCursorAdvance
  /-- System software writes an encryption key id, refused while in use. (R412) -/
  | keyWrite (id : Nat) (xts : BitVec 512) (mac : BitVec 256)
  /-- A pair compares the commit signatures of one stream cycle, rewinding on mismatch. (R427) -/
  | signatureCompare (leader fault : Nat)
  /-- A pair compares the result signatures of an engine operation, releasing or repeating it. (R429) -/
  | resultSignatureCompare (leader queue fault : Nat)
  /-- A launch with a pinned error is halted, its buffers discarded and ended with STATUS 5. (R433) -/
  | endLaunchPinned (launch : Nat)
  /-- Markhor tombstones an address space, discards its launches and posts TEARDOWN_DONE. (R434) -/
  | teardown (asid : Nat)
  /-- Markhor rewrites a quarantined range and ends or retires it by two reads. (R436) -/
  | scrub (idx : Nat) (failed : Bool)
  /-- System software removes a field unit, whose running operation migrates to its bench. (R269) -/
  | fieldmaskRemove (cluster : Nat) (mask : BitVec 17)
  /-- An idle bank re-encodes into DEC-TED retention mode. (R439) -/
  | retentionEntry (u : RetentionUnit)
  /-- A bank leaves retention mode for a waiting access. (R439) -/
  | retentionExit (u : RetentionUnit)
  /-- System software reads or writes a weight block while no launch of the module runs. (R385) -/
  | weightBlockAccess (module region offset : Nat) (write : Option W64)
  /-- Markhor boots, derives identity, applies configuration blocks, clears memory and opens the link. (R441) -/
  | packageReset
  /-- Markhor answers a nonce with a signed attestation report. (R444) -/
  | attestationRequest (nonce : BitVec 256)
  /-- The host faults on a subpage, or writes a DUP subpage, and asks the migration controller for it. (R368) -/
  | hostFaultRequest (asid va : Nat) (write : Bool)
  /-- System software registers the ring to which Markhor posts system events. (R435) -/
  | registerSystemEventRing (base size widx ridx : Nat)
  /-- System software registers a core-set handle for a context. (R339) -/
  | registerCoreSetHandle (asid handle : Nat) (cores : List Nat)
  /-- System software registers the public keys against which a context's modules are loaded. (R335) -/
  | registerPublicKeys (asid : Nat) (keys : List (List Byte))
  deriving DecidableEq, Repr, Inhabited

end Sys2Proof
end

