-- ==== Sys2Proof/Config.lean ====
section
/-! DEFINITION. Sys2Proof/Config.lean: what the spec names and does not define, or leaves to the implementation, as free
functions without a body: nothing in Lean can evaluate them, so a claim is true whatever they are. -/

namespace Sys2Proof.Config

/-- The step that is made next when the agenda is empty, for each number of device steps made: the run-time choices of R448 and
R449 (log entry 3). -/
opaque nextStep : Nat → Instr

/-- The vendor key fused into Markhor (R441; log entry 11). -/
opaque vendorKey : List Byte

/-- The 256-bit seed that the PUF reading yields with the helper data (R443, R450; log entry 12). -/
opaque pufSeed : BitVec 256 → List Byte → BitVec 256

/-- The scale byte of a destination block whose elements have no scale in common, copied between equal MX formats (R212), by the
number of device steps made and the address (log entry 21). -/
opaque freeScale : Nat → Nat → BitVec 8

/-- Does a scratchpad byte keep the earlier of two values that meet at one access point (R255), by the number of device steps made and the
offset (log entry 84)? -/
opaque earlierStays : Nat → Nat → Bool

/-- The errors of on-chip storage and of best-effort data that are found between two ticks (R437, R438), by the number of device steps made
(log entry 71). -/
opaque found : Nat → List Upset

/-- A byte that a migration copies from an uncorrectable sector to host memory (R365, R414), by the number of device steps made and the
address (log entry 22). -/
opaque freeByte : Nat → Nat → Byte

end Sys2Proof.Config
end

