-- ==== Sys2Proof/Machine/Fields.lean ====
section
/-! DEFINITION. Sys2Proof/Machine/Fields.lean: what each field of a slot instruction may hold: the operand types of spec/06
R103, spec/07 R131, spec/09 R187 and spec/10 R222, the modifier values each instruction defines (R77), and the result
latencies of R106, R137, R189 and R222. -/

namespace Sys2Proof

/-- The `n` bits of a field at bit `lo`, as a number. -/
def fld {w : Nat} (x : BitVec w) (lo n : Nat) : Nat := x.toNat / 2 ^ lo % 2 ^ n

/-- Operand types: control s, p, b (R103, R222); vector v, x, k (R131); memory a, ad, ap, vq, sd, g (R187); `none` is — . -/
inductive FieldTy where
  | none | sSrc | sDst | sDstSrc | pSrc | pDst | bBase
  | vSrc | vDst | vDstSrc | xSrc | kReg
  | aSrc | aDst | adDst | apDst | vqDst | vqSrc | sdSrc | group
  deriving DecidableEq, Repr, Inhabited

/-- Is the number one that the type accepts, in a slot inside (`body`) or outside a modulo-loop body? A refused number is
an illegal operand (R6-R9, R51, R52, R77). -/
def FieldTy.accepts (body : Bool) : FieldTy → Nat → Bool
  | .none, _ => true
  | .sSrc, n => n < 64 && n ≠ 58 && n ≠ 59
  | .sDst, n => n < 56 || n == 58 || n == 59
  | .sDstSrc, n => n < 56
  | .pSrc, n => decide (64 ≤ n) && n < 80
  | .pDst, n => decide (64 ≤ n) && (n < 72 || (decide (76 ≤ n) && n < 80 && !body))
  | .bBase, n => n ≤ 49
  | .vSrc, n | .xSrc, n => n < 60 || n == 62 || (decide (64 ≤ n) && n < 128 && n ≠ 122 && n ≠ 123)
  | .vDst, n => n < 56 || n == 60 || n == 61 || n == 62
  | .vDstSrc, n => n < 56 || n == 62
  | .kReg, n => n < 8
  | .aSrc, n => n < 32 && n ≠ 29
  | .aDst, n => n < 32 && n ≠ 28
  | .adDst, n => (n < 32 && n ≠ 28) || n == 64 || n == 65
  | .apDst, n => n == 32 || (decide (40 ≤ n) && n < 44)
  | .vqDst, n => decide (67 ≤ n) && n ≤ 70
  | .vqSrc, n => n == 71 || n == 72
  | .sdSrc, n => (n < 32 && n ≠ 29) || n == 66
  | .group, n => n == 8 || n == 16

/-- The width in bits of an element type (R132); 0 for an undefined code. -/
def etWidth : Nat → Nat
  | 0 | 4 => 8
  | 1 | 5 | 9 | 10 => 16
  | 2 | 6 | 8 => 32
  | _ => 0

/-- Is the code a defined element type (R132)? -/
def etDefined (et : Nat) : Bool := etWidth et ≠ 0
/-- The number of elements of a vector of the type (R132). -/
def etCount (et : Nat) : Nat := 8192 / etWidth et
/-- Signed integer type (R132). -/
def etSigned (et : Nat) : Bool := et == 0 || et == 1 || et == 2
/-- Floating-point type (R132). -/
def etFloat (et : Nat) : Bool := et == 8 || et == 9 || et == 10

/-- ET of a vector modifier is one of the codes (R133). -/
def etIn (m : BitVec 17) (l : List Nat) : Bool := l.contains (fld m 0 4)
/-- Accepts I (R132). -/
def intEt (m : BitVec 17) : Bool := etIn m [0, 1, 2, 4, 5, 6]
/-- Accepts F (R132). -/
def fltEt (m : BitVec 17) : Bool := etIn m [8, 9, 10]
/-- Accepts I and F (R132). -/
def anyEt (m : BitVec 17) : Bool := etDefined (fld m 0 4)
/-- The OPX bits from `lo` up are zero (R133). -/
def opx (m : BitVec 17) (lo : Nat) : Bool := fld m lo (17 - lo) == 0

/-- Modifier of SHL, SHR, SAR, ROTR and ASHL (R109). -/
def shiftMod (m : BitVec 17) : Bool := fld m 7 10 == 0 && (fld m 6 1 == 1 || fld m 0 6 == 0)
/-- POS + W ≤ 64 (R110). -/
def fieldFits (m : BitVec 17) : Bool := fld m 0 6 + (fld m 6 6 + 1) ≤ 64
/-- Modifier of VCVT (R154). -/
def cvtMod (m : BitVec 17) : Bool :=
  let t := fld m 0 4
  let f := fld m 8 4
  let ok := fun e => [2, 6, 8, 9, 10, 1, 5].contains e
  ok t && ok f && (etFloat t || etFloat f) && opx m 15 && (etWidth t ≠ etWidth f || fld m 14 1 == 0)
/-- Modifier of VCVT8 (R155). -/
def cvt8Mod (m : BitVec 17) : Bool :=
  fltEt m && opx m 15 && fld m 13 2 ≤ (if fld m 0 4 = 8 then 3 else 1)
    && (fld m 8 1 == 0 || (fld m 10 2 == 0 && fld m 12 1 == 0))
/-- The largest element part of an MX format code of VMXQ (R156). -/
def mxParts (fmt : Nat) : Nat := if fmt = 0 then 7 else 3
/-- Modifier of VMXQ (R156). -/
def mxqMod (m : BitVec 17) : Bool :=
  etIn m [8] && fld m 4 4 == 0 && opx m 15 && (fld m 10 1 == 1 || fld m 11 4 ≤ mxParts (fld m 8 2))
/-- Immediate of VMOVI (R162). -/
def vmoviMod (i : BitVec 38) : Bool :=
  etDefined (fld i 34 4) && fld i 32 2 == 0 && fld i 0 32 < 2 ^ etWidth (fld i 34 4)
/-- Window fields of LD and ST: CH must be 0 when V = 0, FE must be 0 when V = 1 (R193). -/
def windowMod (m : BitVec 17) : Bool := if fld m 16 1 = 1 then fld m 10 1 == 0 else fld m 14 2 == 0
/-- Modifier of LDACQ and STREL: no FE, a defined scope, scope 0 in the scratchpad (R193, R199). -/
def orderedMod (m : BitVec 17) : Bool := windowMod m && fld m 10 1 == 0 && fld m 7 3 ≤ 4 && (fld m 16 1 == 1 || fld m 7 3 == 0)
/-- Sizes and scope of AMO, CAS and RED (R203). -/
def atomicMod (m : BitVec 17) : Bool :=
  let opc := fld m 13 4
  let sz := fld m 11 2
  fld m 0 4 == 0 && fld m 6 3 ≤ 4 && opc ≤ 12 &&
    (if opc ≤ 8 then sz == 2 || sz == 3 else if opc = 10 then sz == 1 else sz == 2)
/-- Modifier of VRED (R206). -/
def vredMod (m : BitVec 17) : Bool :=
  let opc := fld m 13 4
  let et := fld m 9 4
  fld m 0 4 == 0 && fld m 4 3 ≤ 4 &&
    ((opc ≤ 7 && [0, 1, 2, 4, 5, 6].contains et) || (opc == 9 && et == 8) || (opc == 10 && et == 10))
/-- FMT and KN of MMA and MLAT (R166). -/
def mmaFmt (em : BitVec 17) : Bool :=
  let fmt := fld em 13 4
  let kn := fld em 8 5
  if [1, 7, 8, 0xA, 0xB, 0xC].contains fmt then kn ≤ 15
  else if fmt = 5 ∨ fmt = 6 then kn ≤ 7
  else fmt == 9

/-- The operand types and raw values of an instruction's register fields, in field order; a device step has none. -/
def Instr.fields : Instr → List (FieldTy × Nat)
  | .add o => [(.sDst, o.d.toNat), (.sSrc, o.s1.toNat), (.sSrc, o.s2.toNat), (.none, o.s3.toNat)]
  | .sub o => [(.sDst, o.d.toNat), (.sSrc, o.s1.toNat), (.sSrc, o.s2.toNat), (.none, o.s3.toNat)]
  | .mul o => [(.sDst, o.d.toNat), (.sSrc, o.s1.toNat), (.sSrc, o.s2.toNat), (.none, o.s3.toNat)]
  | .mulh o => [(.sDst, o.d.toNat), (.sSrc, o.s1.toNat), (.sSrc, o.s2.toNat), (.none, o.s3.toNat)]
  | .mulhn o => [(.sDst, o.d.toNat), (.sSrc, o.s1.toNat), (.sSrc, o.s2.toNat), (.none, o.s3.toNat)]
  | .div o => [(.sDst, o.d.toNat), (.sSrc, o.s1.toNat), (.sSrc, o.s2.toNat), (.none, o.s3.toNat)]
  | .divn o => [(.sDst, o.d.toNat), (.sSrc, o.s1.toNat), (.sSrc, o.s2.toNat), (.none, o.s3.toNat)]
  | .rem o => [(.sDst, o.d.toNat), (.sSrc, o.s1.toNat), (.sSrc, o.s2.toNat), (.none, o.s3.toNat)]
  | .remn o => [(.sDst, o.d.toNat), (.sSrc, o.s1.toNat), (.sSrc, o.s2.toNat), (.none, o.s3.toNat)]
  | .andS o => [(.sDst, o.d.toNat), (.sSrc, o.s1.toNat), (.sSrc, o.s2.toNat), (.none, o.s3.toNat)]
  | .orS o => [(.sDst, o.d.toNat), (.sSrc, o.s1.toNat), (.sSrc, o.s2.toNat), (.none, o.s3.toNat)]
  | .xorS o => [(.sDst, o.d.toNat), (.sSrc, o.s1.toNat), (.sSrc, o.s2.toNat), (.none, o.s3.toNat)]
  | .andn o => [(.sDst, o.d.toNat), (.sSrc, o.s1.toNat), (.sSrc, o.s2.toNat), (.none, o.s3.toNat)]
  | .shl o => [(.sDst, o.d.toNat), (.sSrc, o.s1.toNat), ((if fld o.m 6 1 = 1 then .none else .sSrc), o.s2.toNat), (.none, o.s3.toNat)]
  | .shr o => [(.sDst, o.d.toNat), (.sSrc, o.s1.toNat), ((if fld o.m 6 1 = 1 then .none else .sSrc), o.s2.toNat), (.none, o.s3.toNat)]
  | .sar o => [(.sDst, o.d.toNat), (.sSrc, o.s1.toNat), ((if fld o.m 6 1 = 1 then .none else .sSrc), o.s2.toNat), (.none, o.s3.toNat)]
  | .rotr o => [(.sDst, o.d.toNat), (.sSrc, o.s1.toNat), ((if fld o.m 6 1 = 1 then .none else .sSrc), o.s2.toNat), (.none, o.s3.toNat)]
  | .minS o => [(.sDst, o.d.toNat), (.sSrc, o.s1.toNat), (.sSrc, o.s2.toNat), (.none, o.s3.toNat)]
  | .maxS o => [(.sDst, o.d.toNat), (.sSrc, o.s1.toNat), (.sSrc, o.s2.toNat), (.none, o.s3.toNat)]
  | .minn o => [(.sDst, o.d.toNat), (.sSrc, o.s1.toNat), (.sSrc, o.s2.toNat), (.none, o.s3.toNat)]
  | .maxn o => [(.sDst, o.d.toNat), (.sSrc, o.s1.toNat), (.sSrc, o.s2.toNat), (.none, o.s3.toNat)]
  | .clz o => [(.sDst, o.d.toNat), (.sSrc, o.s1.toNat), (.none, o.s2.toNat), (.none, o.s3.toNat)]
  | .ctz o => [(.sDst, o.d.toNat), (.sSrc, o.s1.toNat), (.none, o.s2.toNat), (.none, o.s3.toNat)]
  | .popc o => [(.sDst, o.d.toNat), (.sSrc, o.s1.toNat), (.none, o.s2.toNat), (.none, o.s3.toNat)]
  | .sext o => [(.sDst, o.d.toNat), (.sSrc, o.s1.toNat), (.none, o.s2.toNat), (.none, o.s3.toNat)]
  | .zext o => [(.sDst, o.d.toNat), (.sSrc, o.s1.toNat), (.none, o.s2.toNat), (.none, o.s3.toNat)]
  | .bfx o => [(.sDst, o.d.toNat), (.sSrc, o.s1.toNat), (.none, o.s2.toNat), (.none, o.s3.toNat)]
  | .bfi o => [(.sDst, o.d.toNat), (.sSrc, o.s1.toNat), (.sSrc, o.s2.toNat), (.none, o.s3.toNat)]
  | .sel o => [(.sDst, o.d.toNat), (.sSrc, o.s1.toNat), (.sSrc, o.s2.toNat), (.pSrc, o.s3.toNat)]
  | .addi o => [(.sDst, o.d.toNat), (.sSrc, o.s1.toNat)]
  | .cmpi o => [(.pDst, o.d.toNat), (.sSrc, o.s1.toNat)]
  | .movi o => [(.sDst, o.d.toNat)]
  | .movhi o => [(.sDstSrc, o.d.toNat)]
  | .cmp o => [(.pDst, o.d.toNat), (.sSrc, o.s1.toNat), (.sSrc, o.s2.toNat), (.none, o.s3.toNat)]
  | .plog o => [(.pDst, o.d.toNat), (.pSrc, o.s1.toNat), (.pSrc, o.s2.toNat), (.none, o.s3.toNat)]
  | .ptst o => [(.pDst, o.d.toNat), (.sSrc, o.s1.toNat), (.none, o.s2.toNat), (.none, o.s3.toNat)]
  | .fadds o => [(.sDst, o.d.toNat), (.sSrc, o.s1.toNat), (.sSrc, o.s2.toNat), (.none, o.s3.toNat)]
  | .fmuls o => [(.sDst, o.d.toNat), (.sSrc, o.s1.toNat), (.sSrc, o.s2.toNat), (.none, o.s3.toNat)]
  | .fmas o => [(.sDst, o.d.toNat), (.sSrc, o.s1.toNat), (.sSrc, o.s2.toNat), (.sSrc, o.s3.toNat)]
  | .fcmps o => [(.pDst, o.d.toNat), (.sSrc, o.s1.toNat), (.sSrc, o.s2.toNat), (.none, o.s3.toNat)]
  | .fcvts o => [(.sDst, o.d.toNat), (.sSrc, o.s1.toNat), (.none, o.s2.toNat), (.none, o.s3.toNat)]
  | .fmms o => [(.sDst, o.d.toNat), (.sSrc, o.s1.toNat), (.sSrc, o.s2.toNat), (.none, o.s3.toNat)]
  | .bri o => [(.none, o.link.toNat)]
  | .br o => [(.sDst, o.d.toNat), (.sSrc, o.s1.toNat), (.none, o.s2.toNat), (.none, o.s3.toNat)]
  | .call o => [(.sDst, o.link.toNat)]
  | .ret o => [(.none, o.d.toNat), (.sSrc, o.s1.toNat), (.none, o.s2.toNat), (.none, o.s3.toNat)]
  | .trap o => [(.none, o.d.toNat), (.none, o.s1.toNat), (.none, o.s2.toNat), (.none, o.s3.toNat)]
  | .eret o => [(.none, o.d.toNat), (.none, o.s1.toNat), (.none, o.s2.toNat), (.none, o.s3.toNat)]
  | .sysr o => [(.sDst, o.d.toNat), (.none, o.s1.toNat)]
  | .sysw o => [(.none, o.d.toNat), (.sSrc, o.s1.toNat)]
  | .brk o => [(.none, o.d.toNat), (.none, o.s1.toNat), (.none, o.s2.toNat), (.none, o.s3.toNat)]
  | .loopm o => [(.none, o.d.toNat), (.sSrc, o.s1.toNat), (.none, o.s2.toNat), (.none, o.s3.toNat)]
  | .lbrk o => [(.none, o.d.toNat), (.none, o.s1.toNat), (.none, o.s2.toNat), (.none, o.s3.toNat)]
  | .spawn o => [(.sDst, o.d.toNat), (.sSrc, o.s1.toNat), (.bBase, o.s2.toNat), (.none, o.s3.toNat)]
  | .susp o => [(.none, o.d.toNat), (.sSrc, o.s1.toNat), (.bBase, o.s2.toNat), (.none, o.s3.toNat)]
  | .steal o => [(.none, o.d.toNat), (.sSrc, o.s1.toNat), (.none, o.s2.toNat), (.none, o.s3.toNat)]
  | .launchMsg o => [(.none, o.d.toNat), (.sSrc, o.s1.toNat), (.none, o.s2.toNat), (.none, o.s3.toNat)]
  | .bend o => [(.none, o.d.toNat), (.none, o.s1.toNat), (.none, o.s2.toNat), (.none, o.s3.toNat)]
  | .qsend o => [(.none, o.d.toNat), (.sSrc, o.s1.toNat), (.sSrc, o.s2.toNat), (.none, o.s3.toNat)]
  | .evpost o => [(.none, o.d.toNat), (.sSrc, o.s1.toNat), (.sSrc, o.s2.toNat), (.none, o.s3.toNat)]
  | .bstat o => [(.sDst, o.d.toNat), (.sSrc, o.s1.toNat), (.none, o.s2.toNat), (.none, o.s3.toNat)]
  | .sgbeg o => [(.none, o.d.toNat), (.none, o.s1.toNat), (.none, o.s2.toNat), (.none, o.s3.toNat)]
  | .sgend o => [(.none, o.d.toNat), (.none, o.s1.toNat), (.none, o.s2.toNat), (.none, o.s3.toNat)]
  | .sginv o => [(.none, o.d.toNat), (.none, o.s1.toNat), (.none, o.s2.toNat), (.none, o.s3.toNat)]
  | .sgcfg o => [(.pDst, o.d.toNat), (.sSrc, o.s1.toNat), (.none, o.s2.toNat), (.none, o.s3.toNat)]
  | .vadd o => [(.vDst, o.d.toNat), (.vSrc, o.s1.toNat), (.vSrc, o.s2.toNat), (.none, o.s3.toNat)]
  | .vsub o => [(.vDst, o.d.toNat), (.vSrc, o.s1.toNat), (.vSrc, o.s2.toNat), (.none, o.s3.toNat)]
  | .vmul o => [(.vDst, o.d.toNat), (.vSrc, o.s1.toNat), (.vSrc, o.s2.toNat), (.none, o.s3.toNat)]
  | .vmulh o => [(.vDst, o.d.toNat), (.vSrc, o.s1.toNat), (.vSrc, o.s2.toNat), (.none, o.s3.toNat)]
  | .vmac o => [(.vDstSrc, o.d.toNat), (.vSrc, o.s1.toNat), (.vSrc, o.s2.toNat), (.none, o.s3.toNat)]
  | .vdot4 o => [(.vDstSrc, o.d.toNat), (.vSrc, o.s1.toNat), (.vSrc, o.s2.toNat), (.none, o.s3.toNat)]
  | .vdot2 o => [(.vDstSrc, o.d.toNat), (.vSrc, o.s1.toNat), (.vSrc, o.s2.toNat), (.none, o.s3.toNat)]
  | .vmin o => [(.vDst, o.d.toNat), (.vSrc, o.s1.toNat), (.vSrc, o.s2.toNat), (.none, o.s3.toNat)]
  | .vmax o => [(.vDst, o.d.toNat), (.vSrc, o.s1.toNat), (.vSrc, o.s2.toNat), (.none, o.s3.toNat)]
  | .vabs o => [(.vDst, o.d.toNat), (.vSrc, o.s1.toNat), (.none, o.s2.toNat), (.none, o.s3.toNat)]
  | .vshl o => [(.vDst, o.d.toNat), (.vSrc, o.s1.toNat), ((if fld o.m 16 1 = 1 then .none else .vSrc), o.s2.toNat), (.none, o.s3.toNat)]
  | .vshr o => [(.vDst, o.d.toNat), (.vSrc, o.s1.toNat), ((if fld o.m 16 1 = 1 then .none else .vSrc), o.s2.toNat), (.none, o.s3.toNat)]
  | .vsar o => [(.vDst, o.d.toNat), (.vSrc, o.s1.toNat), ((if fld o.m 16 1 = 1 then .none else .vSrc), o.s2.toNat), (.none, o.s3.toNat)]
  | .vand o => [(.vDst, o.d.toNat), (.vSrc, o.s1.toNat), (.vSrc, o.s2.toNat), (.none, o.s3.toNat)]
  | .vor o => [(.vDst, o.d.toNat), (.vSrc, o.s1.toNat), (.vSrc, o.s2.toNat), (.none, o.s3.toNat)]
  | .vxor o => [(.vDst, o.d.toNat), (.vSrc, o.s1.toNat), (.vSrc, o.s2.toNat), (.none, o.s3.toNat)]
  | .vsadd o => [(.vDst, o.d.toNat), (.vSrc, o.s1.toNat), (.vSrc, o.s2.toNat), (.none, o.s3.toNat)]
  | .vssub o => [(.vDst, o.d.toNat), (.vSrc, o.s1.toNat), (.vSrc, o.s2.toNat), (.none, o.s3.toNat)]
  | .vrshr o => [(.vDst, o.d.toNat), (.vSrc, o.s1.toNat), ((if fld o.m 16 1 = 1 then .none else .vSrc), o.s2.toNat), (.none, o.s3.toNat)]
  | .vnarw o => [(.vDst, o.d.toNat), (.vSrc, o.s1.toNat), (.vSrc, o.s2.toNat), (.none, o.s3.toNat)]
  | .vwide o => [(.vDst, o.d.toNat), (.vSrc, o.s1.toNat), (.none, o.s2.toNat), (.none, o.s3.toNat)]
  | .vcmp o => [(.kReg, o.d.toNat), (.vSrc, o.s1.toNat), (.vSrc, o.s2.toNat), (.none, o.s3.toNat)]
  | .klog o => [(.kReg, o.d.toNat), (.kReg, o.s1.toNat), (.kReg, o.s2.toNat), (.none, o.s3.toNat)]
  | .kpop o => [(.vDst, o.d.toNat), (.kReg, o.s1.toNat), (.none, o.s2.toNat), (.none, o.s3.toNat)]
  | .kfst o => [(.vDst, o.d.toNat), (.kReg, o.s1.toNat), (.none, o.s2.toNat), (.none, o.s3.toNat)]
  | .kset o => [(.kReg, o.d.toNat), (.xSrc, o.s1.toNat), (.none, o.s2.toNat), (.none, o.s3.toNat)]
  | .vsel o => [(.vDst, o.d.toNat), (.vSrc, o.s1.toNat), (.vSrc, o.s2.toNat), (.none, o.s3.toNat)]
  | .vfadd o => [(.vDst, o.d.toNat), (.vSrc, o.s1.toNat), (.vSrc, o.s2.toNat), (.none, o.s3.toNat)]
  | .vfsub o => [(.vDst, o.d.toNat), (.vSrc, o.s1.toNat), (.vSrc, o.s2.toNat), (.none, o.s3.toNat)]
  | .vfmul o => [(.vDst, o.d.toNat), (.vSrc, o.s1.toNat), (.vSrc, o.s2.toNat), (.none, o.s3.toNat)]
  | .vfma o => [(.vDst, o.d.toNat), (.vSrc, o.s1.toNat), (.vSrc, o.s2.toNat), (.vSrc, o.s3.toNat)]
  | .vfmin o => [(.vDst, o.d.toNat), (.vSrc, o.s1.toNat), (.vSrc, o.s2.toNat), (.none, o.s3.toNat)]
  | .vfmax o => [(.vDst, o.d.toNat), (.vSrc, o.s1.toNat), (.vSrc, o.s2.toNat), (.none, o.s3.toNat)]
  | .vfcmp o => [(.kReg, o.d.toNat), (.vSrc, o.s1.toNat), (.vSrc, o.s2.toNat), (.none, o.s3.toNat)]
  | .vfsgn o => [(.vDst, o.d.toNat), (.vSrc, o.s1.toNat), (.vSrc, o.s2.toNat), (.none, o.s3.toNat)]
  | .vfcls o => [(.vDst, o.d.toNat), (.vSrc, o.s1.toNat), (.none, o.s2.toNat), (.none, o.s3.toNat)]
  | .vxdot o => [(.vDst, o.d.toNat), (.vSrc, o.s1.toNat), (.vSrc, o.s2.toNat), ((if fld o.m 0 4 = 7 ∨ fld o.m 0 4 = 8 then .none else .vSrc), o.s3.toNat)]
  | .vxadd o => [(.vDst, o.d.toNat), (.vSrc, o.s1.toNat), (.vSrc, o.s2.toNat), (.none, o.s3.toNat)]
  | .vsum o => [(.vDst, o.d.toNat), (.vSrc, o.s1.toNat), (.none, o.s2.toNat), (.none, o.s3.toNat)]
  | .vscan o => [(.vDst, o.d.toNat), (.vSrc, o.s1.toNat), (.none, o.s2.toNat), (.none, o.s3.toNat)]
  | .vcvt o => [(.vDst, o.d.toNat), (.vSrc, o.s1.toNat), (.none, o.s2.toNat), (.none, o.s3.toNat)]
  | .vcvt8 o => [(.vDst, o.d.toNat), (.vSrc, o.s1.toNat), (.none, o.s2.toNat), (.none, o.s3.toNat)]
  | .vmxq o => [(.vDstSrc, o.d.toNat), (.vSrc, o.s1.toNat), (.none, o.s2.toNat), (.none, o.s3.toNat)]
  | .vmxdq o => [(.vDst, o.d.toNat), (.vSrc, o.s1.toNat), (.vSrc, o.s2.toNat), (.none, o.s3.toNat)]
  | .vexp o => [(.vDst, o.d.toNat), (.vSrc, o.s1.toNat), (.none, o.s2.toNat), (.none, o.s3.toNat)]
  | .vpack o => [(.vDst, o.d.toNat), (.vSrc, o.s1.toNat), (.vSrc, o.s2.toNat), (.none, o.s3.toNat)]
  | .vunpk o => [(.vDst, o.d.toNat), (.vSrc, o.s1.toNat), (.none, o.s2.toNat), (.none, o.s3.toNat)]
  | .vperm o => [(.vDst, o.d.toNat), (.vSrc, o.s1.toNat), (.vSrc, o.s2.toNat), (.none, o.s3.toNat)]
  | .vshuf o => [(.vDst, o.d.toNat), (.vSrc, o.s1.toNat), (.vSrc, o.s2.toNat), (.none, o.s3.toNat)]
  | .vslide o => [(.vDst, o.d.toNat), (.vSrc, o.s1.toNat), (.vSrc, o.s2.toNat), (.xSrc, o.s3.toNat)]
  | .vbcst o => [(.vDst, o.d.toNat), (.vSrc, o.s1.toNat), (.xSrc, o.s2.toNat), (.none, o.s3.toNat)]
  | .vextr o => [(.vDst, o.d.toNat), (.vSrc, o.s1.toNat), (.xSrc, o.s2.toNat), (.none, o.s3.toNat)]
  | .vins o => [(.vDstSrc, o.d.toNat), (.xSrc, o.s1.toNat), (.xSrc, o.s2.toNat), (.none, o.s3.toNat)]
  | .vmov o => [(.vDst, o.d.toNat), (.vSrc, o.s1.toNat), (.none, o.s2.toNat), (.none, o.s3.toNat)]
  | .vmovi o => [(.vDst, o.d.toNat)]
  | .swr o => [(.none, o.d.toNat), (.vSrc, o.s1.toNat), (.none, o.s2.toNat), (.none, o.s3.toNat)]
  | .srd o => [(.vDst, o.d.toNat), (.none, o.s1.toNat), (.none, o.s2.toNat), (.none, o.s3.toNat)]
  | .scnt o => [(.vDst, o.d.toNat), (.none, o.s1.toNat), (.none, o.s2.toNat), (.none, o.s3.toNat)]
  | .aadd o => [(.aDst, o.d.toNat), (.aSrc, o.s1.toNat), (.aSrc, o.s2.toNat), (.none, o.s3.toNat)]
  | .asub o => [(.aDst, o.d.toNat), (.aSrc, o.s1.toNat), (.aSrc, o.s2.toNat), (.none, o.s3.toNat)]
  | .aaddi o => [(.aDst, o.d.toNat), (.aSrc, o.s1.toNat)]
  | .ashl o => [(.aDst, o.d.toNat), (.aSrc, o.s1.toNat), ((if fld o.m 6 1 = 1 then .none else .aSrc), o.s2.toNat), (.none, o.s3.toNat)]
  | .amul o => [(.aDst, o.d.toNat), (.aSrc, o.s1.toNat), (.aSrc, o.s2.toNat), (.none, o.s3.toNat)]
  | .aand o => [(.aDst, o.d.toNat), (.aSrc, o.s1.toNat), (.aSrc, o.s2.toNat), (.none, o.s3.toNat)]
  | .amin o => [(.aDst, o.d.toNat), (.aSrc, o.s1.toNat), (.aSrc, o.s2.toNat), (.none, o.s3.toNat)]
  | .acmp o => [(.apDst, o.d.toNat), (.aSrc, o.s1.toNat), (.aSrc, o.s2.toNat), (.none, o.s3.toNat)]
  | .amovi o => [(.aDst, o.d.toNat)]
  | .ld o => [(.adDst, o.d.toNat), (.aSrc, o.s1.toNat), (.aSrc, o.s2.toNat), (.none, o.s3.toNat)]
  | .st o => [(.none, o.d.toNat), (.aSrc, o.s1.toNat), (.aSrc, o.s2.toNat), (.sdSrc, o.s3.toNat)]
  | .ldacq o => [(.adDst, o.d.toNat), (.aSrc, o.s1.toNat), (.aSrc, o.s2.toNat), (.none, o.s3.toNat)]
  | .strel o => [(.none, o.d.toNat), (.aSrc, o.s1.toNat), (.aSrc, o.s2.toNat), (.sdSrc, o.s3.toNat)]
  | .vld o => [(.vqDst, o.d.toNat), (.aSrc, o.s1.toNat), (.aSrc, o.s2.toNat), (.none, o.s3.toNat)]
  | .vlds o => [(.vqDst, o.d.toNat), (.aSrc, o.s1.toNat), (.aSrc, o.s2.toNat), (.none, o.s3.toNat)]
  | .vldx o => [(.vqDst, o.d.toNat), (.aSrc, o.s1.toNat), (.vqSrc, o.s2.toNat), (.none, o.s3.toNat)]
  | .vst o => [(.none, o.d.toNat), (.aSrc, o.s1.toNat), (.aSrc, o.s2.toNat), (.vqSrc, o.s3.toNat)]
  | .vsts o => [(.none, o.d.toNat), (.aSrc, o.s1.toNat), (.aSrc, o.s2.toNat), (.vqSrc, o.s3.toNat)]
  | .vstx o => [(.none, o.d.toNat), (.aSrc, o.s1.toNat), (.vqSrc, o.s2.toNat), (.vqSrc, o.s3.toNat)]
  | .feset o => [(.none, o.d.toNat), (.aSrc, o.s1.toNat), (.aSrc, o.s2.toNat), (.none, o.s3.toNat)]
  | .fetst o => [(.apDst, o.d.toNat), (.aSrc, o.s1.toNat), (.none, o.s2.toNat), (.none, o.s3.toNat)]
  | .amo o => [(.adDst, o.d.toNat), (.aSrc, o.s1.toNat), (.aSrc, o.s2.toNat), (.none, o.s3.toNat)]
  | .cas o => [(.adDst, o.d.toNat), (.aSrc, o.s1.toNat), (.aSrc, o.s2.toNat), (.aSrc, o.s3.toNat)]
  | .red o => [(.none, o.d.toNat), (.aSrc, o.s1.toNat), (.aSrc, o.s2.toNat), (.none, o.s3.toNat)]
  | .vred o => [(.none, o.d.toNat), (.aSrc, o.s1.toNat), (.vqSrc, o.s2.toNat), (.none, o.s3.toNat)]
  | .fence o => [(.none, o.d.toNat), (.none, o.s1.toNat), (.none, o.s2.toNat), (.none, o.s3.toNat)]
  | .qfence o => [(.none, o.d.toNat), (.none, o.s1.toNat), (.none, o.s2.toNat), (.none, o.s3.toNat)]
  | .cpy o => [(.aDst, o.tag.toNat), (.group, o.o1.toNat), (.group, o.o2.toNat), (.none, o.o3.toNat)]
  | .cpyt o => [(.aDst, o.tag.toNat), (.group, o.o1.toNat), (.group, o.o2.toNat), (.aSrc, o.o3.toNat)]
  | .cpyn o => [(.aDst, o.tag.toNat), (.group, o.o1.toNat), (.group, o.o2.toNat), (.aSrc, o.o3.toNat)]
  | .cpym o => [(.aDst, o.tag.toNat), (.group, o.o1.toNat), (.group, o.o2.toNat), (.aSrc, o.o3.toNat)]
  | .xlatq o => [(.aDst, o.d.toNat), (.aSrc, o.s1.toNat), (.none, o.s2.toNat), (.none, o.s3.toNat)]
  | .mma o => [(.aDst, o.tag.toNat), (.aSrc, o.o1.toNat), (.group, o.o2.toNat), (.aSrc, o.o3.toNat)]
  | .mlat o => [(.aDst, o.tag.toNat), (.group, o.o1.toNat), (.aSrc, o.o2.toNat), (.none, o.o3.toNat)]
  | .mcfg o => [(.aDst, o.tag.toNat), (.aSrc, o.o1.toNat), (.none, o.o2.toNat), (.none, o.o3.toNat)]
  | .sfn o => [(.aDst, o.tag.toNat), (.aSrc, o.o1.toNat), (.aSrc, o.o2.toNat), (.aSrc, o.o3.toNat)]
  | .gath o => [(.aDst, o.tag.toNat), (.group, o.o1.toNat), (.aSrc, o.o2.toNat), (.aSrc, o.o3.toNat)]
  | .scat o => [(.aDst, o.tag.toNat), (.group, o.o1.toNat), (.aSrc, o.o2.toNat), (.aSrc, o.o3.toNat)]
  | _ => []

/-- Does the instruction define its modifier value (R53, R77, R104, R132)? VUNPK takes ET 0 as VPACK does: log entry 73 (DEDUCED). -/
def Instr.modOk : Instr → Bool
  | .add o => o.m == 0
  | .sub o => o.m == 0
  | .mul o => o.m == 0
  | .mulh o => o.m == 0
  | .mulhn o => o.m == 0
  | .div o => o.m == 0
  | .divn o => o.m == 0
  | .rem o => o.m == 0
  | .remn o => o.m == 0
  | .andS o => o.m == 0
  | .orS o => o.m == 0
  | .xorS o => o.m == 0
  | .andn o => o.m == 0
  | .shl o => shiftMod o.m
  | .shr o => shiftMod o.m
  | .sar o => shiftMod o.m
  | .rotr o => shiftMod o.m
  | .minS o => o.m == 0
  | .maxS o => o.m == 0
  | .minn o => o.m == 0
  | .maxn o => o.m == 0
  | .clz o => o.m == 0
  | .ctz o => o.m == 0
  | .popc o => o.m == 0
  | .sext o => fld o.m 6 11 == 0
  | .zext o => fld o.m 6 11 == 0
  | .bfx o => fld o.m 13 4 == 0 && fieldFits o.m
  | .bfi o => fld o.m 12 5 == 0 && fieldFits o.m
  | .sel o => o.m == 0
  | .cmpi o => fld o.imm 27 4 ≤ 0xB
  | .movhi o => fld o.imm 26 12 == 0
  | .cmp o => fld o.m 4 13 == 0 && fld o.m 0 4 ≤ 0xB
  | .plog o => fld o.m 4 13 == 0
  | .ptst o => fld o.m 6 11 == 0
  | .fadds o => fld o.m 1 16 == 0
  | .fmuls o => o.m == 0
  | .fmas o => fld o.m 2 15 == 0
  | .fcmps o => fld o.m 3 14 == 0
  | .fcvts o => fld o.m 6 11 == 0 && fld o.m 2 4 ≤ 9
  | .fmms o => fld o.m 1 16 == 0
  | .bri o => o.md == 0
  | .br o => o.m == 0
  | .call o => o.md == 0
  | .ret o => o.m == 0
  | .trap o => fld o.m 16 1 == 0
  | .eret o => o.m == 0
  | .brk o => fld o.m 16 1 == 0
  | .loopm o => fld o.m 8 9 == 0
  | .lbrk o => fld o.m 1 16 == 0
  | .spawn o => fld o.m 9 8 == 0
  | .susp o => fld o.m 9 8 == 0
  | .steal o => o.m == 0
  | .launchMsg o => o.m == 0
  | .bend o => fld o.m 1 16 == 0
  | .qsend o => fld o.m 1 16 == 0
  | .bstat o => fld o.m 1 16 == 0
  | .sgbeg o => fld o.m 6 11 == 0
  | .sgend o => fld o.m 6 11 == 0
  | .sginv o => fld o.m 6 11 == 0
  | .sgcfg o => fld o.m 13 4 == 0 && fld o.m 6 4 ≤ 5 && (fld o.m 6 4 < 2 || fld o.m 10 3 == 0)
  | .vadd o => intEt o.m && opx o.m 8
  | .vsub o => intEt o.m && opx o.m 8
  | .vmul o => intEt o.m && opx o.m 8
  | .vmulh o => intEt o.m && opx o.m 8
  | .vmac o => intEt o.m && opx o.m 8
  | .vdot4 o => etIn o.m [0, 4] && opx o.m 8
  | .vdot2 o => etIn o.m [1, 5] && opx o.m 8
  | .vmin o => intEt o.m && opx o.m 8
  | .vmax o => intEt o.m && opx o.m 8
  | .vabs o => intEt o.m && opx o.m 8
  | .vshl o => intEt o.m && fld o.m 13 3 == 0 && (if fld o.m 16 1 = 1 then decide (fld o.m 8 5 < etWidth (fld o.m 0 4)) else fld o.m 8 5 == 0)
  | .vshr o => intEt o.m && fld o.m 13 3 == 0 && (if fld o.m 16 1 = 1 then decide (fld o.m 8 5 < etWidth (fld o.m 0 4)) else fld o.m 8 5 == 0)
  | .vsar o => intEt o.m && fld o.m 13 3 == 0 && (if fld o.m 16 1 = 1 then decide (fld o.m 8 5 < etWidth (fld o.m 0 4)) else fld o.m 8 5 == 0)
  | .vand o => intEt o.m && opx o.m 8
  | .vor o => intEt o.m && opx o.m 8
  | .vxor o => intEt o.m && opx o.m 8
  | .vsadd o => intEt o.m && opx o.m 8
  | .vssub o => intEt o.m && opx o.m 8
  | .vrshr o => intEt o.m && fld o.m 13 3 == 0 && (if fld o.m 16 1 = 1 then decide (fld o.m 8 5 < etWidth (fld o.m 0 4)) else fld o.m 8 5 == 0)
  | .vnarw o => etIn o.m [0, 4, 1, 5] && opx o.m 9
  | .vwide o => etIn o.m [1, 5, 2, 6] && opx o.m 9
  | .vcmp o => intEt o.m && opx o.m 12 && [0, 1, 2, 3, 4, 5, 0xA, 0xB].contains (fld o.m 8 4)
  | .klog o => fld o.m 0 8 == 0 && opx o.m 12
  | .kpop o => anyEt o.m && fld o.m 4 13 == 0
  | .kfst o => anyEt o.m && fld o.m 4 13 == 0
  | .kset o => anyEt o.m && fld o.m 4 13 == 0
  | .vsel o => anyEt o.m && fld o.m 7 1 == 0 && opx o.m 8
  | .vfadd o => fltEt o.m && opx o.m 8
  | .vfsub o => fltEt o.m && opx o.m 8
  | .vfmul o => fltEt o.m && opx o.m 8
  | .vfma o => fltEt o.m && opx o.m 10
  | .vfmin o => fltEt o.m && opx o.m 8
  | .vfmax o => fltEt o.m && opx o.m 8
  | .vfcmp o => fltEt o.m && opx o.m 11
  | .vfsgn o => fltEt o.m && opx o.m 10 && fld o.m 8 2 ≤ 2
  | .vfcls o => fltEt o.m && opx o.m 8
  | .vxdot o => opx o.m 9 && decide (7 ≤ fld o.m 0 4) && fld o.m 0 4 ≤ 0xC
  | .vxadd o => etIn o.m [8] && opx o.m 10
  | .vsum o => anyEt o.m && fld o.m 7 1 == 0 && opx o.m 12 && decide (1 ≤ fld o.m 8 4) && decide (2 ^ fld o.m 8 4 ≤ etCount (fld o.m 0 4))
  | .vscan o => anyEt o.m && opx o.m 8
  | .vcvt o => cvtMod o.m
  | .vcvt8 o => cvt8Mod o.m
  | .vmxq o => mxqMod o.m
  | .vmxdq o => etIn o.m [8] && fld o.m 10 3 ≤ mxParts (fld o.m 8 2)
  | .vexp o => etIn o.m [0] && opx o.m 14 && fld o.m 8 2 ≤ 2 && fld o.m 11 3 ≤ (if fld o.m 8 2 = 0 then 6 else 5)
  | .vpack o => etIn o.m [0] && opx o.m 8
  | .vunpk o => etIn o.m [0] && opx o.m 10
  | .vperm o => anyEt o.m && opx o.m 8
  | .vshuf o => anyEt o.m && opx o.m 10
  | .vslide o => anyEt o.m && opx o.m 8
  | .vbcst o => anyEt o.m && opx o.m 8
  | .vextr o => anyEt o.m && opx o.m 8
  | .vins o => anyEt o.m && opx o.m 8
  | .vmov o => anyEt o.m && opx o.m 8
  | .vmovi o => vmoviMod o.imm
  | .swr o => etIn o.m [2, 6, 8] && fld o.m 7 1 == 0 && opx o.m 12
  | .srd o => etIn o.m [2, 6, 8] && fld o.m 4 4 == 0 && opx o.m 13
  | .scnt o => fld o.m 0 7 == 0 && opx o.m 12
  | .aadd o => o.m == 0
  | .asub o => o.m == 0
  | .ashl o => shiftMod o.m
  | .amul o => o.m == 0
  | .aand o => o.m == 0
  | .amin o => o.m == 0
  | .acmp o => fld o.m 4 13 == 0 && fld o.m 0 4 ≤ 0xB
  | .ld o => windowMod o.m && fld o.m 7 3 == 0
  | .st o => windowMod o.m && fld o.m 7 3 == 0 && fld o.m 11 1 == 0
  | .ldacq o => orderedMod o.m
  | .strel o => orderedMod o.m && fld o.m 11 1 == 0
  | .vld o => fld o.m 0 9 == 0 && etDefined (fld o.m 10 4) && (if fld o.m 16 1 = 1 then fld o.m 9 1 == 0 else fld o.m 14 2 == 0)
  | .vlds o => fld o.m 0 9 == 0 && etDefined (fld o.m 10 4) && (if fld o.m 16 1 = 1 then fld o.m 9 1 == 0 else fld o.m 14 2 == 0)
  | .vldx o => fld o.m 0 9 == 0 && etDefined (fld o.m 10 4) && (if fld o.m 16 1 = 1 then fld o.m 9 1 == 0 else fld o.m 14 2 == 0)
  | .vst o => fld o.m 0 9 == 0 && etDefined (fld o.m 10 4) && (if fld o.m 16 1 = 1 then fld o.m 9 1 == 0 else fld o.m 14 2 == 0)
  | .vsts o => fld o.m 0 9 == 0 && etDefined (fld o.m 10 4) && (if fld o.m 16 1 = 1 then fld o.m 9 1 == 0 else fld o.m 14 2 == 0)
  | .vstx o => fld o.m 0 9 == 0 && etDefined (fld o.m 10 4) && (if fld o.m 16 1 = 1 then fld o.m 9 1 == 0 else fld o.m 14 2 == 0)
  | .feset o => fld o.m 1 16 == 0
  | .fetst o => o.m == 0
  | .amo o => atomicMod o.m && (fld o.m 13 4 ≤ 10 || fld o.m 13 4 == 12)
  | .cas o => fld o.m 13 4 == 0 && atomicMod o.m
  | .red o => atomicMod o.m && fld o.m 13 4 ≠ 8 && fld o.m 13 4 ≤ 11 && fld o.m 4 1 == 0
  | .vred o => vredMod o.m
  | .fence o => fld o.m 5 12 == 0 && fld o.m 0 3 ≤ 4 && (fld o.m 3 2 ≠ 3 || fld o.m 0 3 == 0)
  | .qfence o => fld o.m 8 9 == 0 && fld o.m 0 7 ≠ 0
  | .cpy o => fld o.em 5 12 == 0 && fld o.em 0 3 == 0
  | .cpyt o => fld o.em 5 12 == 0 && fld o.em 0 3 == 0
  | .cpyn o => fld o.em 5 12 == 0 && fld o.em 0 3 == 0
  | .cpym o => fld o.em 5 12 == 0 && fld o.em 0 3 == 0
  | .xlatq o => o.m == 0
  | .mma o => mmaFmt o.em && fld o.em 0 2 == 0 && (fld o.em 5 1 == 0 || fld o.em 6 2 == 0)
  | .mlat o => mmaFmt o.em && fld o.em 0 3 == 0 && fld o.em 5 1 == 0
  | .mcfg o => fld o.em 5 12 == 0 && fld o.em 0 4 == 0
  | .sfn o => fld o.em 13 4 ≤ 8 && fld o.em 4 9 == 0 && fld o.em 0 3 == 0
  | .gath o => fld o.em 4 13 == 0 && fld o.em 0 3 == 0
  | .scat o => fld o.em 4 13 == 0 && fld o.em 0 3 == 0
  | _ => true

/-- The latency in stream cycles of the instruction's result (R106, R137, R189, R222); 1 where the tables give 1 or no result. -/
def Instr.latency : Instr → Nat
  | .mul _ => 3
  | .mulh _ => 3
  | .mulhn _ => 3
  | .fcvts _ => 3
  | .amul _ => 3
  | .xlatq _ => 3
  | .div _ => 18
  | .divn _ => 18
  | .rem _ => 18
  | .remn _ => 18
  | .fcmps _ => 2
  | .fmms _ => 2
  | .sysr _ => 2
  | .bstat _ => 2
  | .fadds _ => 4
  | .fmuls _ => 4
  | .fmas _ => 4
  | .vadd _ => 2
  | .vsub _ => 2
  | .vmin _ => 2
  | .vmax _ => 2
  | .vabs _ => 2
  | .vshl _ => 2
  | .vshr _ => 2
  | .vsar _ => 2
  | .vand _ => 2
  | .vor _ => 2
  | .vxor _ => 2
  | .vsadd _ => 2
  | .vssub _ => 2
  | .vrshr _ => 2
  | .vnarw _ => 2
  | .vwide _ => 2
  | .vcmp _ => 2
  | .vsel _ => 2
  | .vfmin _ => 2
  | .vfmax _ => 2
  | .vfcmp _ => 2
  | .vfsgn _ => 2
  | .vfcls _ => 2
  | .vmov _ => 2
  | .vmovi _ => 2
  | .scnt _ => 2
  | .vmul _ => 3
  | .vmulh _ => 3
  | .vmac _ => 3
  | .vdot4 _ => 3
  | .vdot2 _ => 3
  | .vcvt _ => 3
  | .vcvt8 _ => 3
  | .vmxdq _ => 3
  | .vexp _ => 3
  | .vpack _ => 3
  | .vunpk _ => 3
  | .vperm _ => 3
  | .vshuf _ => 3
  | .vslide _ => 3
  | .vbcst _ => 3
  | .vextr _ => 3
  | .vins _ => 3
  | .srd _ => 3
  | .vfadd _ => 4
  | .vfsub _ => 4
  | .vfmul _ => 4
  | .vfma _ => 4
  | .vxadd _ => 4
  | .vxdot _ => 5
  | .vmxq _ => 5
  | .vsum _ => 6
  | .vscan _ => 8
  | .ld _ => 8
  | .ldacq _ => 8
  | .fetst _ => 8
  | .vld _ => 8
  | .vlds _ => 8
  | .vldx _ => 8
  | _ => 1

/-- The guard of a slot instruction; a device step has none. -/
def Instr.guard? : Instr → Option Guard
  | .add o => some o.guard
  | .sub o => some o.guard
  | .mul o => some o.guard
  | .mulh o => some o.guard
  | .mulhn o => some o.guard
  | .div o => some o.guard
  | .divn o => some o.guard
  | .rem o => some o.guard
  | .remn o => some o.guard
  | .andS o => some o.guard
  | .orS o => some o.guard
  | .xorS o => some o.guard
  | .andn o => some o.guard
  | .shl o => some o.guard
  | .shr o => some o.guard
  | .sar o => some o.guard
  | .rotr o => some o.guard
  | .minS o => some o.guard
  | .maxS o => some o.guard
  | .minn o => some o.guard
  | .maxn o => some o.guard
  | .clz o => some o.guard
  | .ctz o => some o.guard
  | .popc o => some o.guard
  | .sext o => some o.guard
  | .zext o => some o.guard
  | .bfx o => some o.guard
  | .bfi o => some o.guard
  | .sel o => some o.guard
  | .addi o => some o.guard
  | .cmpi o => some o.guard
  | .movi o => some o.guard
  | .movhi o => some o.guard
  | .cmp o => some o.guard
  | .plog o => some o.guard
  | .ptst o => some o.guard
  | .fadds o => some o.guard
  | .fmuls o => some o.guard
  | .fmas o => some o.guard
  | .fcmps o => some o.guard
  | .fcvts o => some o.guard
  | .fmms o => some o.guard
  | .bri o => some o.guard
  | .br o => some o.guard
  | .call o => some o.guard
  | .ret o => some o.guard
  | .trap o => some o.guard
  | .eret o => some o.guard
  | .sysr o => some o.guard
  | .sysw o => some o.guard
  | .brk o => some o.guard
  | .loopm o => some o.guard
  | .lbrk o => some o.guard
  | .spawn o => some o.guard
  | .susp o => some o.guard
  | .steal o => some o.guard
  | .launchMsg o => some o.guard
  | .bend o => some o.guard
  | .qsend o => some o.guard
  | .evpost o => some o.guard
  | .bstat o => some o.guard
  | .sgbeg o => some o.guard
  | .sgend o => some o.guard
  | .sginv o => some o.guard
  | .sgcfg o => some o.guard
  | .vadd o => some o.guard
  | .vsub o => some o.guard
  | .vmul o => some o.guard
  | .vmulh o => some o.guard
  | .vmac o => some o.guard
  | .vdot4 o => some o.guard
  | .vdot2 o => some o.guard
  | .vmin o => some o.guard
  | .vmax o => some o.guard
  | .vabs o => some o.guard
  | .vshl o => some o.guard
  | .vshr o => some o.guard
  | .vsar o => some o.guard
  | .vand o => some o.guard
  | .vor o => some o.guard
  | .vxor o => some o.guard
  | .vsadd o => some o.guard
  | .vssub o => some o.guard
  | .vrshr o => some o.guard
  | .vnarw o => some o.guard
  | .vwide o => some o.guard
  | .vcmp o => some o.guard
  | .klog o => some o.guard
  | .kpop o => some o.guard
  | .kfst o => some o.guard
  | .kset o => some o.guard
  | .vsel o => some o.guard
  | .vfadd o => some o.guard
  | .vfsub o => some o.guard
  | .vfmul o => some o.guard
  | .vfma o => some o.guard
  | .vfmin o => some o.guard
  | .vfmax o => some o.guard
  | .vfcmp o => some o.guard
  | .vfsgn o => some o.guard
  | .vfcls o => some o.guard
  | .vxdot o => some o.guard
  | .vxadd o => some o.guard
  | .vsum o => some o.guard
  | .vscan o => some o.guard
  | .vcvt o => some o.guard
  | .vcvt8 o => some o.guard
  | .vmxq o => some o.guard
  | .vmxdq o => some o.guard
  | .vexp o => some o.guard
  | .vpack o => some o.guard
  | .vunpk o => some o.guard
  | .vperm o => some o.guard
  | .vshuf o => some o.guard
  | .vslide o => some o.guard
  | .vbcst o => some o.guard
  | .vextr o => some o.guard
  | .vins o => some o.guard
  | .vmov o => some o.guard
  | .vmovi o => some o.guard
  | .swr o => some o.guard
  | .srd o => some o.guard
  | .scnt o => some o.guard
  | .aadd o => some o.guard
  | .asub o => some o.guard
  | .aaddi o => some o.guard
  | .ashl o => some o.guard
  | .amul o => some o.guard
  | .aand o => some o.guard
  | .amin o => some o.guard
  | .acmp o => some o.guard
  | .amovi o => some o.guard
  | .ld o => some o.guard
  | .st o => some o.guard
  | .ldacq o => some o.guard
  | .strel o => some o.guard
  | .vld o => some o.guard
  | .vlds o => some o.guard
  | .vldx o => some o.guard
  | .vst o => some o.guard
  | .vsts o => some o.guard
  | .vstx o => some o.guard
  | .feset o => some o.guard
  | .fetst o => some o.guard
  | .amo o => some o.guard
  | .cas o => some o.guard
  | .red o => some o.guard
  | .vred o => some o.guard
  | .fence o => some o.guard
  | .qfence o => some o.guard
  | .cpy o => some o.guard
  | .cpyt o => some o.guard
  | .cpyn o => some o.guard
  | .cpym o => some o.guard
  | .xlatq o => some o.guard
  | .mma o => some o.guard
  | .mlat o => some o.guard
  | .mcfg o => some o.guard
  | .sfn o => some o.guard
  | .gath o => some o.guard
  | .scat o => some o.guard
  | .hint _ o => some o.guard
  | _ => none

/-- Every body field that the instruction leaves unused is zero (R48, R104). -/
def Instr.unusedZero (i : Instr) : Bool := i.fields.all fun (t, n) => t ≠ .none || n == 0

end Sys2Proof
end

