-- ==== Sys2Proof/WellFormed.lean ====
section
/-! DEFINITION. Sys2Proof/WellFormed.lean: which instructions are well formed: a slot instruction whose syllable the decoder
accepts (spec/03 R48), a device step whose units the package has (spec/00 R1, spec/01 R22). -/

namespace Sys2Proof

/-- G = 0 with N = 1 is the empty slot's code, so no slot instruction carries it (R48). -/
def Guard.ok (g : Guard) : Bool := !(g.pred == 0 && g.neg)

/-- A core of the package (R22). -/
def coreOk (c : Nat) : Bool := c < numCores
/-- An engine queue code (R236). -/
def queueOk (q : Nat) : Bool := q < 7

/-- The units that a device step names exist. -/
def Instr.unitsOk : Instr → Bool
  | .streamPartIssue c _ | .stallCountExpiry c _ | .resultLands c _ | .offCoreLoadReturn c _ | .scratchpadAccessPoint c
  | .trapEntry c | .segmentClose c | .rendezvous c | .sideLogReplay c _ | .benchCycleSteal c _ | .sfnStep c | .gatherStep c
  | .surrogateInvocation c | .eventEntry c _ | .messageArrival c | .stealAnswer c | .remoteAtomicRequest c _
  | .requestResend c _ | .entryStart c | .contextSave c | .faultRequest c _ _ | .invalidate c _ => coreOk c
  | .operationStart c q | .stepBoundary c q | .copyStep c q | .copyPerformed c q | .resultSignatureCompare c q _ =>
    coreOk c && queueOk q
  | .mmaClaim c q | .mmaStep c q | .mmaWriteBack c q | .mlatPerform c q => coreOk c && q < 2
  | .fieldArbitration cl _ | .fieldmaskRemove cl _ => cl < numClusters
  | .signatureCompare c _ => coreOk c && c % 2 == 0
  | .contextCreate a r | .rankWrite a r => 1 ≤ a && a ≤ 4095 && r ≤ 7
  | .contextDestroy a | .hostEventPost a | .teardown a | .registerHostEventArea a _ _ _ _ | .moveToDevice a _ _
  | .moveToHost a _ _ _ | .duplicate a _ _ _ | .unmap a _ _ | .declareUnresolvable a _ | .hostFaultRequest a _ _
  | .moduleLoad a _ _ _ | .registerPublicKeys a _ => 1 ≤ a && a ≤ 4095
  | .registerCoreSetHandle a _ l => 1 ≤ a && a ≤ 4095 && l.all coreOk
  | .launchMessage a _ l => 1 ≤ a && a ≤ 4095 && l.length == 8
  | .slotTableWrite d i _ => d < 4 && i < 64
  | .dieFabricArbitration d _ _ => d < 4
  | .hbmSectorRead _ k _ _ _ | .hbmSectorWrite _ k _ _ _ => k ≤ 15
  | .stackLost n => n < numStacks
  | .keyWrite k _ _ => 1 ≤ k && k ≤ 15
  | .retentionEntry u | .retentionExit u =>
    match u with
    | .bank c b => coreOk c && b < 16
    | .overhead cl a => cl < numClusters && a < 8
  | _ => true

/-- An instruction is well formed when its guard is not the empty slot's, its unused fields are zero and the units it
names exist. Log entry 5 (DESIGN CHOICE). -/
def Instr.wellFormed (i : Instr) : Bool :=
  (match i.guard? with | some g => g.ok | none => true) && i.unusedZero && i.unitsOk

end Sys2Proof
end

