-- ==== Sys2Proof/Decode.lean ====
section
/-! DEFINITION. Sys2Proof/Decode.lean: the decoder of syllables and syllable words (spec/03 R48-R57, spec/04 R71-R76), total
on any bits, rejecting by name, and after it the encoder written from the same tables. -/

namespace Sys2Proof

/-- The three slot classes, each with its own opcode space (R71). -/
inductive SlotClass where
  | control
  | vector
  | memory
  deriving DecidableEq, Repr, Inhabited

/-- The class of slot 0 to 5: ctl0, ctl1, vec0, vec1, mem0, mem1 (R46). -/
def slotClass (slot : Nat) : SlotClass := if slot < 2 then .control else if slot < 4 then .vector else .memory

/-- Why a syllable is no instruction (R48, R71). -/
inductive DecodeError where
  /-- The empty slot, G = 0 with N = 1 and bits [54:0] zero: no defect. -/
  | emptySlot
  /-- The empty slot's guard with a nonzero bit in [54:0]. -/
  | malformedEmpty
  /-- An OP that the slot's class does not assign. -/
  | unassigned
  /-- A nonzero bit in a body field that the instruction leaves unused. -/
  | unusedBits
  deriving DecidableEq, Repr, Inhabited

/-- The guard of a syllable (R48). -/
def guardOf (y : Syllable) : Guard := ⟨y.extractLsb' 56 4, y.getLsbD 55⟩
/-- The opcode field [54:45] (R48). -/
def opOf (y : Syllable) : Nat := (y.extractLsb' 45 10).toNat
/-- The body of format A3 (R50). -/
def a3Of (y : Syllable) : A3 :=
  ⟨guardOf y, y.extractLsb' 38 7, y.extractLsb' 31 7, y.extractLsb' 24 7, y.extractLsb' 17 7, y.extractLsb' 0 17⟩
/-- The body of format AI (R50). -/
def aiOf (y : Syllable) : AI := ⟨guardOf y, y.extractLsb' 38 7, y.extractLsb' 31 7, y.extractLsb' 0 31⟩
/-- The body of format WI (R50). -/
def wiOf (y : Syllable) : WI := ⟨guardOf y, y.extractLsb' 38 7, y.extractLsb' 0 38⟩
/-- The body of format BR (R50). -/
def brOf (y : Syllable) : BrF := ⟨guardOf y, y.extractLsb' 38 7, y.extractLsb' 6 32, y.extractLsb' 0 6⟩
/-- The body of format EN (R50). -/
def enOf (y : Syllable) : EN :=
  ⟨guardOf y, y.extractLsb' 38 7, y.extractLsb' 31 7, y.extractLsb' 24 7, y.extractLsb' 17 7, y.extractLsb' 0 17⟩

/-- The control space (R72); 0x3C0 to 0x3FF are the hints (R76). -/
def controlOf (y : Syllable) : Option Instr :=
  match opOf y with
  | 0x010 => some (.add (a3Of y))
  | 0x011 => some (.sub (a3Of y))
  | 0x012 => some (.mul (a3Of y))
  | 0x013 => some (.mulh (a3Of y))
  | 0x014 => some (.mulhn (a3Of y))
  | 0x015 => some (.div (a3Of y))
  | 0x016 => some (.divn (a3Of y))
  | 0x017 => some (.rem (a3Of y))
  | 0x018 => some (.remn (a3Of y))
  | 0x019 => some (.andS (a3Of y))
  | 0x01A => some (.orS (a3Of y))
  | 0x01B => some (.xorS (a3Of y))
  | 0x01C => some (.andn (a3Of y))
  | 0x01D => some (.shl (a3Of y))
  | 0x01E => some (.shr (a3Of y))
  | 0x01F => some (.sar (a3Of y))
  | 0x020 => some (.rotr (a3Of y))
  | 0x021 => some (.minS (a3Of y))
  | 0x022 => some (.maxS (a3Of y))
  | 0x023 => some (.minn (a3Of y))
  | 0x024 => some (.maxn (a3Of y))
  | 0x025 => some (.clz (a3Of y))
  | 0x026 => some (.ctz (a3Of y))
  | 0x027 => some (.popc (a3Of y))
  | 0x028 => some (.sext (a3Of y))
  | 0x029 => some (.zext (a3Of y))
  | 0x02A => some (.bfx (a3Of y))
  | 0x02B => some (.bfi (a3Of y))
  | 0x02C => some (.sel (a3Of y))
  | 0x030 => some (.addi (aiOf y))
  | 0x031 => some (.cmpi (aiOf y))
  | 0x038 => some (.movi (wiOf y))
  | 0x039 => some (.movhi (wiOf y))
  | 0x040 => some (.cmp (a3Of y))
  | 0x041 => some (.plog (a3Of y))
  | 0x042 => some (.ptst (a3Of y))
  | 0x050 => some (.fadds (a3Of y))
  | 0x051 => some (.fmuls (a3Of y))
  | 0x052 => some (.fmas (a3Of y))
  | 0x053 => some (.fcmps (a3Of y))
  | 0x054 => some (.fcvts (a3Of y))
  | 0x055 => some (.fmms (a3Of y))
  | 0x060 => some (.bri (brOf y))
  | 0x061 => some (.br (a3Of y))
  | 0x062 => some (.call (brOf y))
  | 0x063 => some (.ret (a3Of y))
  | 0x070 => some (.trap (a3Of y))
  | 0x071 => some (.eret (a3Of y))
  | 0x072 => some (.sysr (aiOf y))
  | 0x073 => some (.sysw (aiOf y))
  | 0x074 => some (.brk (a3Of y))
  | 0x075 => some (.loopm (a3Of y))
  | 0x076 => some (.lbrk (a3Of y))
  | 0x078 => some (.spawn (a3Of y))
  | 0x079 => some (.susp (a3Of y))
  | 0x07A => some (.steal (a3Of y))
  | 0x07B => some (.launchMsg (a3Of y))
  | 0x07C => some (.bend (a3Of y))
  | 0x07D => some (.qsend (a3Of y))
  | 0x07E => some (.evpost (a3Of y))
  | 0x07F => some (.bstat (a3Of y))
  | 0x080 => some (.sgbeg (a3Of y))
  | 0x081 => some (.sgend (a3Of y))
  | 0x082 => some (.sginv (a3Of y))
  | 0x083 => some (.sgcfg (a3Of y))
  | n => if 0x3C0 ≤ n then some (.hint (BitVec.ofNat 6 (n - 0x3C0)) (wiOf y)) else none

/-- The vector space (R73). -/
def vectorOf (y : Syllable) : Option Instr :=
  match opOf y with
  | 0x010 => some (.vadd (a3Of y))
  | 0x011 => some (.vsub (a3Of y))
  | 0x012 => some (.vmul (a3Of y))
  | 0x013 => some (.vmulh (a3Of y))
  | 0x014 => some (.vmac (a3Of y))
  | 0x015 => some (.vdot4 (a3Of y))
  | 0x016 => some (.vdot2 (a3Of y))
  | 0x017 => some (.vmin (a3Of y))
  | 0x018 => some (.vmax (a3Of y))
  | 0x019 => some (.vabs (a3Of y))
  | 0x01A => some (.vshl (a3Of y))
  | 0x01B => some (.vshr (a3Of y))
  | 0x01C => some (.vsar (a3Of y))
  | 0x01D => some (.vand (a3Of y))
  | 0x01E => some (.vor (a3Of y))
  | 0x01F => some (.vxor (a3Of y))
  | 0x020 => some (.vsadd (a3Of y))
  | 0x021 => some (.vssub (a3Of y))
  | 0x022 => some (.vrshr (a3Of y))
  | 0x023 => some (.vnarw (a3Of y))
  | 0x024 => some (.vwide (a3Of y))
  | 0x030 => some (.vcmp (a3Of y))
  | 0x031 => some (.klog (a3Of y))
  | 0x032 => some (.kpop (a3Of y))
  | 0x033 => some (.kfst (a3Of y))
  | 0x034 => some (.kset (a3Of y))
  | 0x035 => some (.vsel (a3Of y))
  | 0x040 => some (.vfadd (a3Of y))
  | 0x041 => some (.vfsub (a3Of y))
  | 0x042 => some (.vfmul (a3Of y))
  | 0x043 => some (.vfma (a3Of y))
  | 0x044 => some (.vfmin (a3Of y))
  | 0x045 => some (.vfmax (a3Of y))
  | 0x046 => some (.vfcmp (a3Of y))
  | 0x047 => some (.vfsgn (a3Of y))
  | 0x048 => some (.vfcls (a3Of y))
  | 0x050 => some (.vxdot (a3Of y))
  | 0x051 => some (.vxadd (a3Of y))
  | 0x058 => some (.vsum (a3Of y))
  | 0x059 => some (.vscan (a3Of y))
  | 0x060 => some (.vcvt (a3Of y))
  | 0x061 => some (.vcvt8 (a3Of y))
  | 0x062 => some (.vmxq (a3Of y))
  | 0x063 => some (.vmxdq (a3Of y))
  | 0x064 => some (.vexp (a3Of y))
  | 0x065 => some (.vpack (a3Of y))
  | 0x066 => some (.vunpk (a3Of y))
  | 0x070 => some (.vperm (a3Of y))
  | 0x071 => some (.vshuf (a3Of y))
  | 0x072 => some (.vslide (a3Of y))
  | 0x073 => some (.vbcst (a3Of y))
  | 0x074 => some (.vextr (a3Of y))
  | 0x075 => some (.vins (a3Of y))
  | 0x076 => some (.vmov (a3Of y))
  | 0x077 => some (.vmovi (wiOf y))
  | 0x080 => some (.swr (a3Of y))
  | 0x081 => some (.srd (a3Of y))
  | 0x082 => some (.scnt (a3Of y))
  | _ => none

/-- The memory space (R75). -/
def memoryOf (y : Syllable) : Option Instr :=
  match opOf y with
  | 0x010 => some (.aadd (a3Of y))
  | 0x011 => some (.asub (a3Of y))
  | 0x012 => some (.aaddi (aiOf y))
  | 0x013 => some (.ashl (a3Of y))
  | 0x014 => some (.amul (a3Of y))
  | 0x015 => some (.aand (a3Of y))
  | 0x016 => some (.amin (a3Of y))
  | 0x017 => some (.acmp (a3Of y))
  | 0x018 => some (.amovi (wiOf y))
  | 0x020 => some (.ld (a3Of y))
  | 0x021 => some (.st (a3Of y))
  | 0x022 => some (.ldacq (a3Of y))
  | 0x023 => some (.strel (a3Of y))
  | 0x024 => some (.vld (a3Of y))
  | 0x025 => some (.vlds (a3Of y))
  | 0x026 => some (.vldx (a3Of y))
  | 0x027 => some (.vst (a3Of y))
  | 0x028 => some (.vsts (a3Of y))
  | 0x029 => some (.vstx (a3Of y))
  | 0x030 => some (.feset (a3Of y))
  | 0x031 => some (.fetst (a3Of y))
  | 0x038 => some (.amo (a3Of y))
  | 0x039 => some (.cas (a3Of y))
  | 0x03A => some (.red (a3Of y))
  | 0x03B => some (.vred (a3Of y))
  | 0x040 => some (.fence (a3Of y))
  | 0x041 => some (.qfence (a3Of y))
  | 0x048 => some (.cpy (enOf y))
  | 0x049 => some (.cpyt (enOf y))
  | 0x04A => some (.cpyn (enOf y))
  | 0x04B => some (.cpym (enOf y))
  | 0x050 => some (.xlatq (a3Of y))
  | 0x058 => some (.mma (enOf y))
  | 0x059 => some (.mlat (enOf y))
  | 0x05A => some (.mcfg (enOf y))
  | 0x05B => some (.sfn (enOf y))
  | 0x05C => some (.gath (enOf y))
  | 0x05D => some (.scat (enOf y))
  | _ => none

/-- The instruction that the class assigns to the syllable's opcode (R71). -/
def assigned (c : SlotClass) (y : Syllable) : Option Instr :=
  match c with
  | .control => controlOf y
  | .vector => vectorOf y
  | .memory => memoryOf y

/-- Decode a syllable in a slot of the class (R48, R71, R77 in the row order of its first traps). -/
def decode (c : SlotClass) (y : Syllable) : Except DecodeError Instr :=
  if (guardOf y).ok = false then
    if y.extractLsb' 0 55 = 0 then .error .emptySlot else .error .malformedEmpty
  else
    match assigned c y with
    | none => .error .unassigned
    | some i => if i.unusedZero then .ok i else .error .unusedBits

/-- The slot number of a syllable word (R56). -/
def wordSlot (w : W64) : Nat := (w.extractLsb' 60 3).toNat
/-- STOP of a syllable word (R56). -/
def wordStop (w : W64) : Bool := w.getLsbD 63
/-- The syllable of a syllable word (R56). -/
def wordSyllable (w : W64) : Syllable := w.extractLsb' 0 60

/-- Decode a syllable word: the slot number names the class (R56, R57). -/
def decodeWord (w : W64) : Except DecodeError Instr :=
  if wordSlot w > 5 then .error .unassigned else decode (slotClass (wordSlot w)) (wordSyllable w)

/-- A byte read from a list, 0 beyond its end. -/
def byteAt (l : List Byte) (i : Nat) : Byte := (l[i]?).getD 0

/-- The little-endian number of the first `n` bytes (R26). -/
def leNat (l : List Byte) : Nat → Nat
  | 0 => 0
  | n + 1 => leNat l n + (byteAt l n).toNat * 256 ^ n

/-- The `n` little-endian bytes of a number (R26). -/
def leBytes (x : Nat) : Nat → List Byte
  | 0 => []
  | n + 1 => BitVec.ofNat 8 x :: leBytes (x / 256) n

/-- The instruction read from one syllable word laid out as bytes, little-endian (R54, R56), with the bits above `nbits` zero. The opcode
table gives its rows no bits; the word is the 64-bit syllable word of the literal encoding. -/
def decodeTableWord (nbits w : Nat) : Option Instr :=
  match decodeWord (BitVec.ofNat 64 (leNat (leBytes (w % 2 ^ nbits) 8) 8)) with
  | .ok i => some i
  | .error _ => none

/-- The guard bits of a syllable. -/
def encGuard (g : Guard) : BitVec 5 := g.pred ++ BitVec.ofBool g.neg
/-- Encode format A3 (R50). -/
def encA3 (op : BitVec 10) (o : A3) : Syllable := encGuard o.guard ++ op ++ o.d ++ o.s1 ++ o.s2 ++ o.s3 ++ o.m
/-- Encode format AI (R50). -/
def encAI (op : BitVec 10) (o : AI) : Syllable := encGuard o.guard ++ op ++ o.d ++ o.s1 ++ o.imm
/-- Encode format WI (R50). -/
def encWI (op : BitVec 10) (o : WI) : Syllable := encGuard o.guard ++ op ++ o.d ++ o.imm
/-- Encode format BR (R50). -/
def encBR (op : BitVec 10) (o : BrF) : Syllable := encGuard o.guard ++ op ++ o.link ++ o.off ++ o.md
/-- Encode format EN (R50). -/
def encEN (op : BitVec 10) (o : EN) : Syllable := encGuard o.guard ++ op ++ o.tag ++ o.o1 ++ o.o2 ++ o.o3 ++ o.em

/-- Encode a slot instruction: its class and syllable (R72, R73, R75, R76); a device step has no encoding. -/
def encode : Instr → Option (SlotClass × Syllable)
  | .add o => some (.control, encA3 0x010 o)
  | .sub o => some (.control, encA3 0x011 o)
  | .mul o => some (.control, encA3 0x012 o)
  | .mulh o => some (.control, encA3 0x013 o)
  | .mulhn o => some (.control, encA3 0x014 o)
  | .div o => some (.control, encA3 0x015 o)
  | .divn o => some (.control, encA3 0x016 o)
  | .rem o => some (.control, encA3 0x017 o)
  | .remn o => some (.control, encA3 0x018 o)
  | .andS o => some (.control, encA3 0x019 o)
  | .orS o => some (.control, encA3 0x01A o)
  | .xorS o => some (.control, encA3 0x01B o)
  | .andn o => some (.control, encA3 0x01C o)
  | .shl o => some (.control, encA3 0x01D o)
  | .shr o => some (.control, encA3 0x01E o)
  | .sar o => some (.control, encA3 0x01F o)
  | .rotr o => some (.control, encA3 0x020 o)
  | .minS o => some (.control, encA3 0x021 o)
  | .maxS o => some (.control, encA3 0x022 o)
  | .minn o => some (.control, encA3 0x023 o)
  | .maxn o => some (.control, encA3 0x024 o)
  | .clz o => some (.control, encA3 0x025 o)
  | .ctz o => some (.control, encA3 0x026 o)
  | .popc o => some (.control, encA3 0x027 o)
  | .sext o => some (.control, encA3 0x028 o)
  | .zext o => some (.control, encA3 0x029 o)
  | .bfx o => some (.control, encA3 0x02A o)
  | .bfi o => some (.control, encA3 0x02B o)
  | .sel o => some (.control, encA3 0x02C o)
  | .addi o => some (.control, encAI 0x030 o)
  | .cmpi o => some (.control, encAI 0x031 o)
  | .movi o => some (.control, encWI 0x038 o)
  | .movhi o => some (.control, encWI 0x039 o)
  | .cmp o => some (.control, encA3 0x040 o)
  | .plog o => some (.control, encA3 0x041 o)
  | .ptst o => some (.control, encA3 0x042 o)
  | .fadds o => some (.control, encA3 0x050 o)
  | .fmuls o => some (.control, encA3 0x051 o)
  | .fmas o => some (.control, encA3 0x052 o)
  | .fcmps o => some (.control, encA3 0x053 o)
  | .fcvts o => some (.control, encA3 0x054 o)
  | .fmms o => some (.control, encA3 0x055 o)
  | .bri o => some (.control, encBR 0x060 o)
  | .br o => some (.control, encA3 0x061 o)
  | .call o => some (.control, encBR 0x062 o)
  | .ret o => some (.control, encA3 0x063 o)
  | .trap o => some (.control, encA3 0x070 o)
  | .eret o => some (.control, encA3 0x071 o)
  | .sysr o => some (.control, encAI 0x072 o)
  | .sysw o => some (.control, encAI 0x073 o)
  | .brk o => some (.control, encA3 0x074 o)
  | .loopm o => some (.control, encA3 0x075 o)
  | .lbrk o => some (.control, encA3 0x076 o)
  | .spawn o => some (.control, encA3 0x078 o)
  | .susp o => some (.control, encA3 0x079 o)
  | .steal o => some (.control, encA3 0x07A o)
  | .launchMsg o => some (.control, encA3 0x07B o)
  | .bend o => some (.control, encA3 0x07C o)
  | .qsend o => some (.control, encA3 0x07D o)
  | .evpost o => some (.control, encA3 0x07E o)
  | .bstat o => some (.control, encA3 0x07F o)
  | .sgbeg o => some (.control, encA3 0x080 o)
  | .sgend o => some (.control, encA3 0x081 o)
  | .sginv o => some (.control, encA3 0x082 o)
  | .sgcfg o => some (.control, encA3 0x083 o)
  | .hint n o => some (.control, encWI (0x3C0 + n.setWidth 10) o)
  | .vadd o => some (.vector, encA3 0x010 o)
  | .vsub o => some (.vector, encA3 0x011 o)
  | .vmul o => some (.vector, encA3 0x012 o)
  | .vmulh o => some (.vector, encA3 0x013 o)
  | .vmac o => some (.vector, encA3 0x014 o)
  | .vdot4 o => some (.vector, encA3 0x015 o)
  | .vdot2 o => some (.vector, encA3 0x016 o)
  | .vmin o => some (.vector, encA3 0x017 o)
  | .vmax o => some (.vector, encA3 0x018 o)
  | .vabs o => some (.vector, encA3 0x019 o)
  | .vshl o => some (.vector, encA3 0x01A o)
  | .vshr o => some (.vector, encA3 0x01B o)
  | .vsar o => some (.vector, encA3 0x01C o)
  | .vand o => some (.vector, encA3 0x01D o)
  | .vor o => some (.vector, encA3 0x01E o)
  | .vxor o => some (.vector, encA3 0x01F o)
  | .vsadd o => some (.vector, encA3 0x020 o)
  | .vssub o => some (.vector, encA3 0x021 o)
  | .vrshr o => some (.vector, encA3 0x022 o)
  | .vnarw o => some (.vector, encA3 0x023 o)
  | .vwide o => some (.vector, encA3 0x024 o)
  | .vcmp o => some (.vector, encA3 0x030 o)
  | .klog o => some (.vector, encA3 0x031 o)
  | .kpop o => some (.vector, encA3 0x032 o)
  | .kfst o => some (.vector, encA3 0x033 o)
  | .kset o => some (.vector, encA3 0x034 o)
  | .vsel o => some (.vector, encA3 0x035 o)
  | .vfadd o => some (.vector, encA3 0x040 o)
  | .vfsub o => some (.vector, encA3 0x041 o)
  | .vfmul o => some (.vector, encA3 0x042 o)
  | .vfma o => some (.vector, encA3 0x043 o)
  | .vfmin o => some (.vector, encA3 0x044 o)
  | .vfmax o => some (.vector, encA3 0x045 o)
  | .vfcmp o => some (.vector, encA3 0x046 o)
  | .vfsgn o => some (.vector, encA3 0x047 o)
  | .vfcls o => some (.vector, encA3 0x048 o)
  | .vxdot o => some (.vector, encA3 0x050 o)
  | .vxadd o => some (.vector, encA3 0x051 o)
  | .vsum o => some (.vector, encA3 0x058 o)
  | .vscan o => some (.vector, encA3 0x059 o)
  | .vcvt o => some (.vector, encA3 0x060 o)
  | .vcvt8 o => some (.vector, encA3 0x061 o)
  | .vmxq o => some (.vector, encA3 0x062 o)
  | .vmxdq o => some (.vector, encA3 0x063 o)
  | .vexp o => some (.vector, encA3 0x064 o)
  | .vpack o => some (.vector, encA3 0x065 o)
  | .vunpk o => some (.vector, encA3 0x066 o)
  | .vperm o => some (.vector, encA3 0x070 o)
  | .vshuf o => some (.vector, encA3 0x071 o)
  | .vslide o => some (.vector, encA3 0x072 o)
  | .vbcst o => some (.vector, encA3 0x073 o)
  | .vextr o => some (.vector, encA3 0x074 o)
  | .vins o => some (.vector, encA3 0x075 o)
  | .vmov o => some (.vector, encA3 0x076 o)
  | .vmovi o => some (.vector, encWI 0x077 o)
  | .swr o => some (.vector, encA3 0x080 o)
  | .srd o => some (.vector, encA3 0x081 o)
  | .scnt o => some (.vector, encA3 0x082 o)
  | .aadd o => some (.memory, encA3 0x010 o)
  | .asub o => some (.memory, encA3 0x011 o)
  | .aaddi o => some (.memory, encAI 0x012 o)
  | .ashl o => some (.memory, encA3 0x013 o)
  | .amul o => some (.memory, encA3 0x014 o)
  | .aand o => some (.memory, encA3 0x015 o)
  | .amin o => some (.memory, encA3 0x016 o)
  | .acmp o => some (.memory, encA3 0x017 o)
  | .amovi o => some (.memory, encWI 0x018 o)
  | .ld o => some (.memory, encA3 0x020 o)
  | .st o => some (.memory, encA3 0x021 o)
  | .ldacq o => some (.memory, encA3 0x022 o)
  | .strel o => some (.memory, encA3 0x023 o)
  | .vld o => some (.memory, encA3 0x024 o)
  | .vlds o => some (.memory, encA3 0x025 o)
  | .vldx o => some (.memory, encA3 0x026 o)
  | .vst o => some (.memory, encA3 0x027 o)
  | .vsts o => some (.memory, encA3 0x028 o)
  | .vstx o => some (.memory, encA3 0x029 o)
  | .feset o => some (.memory, encA3 0x030 o)
  | .fetst o => some (.memory, encA3 0x031 o)
  | .amo o => some (.memory, encA3 0x038 o)
  | .cas o => some (.memory, encA3 0x039 o)
  | .red o => some (.memory, encA3 0x03A o)
  | .vred o => some (.memory, encA3 0x03B o)
  | .fence o => some (.memory, encA3 0x040 o)
  | .qfence o => some (.memory, encA3 0x041 o)
  | .cpy o => some (.memory, encEN 0x048 o)
  | .cpyt o => some (.memory, encEN 0x049 o)
  | .cpyn o => some (.memory, encEN 0x04A o)
  | .cpym o => some (.memory, encEN 0x04B o)
  | .xlatq o => some (.memory, encA3 0x050 o)
  | .mma o => some (.memory, encEN 0x058 o)
  | .mlat o => some (.memory, encEN 0x059 o)
  | .mcfg o => some (.memory, encEN 0x05A o)
  | .sfn o => some (.memory, encEN 0x05B o)
  | .gath o => some (.memory, encEN 0x05C o)
  | .scat o => some (.memory, encEN 0x05D o)
  | _ => none

end Sys2Proof
end

