-- ==== Sys2Proof/Machine/Float.lean ====
section
/-! DEFINITION. Sys2Proof/Machine/Float.lean: number formats, exact values, rounding, flags and arithmetic of spec/02
(R26 to R31, R35 to R38, R40, R41) and the floating-point helpers of spec/06 (R119 to R122). Every value is exact until the
one rounding that a rule names. -/

namespace Sys2Proof.Machine

/-- Which specials a format has (R27). -/
inductive Specials where
  | ieee
  | nanOnly
  | none
  deriving DecidableEq, Repr, Inhabited

/-- A floating-point format: exponent and mantissa widths, bias, specials (R27). -/
structure Fmt where
  ew : Nat
  mw : Nat
  bias : Nat
  special : Specials
  deriving DecidableEq, Repr, Inhabited

/-- FP32 (R27). -/
def fp32 : Fmt := ⟨8, 23, 127, .ieee⟩
/-- FP16 (R27). -/
def fp16 : Fmt := ⟨5, 10, 15, .ieee⟩
/-- BF16 (R27). -/
def bf16 : Fmt := ⟨8, 7, 127, .ieee⟩
/-- E4M3 (R27). -/
def e4m3 : Fmt := ⟨4, 3, 7, .nanOnly⟩
/-- E5M2 (R27). -/
def e5m2 : Fmt := ⟨5, 2, 15, .ieee⟩
/-- E2M1 (R27, R29). -/
def e2m1 : Fmt := ⟨2, 1, 1, .none⟩
/-- FP6 E2M3 (R34). -/
def e2m3 : Fmt := ⟨2, 3, 1, .none⟩
/-- FP6 E3M2 (R34). -/
def e3m2 : Fmt := ⟨3, 2, 3, .none⟩

/-- The bits of a code: sign, exponent, mantissa (R27). -/
def Fmt.bits (f : Fmt) : Nat := 1 + f.ew + f.mw
/-- The code of +infinity in an IEEE-like format. -/
def Fmt.infCode (f : Fmt) : Nat := (2 ^ f.ew - 1) * 2 ^ f.mw
/-- The code of the largest finite magnitude (R27). -/
def Fmt.maxCode (f : Fmt) : Nat :=
  match f.special with
  | .ieee => f.infCode - 1
  | .nanOnly => 2 ^ (f.ew + f.mw) - 2
  | .none => 2 ^ (f.ew + f.mw) - 1
/-- The canonical NaN (R40); a format without NaN has none and gives 0. -/
def Fmt.qnan (f : Fmt) : Nat :=
  match f.special with
  | .ieee => f.infCode + 2 ^ (f.mw - 1)
  | .nanOnly => 2 ^ (f.ew + f.mw) - 1
  | .none => 0
/-- The exponent of the smallest subnormal's unit: 1 - bias - M (R27). -/
def Fmt.minExp (f : Fmt) : Int := 1 - (f.bias : Int) - (f.mw : Int)

/-- A datum: NaN, a signed infinity, or the sign and the exact magnitude m x 2^e of a finite value, signed zeros included. -/
inductive FVal where
  | nan
  | inf (neg : Bool)
  | fin (neg : Bool) (m : Nat) (e : Int)
  deriving DecidableEq, Repr, Inhabited

/-- The value of a code (R27, R28, R29). -/
def Fmt.decode (f : Fmt) (code : Nat) : FVal :=
  let neg := code / 2 ^ (f.ew + f.mw) % 2 == 1
  let ex := code / 2 ^ f.mw % 2 ^ f.ew
  let ma := code % 2 ^ f.mw
  if f.special = .ieee ∧ ex = 2 ^ f.ew - 1 then
    if ma = 0 then .inf neg else .nan
  else if f.special = .nanOnly ∧ ex = 2 ^ f.ew - 1 ∧ ma = 2 ^ f.mw - 1 then .nan
  else if ex = 0 then .fin neg ma f.minExp
  else .fin neg (2 ^ f.mw + ma) (f.minExp + (ex - 1 : Nat))

/-- Is it a NaN? -/
def FVal.isNan : FVal → Bool
  | .nan => true
  | _ => false
/-- Is it an infinity? -/
def FVal.isInf : FVal → Bool
  | .inf _ => true
  | _ => false
/-- Is it a zero of either sign? -/
def FVal.isZero : FVal → Bool
  | .fin _ 0 _ => true
  | _ => false
/-- The sign of a number; the sign of a NaN is never read. -/
def FVal.neg? : FVal → Bool
  | .nan => false
  | .inf n => n
  | .fin n _ _ => n
/-- The value with its sign inverted. -/
def FVal.negate : FVal → FVal
  | .nan => .nan
  | .inf n => .inf (!n)
  | .fin n m e => .fin (!n) m e

/-- Rounding modes (R35). -/
inductive RMode where
  | rne | rtz | rup | rdn
  deriving DecidableEq, Repr, Inhabited

/-- The mode of a 2-bit code (R35). -/
def RMode.ofCode : Nat → RMode
  | 0 => .rne
  | 1 => .rtz
  | 2 => .rup
  | _ => .rdn

/-- The flag bits of R20: NV 16, DZ 8, OF 4, UF 2, NX 1. -/
def flagNV : BitVec 5 := 16
/-- DZ (R20). -/
def flagDZ : BitVec 5 := 8
/-- OF (R20). -/
def flagOF : BitVec 5 := 4
/-- UF (R20). -/
def flagUF : BitVec 5 := 2
/-- NX (R20). -/
def flagNX : BitVec 5 := 1

/-- An exact magnitude is cut at a unit: quotient, and whether the rest is below, at or above half a unit, and whether it is zero. -/
structure Cut where
  q : Nat
  below : Bool
  half : Bool
  exact : Bool
  deriving DecidableEq, Repr, Inhabited

/-- Cut m x 2^e, plus a tail below every bit of m when `sticky`, at the unit 2^u. -/
def cutAt (m : Nat) (e u : Int) (sticky : Bool) : Cut :=
  if u ≤ e then ⟨m * 2 ^ (e - u).toNat, sticky, false, !sticky⟩
  else
    let d := 2 ^ (u - e).toNat
    let r := m % d
    ⟨m / d, decide (2 * r < d), 2 * r == d && !sticky, r == 0 && !sticky⟩

/-- Round a cut to a whole number of units (R35). -/
def Cut.round (c : Cut) (mode : RMode) (neg : Bool) : Nat :=
  let up : Bool :=
    if c.exact then false
    else match mode with
      | .rtz => false
      | .rup => !neg
      | .rdn => neg
      | .rne => if c.half then c.q % 2 == 1 else !c.below
  if up then c.q + 1 else c.q

/-- The exponent of the leading bit of m x 2^e. -/
def topExp (m : Nat) (e : Int) : Int := (Nat.log2 m : Int) + e

/-- What overflow delivers (R36, R37): `sat` is the SAT option; infinity where the format has one and the mode rounds to it. A format
without infinities delivers its canonical NaN in place of infinity, or its largest finite value when it has no NaN. -/
def overflowCode (f : Fmt) (mode : RMode) (neg sat : Bool) : Nat :=
  let toInf := match mode with
    | .rne => true
    | .rtz => false
    | .rup => !neg
    | .rdn => neg
  if sat || !toInf then f.maxCode
  else match f.special with
    | .ieee => f.infCode
    | .nanOnly => f.qnan
    | .none => f.maxCode

/-- A code with its sign; the canonical NaN takes none. -/
def signCode (f : Fmt) (neg : Bool) (mag : Nat) : Nat :=
  if neg ∧ (f.special ≠ .nanOnly ∨ mag ≠ f.qnan) then 2 ^ (f.ew + f.mw) + mag else mag

/-- Round the magnitude m x 2^e (plus a tail when `sticky`) with the given sign to the format (R35 to R37, R41). -/
def roundMag (f : Fmt) (mode : RMode) (sat : Bool) (neg : Bool) (m : Nat) (e : Int) (sticky : Bool := false) : Nat × BitVec 5 :=
  if m = 0 ∧ sticky = false then (signCode f neg 0, 0)
  else
    let t := topExp m e - (f.mw : Int)
    let u := max t f.minExp
    let c := cutAt m e u sticky
    let r := c.round mode neg
    let mag := (u - f.minExp).toNat * 2 ^ f.mw + r
    if f.maxCode < mag then (signCode f neg (overflowCode f mode neg sat), flagOF ||| flagNX)
    else
      let free := (cutAt m e t sticky).round mode neg
      let tiny := decide (topExp free t < f.minExp + (f.mw : Int)) || m == 0
      let fl := (if c.exact then 0 else flagNX) ||| (if tiny && !c.exact then flagUF else 0)
      (signCode f neg mag, fl)

/-- Round an exact signed value n x 2^e; an exact zero is +0. -/
def roundInt (f : Fmt) (mode : RMode) (sat : Bool) (n e : Int) : Nat × BitVec 5 :=
  roundMag f mode sat (decide (n < 0)) n.natAbs e

/-- The signed mantissa of a finite value at exponent `e`, which must not be above its own. -/
def FVal.atExp (v : FVal) (e : Int) : Int :=
  match v with
  | .fin n m e' => (if n then -1 else 1) * (m * 2 ^ (e' - e).toNat : Nat)
  | _ => 0
/-- The exponent of a finite value. -/
def FVal.exp? : FVal → Int
  | .fin _ _ e => e
  | _ => 0

/-- The exact product of two numbers neither of which is NaN and which are not 0 and infinity. -/
def FVal.mul (a b : FVal) : FVal :=
  match a, b with
  | .nan, _ | _, .nan => .nan
  | .inf n, x | x, .inf n => .inf (n != x.neg?)
  | .fin n m e, .fin n' m' e' => .fin (n != n') (m * m') (e + e')

/-- 0 x infinity (R41, R119). -/
def productInvalid (a b : FVal) : Bool := (a.isInf && b.isZero) || (a.isZero && b.isInf)

/-- The exact sum of two finite values, as a value whose zero has the sign of IEEE 754 under RNE (R119). -/
def FVal.addFin (a b : FVal) : FVal :=
  let e := min a.exp? b.exp?
  let n := a.atExp e + b.atExp e
  if n = 0 then .fin (a.neg? && b.neg?) 0 e else .fin (decide (n < 0)) n.natAbs e

/-- Round a value to a format (R36, R37, R40); a NaN gives the canonical NaN, an infinity stays one where the format has it. -/
def roundVal (f : Fmt) (mode : RMode) (sat : Bool) : FVal → Nat × BitVec 5
  | .nan => (f.qnan, 0)
  | .inf n =>
    if sat then (signCode f n f.maxCode, flagOF ||| flagNX)
    else match f.special with
      | .ieee => (signCode f n f.infCode, 0)
      | .nanOnly => (f.qnan, 0)
      | .none => (signCode f n f.maxCode, flagNX)
  | .fin n m e => roundMag f mode sat n m e

/-- The sum step of fp_arith (R119): NaN, then inf - inf, then the one rounding. -/
def sumRound (f : Fmt) (p c : FVal) : Nat × BitVec 5 :=
  if p.isNan || c.isNan then (f.qnan, 0)
  else if p.isInf && c.isInf && p.neg? != c.neg? then (f.qnan, flagNV)
  else if p.isInf then roundVal f .rne false p
  else if c.isInf then roundVal f .rne false c
  else roundVal f .rne false (p.addFin c)

/-- a + b (R119, R146). -/
def fAdd (f : Fmt) (a b : Nat) : Nat × BitVec 5 := sumRound f (f.decode a) (f.decode b)
/-- a - b (R119, R146). -/
def fSub (f : Fmt) (a b : Nat) : Nat × BitVec 5 := sumRound f (f.decode a) (f.decode b).negate
/-- a x b (R119, R146). -/
def fMul (f : Fmt) (a b : Nat) : Nat × BitVec 5 :=
  let x := f.decode a
  let y := f.decode b
  if productInvalid x y then (f.qnan, flagNV) else roundVal f .rne false (x.mul y)
/-- (±a x b) + (±c), fused (R119, R146). -/
def fFma (f : Fmt) (np nc : Bool) (a b c : Nat) : Nat × BitVec 5 :=
  let x := f.decode a
  let y := f.decode b
  let z := f.decode c
  if productInvalid x y then (f.qnan, flagNV)
  else
    let p := x.mul y
    sumRound f (if np then p.negate else p) (if nc then z.negate else z)

/-- Order of two numbers that are not NaN: -0 and +0 are equal. -/
def FVal.lt (a b : FVal) : Bool :=
  match a, b with
  | .nan, _ | _, .nan => false
  | .inf n, .inf n' => n && !n'
  | .inf n, _ => n
  | _, .inf n => !n
  | .fin _ _ _, .fin _ _ _ =>
    let e := min a.exp? b.exp?
    decide (a.atExp e < b.atExp e)
/-- Equality of two numbers that are not NaN. -/
def FVal.eqv (a b : FVal) : Bool := !a.isNan && !b.isNan && !a.lt b && !b.lt a

/-- The comparison table of FCMPS and VFCMP (R120); no flag. -/
def fCompare (f : Fmt) (cond a b : Nat) : Bool :=
  let x := f.decode a
  let y := f.decode b
  let un := x.isNan || y.isNan
  match cond with
  | 0 => !un && x.eqv y
  | 1 => un || !x.eqv y
  | 2 => !un && x.lt y
  | 3 => !un && !y.lt x
  | 4 => !un && y.lt x
  | 5 => !un && !x.lt y
  | 6 => un
  | _ => !un

/-- FMMS, VFMIN, VFMAX (R121): -0 below +0, one NaN passes the other operand bit for bit. -/
def fMinMax (f : Fmt) (mx : Bool) (a b : Nat) : Nat :=
  let x := f.decode a
  let y := f.decode b
  if x.isNan && y.isNan then f.qnan
  else if x.isNan then b
  else if y.isNan then a
  else
    let less := x.lt y || (x.isZero && y.isZero && x.neg? && !y.neg?)
    let more := y.lt x || (x.isZero && y.isZero && y.neg? && !x.neg?)
    if mx then (if less then b else a) else (if more then b else a)

/-- Float to integer (R38): bounds `lo` and `hi`, nearest bound outside, 0 for a NaN, both with NV only. -/
def fToInt (mode : RMode) (lo hi : Int) : FVal → Int × BitVec 5
  | .nan => (0, flagNV)
  | .inf n => (if n then lo else hi, flagNV)
  | .fin n m e =>
    let c := cutAt m e 0 false
    let r : Int := c.round mode n
    let x := if n then -r else r
    if x < lo then (lo, flagNV) else if hi < x then (hi, flagNV)
    else (x, if c.exact then 0 else flagNX)

/-- The bounds of an integer of `w` bits (R26). -/
def intLo (w : Nat) (signed : Bool) : Int := if signed then -(2 ^ (w - 1) : Nat) else 0
/-- The upper bound (R26). -/
def intHi (w : Nat) (signed : Bool) : Int := if signed then (2 ^ (w - 1) : Nat) - 1 else (2 ^ w : Nat) - 1

/-- Read `w` bits as an integer (R26). -/
def toInt (w : Nat) (signed : Bool) (x : Nat) : Int :=
  if signed ∧ 2 ^ (w - 1) ≤ x % 2 ^ w then (x % 2 ^ w : Nat) - (2 ^ w : Nat) else (x % 2 ^ w : Nat)
/-- The `w`-bit two's-complement code of an integer (R26). -/
def ofInt (w : Nat) (n : Int) : Nat := (n % (2 ^ w : Nat)).toNat
/-- Clamp to the range of an integer type. -/
def clampInt (w : Nat) (signed : Bool) (n : Int) : Int := max (intLo w signed) (min n (intHi w signed))

/-- Integer to float (R38). -/
def intToF (f : Fmt) (mode : RMode) (n : Int) : Nat × BitVec 5 := roundInt f mode false n 0

/-- Float to float, format to format (R36 to R38, R40). -/
def fConvert (src dst : Fmt) (mode : RMode) (sat : Bool) (x : Nat) : Nat × BitVec 5 := roundVal dst mode sat (src.decode x)

/-- The ten classes of VFCLS (R148). -/
def fClass (f : Fmt) (x : Nat) : Nat :=
  match f.decode x with
  | .nan => if x / 2 ^ (f.mw - 1) % 2 = 0 then 8 else 9
  | .inf n => if n then 0 else 7
  | .fin n m _ =>
    if m = 0 then (if n then 3 else 4)
    else if m < 2 ^ f.mw then (if n then 2 else 5)
    else (if n then 1 else 6)

/-- The value of an E8M0 scale byte: 2^(x - 127), or NaN (R30). -/
def scaleVal (x : Nat) : FVal := if x = 255 then .nan else .fin false 1 ((x : Int) - 127)

end Sys2Proof.Machine
end

