-- ==== Sys2Proof/Machine/Sparse.lean ====
section
/-! DEFINITION. Sys2Proof/Machine/Sparse.lean: sparse tables in one canonical form: keys strictly rising, and no entry equal to
what an unlisted key reads as. Memories, register files and the table of cores are such tables. -/

namespace Sys2Proof.Machine

/-- A table keyed by number. -/
abbrev Sparse (α : Type) := List (Nat × α)

/-- Read a key: `d` where it is not listed. -/
def Sparse.get {α : Type} (d : α) : Sparse α → Nat → α
  | [], _ => d
  | (k, v) :: m, n => if n = k then v else if n < k then d else Sparse.get d m n

/-- The entry for a key, put in front of entries with higher keys; writing `d` lists nothing. -/
def Sparse.put {α : Type} [DecidableEq α] (d : α) (k : Nat) (v : α) (m : Sparse α) : Sparse α :=
  if v = d then m else (k, v) :: m

/-- Write a key, keeping the canonical form. -/
def Sparse.set {α : Type} [DecidableEq α] (d : α) : Sparse α → Nat → α → Sparse α
  | [], n, v => Sparse.put d n v []
  | (k, x) :: m, n, v =>
    if n = k then Sparse.put d n v m
    else if n < k then Sparse.put d n v ((k, x) :: m)
    else (k, x) :: Sparse.set d m n v

/-- The canonical form above a bound: keys rise strictly from `lo`, no listed entry equals `d`. -/
def Sparse.wfFrom {α : Type} [DecidableEq α] (d : α) : Nat → Sparse α → Bool
  | _, [] => true
  | lo, (k, v) :: m => decide (lo ≤ k) && decide (v ≠ d) && Sparse.wfFrom d (k + 1) m

/-- The canonical form. -/
def Sparse.wf {α : Type} [DecidableEq α] (d : α) (m : Sparse α) : Bool := Sparse.wfFrom d 0 m

/-- The distinct numbers of a list, in order of first appearance. -/
def distinct (l : List Nat) : List Nat := l.foldl (fun acc x => if acc.contains x then acc else acc ++ [x]) []

end Sys2Proof.Machine
end

