-- ==== Sys2Proof/Machine/State.lean ====
section
/-! DEFINITION. Sys2Proof/Machine/State.lean: everything the spec gives the machine, as plain data, and the state after reset.
The fields cite the rules that name them. -/

namespace Sys2Proof.Machine

/-- A byte-addressed memory: (address, byte) pairs in the canonical form of Sparse, an unlisted address reading 0. -/
abbrev Memory := List Host.Cell

/-- The scalar queues of a core (R9). -/
inductive Q where
  | lq0 | lq1 | sq | xa | ax | eq | mb | iq
  deriving DecidableEq, Repr, Inhabited

/-- The vector queues of a core (R9). -/
inductive VQ where
  | vlq0 | vlq1 | vlq2 | vlq3 | vsq0 | vsq1
  deriving DecidableEq, Repr, Inhabited

/-- The register files that the scoreboard of R61 watches, and whose registers can be marked (R431). -/
inductive RFile where
  | s | p | v | k | a
  deriving DecidableEq, Repr, Inhabited

/-- An entry of a scalar queue: reserved until its value is filled (R105, R188); in MB it may be a steal request of the core
named (R231); `poison` is the mark of R431. -/
structure QEntry where
  id : Nat
  val : Option W64
  thief : Option Nat
  poison : Bool
  deriving DecidableEq, Repr, Inhabited

/-- An entry of a vector queue (R136, R188). -/
structure VEntry where
  id : Nat
  val : Option VReg
  poison : Bool
  deriving DecidableEq, Repr, Inhabited

/-- The destination of a load or of an atomic: an access register or a reserved queue entry (R188). -/
inductive Dest where
  | a (n : Nat)
  | p (n : Nat)
  | q (q : Q) (id : Nat)
  | vq (q : VQ) (id : Nat)
  | nowhere
  deriving DecidableEq, Repr, Inhabited

/-- What a result writes when it lands (R59): a register by its physical number, a queue entry by its id, a system register
(R130), the sticky STATUS.BCOL (R18), flags alone, or the mark of an uncorrectable scratchpad word (R431, R438). -/
inductive Landing where
  | s (n : Nat) (v : W64)
  | p (n : Nat) (b : Bool)
  | v (n : Nat) (x : VReg)
  | k (n : Nat) (x : KReg)
  | a (n : Nat) (v : W64)
  | q (q : Q) (id : Nat) (v : W64)
  | vq (q : VQ) (id : Nat) (x : VReg)
  | sys (n : Nat) (v : W64)
  | bcol
  | flagsOnly
  | bad (d : Dest)
  deriving DecidableEq, Repr, Inhabited

/-- A fixed-latency result in flight: what it writes, the flags it raises, the stream cycles left before it lands, and
whether a later write to the same register has been issued (R59-R62). -/
structure InFlight where
  what : Landing
  flags : BitVec 5
  left : Nat
  stale : Bool
  deriving DecidableEq, Repr, Inhabited

/-- A scratchpad access of a memory slot before its access point (R195, R196). -/
inductive AccKind where
  | ld (addr sz : Nat) (sx consume : Bool) (dest : Dest)
  | st (addr sz : Nat) (v : W64) (fill : Bool)
  | vld (et : Nat) (addrs fmts : List Nat) (consume : Bool) (dest : Dest)
  | vst (et : Nat) (addrs fmts : List Nat) (x : VReg) (fill : Bool)
  | feset (line n : Nat) (full : Bool)
  | fetst (line : Nat) (dest : Dest)
  deriving DecidableEq, Repr, Inhabited

/-- A pending scratchpad access: the stream cycles left to its access point (R195), the bundle it belongs to, its place in
program order, whether a later write to its destination has been issued (R61), whether it is a release point and so no part of what
a rewind undoes (R291, R294). -/
structure Acc where
  kind : AccKind
  left : Nat
  bundle : Nat
  seq : Nat
  stale : Bool
  released : Bool
  deriving DecidableEq, Repr, Inhabited

/-- The modulo sequencer's loop: body start, II, S, limit, pass, position in the pass (R223-R226). -/
structure Loop where
  start : W64
  ii : Nat
  stages : Nat
  limit : Nat
  pass : Nat
  pos : Nat
  deriving DecidableEq, Repr, Inhabited

/-- A bundle as fetched: WAIT, SEG, its six syllables (an absent slot is the empty slot), and the addresses that EADDR takes
for a defect of the header and of each slot (R46, R47, R56, R57, R79). -/
structure Bundle where
  wait : Nat
  seg : Nat
  reserved : Bool
  slots : List Syllable
  headAt : W64
  slotAt : List W64
  deriving DecidableEq, Repr, Inhabited

/-- A bundle whose access part has issued and whose execute part has not (R278, R281): its addresses, where the sequencer
stands with it if it is a loop body bundle, the access-side predicates that its access part read (R280), the flags that its scratchpad
accesses have raised already (R21). -/
structure Ahead where
  bundle : Bundle
  pc : W64
  next : W64
  loop : Option Loop
  preds : BitVec 16
  flags : BitVec 5
  deriving DecidableEq, Repr, Inhabited

/-- The interrupted context's pipeline and sequencer while a trap handler runs (R62, R226). -/
structure Held where
  rb : Nat
  inflX : List InFlight
  inflA : List InFlight
  cycX : Nat
  cycA : Nat
  waitX : Nat
  waitA : Nat
  loop : Option Loop
  loopOn : Bool
  deriving DecidableEq, Repr, Inhabited

/-- A fence in force: its place in program order, and what later accesses wait for (R207); an LDACQ counts as `acq` (R199). -/
structure Fence where
  seq : Nat
  acq : Bool
  rel : Bool
  full : Bool
  durable : Bool
  deriving DecidableEq, Repr, Inhabited

/-- A trap that waits for both streams to stand at its boundary (R69, R78, R192); with `post` it follows a bundle that has issued,
and EPC is where the streams go on (R125). -/
structure TrapReq where
  cause : Nat
  addr : W64
  epc : W64
  post : Bool
  deriving DecidableEq, Repr, Inhabited

/-- The state of a core that its segment checkpoint holds (R292): register files (R6), system registers (R16), queues (R9),
both streams' positions and pipelines (R58-R62, R278), sequencer (R224), fences; `turn` is the loop in the pass whose last bundle the
execute stream has issued, until what R224 does at a pass's end has been done; `marks` names the registers and `latchMarks` the words of the
latches with a poison mark (R431, R438). -/
structure Arch where
  s : Sparse W64
  a : Sparse W64
  p : BitVec 16
  v : Sparse VReg
  k : Sparse KReg
  latchE : Memory
  latchS : Memory
  qs : Sparse (List QEntry)
  vqs : Sparse (List VEntry)
  qid : Nat
  epc : W64
  ecause : Nat
  eaddr : W64
  evec : W64
  fflags : BitVec 5
  exc : Bool
  bcol : Bool
  sbchk : Bool
  bfmt : Sparse Nat
  rb : Nat
  loopOn : Bool
  loop : Option Loop
  turn : Option Loop
  pc : W64
  skip : Nat
  till : Option W64
  ahead : List Ahead
  issued : Nat
  cycX : Nat
  cycA : Nat
  waitX : Nat
  waitA : Nat
  inflX : List InFlight
  inflA : List InFlight
  accs : List Acc
  held : Option Held
  trap : Option TrapReq
  fences : List Fence
  accSeq : Nat
  marks : List (RFile × Nat)
  latchMarks : List Nat
  deriving DecidableEq, Repr, Inhabited

/-- A write on its way to memory (R197, R203, R206, R362, R369): a plain store or a vector store as its pieces in ascending element
order, a reduction, a VRED, a piece of a CPYN remainder, a CPYN enqueue. -/
inductive WriteKind where
  | store (pieces : List (Nat × List Byte))
  | red (op sz va : Nat) (v : W64)
  | vred (op et va : Nat) (bytes : List Byte)
  | pieceCpyn (va : Nat) (bytes : List Byte) (issuer queue opSeq : Nat)
  | enqueueCpyn (target issuer queue opSeq : Nat) (payload : W64)
  deriving DecidableEq, Repr, Inhabited

/-- A write of a core: its name as a request, its channel, its place in program order, its release ordering, the frame of its
instruction (R197 to R199, R260, R312). -/
structure Write where
  id : Nat
  kind : WriteKind
  ch : Nat
  seq : Nat
  rel : Bool
  frame : Nat
  deriving DecidableEq, Repr, Inhabited

/-- What an off-core request asks for (R188, R194, R200, R203, R204). -/
inductive OffKind where
  | ld (va sz : Nat) (sx : Bool)
  | vld (et : Nat) (addrs : List Nat)
  | amo (op sz va : Nat) (v : W64)
  | cas (sz va : Nat) (cmp new : W64)
  deriving DecidableEq, Repr, Inhabited

/-- An off-core request not yet returned: its channel, ordering, destination, place in program order, the bundle and slot that it
comes from, and the value, poisoned or not, once its home unit has answered. -/
structure OffReq where
  id : Nat
  kind : OffKind
  ch : Nat
  acq : Bool
  rel : Bool
  dest : Dest
  seq : Nat
  bundle : Nat
  slot : Nat
  answer : Option W64
  poison : Bool
  deriving DecidableEq, Repr, Inhabited

/-- A change of the scratchpad to be undone by a rewind: a byte's old value, a line's old full bit, or a word whose poison mark a store has
taken away (R292). -/
inductive Undo where
  | byte (addr : Nat) (old : Byte)
  | full (line : Nat) (old : Bool)
  | mark (word : Nat)
  deriving DecidableEq, Repr, Inhabited

/-- What the release point of one slot of a bundle left, delivered again after a rewind (R293, R294): the value or vector returned,
poisoned or not, the vector registers written, the jump with the argument words of the strand taken up. -/
structure Recorded where
  bundle : Nat
  slot : Nat
  value : Option W64
  poison : Bool
  vecs : List (Nat × VReg)
  jump : Option (W64 × List W64)
  deriving DecidableEq, Repr, Inhabited

/-- A continuation record (R227). -/
structure Record where
  flags : BitVec 8
  pc : W64
  args : List W64
  spawnCount : Nat
  deriving DecidableEq, Repr, Inhabited

/-- A message in an outgoing buffer (R233), or a steal request on its way (R231). -/
structure Message where
  target : Nat
  toMb : Bool
  steal : Bool
  value : W64
  deriving DecidableEq, Repr, Inhabited

/-- The engine commands (R236, R264) and the surrogate invocation of SGBEG (R240). -/
inductive OpCode where
  | mma | mlat | mcfg | cpy | cpyt | cpyn | cpym | sfn | gath | scat | surrogate
  deriving DecidableEq, Repr, Inhabited

/-- Binding states of an operation (R266). -/
inductive OpState where
  | unstarted | claiming | field | bench | migrating | parked | done
  deriving DecidableEq, Repr, Inhabited

/-- An engine operation in its queue: what it captured at issue (R172), what it waits for (R208), its binding (R266, R267), the
state that a migration moves (R270), its completion word so far (R184), the bench cycles it has had since its last step (R272), the lines that its next step has read already (R178), in doubles
its writes not yet released and those made in its core's own scratchpad, the C it claimed, its mismatches, whether its signatures have compared equal (R429); the remainder of a CPYN (R214), whether pieces of it have been placed, whether
it has been discarded (R369); the index lines that a scatter has read ahead of their step, and the table lines that it has written and
not yet set full (R220); its place among the core's
accesses, its number of steps, whether its step waits on a line, a claim or a subpage,
where it migrates to. -/
structure Op where
  code : OpCode
  queue : Nat
  seq : Nat
  order : Nat
  bundle : Nat
  em : BitVec 17
  o1 : W64
  o2 : W64
  o3 : W64
  recA : List W64
  recB : List W64
  frame : Nat
  after : List (Nat × Nat)
  state : OpState
  unit : Nat
  everField : Bool
  marked : Option (Nat × Nat)
  onField : Bool
  steps : Nat
  promo : Nat
  demo : Nat
  fieldSteps : Bool
  benchSteps : Bool
  claimed : Bool
  stepEnded : Bool
  cycles : Nat
  flags : BitVec 6
  err : Nat
  sticky9 : Bool
  next : Nat
  acc : Sparse W32
  snapE : Memory
  snapS : Memory
  fetched : List (Nat × List Byte)
  held : List (Nat × Nat × Byte)
  own : List (Nat × Nat × Byte)
  spill : List (Nat × Byte)
  remains : Bool
  dropped : Bool
  idxLines : List (Nat × List Byte)
  unfilled : List Nat
  since : Nat
  total : Nat
  blocked : Bool
  toField : Bool
  base : Sparse W32
  mismatches : Nat
  performed : Bool
  released : Bool
  deriving DecidableEq, Repr, Inhabited

/-- The status kept of a performed operation (R237). -/
structure OpStatus where
  queue : Nat
  seq : Nat
  word : BitVec 16
  low : W64
  deriving DecidableEq, Repr, Inhabited

/-- The open region of a core: region, invocation index, frame, captured inputs, surrogate outputs of a sampled invocation
(R239-R241). -/
structure OpenRegion where
  region : Nat
  index : W64
  frame : Nat
  state : Nat
  inputs : List VReg
  compare : Option (List VReg)
  deriving DecidableEq, Repr, Inhabited

/-- Whether a core runs (R284): free, waiting for its next entry, running an entry, done with its last one. -/
inductive RunState where
  | free | waiting | running | ended
  deriving DecidableEq, Repr, Inhabited

/-- How pre-emption has a core: running, asked to halt at its next boundary, its context saved (R346, R347). -/
inductive HaltState where
  | running | requested | saved
  deriving DecidableEq, Repr, Inhabited

/-- A taken branch: where the streams go on, after how many more bundles or past which bundle's address (R454), the sequencer
there, whether it starts a loop's pass 0 (R224), and the link (R65, R452). -/
structure Jump where
  target : W64
  skip : Nat
  till : Option W64
  loop : Option Loop
  loopOn : Bool
  starts : Bool
  rb : Nat
  link : Option (Nat × W64)
  deriving DecidableEq, Repr, Inhabited

/-- What an execute stream waits for behind an instruction decided after issue (R231, R240): a steal's answer, an answer that has
come and is still to be taken up, a surrogate invocation of a region, with the bundle that follows the SGBEG in sequence (R454). -/
inductive StreamWait where
  | none
  | steal (victim : Nat)
  | answered (r : Option Record)
  | invocation (region : Nat) (next : W64)
  deriving DecidableEq, Repr, Inhabited

/-- The open segment of a core (R290-R294): its checkpoint, commit buffer, undo buffer, recorded release points, the entries
that have arrived in the core's queues from outside, how often it has been rewound, the bundle at which an error was consumed, and
whether a load or atomic of it has returned an uncorrectable one, which its close will find; whether its close has let the commit buffer
go and waits for those writes to be performed (R299); whether a cause of the bundle at the opening boundary has been met by the close
there, and what the execute stream waited for there (R347). -/
structure Segment where
  checkpoint : Arch
  commit : List Write
  undo : List Undo
  recorded : List Recorded
  arrived : List (Q × QEntry)
  rewinds : Nat
  errorAt : Option Nat
  bad : Bool
  leaving : Bool
  closedFor : Bool
  wait : StreamWait
  deferred : Option Jump
  deriving DecidableEq, Repr, Inhabited

/-- A translation table entry (R355); `present` and `states` are words 2 to 4. -/
structure TEntry where
  va : Nat
  m : Nat
  valid : Bool
  pa : Nat
  key : Nat
  attr : BitVec 6
  present : BitVec 64
  states : BitVec 128
  hbase : Nat
  smeta : Nat
  reservedBits : Bool
  deriving DecidableEq, Repr, Inhabited

/-- What the stream cycles of a core of a pair have an effect on, as it stands at one moment (R427): registers, flags, queues and streams; the
scratchpad; the writes and the loads and atomics that it has sent or holds. -/
structure Shadow where
  arch : Arch
  scratch : Memory
  full : Sparse Bool
  writes : List Write
  offs : List OffReq
  deriving DecidableEq, Repr, Inhabited

/-- An off-core request of a pair whose stream cycle's signature is still to be compared, with those that come before it (R428): its place
in program order, the comparisons still to be made, its bundle and slot. -/
structure Gate where
  seq : Nat
  owed : Nat
  bundle : Nat
  slot : Nat
  deriving DecidableEq, Repr, Inhabited

/-- A core (R6 to R25, R248, R264, R278 to R295): `waiters` holds (line, reader) for each access or operation that has found a line
of this scratchpad empty (R254): 0 a direct load, 1 a direct consuming load, 2 + 8 x core + queue an operation; `caught` the lines that a waiting direct load has been
served with at their fills (R254); `marks` its scratchpad words that are uncorrectable (R438); `rewindTo` is the number of the bundle at which a rewinding core
lowers its flag (R295), `redoTo` one more than the last whose access part had issued before a rewind, so that its stepped writes are repeats (R379); `conflicts` the addresses of stepped words that its operations may not write, for each of which it is still to trap (R311);
in doubles `unchecked` is the leader as each stream cycle began whose signature is still to be compared, oldest first, `base` as the last one
compared left it, and `gated` the requests that wait for that (R427, R428). -/
structure Core where
  arch : Arch
  run : RunState
  halt : HaltState
  launch : Option Nat
  ordinal : Nat
  entry : Option Nat
  entryFrame : Nat
  stage : Nat
  blockEnded : Bool
  windowEnded : Bool
  scratch : Memory
  full : Sparse Bool
  marks : Sparse Bool
  retention : Sparse Bool
  waiters : List (Nat × Nat)
  caught : List (Nat × List Byte)
  offs : List OffReq
  offId : Nat
  out : List Write
  side : List Write
  seg : Segment
  mustClose : Bool
  closedFor : Bool
  rvPassed : Bool
  rewindFlag : Bool
  rewindTo : Nat
  redoTo : Nat
  deque : List Record
  spawned : Nat
  lastMark : Bool
  wait : StreamWait
  deferred : Option Jump
  msgs : List Message
  ops : Sparse (List Op)
  opCount : Sparse Nat
  status : List OpStatus
  qfence : List (Nat × Nat × Nat)
  mxcfg : Sparse W64
  region : Option OpenRegion
  sgCount : Sparse Nat
  benchIdleX : Nat
  benchIdleA : Nat
  benchLastX : Nat
  benchLastA : Nat
  table : Sparse TEntry
  unchecked : List Shadow
  base : Shadow
  gated : List Gate
  conflicts : List W64
  deriving DecidableEq, Repr, Inhabited

/-- One key's record of the order log (R371, R372). -/
structure LogRec where
  kind : Nat
  src : Nat
  tgt : Nat
  frame : Nat
  aux : Nat
  deriving DecidableEq, Repr, Inhabited

/-- A timetable entry (R326). -/
structure TTEntry where
  core : Nat
  stage : Nat
  window : Bool
  tick : Nat
  pc : Nat
  deriving DecidableEq, Repr, Inhabited

/-- An output range (R329). -/
structure OutRange where
  va : Nat
  count : Nat
  elem : Nat
  stride : Nat
  deriving DecidableEq, Repr, Inhabited

/-- A kernel of a loaded module (R326 to R329, R337): timetable, dictionary, table as built, output ranges. -/
structure Kernel where
  frameTicks : Nat
  seed : W64
  tt : List TTEntry
  ttAddr : Nat
  table : Sparse TEntry
  tableAddr : Nat
  dict : List (BitVec 384)
  outs : List OutRange
  codeEntry : Nat
  deriving DecidableEq, Repr, Inhabited

/-- A region of a module (R330) with its weight block: header words, parameters and sample buffer as 32 KiB of bytes (R385, R386);
`invAt` names the launch and frame in which it became INVALID last (R391). -/
structure Region where
  nin : Nat
  nout : Nat
  ins : List Nat
  outs : List Nat
  kernel : Nat
  beg : Nat
  fin : Nat
  deps : List (Nat × Nat)
  block : Memory
  home : Nat
  invAt : Option (Nat × Nat)
  deriving DecidableEq, Repr, Inhabited

/-- A loaded module (R337, R338), with its name, the host memory that its sections have taken (first byte and size), and what is kept of it for
tools and attestation: `.sym`, `.line`, `.sig` and the digest. -/
structure Module where
  handle : Nat
  asid : Nat
  name : List Byte
  kernels : List Kernel
  regions : List Region
  hostMem : List (Nat × Nat)
  sym : List Byte
  line : List Byte
  sig : List Byte
  digest : List Byte
  deriving DecidableEq, Repr, Inhabited

/-- Where a launch stands (R339, R344, R346, R349). -/
inductive LaunchState where
  | waiting | granting | running | halting | preempted | ending | ended
  deriving DecidableEq, Repr, Inhabited

/-- A training or compared sample that waits for its frame's end (R389, R390). -/
structure Sample where
  region : Nat
  index : Nat
  frame : Nat
  compared : Bool
  core : Nat
  inputs : List (List W32)
  truth : List (List W32)
  outputs : List (List W32)
  deriving DecidableEq, Repr, Inhabited

/-- A configuration request of SGCFG (R394). -/
structure CfgReq where
  region : Nat
  field : Nat
  j : Nat
  value : W32
  ordinal : Nat
  seq : Nat
  deriving DecidableEq, Repr, Inhabited

/-- A candidate for an order-sensitive choice that a replay holds (R374): its key, its source, its AUX where R371 fixes it, and the launch's tick
when it was first held (R375). -/
structure Hold where
  kind : Nat
  tgt : Nat
  src : Nat
  aux : Nat
  since : Nat
  deriving DecidableEq, Repr, Inhabited

/-- A launch (R340 to R349), with its frame counter (R283), slips (R285), order log (R373), replay (R374), conditional streams
(R261, keyed by 16 x cluster + stream), samples, requests and SGBEGs (region, frame, core, index) of the running frame (R390,
R394), the number of its grant, 0 before it (R383), the offset of the log record that a replay could not meet
(R375), the ticks that it has run (R375). -/
structure Launch where
  id : Nat
  asid : Nat
  module : Nat
  kernel : Nat
  stepped : Bool
  record : Bool
  replay : Bool
  doubles : Bool
  argptr : W64
  seed : W64
  cores : List Nat
  rvg : Nat
  kickoff : Nat
  larea : Nat
  state : LaunchState
  debugHalted : Bool
  frcOn : Bool
  startTick : Nat
  frame : Nat
  tick : Nat
  slipAt : Option Nat
  slips : Nat
  kickLate : Nat
  log : List LogRec
  logRoom : Nat
  replayLog : List (LogRec × Bool)
  replayUsed : Nat
  holds : List Hold
  logFail : Option Nat
  streams : Sparse (List W32)
  samples : List Sample
  cfgs : List CfgReq
  sgBegs : List (Nat × Nat × Nat × Nat)
  frameDone : Bool
  ran : Nat
  pinned : Option (Nat × Nat)
  status : Nat
  grantNo : Nat
  deriving DecidableEq, Repr, Inhabited

/-- A host event area or the system event ring (R348, R435). -/
structure Ring where
  base : Nat
  size : Nat
  widx : Nat
  ridx : Nat
  posted : Nat
  deriving DecidableEq, Repr, Inhabited

/-- A context (R339): rank, host event area and the posts held for it, core-set handles, public keys, tombstone; the cause
of a teardown that is due, with the ranges that it names (R434). -/
structure Context where
  live : Bool
  rank : Nat
  area : Option Ring
  posts : List (W64 × W64)
  coreSets : List (Nat × List Nat)
  keys : List (List Byte)
  tombstone : Bool
  tearing : Option (Nat × List Nat)
  deriving DecidableEq, Repr, Inhabited

/-- An event record held at its source until its EQ has room (R13), with the core on whose behalf it is posted and its launch. -/
structure HeldEvent where
  target : Nat
  source : Nat
  launch : Nat
  w0 : W64
  w1 : W64
  deriving DecidableEq, Repr, Inhabited

/-- A continuation record in transit to the top of another core's deque (R229), with the frame and release tick of its window. -/
structure Transit where
  target : Nat
  sender : Nat
  launch : Nat
  frame : Nat
  tick : Nat
  record : Record
  deriving DecidableEq, Repr, Inhabited

/-- A launch message under way to the coordinator, of a LAUNCH of a core in a launch (R235). -/
structure LaunchMsg where
  core : Nat
  launch : Nat
  addr : W64
  deriving DecidableEq, Repr, Inhabited

/-- A request in a target unit's window: source core and channel, target unit, tag and acknowledgement, with the request's launch and
its name at its source (R260). -/
structure WindowEntry where
  launch : Nat
  req : Nat
  source : Nat
  target : Nat
  tag : Nat
  ack : Option W64
  deriving DecidableEq, Repr, Inhabited

/-- A second copy of a request under way (R260): its launch, its core's context and its name there; source, target and tag once the first copy
has been applied. -/
structure Resend where
  launch : Nat
  core : Nat
  req : Nat
  sent : Option (Nat × Nat × Nat)
  deriving DecidableEq, Repr, Inhabited

/-- The migration commands (R359) and the collapse of a duplicate (R367). -/
inductive MigKind where
  | toDevice | toHost | duplicate | unmap | collapseDevice | collapseHost
  deriving DecidableEq, Repr, Inhabited

/-- The phases of a stop-and-copy migration (R365). -/
inductive MigPhase where
  | queued | invalidating
  deriving DecidableEq, Repr, Inhabited

/-- A migration of one subpage (R365): its table (asid, module, kernel), entry, subpage, the device addresses that move with it, from `lo` to
before `hi`, kind, phase, the contexts of cores that have not acknowledged, the host base of a command, the state that the subpage had. -/
structure Migration where
  asid : Nat
  module : Nat
  kernel : Nat
  entry : Nat
  sub : Nat
  lo : Nat
  hi : Nat
  kind : MigKind
  phase : MigPhase
  waiting : List Nat
  hbase : Nat
  old : Nat
  deriving DecidableEq, Repr, Inhabited

/-- A fault request (R360): its subpage, whether it is the host's, whether its access writes, the launches whose accesses wait on it,
each with whether only pieces of a CPYN do. -/
structure FaultReq where
  asid : Nat
  module : Nat
  kernel : Nat
  entry : Nat
  sub : Nat
  byHost : Bool
  write : Bool
  waits : List (Nat × Bool)
  deriving DecidableEq, Repr, Inhabited

/-- A hold-off on the losing side's migration request (R368). -/
structure HoldOff where
  entry : FaultReq
  deriving DecidableEq, Repr, Inhabited

/-- A parity delta under way (R417, R419): the physical address of its sector, the parity stack and local sector it is for, the data stack it
comes from, the difference of the two images in symbols, the issuing core, launch and context, and the source identity, tag and
acknowledgement of the atomic or reduction that has made it. -/
structure Delta where
  pa : Nat
  stack : Nat
  sector : Nat
  data : Nat
  diff : List Nat
  core : Nat
  launch : Nat
  asid : Nat
  request : Option WindowEntry
  deriving DecidableEq, Repr, Inhabited

/-- A record of an array or transfer log (R416), with the stack it belongs to and which of the two logs. -/
structure MemLog where
  stack : Nat
  transfer : Bool
  w0 : W64
  w1 : W64
  deriving DecidableEq, Repr, Inhabited

/-- A line of a check-bit cache (R410): the metadata area of a group of a stack, and whether it is still to be written back. -/
structure CheckLine where
  stack : Nat
  group : Nat
  bytes : List Byte
  dirty : Bool
  deriving DecidableEq, Repr, Inhabited

/-- The HBM stacks (R406 to R424): raw DRAM bytes by stack x 2^36 + raw address, lost stacks, failed channels (stack, channel),
remapped lanes (stack, channel, lane, spare), logs, parity deltas not yet applied, keys, the restripe
cursor and the stacks L0 to L10 of its layout, quarantined and retired ranges (R436), the lines of the check-bit caches, oldest first (R410),
the shadow windows of the parity controllers by parity stack (R419), the host's sectors that reports of losses list (R422), what coming
transfers will meet, and what the last HBM_SECTOR_READ returned. -/
structure Hbm where
  dram : Memory
  lost : List Nat
  failed : List (Nat × Nat)
  lanes : List (Nat × Nat × Nat × Nat)
  logs : List MemLog
  overflow : Sparse Nat
  deltas : List Delta
  keyXts : Sparse (BitVec 512)
  keyMac : Sparse (BitVec 256)
  cursor : Option Nat
  layout : List Nat
  shadow : List (Nat × WindowEntry)
  listed : List Nat
  bus : List BusFault
  quarantined : List (Nat × Nat)
  retired : List Nat
  cache : List CheckLine
  returned : Option (List Byte)
  deriving DecidableEq, Repr, Inhabited

/-- A configuration block in board flash (R442). -/
structure CfgBlock where
  bytes : List Byte
  deriving DecidableEq, Repr, Inhabited

/-- What Markhor holds (R441 to R445): board flash, the PUF reading, the result of boot. -/
structure Markhor where
  firmware : List Byte
  firmwareSig : List Byte
  certificate : List Byte
  helper : List Byte
  puf : BitVec 256
  blocks : List CfgBlock
  stackHealth : List Bool
  booted : Bool
  failedStep : Nat
  identity : Option (List Byte)
  applied : List (List Byte)
  budgets : List Nat
  disabled : List Nat
  reports : List (List Byte)
  deriving DecidableEq, Repr, Inhabited

/-- An answer of the IOD's MMIO window to system software (R336, R342, R359, R385, R412, R424, R444). -/
inductive Answer where
  | ok
  | refused (code : Nat)
  | handle (n : Nat)
  | value (w : W64)
  deriving DecidableEq, Repr, Inhabited

/-- The part of a bundle that is issuing (the model's own): its core, bundle address and sequential successor, the bundle's
number, WAIT, the predicates its guards and predicate sources read, the sequencer as the part meets it, the slot that is
being performed, the addresses EADDR takes for each slot, whether a control slot has redirected, has held a redirecting
instruction with a true guard (R452), or has taken a trap, whether ctl0's is still undecided, and the core as it stood before. -/
structure Part where
  core : Nat
  pc : W64
  next : W64
  bundle : Nat
  side : Side
  preds : BitVec 16
  rb : Nat
  loopOn : Bool
  loop : Option Loop
  slot : Nat
  slotAt : List W64
  redirected : Bool
  claimed : Bool
  trapped : Bool
  undecided : Bool
  before : Core
  deriving DecidableEq, Repr, Inhabited

/-- The state of the package. `csmMarks` names the 64-bit words of chip shared memory that are uncorrectable (R438), `stepMarks` the lines of the
step-start copies that are poisoned (R378, R431), `errors` holds the units' error counters (R437); `landed` holds the scratchpad bytes, by core
and offset, that the device step `landedAt` has written (R255); `found` the errors of on-chip storage that the next tick takes in (the model's own). `latch` holds the syllable words of the part that is issuing, each still to be performed;
`agenda` the steps still to be made, in order; `choice` counts the device steps made: these and `part` are the model's own. -/
structure State where
  cores : Sparse Core
  fieldmask : Sparse (BitVec 17)
  pendingMask : Sparse (BitVec 17)
  overhead : Sparse Bool
  slotTables : Sparse W32
  slotPending : Sparse W32
  slotServed : Sparse Nat
  slotCycle : Sparse Nat
  slotUsed : Sparse Nat
  gtc : Nat
  csm : Memory
  csmMarks : Sparse Bool
  host : Memory
  hbm : Hbm
  contexts : Sparse (Option Context)
  modules : List Module
  handles : Nat
  launches : List Launch
  launchIds : Nat
  grants : Nat
  heldEvents : List HeldEvent
  transits : List Transit
  launchMsgs : List LaunchMsg
  tags : Sparse Nat
  windows : List WindowEntry
  resends : List Resend
  migrations : List Migration
  faults : List FaultReq
  holdOffs : List HoldOff
  stepMeta : Memory
  stepMarks : Sparse Bool
  landed : List (Nat × Nat × Byte)
  landedAt : Nat
  errors : Sparse Nat
  found : List Upset
  ring : Option Ring
  ringHeld : List (W64 × W64)
  markhor : Markhor
  answers : List Answer
  part : Part
  latch : List W64
  agenda : List Instr
  choice : Nat
  deriving DecidableEq, Repr, Inhabited

/-- Why the machine stops with a fault. -/
inductive Fault where
  /-- Raised by `step` alone: the agenda or a free choice names no step of the device, or a step of a unit that the package does
  not have (R1). Safe: no agent of the hardware makes it. -/
  | noSuchUnit
  deriving DecidableEq, Repr, Inhabited

/-- Why an instruction is refused. -/
inductive Refusal where
  /-- Raised by an arm of exec alone: the instruction has no meaning yet. Safe: nothing is claimed of it. -/
  | notModelled (mnemonic : String)
  deriving DecidableEq, Repr, Inhabited

/-- The registers, queues and pipelines after package reset (R6, R17 to R24). -/
def Arch.reset : Arch where
  s := []
  a := []
  p := 1
  v := []
  k := []
  latchE := []
  latchS := []
  qs := []
  vqs := []
  qid := 0
  epc := 0
  ecause := 0
  eaddr := 0
  evec := 0
  fflags := 0
  exc := false
  bcol := false
  sbchk := false
  bfmt := []
  rb := 0
  loopOn := false
  loop := none
  turn := none
  pc := 0
  skip := 0
  till := none
  ahead := []
  issued := 0
  cycX := 0
  cycA := 0
  waitX := 0
  waitA := 0
  inflX := []
  inflA := []
  accs := []
  held := none
  trap := none
  fences := []
  accSeq := 0
  marks := []
  latchMarks := []

/-- A segment opened at `a` (R290, R293). -/
def Segment.openAt (a : Arch) : Segment where
  checkpoint := a
  commit := []
  undo := []
  recorded := []
  arrived := []
  rewinds := 0
  errorAt := none
  bad := false
  leaving := false
  closedFor := true
  wait := .none
  deferred := none

/-- A core after package reset: in no launch, its storage zero and every full bit set. -/
def Core.reset : Core where
  arch := Arch.reset
  run := .free
  halt := .running
  launch := none
  ordinal := 0
  entry := none
  entryFrame := 0
  stage := 0
  blockEnded := false
  windowEnded := false
  scratch := []
  full := []
  marks := []
  retention := []
  waiters := []
  caught := []
  offs := []
  offId := 0
  out := []
  side := []
  seg := Segment.openAt Arch.reset
  mustClose := false
  closedFor := false
  rvPassed := false
  rewindFlag := false
  rewindTo := 0
  redoTo := 0
  deque := []
  spawned := 0
  lastMark := false
  wait := .none
  deferred := none
  msgs := []
  ops := []
  opCount := []
  status := []
  qfence := []
  mxcfg := []
  region := none
  sgCount := []
  benchIdleX := 0
  benchIdleA := 0
  benchLastX := 0
  benchLastA := 0
  table := []
  unchecked := []
  base := ⟨Arch.reset, [], [], [], []⟩
  gated := []
  conflicts := []

/-- The HBM after reset: every raw byte zero (R441 step 4), nothing lost, logged or keyed. -/
def Hbm.reset : Hbm where
  dram := []
  lost := []
  failed := []
  lanes := []
  logs := []
  overflow := []
  deltas := []
  keyXts := []
  keyMac := []
  cursor := none
  layout := []
  shadow := []
  listed := []
  bus := []
  quarantined := []
  retired := []
  cache := []
  returned := none

/-- Markhor at reset, before boot (R441). -/
def Markhor.reset : Markhor where
  firmware := []
  firmwareSig := []
  certificate := []
  helper := []
  puf := 0
  blocks := []
  stackHealth := List.replicate numStacks true
  booted := false
  failedStep := 0
  identity := none
  applied := []
  budgets := List.replicate 40 37500
  disabled := []
  reports := []

/-- No part is issuing. -/
def Part.idle : Part where
  core := 0
  pc := 0
  next := 0
  bundle := 0
  side := .execute
  preds := 1
  rb := 0
  loopOn := false
  loop := Option.none
  slot := 0
  slotAt := []
  redirected := false
  claimed := false
  trapped := false
  undecided := false
  before := Core.reset

/-- The package right after reset (R6, R16 to R24, R441): no context, module or launch, every register at its reset value. -/
def State.reset : State where
  cores := []
  fieldmask := []
  pendingMask := []
  overhead := []
  slotTables := []
  slotPending := []
  slotServed := []
  slotCycle := []
  slotUsed := []
  gtc := 0
  csm := []
  csmMarks := []
  host := []
  hbm := Hbm.reset
  contexts := []
  modules := []
  handles := 0
  launches := []
  launchIds := 0
  grants := 0
  heldEvents := []
  transits := []
  launchMsgs := []
  tags := []
  windows := []
  resends := []
  migrations := []
  faults := []
  holdOffs := []
  stepMeta := []
  stepMarks := []
  landed := []
  landedAt := 0
  errors := []
  found := []
  ring := none
  ringHeld := []
  markhor := Markhor.reset
  answers := []
  part := Part.idle
  latch := []
  agenda := []
  choice := 0

end Sys2Proof.Machine
end

