-- ==== Sys2Proof/Machine/Ops.lean ====
section
/-! DEFINITION. Sys2Proof/Machine/Ops.lean: the named operations over registers, queues, results in flight, parts, traps,
launches, events and choices, which the meanings are written over. -/

namespace Sys2Proof.Machine

/-- The outcome of a step. -/
abbrev Out := Host.Outcome State Fault Refusal

/-- What trying an action gives: its result, a stall of the part (R11), a poisoned value read (R431), a trap that cancels the
part (R192, R198, R453), or a stray access (R357). -/
inductive Got (α : Type) where
  | ok (a : α)
  | stall
  | held (id kind tgt : Nat)
  | poison
  | trap (cause : Nat) (addr : W64)
  | stray (addr : Nat)
  deriving DecidableEq, Repr, Inhabited

/-- Go on with a result. -/
def Got.bind {α β : Type} (x : Got α) (f : α → Got β) : Got β :=
  match x with
  | .ok a => f a
  | .stall => .stall
  | .held id kind tgt => .held id kind tgt
  | .poison => .poison
  | .trap c a => .trap c a
  | .stray a => .stray a

/-- Apply a function to a result. -/
def Got.map {α β : Type} (f : α → β) (x : Got α) : Got β := x.bind fun a => .ok (f a)

/-- An action over a list, in order. -/
def Got.foldl {α β : Type} (f : α → β → Got α) (a : α) : List β → Got α
  | [] => .ok a
  | b :: l => (f a b).bind fun a => Got.foldl f a l

/-! ### Cores -/

/-- The record of core `c`. -/
def State.core (s : State) (c : Nat) : Core := Sparse.get Core.reset s.cores c
/-- Replace the record of core `c`. -/
def State.setCore (s : State) (c : Nat) (k : Core) : State := { s with cores := Sparse.set Core.reset s.cores c k }
/-- Change the record of core `c`. -/
def State.onCore (s : State) (c : Nat) (f : Core → Core) : State := s.setCore c (f (s.core c))
/-- Change the architectural state of core `c`. -/
def State.onArch (s : State) (c : Nat) (f : Arch → Arch) : State := s.onCore c fun k => { k with arch := f k.arch }
/-- The key under which the saved context of a core of a launch stands in the table of cores (R347); a core's own key is its flat
index. -/
def savedKey (launch c : Nat) : Nat := numCores * (launch + 1) + c
/-- The flat index of the core that a key names. -/
def flat (key : Nat) : Nat := key % numCores
/-- The die, cluster and number within its cluster of a core (R22). -/
def dieOf (c : Nat) : Nat := c / coresPerDie
/-- The cluster of a core, counted over the package. -/
def clusterOf (c : Nat) : Nat := c / coresPerCluster
/-- The core's number in its cluster. -/
def coreInCluster (c : Nat) : Nat := c % coresPerCluster
/-- Every flat core index, ascending. -/
def allCores : List Nat := List.range numCores

/-! ### Registers -/

/-- The physical number of a register under rotation base `rb` (R14). -/
def rot (rb n : Nat) : Nat := if 32 ≤ n ∧ n ≤ 47 then 32 + (n - 32 + rb) % 16 else n

/-- Read a scalar register by physical number; `s0` reads 0 (R6). -/
def Arch.getS (a : Arch) (n : Nat) : W64 := if n = 0 then 0 else Sparse.get 0 a.s n
/-- Take the poison mark of a register away: it is written (R431). -/
def Arch.unmark (a : Arch) (f : RFile) (n : Nat) : Arch := { a with marks := a.marks.filter (· ≠ (f, n)) }
/-- Has a register a poison mark (R431)? -/
def Arch.marked (a : Arch) (f : RFile) (n : Nat) : Bool := a.marks.contains (f, n)
/-- Give a register a poison mark (R431). -/
def Arch.mark (a : Arch) (f : RFile) (n : Nat) : Arch := { a.unmark f n with marks := (f, n) :: (a.unmark f n).marks }
/-- Write a scalar register; `s0` ignores writes (R6). -/
def Arch.setS (a : Arch) (n : Nat) (v : W64) : Arch :=
  if n = 0 then a else { a.unmark .s n with s := Sparse.set 0 a.s n v }
/-- Read an access register; `a0` reads 0 (R6). -/
def Arch.getA (a : Arch) (n : Nat) : W64 := if n = 0 then 0 else Sparse.get 0 a.a n
/-- Write an access register; `a0` ignores writes (R6). -/
def Arch.setA (a : Arch) (n : Nat) (v : W64) : Arch :=
  if n = 0 then a else { a.unmark .a n with a := Sparse.set 0 a.a n v }
/-- Read a vector register; `v62` reads 0 (R6). -/
def Arch.getV (a : Arch) (n : Nat) : VReg := if n = 62 then 0 else Sparse.get 0 a.v n
/-- Write a vector register; `v62` ignores writes (R6). -/
def Arch.setV (a : Arch) (n : Nat) (x : VReg) : Arch :=
  if n = 62 then a else { a.unmark .v n with v := Sparse.set 0 a.v n x }
/-- Read a lane mask; `k0` reads all ones (R6). -/
def Arch.getK (a : Arch) (n : Nat) : KReg := if n = 0 then BitVec.allOnes 1024 else Sparse.get 0 a.k n
/-- Write a lane mask; `k0` ignores writes (R6). -/
def Arch.setK (a : Arch) (n : Nat) (x : KReg) : Arch :=
  if n = 0 then a else { a.unmark .k n with k := Sparse.set 0 a.k n x }
/-- Bit `n` of a predicate file; `p0` reads 1 (R6). -/
def predBit (p : BitVec 16) (n : Nat) : Bool := n == 0 || p.getLsbD n
/-- Set or clear bit `n` of a predicate file; `p0` ignores writes (R6). -/
def predSet (p : BitVec 16) (n : Nat) (b : Bool) : BitVec 16 :=
  if n = 0 then p
  else if b then p ||| BitVec.shiftLeft 1 n else p &&& ~~~(BitVec.shiftLeft 1 n)
/-- Write a predicate. -/
def Arch.setP (a : Arch) (n : Nat) (b : Bool) : Arch := { a with p := predSet a.p n b }

/-! ### Queues -/

/-- The key of a scalar queue in the table of queues. -/
def Q.code : Q → Nat
  | .lq0 => 0
  | .lq1 => 1
  | .sq => 2
  | .xa => 3
  | .ax => 4
  | .eq => 5
  | .mb => 6
  | .iq => 7
/-- The depth of a scalar queue in words; EQ holds 64 records of two words (R9, R13). -/
def Q.depth : Q → Nat
  | .xa | .ax => 8
  | .eq => 128
  | _ => 16
/-- The key of a vector queue. -/
def VQ.code : VQ → Nat
  | .vlq0 => 0
  | .vlq1 => 1
  | .vlq2 => 2
  | .vlq3 => 3
  | .vsq0 => 4
  | .vsq1 => 5
/-- The depth of every vector queue (R9). -/
def vqDepth : Nat := 4

/-- The entries of a queue, oldest first. -/
def Arch.q (a : Arch) (q : Q) : List QEntry := Sparse.get [] a.qs q.code
/-- Replace the entries of a queue. -/
def Arch.setQ (a : Arch) (q : Q) (l : List QEntry) : Arch := { a with qs := Sparse.set [] a.qs q.code l }
/-- The entries of a vector queue, oldest first. -/
def Arch.vq (a : Arch) (q : VQ) : List VEntry := Sparse.get [] a.vqs q.code
/-- Replace the entries of a vector queue. -/
def Arch.setVQ (a : Arch) (q : VQ) (l : List VEntry) : Arch := { a with vqs := Sparse.set [] a.vqs q.code l }

/-- Take the first entry that is no steal request out of a queue (R231). -/
def splitMessage : List QEntry → Option (QEntry × List QEntry)
  | [] => none
  | e :: l => if e.thief.isNone then some (e, l) else (splitMessage l).map fun (x, r) => (x, e :: r)

/-- Pop a scalar queue: a stall if it is empty or its oldest entry is not filled (R11, R105), a poisoned read if that is
marked (R431). -/
def Arch.pop (a : Arch) (q : Q) : Got (W64 × Arch) :=
  match splitMessage (a.q q) with
  | none => .stall
  | some (e, rest) =>
    match e.val with
    | none => .stall
    | some v => if e.poison then .poison else .ok (v, a.setQ q rest)

/-- Pop a vector queue (R11, R136, R431). -/
def Arch.vpop (a : Arch) (q : VQ) : Got (VReg × Arch) :=
  match a.vq q with
  | [] => .stall
  | e :: rest =>
    match e.val with
    | none => .stall
    | some v => if e.poison then .poison else .ok (v, a.setVQ q rest)

/-- Reserve an entry at the end of a scalar queue and name it; a stall if there is no room (R11, R105, R188). -/
def Arch.reserve (a : Arch) (q : Q) : Got (Nat × Arch) :=
  if (a.q q).length < q.depth then
    .ok (a.qid, { a.setQ q (a.q q ++ [⟨a.qid, none, none, false⟩]) with qid := a.qid + 1 })
  else .stall

/-- Reserve an entry of a vector queue (R136, R188). -/
def Arch.vreserve (a : Arch) (q : VQ) : Got (Nat × Arch) :=
  if (a.vq q).length < vqDepth then
    .ok (a.qid, { a.setVQ q (a.vq q ++ [⟨a.qid, none, false⟩]) with qid := a.qid + 1 })
  else .stall

/-- Fill a reserved entry (R105, R188). -/
def Arch.fillQ (a : Arch) (q : Q) (id : Nat) (v : W64) (poison : Bool) : Arch :=
  a.setQ q ((a.q q).map fun e => if e.id = id ∧ e.val = none then { e with val := some v, poison := poison } else e)

/-- Fill a reserved vector entry (R136, R188). -/
def Arch.fillVQ (a : Arch) (q : VQ) (id : Nat) (x : VReg) (poison : Bool) : Arch :=
  a.setVQ q ((a.vq q).map fun e => if e.id = id ∧ e.val = none then { e with val := some x, poison := poison } else e)

/-- Append an entry that arrives from outside the core, also to the arrivals that a rewind keeps (R294). -/
def Core.arrive (k : Core) (q : Q) (v : Option W64) (thief : Option Nat) : Core :=
  let e : QEntry := ⟨k.arch.qid, v, thief, false⟩
  { k with
    arch := { k.arch.setQ q (k.arch.q q ++ [e]) with qid := k.arch.qid + 1 }
    seg := { k.seg with arrived := k.seg.arrived ++ [(q, e)] } }

/-! ### Results in flight -/

/-- A register as the scoreboard watches it: one that discards writes has none in flight (R6). -/
def watched (f : RFile) (n : Nat) : Option (RFile × Nat) :=
  if n = (match f with | .v => 62 | _ => 0) then none else some (f, n)

/-- The register that a load or atomic writes, if it writes one. -/
def Dest.target : Dest → Option (RFile × Nat)
  | .a n => watched .a n
  | .p n => watched .p n
  | _ => none

/-- The register that a result writes, if it writes one. -/
def Landing.target : Landing → Option (RFile × Nat)
  | .s n _ => watched .s n
  | .p n _ => watched .p n
  | .v n _ => watched .v n
  | .k n _ => watched .k n
  | .a n _ => watched .a n
  | .bad d => d.target
  | _ => none

/-- The register that a pending scratchpad access will write. -/
def AccKind.target : AccKind → Option (RFile × Nat)
  | .ld _ _ _ _ d => d.target
  | .fetst _ d => d.target
  | _ => none

/-- The results in flight of a stream. -/
def Arch.infl (a : Arch) : Side → List InFlight
  | .execute => a.inflX
  | .access => a.inflA
/-- Replace the results in flight of a stream. -/
def Arch.setInfl (a : Arch) (side : Side) (l : List InFlight) : Arch :=
  match side with
  | .execute => { a with inflX := l }
  | .access => { a with inflA := l }
/-- The WAIT cycles a stream still has to count. -/
def Arch.wait (a : Arch) : Side → Nat
  | .execute => a.waitX
  | .access => a.waitA
/-- Set the WAIT cycles of a stream. -/
def Arch.setWait (a : Arch) (side : Side) (n : Nat) : Arch :=
  match side with
  | .execute => { a with waitX := n }
  | .access => { a with waitA := n }
/-- Count one stream cycle (R58). -/
def Arch.countCycle (a : Arch) : Side → Arch
  | .execute => { a with cycX := a.cycX + 1 }
  | .access => { a with cycA := a.cycA + 1 }

/-- Mark the results in flight to a register as superseded by a newer write (R61). -/
def Arch.supersede (a : Arch) (t : Option (RFile × Nat)) : Arch :=
  if t.isNone then a
  else
    let f := fun (e : InFlight) => if e.what.target = t then { e with stale := true } else e
    { a with
      inflX := a.inflX.map f
      inflA := a.inflA.map f
      accs := a.accs.map fun e => if e.kind.target = t then { e with stale := true } else e }

/-- Send a result of latency `lat` on its way (R59): it lands at the end of the `lat`-th stream cycle counted from the issue. -/
def Arch.fly (a : Arch) (side : Side) (w : Landing) (lat : Nat) (flags : BitVec 5) : Arch :=
  let a := a.supersede w.target
  a.setInfl side (a.infl side ++ [⟨w, flags, lat - 1, false⟩])

/-- Send the write of a SYSW on its way, ahead of the results that its bundle has sent since `n` were in flight: flags raised by its
bundle are ORed into what it writes (R18, R21). -/
def Arch.flySys (a : Arch) (n : Nat) (w : Landing) : Arch :=
  let isSys := fun (e : InFlight) => match e.what with
    | .sys _ _ => true
    | _ => false
  let own := a.inflX.drop n
  { a with inflX := a.inflX.take n ++ own.takeWhile isSys ++ [⟨w, 0, 0, false⟩] ++ own.dropWhile isSys }

/-- The RW fields of a system register, written with `v` (R4, R5, R17 to R24, R130). -/
def Arch.writeSys (a : Arch) (n : Nat) (v : W64) : Arch :=
  if n = 0 then (if v.getLsbD 7 then { a with bcol := false } else a)
  else if n = 1 then { a with epc := v }
  else if n = 2 then { a with ecause := v.toNat % 256 }
  else if n = 3 then { a with eaddr := v }
  else if n = 4 then { a with evec := v &&& ~~~1 }
  else if n = 5 then { a with fflags := v.setWidth 5 }
  else if n = 0xB then { a with sbchk := v.getLsbD 0 }
  else if 0x10 ≤ n ∧ n ≤ 0x1F then { a with bfmt := Sparse.set 0 a.bfmt (n - 0x10) (v.toNat % 16) }
  else a

/-- A poisoned value arrives at its destination, which is marked (R431): an access register keeps what it holds, a queue entry is filled. -/
def Arch.spoil (a : Arch) : Dest → Arch
  | .a n => if n = 0 then a else a.mark .a n
  | .q q id => a.fillQ q id 0 true
  | .vq q id => a.fillVQ q id 0 true
  | _ => a
/-- What a result writes when it lands. -/
def Arch.land (a : Arch) : Landing → Arch
  | .s n v => a.setS n v
  | .p n b => a.setP n b
  | .v n x => a.setV n x
  | .k n x => a.setK n x
  | .a n v => a.setA n v
  | .q q id v => a.fillQ q id v false
  | .vq q id x => a.fillVQ q id x false
  | .sys n v => a.writeSys n v
  | .bcol => { a with bcol := true }
  | .flagsOnly => a
  | .bad d => a.spoil d

/-- A result lands: it is written, its flags are ORed into FFLAGS (R59, R21). -/
def Arch.landOne (a : Arch) (e : InFlight) : Arch :=
  let a := a.land e.what
  { a with fflags := a.fflags ||| e.flags }

/-- Does a stream have a result that lands at the end of the cycle just counted? -/
def Arch.due (a : Arch) (side : Side) : Bool := (a.infl side).any (·.left == 0)
/-- Does the access stream have a scratchpad access whose access point is the end of the cycle just counted? -/
def Arch.accDue (a : Arch) : Bool := a.accs.any (·.left == 0)
/-- May a stream go on behind the cycle that it has counted: no result that its next part could meet is due, and the access stream has no
scratchpad access to perform (R59, R130, R195)? The execute stream does not wait for the access stream's results, for its part may have
to issue with an access part's (R453). -/
def Arch.settled (a : Arch) : Side → Bool
  | .execute => !a.due .execute
  | .access => !a.due .execute && !a.due .access && !a.accDue

/-- A stream cycle begins: every result in flight of the stream, and every scratchpad access of the access stream, comes one
cycle nearer (R58, R59, R195). -/
def Arch.tick (a : Arch) (side : Side) : Arch :=
  let a := (a.setInfl side ((a.infl side).map fun e => { e with left := e.left - 1 })).countCycle side
  match side with
  | .execute => a
  | .access => { a with accs := a.accs.map fun e => { e with left := e.left - 1 } }

/-- Has a write to the register been issued that has not landed (R63)? `latest` asks only for the latest issued write (R61). -/
def Arch.pending (a : Arch) (latest : Bool) (f : RFile) (n : Nat) : Bool :=
  let hit := fun (e : InFlight) => e.what.target == some (f, n) && !(latest && e.stale)
  a.inflX.any hit || a.inflA.any hit || a.accs.any fun e => e.kind.target == some (f, n) && !(latest && e.stale)

/-- Keep the flags of a scratchpad access with its bundle, while the execute part of that has not issued (R21). -/
def Arch.noteFlags (a : Arch) (bundle : Nat) (f : BitVec 5) : Arch :=
  { a with ahead := a.ahead.mapIdx fun i h =>
      if a.issued + i = bundle + a.ahead.length then { h with flags := h.flags ||| f } else h }
/-- A scratchpad access raises flags at its access point (R201, R251). -/
def Arch.raise (a : Arch) (bundle : Nat) (f : BitVec 5) : Arch := { a.noteFlags bundle f with fflags := a.fflags ||| f }

/-- Is a write to a predicate in flight? -/
def Arch.pendingP (a : Arch) (n : Nat) : Bool := a.pending false .p n

/-- The number of the bundle whose execute part is next to issue (R281). -/
def Arch.nextX (a : Arch) : Nat := a.issued - a.ahead.length

/-! ### The modulo sequencer -/

/-- The number of passes a loop owes: limit + S - 1 (R224). -/
def Loop.passes (l : Loop) : Nat := l.limit + l.stages - 1
/-- The stage predicates of a pass (R224): p12 to p15. -/
def Loop.stagePreds (l : Loop) (p : BitVec 16) : BitVec 16 :=
  (List.range 4).foldl
    (fun p j => predSet p (12 + j) (decide (j < l.stages) && decide (j ≤ l.pass) && decide (l.pass - j < l.limit))) p
/-- What R224 does at a pass's end, if the execute stream stands there: RB turns, and the next pass brings its stage predicates, or the
loop has ended (R14). -/
def Arch.turned (a : Arch) : Arch :=
  match a.turn with
  | none => a
  | some l =>
    let a := { a with rb := (a.rb + 15) % 16, turn := none }
    if l.pass + 1 < l.passes then { a with p := { l with pass := l.pass + 1 }.stagePreds a.p } else { a with loopOn := false }

/-! ### Launches -/

/-- The launch with an identity. -/
def State.launch? (s : State) (id : Nat) : Option Launch := s.launches.find? (·.id == id)
/-- Change the launch with an identity. -/
def State.onLaunch (s : State) (id : Nat) (f : Launch → Launch) : State :=
  { s with launches := s.launches.map fun l => if l.id = id then f l else l }
/-- The launch a core runs. -/
def State.launchOf (s : State) (c : Nat) : Option Launch := (s.core c).launch.bind s.launch?
/-- Does the launch of the core run as doubles (R426)? -/
def State.doubled (s : State) (c : Nat) : Bool := ((s.launchOf c).map (·.doubles)).getD false
/-- What a core's stream cycles have an effect on (R427). -/
def Core.shadow (k : Core) : Shadow := ⟨k.arch, k.scratch, k.full, k.seg.commit ++ k.out ++ k.side, k.offs⟩
/-- One more stream cycle of a core begins; in doubles its signature is still to be compared (R427). -/
def State.unchecked (s : State) (c : Nat) : List Shadow :=
  if s.doubled c then (s.core c).unchecked ++ [(s.core c).shadow] else (s.core c).unchecked
/-- A context, or none if the ASID names none. -/
def State.context? (s : State) (asid : Nat) : Option Context := Sparse.get none s.contexts asid
/-- Set or remove a context. -/
def State.setContext (s : State) (asid : Nat) (x : Option Context) : State :=
  { s with contexts := Sparse.set none s.contexts asid x }
/-- Change a context that exists. -/
def State.onContext (s : State) (asid : Nat) (f : Context → Context) : State :=
  match s.context? asid with
  | none => s
  | some x => s.setContext asid (some (f x))
/-- The module with a handle. -/
def State.module? (s : State) (h : Nat) : Option Module := s.modules.find? (·.handle == h)
/-- Change the module with a handle. -/
def State.onModule (s : State) (h : Nat) (f : Module → Module) : State :=
  { s with modules := s.modules.map fun m => if m.handle = h then f m else m }
/-- The kernel of a launch. -/
def State.kernel? (s : State) (l : Launch) : Option Kernel := (s.module? l.module).bind fun m => m.kernels[l.kernel]?
/-- The core of a launch with an ordinal (R15, R341). -/
def Launch.coreAt (l : Launch) (ordinal : Nat) : Option Nat := l.cores[ordinal]?
/-- The cores of a launch, both of each pair in doubles (R341). -/
def Launch.held (l : Launch) : List Nat := if l.doubles then l.cores.flatMap fun c => [c, c + 1] else l.cores

/-- Pin an error to a launch: the first one counts (R432, R433, R435). -/
def State.pin (s : State) (id cause addr : Nat) : State :=
  s.onLaunch id fun l => if l.pinned = none then { l with pinned := some (cause, addr) } else l
/-- Pin an error to the launch that a core runs. Log entry 27 (DEDUCED). -/
def State.pinCore (s : State) (c cause : Nat) : State :=
  match (s.core c).launch with
  | none => s
  | some id => s.pin id cause (flat c)

/-- CAUSE codes of R435. -/
def causeRewinds : Nat := 1
def causeMismatch : Nat := 2
def causeHandlerTrap : Nat := 3
def causeStray : Nat := 4
def causeUnresolvable : Nat := 5
def causeOrderLog : Nat := 6
def causeNotDurable : Nat := 7
def causeLaunchState : Nat := 8
def causeOperand : Nat := 9
def causeIntegrity : Nat := 0xA
def causeShared : Nat := 0xB
def causeDestroyed : Nat := 0xC
def causeDeque : Nat := 0xD

/-- Does the execute stream stand where a halt may take effect: outside a modulo loop body, or with both streams at the start of a
pass (R226, R346)? -/
def Core.stands (k : Core) : Bool :=
  match k.arch.ahead with
  | h :: _ => h.loop.isNone
  | [] => match k.arch.loop with
    | none => true
    | some l => l.pos == 0

/-- Has a halt of the core been asked for, by pre-emption or a debugger (R346, R351)? -/
def State.haltAsked (s : State) (c : Nat) : Bool :=
  (s.core c).halt ≠ .running || ((s.launchOf c).map (·.debugHalted)).getD false

/-- Is the core halted: asked to halt, or saved, and standing at a boundary? -/
def State.halted (s : State) (c : Nat) : Bool := s.haltAsked c && (s.core c).stands

/-- May the streams of a core issue: its launch is running and not pinned, the core runs an entry and is not halted (R284, R346,
R433)? Log entry 37 (DEDUCED). -/
def State.canIssue (s : State) (c : Nat) : Bool :=
  (s.core c).run == .running && !s.halted c &&
    (match s.launchOf c with
     | none => false
     | some l => l.pinned == none && (l.state == .running || l.state == .halting))

/-! ### Traps -/

/-- ECAUSE codes (R19). -/
def ecIllegal : Nat := 1
def ecOperand : Nat := 2
def ecStallCount : Nat := 3
def ecCollision : Nat := 4
def ecFetch : Nat := 5
def ecMisaligned : Nat := 6
def ecStepped : Nat := 7
def ecTrap : Nat := 8
def ecBrk : Nat := 9
def ecStray : Nat := 0xA

/-- A stray access of a core: ECAUSE is 0x0A, and the launch ends (R19, R357). Log entry 62 (DEDUCED). -/
def State.strayAccess (s : State) (c : Nat) : State :=
  (s.onArch c fun a => { a with ecause := ecStray }).pinCore c causeStray

/-- Take a trap (R126): EPC, ECAUSE, EADDR and STATUS.EXC are written, the interrupted pipeline and sequencer are held (R62,
R226), both streams go on at EVEC, and the segment must close at that boundary (R290). -/
def Arch.enterTrap (a : Arch) (cause : Nat) (addr epc : W64) : Arch :=
  let a := a.turned
  { a with
    epc := epc
    ecause := cause
    eaddr := addr
    exc := true
    held := some
      { rb := a.rb, inflX := a.inflX, inflA := a.inflA, cycX := a.cycX, cycA := a.cycA,
        waitX := a.waitX, waitA := a.waitA, loop := a.loop, loopOn := a.loopOn }
    inflX := []
    inflA := []
    waitX := 0
    waitA := 0
    loop := none
    loopOn := false
    pc := a.evec
    skip := 0
    till := none
    ahead := []
    trap := none }

/-- Ask for a close at the boundary where the core stands (R290). -/
def Core.askClose (k : Core) : Core := { k with mustClose := true, closedFor := false, rvPassed := false }

/-- Take a trap on a core; with STATUS.EXC = 1 it is an error pinned to the launch instead (R19). -/
def State.takeTrap (s : State) (c cause : Nat) (addr epc : W64) : State :=
  if (s.core c).arch.exc then s.pinCore c causeHandlerTrap
  else s.onCore c fun k => { k.askClose with arch := k.arch.enterTrap cause addr epc }

/-- Return from a trap (R128): STATUS.EXC is cleared, and the held pipeline and sequencer go on where they stood, whatever EPC now
holds (R226; log entry 14). Results of the ERET bundle's other slots land behind the held ones, on the resumed stream's cycles
(log entry 80, DESIGN CHOICE). -/
def Arch.leaveTrap (a : Arch) : Arch :=
  match a.exc, a.held with
  | true, some h =>
    { a with
      exc := false
      held := none
      inflX := h.inflX ++ a.inflX
      inflA := h.inflA ++ a.inflA
      cycX := h.cycX
      cycA := h.cycA
      waitX := h.waitX
      waitA := h.waitA
      loop := h.loop
      loopOn := h.loopOn
      rb := h.rb }
  | _, _ => { a with exc := false }

/-- Ask for a trap before the bundle at `epc`; TRAP_ENTRY takes it when both streams stand there (R69, R78, R192). -/
def Arch.askTrap (a : Arch) (cause : Nat) (addr epc : W64) : Arch := { a with trap := some ⟨cause, addr, epc, false⟩ }

/-! ### The part that is issuing -/

/-- Take the next syllable word of the part off the latch. -/
def State.latchNext (s : State) (w : W64) (rest : List W64) : State :=
  { s with latch := rest, part := { s.part with slot := wordSlot w } }

/-- Withdraw the part: the core stands as before it, and nothing of it is left to be performed (R11, R192).
Log entry 4 (DESIGN CHOICE). -/
def State.withdraw (s : State) : State := { s.setCore s.part.core s.part.before with latch := [] }

/-- The part met a poisoned value: it does not issue, and a close at its boundary finds the error (R431). -/
def State.meetPoison (s : State) : State :=
  let s := s.withdraw
  s.onCore s.part.core fun k =>
    { k with mustClose := true, seg := { k.seg with errorAt := some s.part.bundle } }

/-- The part is cancelled by a trap, which is taken when the execute stream stands at the bundle (R192, R198, R453).
Log entry 4 (DESIGN CHOICE). -/
def State.cancelPart (s : State) (cause : Nat) (addr : W64) : State :=
  let s := s.withdraw
  s.onArch s.part.core fun a => a.askTrap cause addr s.part.pc

/-- A replay holds a candidate (R374): when that began is kept (R375). `aux` is its AUX where R371 fixes that. -/
def State.noteHold (s : State) (id kind tgt src : Nat) (aux : Nat := 0) : State :=
  s.onLaunch id fun l =>
    if l.holds.any fun h => h.kind == kind && h.tgt == tgt && h.src == src && h.aux == aux then l
    else { l with holds := l.holds ++ [⟨kind, tgt, src, aux, l.ran⟩] }
/-- The stepped checks of some words by a core have been accepted: none of them is held any more (R374, R375). -/
def State.endHolds (s : State) (id : Nat) (tgts : List Nat) (src : Nat) : State :=
  s.onLaunch id fun l =>
    if l.holds.isEmpty then l
    else { l with holds := l.holds.filter fun h => !(h.kind == 9 && h.src == src && tgts.contains h.tgt) }

/-- Settle what an attempt of the part gave. -/
def State.settle (s : State) : Got State → State
  | .ok t => t
  | .stall => s.withdraw
  | .held id kind tgt => s.withdraw.noteHold id kind tgt s.part.core
  | .poison => s.meetPoison
  | .trap cause addr => s.cancelPart cause addr
  | .stray _ => s.withdraw.strayAccess s.part.core

/-- The address that EADDR takes for a defect of the slot being performed (R79). -/
def State.slotAddr (s : State) : W64 := (s.part.slotAt[s.part.slot]?).getD s.part.pc

/-- The guard of a slot as the part reads it (R48, R280). -/
def guardHolds (g : Guard) (preds : BitVec 16) : Bool := predBit preds g.pred.toNat != g.neg

/-- A second taken branch of the bundle: it is suppressed and STATUS.BCOL is set (R66, R452). Log entry 53 (DEDUCED). -/
def State.collide (s : State) : State := s.onArch s.part.core fun a => a.fly .execute .bcol 1 0

/-- The streams go on at a target (R65, R226): a loop whose body the jump leaves has ended, without the turn of its pass; one that
starts brings the stage predicates of its pass 0 (R224). -/
def Arch.go (a : Arch) (j : Jump) : Arch :=
  { a with
    pc := j.target
    skip := j.skip
    till := j.till
    loop := j.loop
    turn := none
    loopOn := j.loopOn
    rb := j.rb
    ahead := []
    p := match j.loop, j.starts with
      | some l, true => l.stagePreds a.p
      | _, _ => a.p }

/-! ### Events, choices -/

/-- Post an event record to the EQ of a core of a launch; EVENT_ENTRY moves it in once there is room (R13, R238). -/
def State.postEventFor (s : State) (id target source : Nat) (w0 w1 : W64) : State :=
  { s with heldEvents := s.heldEvents ++ [⟨flat target, flat source, id, w0, w1⟩] }
/-- Post an event record to a core's EQ. -/
def State.postEvent (s : State) (target source : Nat) (w0 w1 : W64) : State :=
  match (s.core target).launch with
  | none => s
  | some id => s.postEventFor id target source w0 w1

/-- Post a record to a context's host event area; HOST_EVENT_POST writes it once there is room (R348). -/
def State.postHost (s : State) (asid : Nat) (w0 w1 : W64) : State :=
  s.onContext asid fun x => { x with posts := x.posts ++ [(w0, w1)] }

/-- Post a system event; it waits while the ring is full or not registered (R435). -/
def State.postSystem (s : State) (kind asid cause : Nat) (addr : Nat) : State :=
  let w0 := BitVec.ofNat 64 (kind * 2 ^ 60 + asid % 4096 * 2 ^ 48 + cause % 256 * 2 ^ 40)
  { s with ringHeld := s.ringHeld ++ [(w0, BitVec.ofNat 64 addr)] }

/-- The first word of an event record (R238). -/
def eventWord (kind bind info queue seq : Nat) : W64 :=
  BitVec.ofNat 64
    (kind % 16 * 2 ^ 60 + bind % 4 * 2 ^ 58 + info % 65536 * 2 ^ 40 + queue % 8 * 2 ^ 37 + seq % 2 ^ 32)

/-- What the order log makes of a choice: it is made, or it is not the next one logged at its key and is held, or its key's
sequence is used up, which is a divergence (R374, R375). -/
inductive Choice where
  | made (s : State)
  | held
  | diverged
  deriving DecidableEq, Repr, Inhabited

/-- Same key: kind and TGT (R371). -/
def LogRec.sameKey (r : LogRec) (kind tgt : Nat) : Bool := r.kind == kind && r.tgt == tgt

/-- The next unconsumed record of a key. -/
def nextLogged (l : List (LogRec × Bool)) (kind tgt : Nat) : Option LogRec :=
  (l.find? fun (r, used) => !used && r.sameKey kind tgt).map (·.1)

/-- Consume the next record of a key. -/
def consumeLogged (kind tgt : Nat) : List (LogRec × Bool) → List (LogRec × Bool)
  | [] => []
  | (r, used) :: l =>
    if !used && r.sameKey kind tgt then (r, true) :: l else (r, used) :: consumeLogged kind tgt l

/-- Make an order-sensitive choice of a launch (R371 to R375): logged in record mode, where a record too many is an error pinned to the
launch (R373), forced in replay until an error is pinned to the launch, which then ends (R433). `auxFixed` says that AUX must match too. -/
def State.choose (s : State) (id kind tgt src aux : Nat) (auxFixed : Bool) : Choice :=
  match s.launch? id with
  | none => .made s
  | some l =>
    if l.replay then
      match nextLogged l.replayLog kind tgt with
      | none => if l.pinned.isSome then .made s else .diverged
      | some r =>
        if r.src = src ∧ (auxFixed → r.aux = aux) then
          .made (s.onLaunch id fun l =>
            { l with
              replayLog := consumeLogged kind tgt l.replayLog
              replayUsed := l.replayUsed + 1
              holds := l.holds.filter fun h =>
                !(h.kind == kind && h.tgt == tgt && (h.src == src || (kind == 6 && h.src == tgt)) &&
                  (!(kind == 1 || kind == 4) || h.aux == aux)) })
        else if l.pinned.isSome then .made s
        else .held
    else if !l.record then .made s
    else if l.log.length < l.logRoom then .made (s.onLaunch id fun l => { l with log := l.log ++ [⟨kind, src, tgt, l.frame, aux⟩] })
    else .made (s.pin id causeOrderLog src)

/-- A replay diverges (R375): an error pinned to the launch; `off` is the offset of the first log record that could not be met. -/
def State.diverge (s : State) (id off src : Nat) : State :=
  (s.onLaunch id fun l => if l.logFail = none then { l with logFail := some off } else l).pin id causeOrderLog src
/-- The bytes of the log that a launch replays. -/
def State.replayBytes (s : State) (id : Nat) : Nat := ((s.launch? id).map fun l => 16 * l.replayLog.length).getD 0

/-- Settle a choice: a divergence ends the launch as an error pinned to it (R375); a choice held changes nothing else. -/
def State.chooseThen (s : State) (id kind tgt src aux : Nat) (auxFixed : Bool) (go : State → State) : State :=
  match s.choose id kind tgt src aux auxFixed with
  | .made t => go t
  | .held => s.noteHold id kind tgt src (if kind = 1 ∨ kind = 4 then aux else 0)
  | .diverged => s.diverge id (s.replayBytes id) src

/-- Settle a choice that a slot of a part makes: one held stalls the part (R374). -/
def State.chooseGot (s : State) (id kind tgt src aux : Nat) (auxFixed : Bool) (go : State → Got State) : Got State :=
  match s.choose id kind tgt src aux auxFixed with
  | .made t => go t
  | .held => .held id kind tgt
  | .diverged => .ok (s.diverge id (s.replayBytes id) src)

/-! ### Words and bytes -/

/-- The little-endian bytes of a 64-bit value. -/
def bytesOf (n : Nat) (v : W64) : List Byte := leBytes v.toNat n
/-- The 64-bit value of up to eight little-endian bytes. -/
def wordOf (l : List Byte) : W64 := BitVec.ofNat 64 (leNat l l.length)
/-- Sign-extend the low `8 n` bits. -/
def signExt (n : Nat) (v : W64) : W64 := BitVec.ofInt 64 (toInt (8 * n) true (v.toNat % 2 ^ (8 * n)))

/-- PLACE64 (R377). -/
def place64 (seed index : W64) : W64 :=
  let z := seed ^^^ (index * 0x9e3779b97f4a7c15)
  let z := (z ^^^ (z >>> 30)) * 0xbf58476d1ce4e5b9
  let z := (z ^^^ (z >>> 27)) * 0x94d049bb133111eb
  z ^^^ (z >>> 31)
/-- place64 over `n`: the high 64 bits of the product (R377). -/
def placeOver (seed index : W64) (n : Nat) : Nat := (place64 seed index).toNat * n / 2 ^ 64

end Sys2Proof.Machine
end

