-- ==== Sys2Proof/Machine/Operands.lean ====
section
/-! DEFINITION. Sys2Proof/Machine/Operands.lean: how a slot reads its sources and writes its destination (spec/06 R103, R105,
spec/07 R131 to R136, spec/09 R187, R188), vectors as elements, which defects make a slot trap (spec/04 R77), and how a slot
instruction is performed. -/

namespace Sys2Proof.Machine

/-! ### Control slots -/

/-- Read an s-type source: a register under the rotation of the part, or a pop (R9, R14, R103). -/
def Part.srcS (p : Part) (n : Nat) (a : Arch) : Got (W64 × Arch) :=
  if n < 56 then .ok (a.getS (rot p.rb n), a)
  else if n = 56 then a.pop .lq0
  else if n = 57 then a.pop .lq1
  else if n = 60 then a.pop .ax
  else if n = 61 then a.pop .eq
  else if n = 62 then a.pop .mb
  else if n = 63 then a.pop .iq
  else .stall

/-- Send a result to an s-type destination: a register, or a queue entry reserved now (R105). -/
def Part.dstS (p : Part) (n : Nat) (v : W64) (lat : Nat) (flags : BitVec 5) (a : Arch) : Got Arch :=
  if n = 58 then (a.reserve .sq).map fun (id, a) => a.fly .execute (.q .sq id v) lat flags
  else if n = 59 then (a.reserve .xa).map fun (id, a) => a.fly .execute (.q .xa id v) lat flags
  else .ok (a.fly .execute (.s (rot p.rb n) v) lat flags)

/-- A taken branch of a control slot (R65, R66, R452): suppressed behind one that has been taken, put off behind an instruction
of ctl0 that is still undecided, else the link is written and the streams go on at the target. -/
def State.jump (s : State) (j : Jump) : Got State :=
  let p := s.part
  let s := { s with part := { p with claimed := true } }
  let linked := fun a =>
    match j.link with
    | none => Got.ok a
    | some (n, v) => p.dstS n v 1 0 a
  if p.redirected then .ok s.collide
  else
    (linked (s.core p.core).arch).map fun a =>
      if p.undecided then s.onCore p.core fun k => { k with deferred := some j }
      else { s.onArch p.core fun _ => a.go j with part := { s.part with redirected := true } }

/-- A branch that leaves any loop, RB kept (R226). -/
def Part.plainJump (p : Part) (target : W64) (link : Option (Nat × W64)) : Jump := ⟨target, 0, none, none, false, false, p.rb, link⟩

/-- Read a p-type source, a field value 64 to 79 (R103, R280). -/
def Part.srcP (p : Part) (n : Nat) : Bool := predBit p.preds (n - 64)

/-- Send a result to a p-type destination of a control slot (R103). -/
def Part.dstP (_ : Part) (n : Nat) (b : Bool) (lat : Nat) (a : Arch) : Got Arch :=
  .ok (a.fly .execute (.p (n - 64) b) lat 0)

/-! ### Vectors as elements -/

/-- Element `i` of width `w` (R132). -/
def elem (x w i : Nat) : Nat := x / 2 ^ (w * i) % 2 ^ w
/-- Elements of width `w` side by side, the first lowest. -/
def packElems (w : Nat) (l : List Nat) : Nat := l.foldr (fun e acc => e % 2 ^ w + acc * 2 ^ w) 0
/-- The vector whose elements of width `w` are given by a function (R132). -/
def vecOf (w : Nat) (f : Nat → Nat) : VReg := BitVec.ofNat 8192 (packElems w ((List.range (8192 / w)).map f))
/-- Every element holds the low `w` bits of a scalar (R135). -/
def broadcast (w : Nat) (x : W64) : VReg := vecOf w fun _ => x.toNat % 2 ^ w
/-- Bit `i` of a lane mask. -/
def maskBit (m : KReg) (i : Nat) : Bool := m.getLsbD i

/-- A vector result under its mask (R134): active elements receive the result and raise its flags, the others merge or, with
Z or a push port, are zero. -/
def vecMasked (w : Nat) (mask : Nat → Bool) (zero : Bool) (old : VReg) (f : Nat → Nat × BitVec 5) : VReg × BitVec 5 :=
  let o := old.toNat
  let rs := (List.range (8192 / w)).map fun i =>
    if mask i then f i else (if zero then 0 else elem o w i, 0)
  (BitVec.ofNat 8192 (packElems w (rs.map (·.1))), rs.foldl (fun fl r => fl ||| r.2) 0)

/-- Read a v-type source; a scalar is broadcast in elements of width `w` (R131, R135). -/
def Part.srcV (p : Part) (w n : Nat) (a : Arch) : Got (VReg × Arch) :=
  if 64 ≤ n then (p.srcS (n - 64) a).map fun (x, a) => (broadcast w x, a)
  else if n = 56 then a.vpop .vlq0
  else if n = 57 then a.vpop .vlq1
  else if n = 58 then a.vpop .vlq2
  else if n = 59 then a.vpop .vlq3
  else .ok (a.getV (rot p.rb n), a)

/-- Read an x-type source: a scalar, or bytes 0 to 7 of a vector (R131). -/
def Part.srcX (p : Part) (n : Nat) (a : Arch) : Got (W64 × Arch) :=
  if 64 ≤ n then p.srcS (n - 64) a else (p.srcV 64 n a).map fun (x, a) => (x.setWidth 64, a)

/-- Is the number a vector push port (R9)? -/
def isVPush (n : Nat) : Bool := n == 60 || n == 61

/-- The value that a v-type destination holds at issue; a push port holds none (R134). -/
def Part.oldV (p : Part) (n : Nat) (a : Arch) : VReg := if isVPush n then 0 else a.getV (rot p.rb n)

/-- Send a result to a v-type destination: a register, or a queue entry reserved now (R136). -/
def Part.dstV (p : Part) (n : Nat) (x : VReg) (lat : Nat) (flags : BitVec 5) (a : Arch) : Got Arch :=
  if n = 60 then (a.vreserve .vsq0).map fun (id, a) => a.fly .execute (.vq .vsq0 id x) lat flags
  else if n = 61 then (a.vreserve .vsq1).map fun (id, a) => a.fly .execute (.vq .vsq1 id x) lat flags
  else .ok (a.fly .execute (.v (rot p.rb n) x) lat flags)

/-- Send a result to a k-type destination. -/
def Part.dstK (_ : Part) (n : Nat) (x : KReg) (lat : Nat) (a : Arch) : Got Arch := .ok (a.fly .execute (.k n x) lat 0)

/-- The lane mask that a vector modifier names (R133). -/
def Arch.maskOf (a : Arch) (m : BitVec 17) : KReg := a.getK (fld m 4 3)
/-- Bit Z of a vector modifier, or a destination that is a push port (R133, R134). -/
def zeroing (m : BitVec 17) (d : Nat) : Bool := fld m 7 1 == 1 || isVPush d

/-! ### Memory slots -/

/-- Is the access register pending from an off-core load or atomic of an earlier bundle than the latest one issued (R188)? The slots of
one bundle read as of its issue (R59). -/
def Core.heldA (k : Core) (n : Nat) : Bool := n ≠ 0 && k.offs.any fun r => r.dest == .a n && r.bundle + 1 ≠ k.arch.issued

/-- Read an access register: a pending one stalls the part, a marked one is a poisoned read (R188, R431). -/
def Core.readA (k : Core) (n : Nat) : Got W64 :=
  if k.heldA n then .stall else if k.arch.marked .a n then .poison else .ok (k.arch.getA n)

/-- Read an a-type source (R187). -/
def Core.srcA (k : Core) (n : Nat) : Got (W64 × Core) :=
  if n = 28 then (k.arch.pop .xa).map fun (v, a) => (v, { k with arch := a }) else (k.readA n).map fun v => (v, k)

/-- Read an sd-type source (R187). -/
def Core.srcSd (k : Core) (n : Nat) : Got (W64 × Core) :=
  if n = 66 then (k.arch.pop .sq).map fun (v, a) => (v, { k with arch := a }) else k.srcA n

/-- The vector queue of a vq-type field (R51, R187). -/
def vqOf (n : Nat) : VQ :=
  if n = 67 then .vlq0 else if n = 68 then .vlq1 else if n = 69 then .vlq2 else if n = 70 then .vlq3
  else if n = 71 then .vsq0 else .vsq1

/-- Pop `n` entries of a vector queue (R200). -/
def Core.vpops (k : Core) (q : VQ) : Nat → Got (List VReg × Core)
  | 0 => .ok ([], k)
  | n + 1 => (k.arch.vpop q).bind fun (x, a) => (Core.vpops { k with arch := a } q n).map fun (l, k) => (x :: l, k)

/-- The destination of a memory-slot result, its queue entry reserved now (R187, R188). -/
def Core.dest (k : Core) (n : Nat) : Got (Dest × Core) :=
  let res := fun (q : Q) => (k.arch.reserve q).map fun (id, a) => (Dest.q q id, { k with arch := a })
  if n = 29 then res .ax
  else if n = 64 then res .lq0
  else if n = 65 then res .lq1
  else if k.heldA n then .stall
  else .ok (.a n, k)

/-- The destination of an ap-type field (R187). -/
def destP (n : Nat) : Dest := .p (n - 32)

/-- The destination of a vq-type field, its entry reserved now (R187, R188). -/
def Core.destVQ (k : Core) (n : Nat) : Got (Dest × Core) :=
  (k.arch.vreserve (vqOf n)).map fun (id, a) => (Dest.vq (vqOf n) id, { k with arch := a })

/-- What lands at a scalar destination. -/
def Dest.landing (d : Dest) (v : W64) : Landing :=
  match d with
  | .a n => .a n v
  | .p n => .p n (v ≠ 0)
  | .q x id => .q x id v
  | _ => .flagsOnly

/-- Send a fixed-latency result to a memory-slot destination (R189). -/
def Core.flyA (k : Core) (d : Dest) (v : W64) (lat : Nat) : Core :=
  { k with arch := k.arch.fly .access (d.landing v) lat 0 }

/-- The eight words of a layout record group (R209). -/
def Core.group (k : Core) (base : Nat) : Got (List W64) :=
  (List.range 8).foldr (fun i acc => (k.readA (base + i)).bind fun v => acc.map fun l => v :: l) (.ok [])

/-! ### Performing a slot -/

/-- System registers with a field that SYSW may write (R16). -/
def sysWritable (n : Nat) : Bool := n ≤ 5 || n == 0xB || (decide (0x10 ≤ n) && decide (n ≤ 0x1F))
/-- System registers that SYSR may read (R16). -/
def sysReadable (n : Nat) : Bool := n ≤ 0xE || (decide (0x10 ≤ n) && decide (n ≤ 0x1F))

/-- The region that a surrogate instruction names (R239). -/
def regionOf : Instr → Option Nat
  | .sgbeg o | .sgend o | .sginv o | .sgcfg o => some (fld o.m 0 6)
  | _ => none

/-- Modifier values that are defined or not by the state of the sequencer and the module (R223 to R225, R239). -/
def dynOk (i : Instr) (loopOn : Bool) (regions : Nat) : Bool :=
  (match i with
   | .loopm _ => !loopOn
   | .lbrk _ => loopOn
   | _ => true) &&
  (match regionOf i with
   | some r => r < regions
   | none => true)

/-- System register numbers (R16, R77). -/
def sysOk : Instr → Bool
  | .sysr o => sysReadable o.imm.toNat
  | .sysw o => sysWritable o.imm.toNat
  | _ => true

/-- The trap that a slot takes under a true guard for an undefined modifier value or an illegal operand (R77, R78 steps 4, 5). -/
def defectOf (i : Instr) (loopOn inBody : Bool) (regions : Nat) : Option Nat :=
  if !i.modOk || !dynOk i loopOn regions then some ecIllegal
  else if !(i.fields.all fun (t, n) => t.accepts inBody n) || !sysOk i then some ecOperand
  else none

/-- The region count of the module that a core's launch runs (R239). -/
def State.regionCount (s : State) (c : Nat) : Nat :=
  match (s.launchOf c).bind fun l => s.module? l.module with
  | none => 0
  | some m => m.regions.length

/-- The defect of a slot of the part that is issuing. -/
def State.slotDefect (s : State) (i : Instr) : Option Nat :=
  defectOf i s.part.loopOn s.part.loop.isSome (s.regionCount s.part.core)

/-- Perform a slot instruction (R49, R77): nothing under a false guard; under a true one its defect cancels the part, or its
body is tried and settled. -/
def runSlot (i : Instr) (body : State → Got State) (s : State) : Out :=
  match i.guard? with
  | none => .next s
  | some g =>
    if guardHolds g s.part.preds then
      match s.slotDefect i with
      | some cause => .next (s.cancelPart cause s.slotAddr)
      | none => .next (s.settle (body s))
    else .next s

/-- A body that changes only the architectural state of the issuing core. -/
def onPart (f : Part → Arch → Got Arch) (s : State) : Got State :=
  (f s.part (s.core s.part.core).arch).map fun a => s.onArch s.part.core fun _ => a

/-- A body that changes only the issuing core. -/
def onPartCore (f : Part → Core → Got Core) (s : State) : Got State :=
  (f s.part (s.core s.part.core)).map fun k => s.setCore s.part.core k

/-- Two s-type sources and an s-type result. -/
def scalar2 (f : W64 → W64 → W64 × BitVec 5) (lat : Nat) (o : A3) : State → Got State :=
  onPart fun p a =>
    (p.srcS o.s1.toNat a).bind fun (x, a) => (p.srcS o.s2.toNat a).bind fun (y, a) =>
      p.dstS o.d.toNat (f x y).1 lat (f x y).2 a

/-- One s-type source and an s-type result. -/
def scalar1 (f : W64 → W64 × BitVec 5) (lat : Nat) (o : A3) : State → Got State :=
  onPart fun p a => (p.srcS o.s1.toNat a).bind fun (x, a) => p.dstS o.d.toNat (f x).1 lat (f x).2 a

/-- Two s-type sources and a predicate result. -/
def scalarP (f : W64 → W64 → Bool) (lat : Nat) (o : A3) : State → Got State :=
  onPart fun p a =>
    (p.srcS o.s1.toNat a).bind fun (x, a) => (p.srcS o.s2.toNat a).bind fun (y, a) => p.dstP o.d.toNat (f x y) lat a

end Sys2Proof.Machine
end

