-- ==== Sys2Proof/Machine/Flags.lean ====
section
/-! DEFINITION. Sys2Proof/Machine/Flags.lean: scalar floating-point results with their flags (spec/06 R118 to R122), integer
conditions (R114), and the flags of element-wise floating point (spec/07 R145 to R148). No integer, mask, predicate, permute or
move instruction raises a flag (R106, R136). -/

namespace Sys2Proof.Machine

/-- The low 32 bits of a scalar, where FP32 operands stand (R118). -/
def lo32 (x : W64) : Nat := x.toNat % 2 ^ 32

/-- An FP32 result in bits [31:0] with its flags (R118). -/
def fpResult (r : Nat × BitVec 5) : W64 × BitVec 5 := (BitVec.ofNat 64 r.1, r.2)

/-- FADDS, with SUB (R119). -/
def faddsVal (sub : Bool) (x y : W64) : W64 × BitVec 5 :=
  fpResult (if sub then fSub fp32 (lo32 x) (lo32 y) else fAdd fp32 (lo32 x) (lo32 y))
/-- FMULS (R119). -/
def fmulsVal (x y : W64) : W64 × BitVec 5 := fpResult (fMul fp32 (lo32 x) (lo32 y))
/-- FMAS (R119). -/
def fmasVal (np nc : Bool) (x y z : W64) : W64 × BitVec 5 := fpResult (fFma fp32 np nc (lo32 x) (lo32 y) (lo32 z))
/-- FMMS (R121). -/
def fmmsVal (mx : Bool) (x y : W64) : W64 × BitVec 5 := fpResult (fMinMax fp32 mx (lo32 x) (lo32 y), 0)
/-- FCMPS (R120). -/
def fcmpsVal (cond : Nat) (x y : W64) : Bool := fCompare fp32 cond (lo32 x) (lo32 y)

/-- Float to integer of `w` bits, sign- or zero-extended to 64 (R122, R38). -/
def fcvtInt (mode : RMode) (w : Nat) (signed : Bool) (x : W64) : W64 × BitVec 5 :=
  let r := fToInt mode (intLo w signed) (intHi w signed) (fp32.decode (lo32 x))
  (BitVec.ofInt 64 r.1, r.2)

/-- FCVTS (R122). -/
def fcvtsVal (cv : Nat) (mode : RMode) (x : W64) : W64 × BitVec 5 :=
  match cv with
  | 0 => fcvtInt mode 32 true x
  | 1 => fcvtInt mode 32 false x
  | 2 => fcvtInt mode 64 true x
  | 3 => fpResult (intToF fp32 mode (toInt 32 true (lo32 x)))
  | 4 => fpResult (intToF fp32 mode (lo32 x))
  | 5 => fpResult (intToF fp32 mode x.toInt)
  | 6 => fpResult (fConvert fp32 fp16 mode false (lo32 x))
  | 7 => fpResult (fConvert fp16 fp32 mode false (x.toNat % 2 ^ 16))
  | 8 => fpResult (fConvert fp32 bf16 mode false (lo32 x))
  | _ => fpResult (fConvert bf16 fp32 mode false (x.toNat % 2 ^ 16))

/-- The conditions of CMP, CMPI and ACMP (R114). -/
def condHolds (cond : Nat) (x y : W64) : Bool :=
  match cond with
  | 0 => x == y
  | 1 => x != y
  | 2 => x.slt y
  | 3 => !x.slt y
  | 4 => !y.slt x
  | 5 => y.slt x
  | 6 => x.ult y
  | 7 => !x.ult y
  | 8 => !y.ult x
  | 9 => y.ult x
  | 0xA => (x &&& y) != 0
  | _ => (x &&& y) == 0

/-- A two-input truth table: bit 2x + y (R116). -/
def truthTable (tt : Nat) (x y : Bool) : Bool := Nat.testBit tt (2 * x.toNat + y.toNat)

/-- The format of a floating-point element type (R132). -/
def etFmt (et : Nat) : Fmt := if et = 8 then fp32 else if et = 9 then fp16 else bf16

end Sys2Proof.Machine
end

