-- ==== Sys2Proof/Machine/Exact.lean ====
section
/-! DEFINITION. Sys2Proof/Machine/Exact.lean: block formats and their elements (spec/02 R30 to R34), quantisation (R39), the
exact block rule (R43), the BF16 and FP16 tree (R44), the INT8 rule (R45), and the wide pairs of VXDOT and VXADD (spec/07 R149
to R151). Format codes are those of spec/01 R24. -/

namespace Sys2Proof.Machine

/-- An MX format: MXFP4, MXFP8 with E4M3 or E5M2, MXINT8 (R24). -/
def isMx (fmt : Nat) : Bool := fmt == 9 || fmt == 0xA || fmt == 0xB || fmt == 0xC
/-- Element width in bits of a format code; raw elements are bytes (R24, R33, R210). -/
def fmtBits (fmt : Nat) : Nat :=
  if fmt = 9 then 4 else if fmt = 2 ∨ fmt = 5 ∨ fmt = 6 then 16 else if fmt = 3 ∨ fmt = 4 then 32 else 8

/-- The exact value of an MXINT8 code: code x 2^-6 (R31, R32). -/
def mxInt8 (code : Nat) : FVal :=
  let n := toInt 8 true code
  .fin (decide (n < 0)) n.natAbs (-6)

/-- The exact value of an element code of an FP8 or MX format, without its scale (R31). -/
def blockElem (fmt code : Nat) : FVal :=
  if fmt = 9 then e2m1.decode code
  else if fmt = 8 ∨ fmt = 0xB then e5m2.decode code
  else if fmt = 0xC then mxInt8 code
  else e4m3.decode code

/-- The exponent of the unit in which every product of two elements is whole (R150). -/
def blockBase (fmt : Nat) : Int :=
  if fmt = 9 then -2 else if fmt = 8 ∨ fmt = 0xB then -32 else if fmt = 0xC then -12 else -18

/-- What the 32 products of a block hold: specials, and the exact sum of the others in units of the block's base (R43). -/
structure BlockScan where
  nv : Bool
  pinf : Bool
  ninf : Bool
  nan : Bool
  sum : Int
  deriving DecidableEq, Repr, Inhabited

/-- One product joins (R43): a NaN decides its product alone. -/
def BlockScan.add (base : Int) (s : BlockScan) (a b : FVal) : BlockScan :=
  if a.isNan || b.isNan then { s with nan := true }
  else if productInvalid a b then { s with nv := true }
  else if a.isInf || b.isInf then (if a.neg? != b.neg? then { s with ninf := true } else { s with pinf := true })
  else { s with sum := s.sum + (a.mul b).atExp base }

/-- The scan of a block's A and B codes (R43). -/
def scanBlock (fmt : Nat) (a b : List Nat) : BlockScan :=
  (a.zip b).foldl (fun s (x, y) => s.add (blockBase fmt) (blockElem fmt x) (blockElem fmt y)) ⟨false, false, false, false, 0⟩

/-- The exact block rule on one FP32 cell (R43). -/
def exactBlock (fmt : Nat) (c : Nat) (a b : List Nat) (sa sb : Nat) : Nat × BitVec 5 :=
  if sa = 255 ∨ sb = 255 then (fp32.qnan, 0)
  else
    let s := scanBlock fmt a b
    let v := fp32.decode c
    let pinf := s.pinf || (v.isInf && !v.neg?)
    let ninf := s.ninf || (v.isInf && v.neg?)
    if s.nv || (pinf && ninf) then (fp32.qnan, flagNV)
    else if v.isNan || s.nan then (fp32.qnan, 0)
    else if pinf then (fp32.infCode, 0)
    else if ninf then (signCode fp32 true fp32.infCode, 0)
    else if s.sum = 0 then (c, 0)
    else
      let e := blockBase fmt + ((sa : Int) - 127) + ((sb : Int) - 127)
      roundVal fp32 .rne false (v.addFin (.fin (decide (s.sum < 0)) s.sum.natAbs e))

/-- A product of the BF16 and FP16 rule, rounded to FP32 (R44). -/
def treeProduct (f : Fmt) (a b : Nat) : Nat × BitVec 5 :=
  let x := f.decode a
  let y := f.decode b
  if productInvalid x y then (fp32.qnan, flagNV) else roundVal fp32 .rne false (x.mul y)

/-- An FP32 addition of two results, their flags joined. -/
def addResults (x y : Nat × BitVec 5) : Nat × BitVec 5 :=
  let r := fAdd fp32 x.1 y.1
  (r.1, x.2 ||| y.2 ||| r.2)

/-- The BF16 and FP16 rule on one FP32 cell: eight products summed by the fixed tree, then added to the cell (R44). -/
def treeBlock (f : Fmt) (c : Nat) (a b : List Nat) : Nat × BitVec 5 :=
  let p := fun i => treeProduct f ((a[i]?).getD 0) ((b[i]?).getD 0)
  addResults (c, 0)
    (addResults (addResults (addResults (p 0) (p 1)) (addResults (p 2) (p 3)))
      (addResults (addResults (p 4) (p 5)) (addResults (p 6) (p 7))))

/-- The INT8 rule on one INT32 cell, and whether the sum left the range (R45). -/
def int8Block (c : Nat) (a b : List Nat) : Nat × Bool :=
  let s := (a.zip b).foldl (fun (s : Int) (x, y) => s + toInt 8 true x * toInt 8 true y) 0
  let n := toInt 32 true c + s
  (ofInt 32 n, decide (n < intLo 32 true) || decide (intHi 32 true < n))

/-! ### Wide pairs -/

/-- The 16 bytes of a wide pair: N in the low 96 bits, E above (R149). -/
def widePair (n e : Int) : Nat := ofInt 96 n + ofInt 32 e * 2 ^ 96
/-- A special pair: NAN, PINF, NINF in bits 0 to 2 of N, E = 0x7FFF_FFFF (R149). -/
def specialPair (nan pinf ninf : Bool) : Nat :=
  nan.toNat + 2 * pinf.toNat + 4 * ninf.toNat + 0x7FFFFFFF * 2 ^ 96

/-- One block of VXDOT (R150). -/
def vxdotBlock (fmt : Nat) (a b : List Nat) (sa sb : Nat) : Nat × BitVec 5 :=
  if sa = 255 ∨ sb = 255 then (specialPair true false false, 0)
  else
    let s := scanBlock fmt a b
    if s.nv || (s.pinf && s.ninf) then (specialPair true false false, flagNV)
    else if s.nan || s.pinf || s.ninf then (specialPair s.nan s.pinf s.ninf, 0)
    else (widePair s.sum (blockBase fmt + ((sa : Int) - 127) + ((sb : Int) - 127)), 0)

/-- One element of VXADD: a pair is added into an FP32 value (R151). An exponent beyond 2000 in size rounds as 2000 does, with the same
flags. -/
def vxaddElem (c pair : Nat) : Nat × BitVec 5 :=
  let e := pair / 2 ^ 96 % 2 ^ 32
  let n := pair % 2 ^ 96
  let special := e == 0x7FFFFFFF
  let v := fp32.decode c
  let pinf := (special && n.testBit 1) || (v.isInf && !v.neg?)
  let ninf := (special && n.testBit 2) || (v.isInf && v.neg?)
  if pinf && ninf then (fp32.qnan, flagNV)
  else if (special && n.testBit 0) || v.isNan then (fp32.qnan, 0)
  else if pinf then (fp32.infCode, 0)
  else if ninf then (signCode fp32 true fp32.infCode, 0)
  else if n == 0 then (c, 0)
  else
    let k := toInt 96 true n
    roundVal fp32 .rne false (v.addFin (.fin (decide (k < 0)) k.natAbs (max (-2000) (min 2000 (toInt 32 true e)))))

/-! ### Quantisation -/

/-- The exponent of the largest element magnitude of an MX format (R39). -/
def mxEmax (fmt : Nat) : Int := if fmt = 9 then 2 else if fmt = 0xB then 15 else if fmt = 0xC then 0 else 8

/-- One element of a quantised block under the scale 2^x (R39): saturation raises NX only. -/
def quantElem (fmt : Nat) (x : Int) : FVal → Nat × BitVec 5
  | .fin neg m e =>
    if fmt = 0xC then
      let c := cutAt m (e - x + 6) 0 false
      let q := c.round .rne neg
      let r := min q 127
      (ofInt 8 (if neg then -(r : Int) else r), if c.exact && q ≤ 127 then 0 else flagNX)
    else
      let f := if fmt = 9 then e2m1 else if fmt = 0xB then e5m2 else e4m3
      let r := roundMag f .rne true neg m (e - x)
      (r.1, r.2 &&& ~~~flagOF)
  | _ => (0, 0)

/-- Quantise the values of a block (R39): the scale byte, the element codes and the flags. -/
def quantise (fmt : Nat) (l : List FVal) : Nat × List Nat × BitVec 5 :=
  if l.any fun v => v.isNan || v.isInf then (255, l.map fun _ => 0, flagNV)
  else
    let tops := l.filterMap fun v => match v with
      | .fin _ m e => if m = 0 then none else some (topExp m e)
      | _ => none
    match tops with
    | [] => (0, l.map fun _ => 0, 0)
    | t :: ts =>
      let x := max (-127) (min 127 (ts.foldl max t - mxEmax fmt))
      let rs := l.map (quantElem fmt x)
      ((x + 127).toNat, rs.map (·.1), rs.foldl (fun fl r => fl ||| r.2) 0)

/-- The exact value scale x element of an MX block (R31). -/
def mxValue (fmt scale code : Nat) : FVal :=
  let s := scaleVal scale
  let v := blockElem fmt code
  if s.isNan || v.isNan then .nan else s.mul v

/-- A storage format code expanded into E4M3: INT4, E2M3, E3M2 (R34, R158). -/
def expandCode (fmt code : Nat) : Nat :=
  if fmt = 0 then
    let n := toInt 4 true code
    (roundInt e4m3 .rne false n 0).1
  else (roundVal e4m3 .rne false ((if fmt = 1 then e2m3 else e3m2).decode code)).1

end Sys2Proof.Machine
end

