-- ==== Sys2Proof/Machine/Crypto.lean ====
section
/-! DEFINITION. Sys2Proof/Machine/Crypto.lean: SHAKE256 (spec/21 R381), KMAC256 and AES-256-XTS (spec/25 R412) on lists of bytes,
as their standards give them. Bytes are numbers below 256 here. -/

namespace Sys2Proof.Machine

/-! ### Keccak -/

/-- The 24 round constants. -/
def keccakRc : List Nat :=
  [0x1, 0x8082, 0x800000000000808a, 0x8000000080008000, 0x808b, 0x80000001,
   0x8000000080008081, 0x8000000000008009, 0x8a, 0x88, 0x80008009, 0x8000000a,
   0x8000808b, 0x800000000000008b, 0x8000000000008089, 0x8000000000008003, 0x8000000000008002, 0x8000000000000080,
   0x800a, 0x800000008000000a, 0x8000000080008081, 0x8000000000008080, 0x80000001, 0x8000000080008008]
/-- The rotation of lane x + 5 y. -/
def keccakRot : List Nat := [0, 1, 62, 28, 27, 36, 44, 6, 55, 20, 3, 10, 43, 25, 39, 41, 45, 15, 21, 8, 18, 2, 61, 56, 14]
/-- Rotate a 64-bit lane left. -/
def rotl64 (x n : Nat) : Nat := x * 2 ^ n % 2 ^ 64 + x / 2 ^ (64 - n)
/-- A lane of the state. -/
def lane (a : List Nat) (i : Nat) : Nat := (a[i]?).getD 0
/-- One round. -/
def keccakRound (a : List Nat) (rc : Nat) : List Nat :=
  let c := (List.range 5).map fun x => lane a x ^^^ lane a (x + 5) ^^^ lane a (x + 10) ^^^ lane a (x + 15) ^^^ lane a (x + 20)
  let d := (List.range 5).map fun x => lane c ((x + 4) % 5) ^^^ rotl64 (lane c ((x + 1) % 5)) 1
  let e := (List.range 25).map fun i => rotl64 (lane a i ^^^ lane d (i % 5)) (lane keccakRot i)
  let b := (List.range 25).map fun i =>
    let x := i % 5
    let y := i / 5
    lane e ((x + 3 * y) % 5 + 5 * x)
  let f := (List.range 25).map fun i =>
    let y := i / 5 * 5
    lane b i ^^^ ((2 ^ 64 - 1 - lane b ((i + 1) % 5 + y)) &&& lane b ((i + 2) % 5 + y))
  match f with
  | z :: l => (z ^^^ rc) :: l
  | [] => []
/-- The permutation. -/
def keccakF (a : List Nat) : List Nat := keccakRc.foldl keccakRound a

/-- A little-endian number from byte values. -/
def leVal (l : List Nat) : Nat := l.foldr (fun b acc => b + 256 * acc) 0
/-- The `n` little-endian byte values of a number. -/
def leVals (x : Nat) : Nat → List Nat
  | 0 => []
  | n + 1 => x % 256 :: leVals (x / 256) n

/-- XOR a block of 136 bytes into the state and permute. -/
def absorb (a : List Nat) (block : List Nat) : List Nat :=
  keccakF ((List.range 25).map fun i => if i < 17 then lane a i ^^^ leVal ((block.drop (8 * i)).take 8) else lane a i)
/-- Absorb `n` blocks. -/
def absorbN : Nat → List Nat → List Nat → List Nat
  | 0, a, _ => a
  | n + 1, a, l => absorbN n (absorb a (l.take 136)) (l.drop 136)
/-- The sponge of rate 136 with a suffix byte: at most 136 bytes of output. -/
def sponge (suffix : Nat) (msg : List Nat) (outLen : Nat) : List Nat :=
  let n := msg.length / 136 + 1
  let pad := n * 136 - msg.length
  let tail := if pad = 1 then [suffix + 128] else suffix :: (List.replicate (pad - 2) 0 ++ [128])
  let a := absorbN n (List.replicate 25 0) (msg ++ tail)
  (a.flatMap fun x => leVals x 8).take outLen
/-- SHAKE256. -/
def shake256 (msg : List Nat) (outLen : Nat) : List Nat := sponge 0x1F msg outLen

/-- left_encode of a number below 2^16. -/
def leftEncode (x : Nat) : List Nat := if x < 256 then [1, x] else [2, x / 256, x % 256]
/-- right_encode of a number below 2^16. -/
def rightEncode (x : Nat) : List Nat := if x < 256 then [x, 1] else [x / 256, x % 256, 2]
/-- encode_string. -/
def encodeString (l : List Nat) : List Nat := leftEncode (8 * l.length) ++ l
/-- bytepad to 136 bytes. -/
def bytepad (l : List Nat) : List Nat :=
  let m := leftEncode 136 ++ l
  m ++ List.replicate ((136 - m.length % 136) % 136) 0
/-- KMAC256 with a customisation string. -/
def kmac256 (key msg custom : List Nat) (outLen : Nat) : List Nat :=
  let m := bytepad (encodeString key) ++ msg ++ rightEncode (8 * outLen)
  sponge 0x04 (bytepad (encodeString [0x4B, 0x4D, 0x41, 0x43] ++ encodeString custom) ++ m) outLen

/-! ### AES-256-XTS -/

/-- The S-box, byte x at bits 8x. -/
def aesSbox : Nat :=
  0x75b227ebe28012079a059618c323c7041531d871f1e5a534ccf73f362693fdb7c072a49cafa2d4adf04759fa7dc982ca76abd7fe2b670130c56f6bf27b777c63 +
  0xd2f3ff1021dab6bcf5389d928f40a351a89f3c507f02f94585334d43fbaaefd0cf584c4a39becb6a5bb1fc20ed00d153842fe329b3d63b52a05a6e1b1a2c8309 * 2 ^ 512 +
  0x08ae7a65eaf4566ca94ed58d6d37c8e779e4959162acd3c25c2406490a3a32e0db0b5ede14b8ee4688902a22dc4f816073195d643d7ea7c41744975fec130ccd * 2 ^ 1024 +
  0x16bb54b00f2d99416842e6bf0d89a18cdf2855cee9871e9b948ed9691198f8e19e1dc186b95735610ef6034866b53e708a8bbd4b1f74dde8c6b4a61c2e2578ba * 2 ^ 1536
/-- The inverse S-box, byte x at bits 8x. -/
def aesInvSbox : Nat :=
  0x25d18b6d49a25b76b224d92866a12e084ec3fa420b954cee3d23c2a632947b54cbe9dec444438e3487ff2f9b8239e37cfbd7f3819ea340bf38a53630d56a0952 +
  0x6b8a130103bdafc1020f3fca8f1e2cd00645b3b80558e4f70ad3bc8c00abd890849d8da75746155edab9edfd5048706c92b6655dcc5ca4d41698688664f6f872 * 2 ^ 512 +
  0xf45acd78fec0db9a2079d2c64b3e56fc1bbe18aa0e62b76f89c5291d711af1476edf751ce837f9e28535ade72274ac9673e6b4f0cecff297eadc674f4111913a * 2 ^ 1024 +
  0x7d0c2155631469e126d677ba7e042b17619953833cbbebc8b0f52aae4d3be0a0ef9cc9939f7ae52d0d4ab519a97f51605fec8027591012b131c7078833a8dd1f * 2 ^ 1536
/-- Look a byte up. -/
def sub8 (table x : Nat) : Nat := table / 2 ^ (8 * x) % 256
/-- Multiply by x in the AES field. -/
def xtime (x : Nat) : Nat := if x < 128 then 2 * x else (2 * x) % 256 ^^^ 0x1B
/-- Multiply in the AES field by a constant below 16. -/
def mul8 (c x : Nat) : Nat :=
  let x2 := xtime x
  let x4 := xtime x2
  let x8 := xtime x4
  (if c.testBit 0 then x else 0) ^^^ (if c.testBit 1 then x2 else 0) ^^^ (if c.testBit 2 then x4 else 0) ^^^
    (if c.testBit 3 then x8 else 0)
/-- XOR of two lists of bytes. -/
def xorL (a b : List Nat) : List Nat := List.zipWith (fun x y => x ^^^ y) a b
/-- The key schedule as 60 words of four bytes, newest first. -/
def keyWords (key : List Nat) : Nat → List (List Nat)
  | 0 => []
  | n + 1 =>
    let ws := keyWords key n
    if n < 8 then (key.drop (4 * n)).take 4 :: ws
    else
      let prev := (ws[0]?).getD []
      let back := (ws[7]?).getD []
      let t :=
        if n % 8 = 0 then
          let r := (prev.drop 1 ++ prev.take 1).map (sub8 aesSbox)
          xorL r [2 ^ (n / 8 - 1), 0, 0, 0]
        else if n % 8 = 4 then prev.map (sub8 aesSbox)
        else prev
      xorL t back :: ws
/-- The 15 round keys of 16 bytes. -/
def roundKeys (key : List Nat) : List (List Nat) :=
  let ws := (keyWords key 60).reverse
  (List.range 15).map fun i => ((ws.drop (4 * i)).take 4).flatten
/-- ShiftRows, and its inverse with `back`. -/
def shiftRows (back : Bool) (s : List Nat) : List Nat :=
  (List.range 16).map fun i =>
    let r := i % 4
    let c := i / 4
    (s[r + 4 * ((c + (if back then 4 - r else r)) % 4)]?).getD 0
/-- MixColumns with the row 2 3 1 1, or its inverse with 14 11 13 9. -/
def mixColumns (row : List Nat) (s : List Nat) : List Nat :=
  (List.range 16).map fun i =>
    (List.range 4).foldl
      (fun acc j => acc ^^^ mul8 ((row[(j + 4 - i % 4) % 4]?).getD 0) ((s[j + 4 * (i / 4)]?).getD 0)) 0
/-- Encrypt one block under round keys. -/
def aesEnc (rk : List (List Nat)) (blk : List Nat) : List Nat :=
  let k := fun i => (rk[i]?).getD []
  let mid := (List.range 13).foldl
    (fun s i => xorL (mixColumns [2, 3, 1, 1] (shiftRows false (s.map (sub8 aesSbox)))) (k (i + 1))) (xorL blk (k 0))
  xorL (shiftRows false (mid.map (sub8 aesSbox))) (k 14)
/-- Decrypt one block under round keys. -/
def aesDec (rk : List (List Nat)) (blk : List Nat) : List Nat :=
  let k := fun i => (rk[i]?).getD []
  let mid := (List.range 13).foldl
    (fun s i => mixColumns [14, 11, 13, 9] (xorL ((shiftRows true s).map (sub8 aesInvSbox)) (k (13 - i)))) (xorL blk (k 14))
  xorL ((shiftRows true mid).map (sub8 aesInvSbox)) (k 0)
/-- Multiply an XTS tweak by x. -/
def tweakNext (t : Nat) : Nat := if t < 2 ^ 127 then 2 * t else (2 * t) % 2 ^ 128 ^^^ 0x87
/-- XTS over `n` blocks with a block function. -/
def xtsBlocks (f : List Nat → List Nat) : Nat → Nat → List Nat → List Nat
  | 0, _, _ => []
  | n + 1, t, l =>
    let tv := leVals t 16
    xorL (f (xorL (l.take 16) tv)) tv ++ xtsBlocks f n (tweakNext t) (l.drop 16)
/-- AES-256-XTS over a data unit of whole blocks; the key's first 32 bytes are the data key. -/
def xts (decrypt : Bool) (key : List Nat) (unit : Nat) (l : List Nat) : List Nat :=
  let rk := roundKeys (key.take 32)
  let t := leVal (aesEnc (roundKeys (key.drop 32)) (leVals unit 16))
  xtsBlocks (if decrypt then aesDec rk else aesEnc rk) (l.length / 16) t l

/-- Byte values of a list of bytes. -/
def valsOf (l : List Byte) : List Nat := l.map (·.toNat)
/-- Bytes of a list of byte values. -/
def bytesOfVals (l : List Nat) : List Byte := l.map (BitVec.ofNat 8 ·)

end Sys2Proof.Machine
end

