-- ==== Sys2Proof/Machine/Ed448.lean ====
section
/-! DEFINITION. Sys2Proof/Machine/Ed448.lean: Ed448 with an empty context (spec/18 R334, spec/27 R441 to R444), as RFC 8032 has it: the
public key of a private one, signing, verification. Log entry 11 (PRESUMED). -/

namespace Sys2Proof.Machine

/-- The prime of the field. -/
def edP : Nat := 2 ^ 448 - 2 ^ 224 - 1
/-- The order of the base point. -/
def edL : Nat := 2 ^ 446 - 13818066809895115352007386748515426880336692474882178609894547503885
/-- The curve's constant d = -39081: x² + y² = 1 + d x² y². -/
def edD : Nat := edP - 39081

/-- Powers in the field, by the bits of the exponent, lowest first. -/
def edPow : Nat → Nat → Nat → Nat → Nat
  | 0, _, _, acc => acc
  | fuel + 1, x, n, acc => edPow fuel (x * x % edP) (n / 2) (if n % 2 = 1 then acc * x % edP else acc)
/-- x - y in the field. -/
def edSub (x y : Nat) : Nat := (x + edP - y % edP) % edP

/-- A point of the curve in projective coordinates. -/
structure EdPoint where
  x : Nat
  y : Nat
  z : Nat
  deriving DecidableEq, Repr, Inhabited

/-- The neutral point. -/
def EdPoint.zero : EdPoint := ⟨0, 1, 1⟩
/-- The base point. -/
def EdPoint.base : EdPoint where
  x := 224580040295924300187604334099896036246789641632564134246125461686950415467406032909029192869357953282578032075146446173674602635247710
  y := 298819210078481492676017930443930673437544040154080242095928241372331506189835876003536878655418784733982303233503462500531545062832660
  z := 1
/-- The sum of two points. -/
def EdPoint.add (p q : EdPoint) : EdPoint :=
  let a := p.z * q.z % edP
  let b := a * a % edP
  let c := p.x * q.x % edP
  let d := p.y * q.y % edP
  let e := edD * c % edP * d % edP
  let f := edSub b e
  let g := (b + e) % edP
  let h := (p.x + p.y) * (q.x + q.y) % edP
  ⟨a * f % edP * edSub h (c + d) % edP, a * g % edP * edSub d c % edP, f * g % edP⟩
/-- `n` times a point, by the bits of `n`, lowest first. -/
def EdPoint.mulFrom : Nat → EdPoint → Nat → EdPoint → EdPoint
  | 0, _, _, acc => acc
  | fuel + 1, p, n, acc => EdPoint.mulFrom fuel (p.add p) (n / 2) (if n % 2 = 1 then acc.add p else acc)
/-- `n` times a point. -/
def EdPoint.mul (n : Nat) (p : EdPoint) : EdPoint := EdPoint.mulFrom 456 p n .zero
/-- Are two points the same? -/
def EdPoint.same (p q : EdPoint) : Bool := p.x * q.z % edP == q.x * p.z % edP && p.y * q.z % edP == q.y * p.z % edP

/-- The 57 bytes of a point: y, and the low bit of x at the top. -/
def EdPoint.encode (p : EdPoint) : List Nat :=
  let i := edPow 448 p.z (edP - 2) 1
  let n := p.y * i % edP + p.x * i % edP % 2 * 2 ^ 455
  (List.range 57).map fun k => n / 256 ^ k % 256
/-- The number of little-endian bytes. -/
def edNat (l : List Nat) : Nat := l.foldr (fun b n => b + 256 * n) 0
/-- The point that 57 bytes stand for, if they do. -/
def edDecode (l : List Nat) : Option EdPoint :=
  let n := edNat l
  let y := n % 2 ^ 455
  let sign := n / 2 ^ 455
  let u := edSub (y * y % edP) 1
  let v := edSub (edD * (y * y % edP) % edP) 1
  let uuu := u * u % edP * u % edP
  let vvv := v * v % edP * v % edP
  let x := uuu * v % edP * edPow 448 (uuu * u % edP * u % edP * vvv % edP) ((edP - 3) / 4) 1 % edP
  if l.length ≠ 57 ∨ edP ≤ y ∨ v * (x * x % edP) % edP ≠ u ∨ (x = 0 ∧ sign = 1) then none
  else some ⟨if x % 2 = sign then x else edP - x, y, 1⟩

/-- The hash of Ed448 with an empty context: 114 bytes, as a number. -/
def edHash (l : List Nat) : Nat := edNat (shake256 ([0x53, 0x69, 0x67, 0x45, 0x64, 0x34, 0x34, 0x38, 0, 0] ++ l) 114)
/-- The secret scalar and the prefix of a private key. -/
def edSecret (key : List Nat) : Nat × List Nat :=
  let h := shake256 key 114
  let n := edNat (h.take 57)
  (n % 2 ^ 447 / 4 * 4 + 2 ^ 447, h.drop 57)

/-- The public key of a private one (R443). -/
def ed448Public (key : List Byte) : List Byte := bytesOfVals (EdPoint.mul (edSecret (valsOf key)).1 .base).encode
/-- The signature of a message under a private key (R442, R444). -/
def ed448Sign (key msg : List Byte) : List Byte :=
  let (s, prefix_) := edSecret (valsOf key)
  let a := (EdPoint.mul s .base).encode
  let r := edHash (prefix_ ++ valsOf msg) % edL
  let c := (EdPoint.mul r .base).encode
  let k := edHash (c ++ a ++ valsOf msg) % edL
  let t := (r + k * s) % edL
  bytesOfVals (c ++ (List.range 57).map fun i => t / 256 ^ i % 256)
/-- Is a signature of a message valid under a public key (R334, R441, R442)? -/
def ed448Verify (key msg sig : List Byte) : Bool :=
  let r := valsOf (sig.take 57)
  let s := edNat (valsOf (sig.drop 57))
  match edDecode (valsOf key), edDecode r with
  | some a, some c =>
    let k := edHash (r ++ valsOf key ++ valsOf msg) % edL
    sig.length == 114 && decide (s < edL) && (EdPoint.mul 4 (EdPoint.mul s .base)).same (EdPoint.mul 4 (c.add (EdPoint.mul k a)))
  | _, _ => false

end Sys2Proof.Machine
end

