-- ==== Sys2Proof/Machine/Flash.lean ====
section
/-! DEFINITION. Sys2Proof/Machine/Flash.lean: fields of byte strings, and the configuration blocks of board flash that Markhor reads and
writes (spec/27 R442). -/

namespace Sys2Proof.Machine

/-! ### Bytes of a file -/

/-- A little-endian field of `n` bytes at an offset. -/
def rd (f : List Byte) (off n : Nat) : Nat := leNat ((f.drop off).take n) n
/-- Are the bytes zero? -/
def zeros (f : List Byte) (off n : Nat) : Bool := ((f.drop off).take n).all (· == 0)
/-- The bytes of a range. -/
def bytesAt (f : List Byte) (off n : Nat) : List Byte := (f.drop off).take n
/-- Records of a fixed size. -/
def recordsOf (size : Nat) (l : List Byte) : List (List Byte) :=
  (List.range (l.length / size)).map fun i => bytesAt l (size * i) size

/-! ### What Markhor writes to flash (R442) -/

/-- The digest of 64 bytes that signatures cover. -/
def digest64 (l : List Byte) : List Byte := bytesOfVals (shake256 (valsOf l) 64)
/-- The head of a configuration block. -/
def blockHead (kind seq len : Nat) : List Byte :=
  leBytes 0x39594643 4 ++ leBytes kind 2 ++ leBytes 0 2 ++ leBytes seq 8 ++ leBytes len 4 ++ leBytes 0 4
/-- KIND, SEQ, LEN and BODY of a block. -/
def CfgBlock.kind (b : CfgBlock) : Nat := rd b.bytes 4 2
def CfgBlock.seq (b : CfgBlock) : Nat := rd b.bytes 8 8
def CfgBlock.len (b : CfgBlock) : Nat := rd b.bytes 16 4
def CfgBlock.body (b : CfgBlock) : List Byte := bytesAt b.bytes 24 b.len
/-- The digest of a block, which its signature covers. -/
def CfgBlock.digest (b : CfgBlock) : List Byte := digest64 (b.bytes.take (24 + b.len))
/-- Markhor writes a block of its own, signed with the identity key. -/
def Markhor.writeBlock (m : Markhor) (kind : Nat) (body : List Byte) : Markhor :=
  match m.identity with
  | none => m
  | some key =>
    let last := (m.blocks.filter fun b => b.kind == kind).foldl (fun n b => max n b.seq) 0
    let signed := blockHead kind (last + 1) body.length ++ body
    { m with blocks := m.blocks ++ [⟨signed ++ ed448Sign key (digest64 signed)⟩] }
/-- The body of the spare-lane map: four bytes for each swap (log entry 23). -/
def laneBody (l : List (Nat × Nat × Nat × Nat)) : List Byte :=
  l.flatMap fun x => [x.1, x.2.1, x.2.2.1, x.2.2.2].map (BitVec.ofNat 8 ·)
/-- Read a spare-lane map. -/
def lanesOfBody (l : List Byte) : List (Nat × Nat × Nat × Nat) :=
  (recordsOf 4 l).map fun r => (rd r 0 1, rd r 1 1, rd r 2 1, rd r 3 1)
/-- The body of the retired ranges: eight bytes for each (log entry 23). -/
def retiredBody (l : List Nat) : List Byte := l.flatMap fun a => leBytes a 8
/-- Read the retired ranges. -/
def retiredOfBody (l : List Byte) : List Nat := (recordsOf 8 l).map fun r => rd r 0 8

end Sys2Proof.Machine
end

