-- ==== Sys2Proof/Machine/Rs.lean ====
section
/-! DEFINITION. Sys2Proof/Machine/Rs.lean: the shortened Reed-Solomon code over GF(2^16) of a sector image (spec/25 R409):
262 message symbols, 10 check symbols, up to five symbols corrected. Symbols are numbers below 2^16. -/

namespace Sys2Proof.Machine

/-- Multiply by x modulo x^16 + x^12 + x^3 + x + 1. -/
def gfX (a : Nat) : Nat := if a < 2 ^ 15 then 2 * a else (2 * a) ^^^ 0x1100B
/-- Multiply, taking the low `n` bits of `b`. -/
def gfMulN : Nat → Nat → Nat → Nat
  | 0, _, _ => 0
  | n + 1, a, b => (if b % 2 = 1 then a else 0) ^^^ gfMulN n (gfX a) (b / 2)
/-- Multiplication in the field. -/
def gfMul (a b : Nat) : Nat := if a = 0 ∨ b = 0 then 0 else gfMulN 16 a b
/-- a^e by squaring, for exponents below 2^n. -/
def gfPow : Nat → Nat → Nat → Nat
  | 0, _, _ => 1
  | n + 1, a, e => gfMul (if e % 2 = 1 then a else 1) (gfPow n (gfMul a a) (e / 2))
/-- The inverse of a nonzero element. -/
def gfInv (a : Nat) : Nat := gfPow 16 a (2 ^ 16 - 2)
/-- alpha^i. -/
def gfAlpha (i : Nat) : Nat := gfPow 16 2 (i % (2 ^ 16 - 1))

/-- A coefficient of a polynomial, lowest first. -/
def coef (p : List Nat) (i : Nat) : Nat := (p[i]?).getD 0
/-- Evaluate a polynomial. -/
def evalPoly (p : List Nat) (x : Nat) : Nat := p.foldr (fun c acc => c ^^^ gfMul x acc) 0
/-- The generator polynomial with roots alpha^0 to alpha^9, lowest coefficient first. -/
def rsGenerator : List Nat :=
  (List.range 10).foldl (fun g i =>
    (List.range (g.length + 1)).map fun k => (if k = 0 then 0 else coef g (k - 1)) ^^^ gfMul (gfAlpha i) (coef g k)) [1]

/-- One step of the division: the ten check symbols, c0 first, and the next message symbol. -/
def rsShift (gen : List Nat) (c : List Nat) (m : Nat) : List Nat :=
  let f := m ^^^ coef c 9
  (List.range 10).map fun i => (if i = 0 then 0 else coef c (i - 1)) ^^^ gfMul f (coef gen i)
/-- The check symbols c0 to c9 of the message symbols m0 to m261; those of the zero message are zero. -/
def rsCheck (msg : List Nat) : List Nat :=
  if msg.all (· == 0) then List.replicate 10 0
  else
    let gen := rsGenerator
    msg.reverse.foldl (rsShift gen) (List.replicate 10 0)

/-- The syndromes of a received word, c0 to c9 then m0 to m261. -/
def syndromes (w : List Nat) : List Nat := (List.range 10).map fun j => evalPoly w (gfAlpha j)

/-- The state of the search for the error locator: locator, its last correction, shift, last discrepancy, length. -/
structure Locator where
  lam : List Nat
  prev : List Nat
  shift : Nat
  disc : Nat
  len : Nat
  deriving DecidableEq, Repr, Inhabited

/-- One step of the Berlekamp-Massey search. -/
def Locator.step (syn : List Nat) (l : Locator) (n : Nat) : Locator :=
  let d := (List.range (l.len + 1)).foldl (fun acc i => acc ^^^ gfMul (coef l.lam i) (coef syn (n - i))) 0
  if d = 0 then { l with shift := l.shift + 1 }
  else
    let q := gfMul d (gfInv l.disc)
    let size := max l.lam.length (l.prev.length + l.shift)
    let lam := (List.range size).map fun i =>
      coef l.lam i ^^^ (if i < l.shift then 0 else gfMul q (coef l.prev (i - l.shift)))
    if 2 * l.len ≤ n then ⟨lam, l.lam, 1, d, n + 1 - l.len⟩
    else { l with lam := lam, shift := l.shift + 1 }

/-- The error locator of a list of syndromes. -/
def locator (syn : List Nat) : Locator := (List.range 10).foldl (Locator.step syn) ⟨[1], [1], 1, 1, 0⟩

/-- Correct a received word to the codeword within five symbols, with the number of symbols corrected, or nothing (R409). -/
def rsDecode (w : List Nat) : Option (List Nat × Nat) :=
  let msg := w.drop 10
  if rsCheck msg = w.take 10 then some (w, 0)
  else
    let syn := syndromes w
    let l := locator syn
    let roots := (List.range w.length).filter fun i => evalPoly l.lam (gfAlpha (2 ^ 16 - 1 - i)) == 0
    if l.len ≤ 5 ∧ roots.length = l.len then
      let omega := (List.range 10).map fun k =>
        (List.range (k + 1)).foldl (fun acc i => acc ^^^ gfMul (coef l.lam i) (coef syn (k - i))) 0
      let deriv := (List.range l.lam.length).map fun i => if i % 2 = 0 then coef l.lam (i + 1) else 0
      let fixed := (List.range w.length).map fun i =>
        if roots.contains i then
          let xi := gfAlpha (2 ^ 16 - 1 - i)
          coef w i ^^^ gfMul (gfAlpha i) (gfMul (evalPoly omega xi) (gfInv (evalPoly deriv xi)))
        else coef w i
      if rsCheck (fixed.drop 10) = fixed.take 10 then some (fixed, roots.length) else none
    else none

end Sys2Proof.Machine
end

