-- ==== Sys2Proof/Machine/Hbm.lean ====
section
/-! DEFINITION. Sys2Proof/Machine/Hbm.lean: the stacked memory (spec/25): placement, sector images, encryption and tag, reads,
writes with their parity deltas, the vertical bus, reconstruction, logs, degraded mode and re-striping. An image is its 262 message symbols. -/

namespace Sys2Proof.Machine

/-! ### Placement -/

/-- Where a sector of a physical address lies (R406, R424): data stack, parity stack, local sector, the stacks of its stripe. -/
structure Spot where
  data : Nat
  parity : Nat
  sector : Nat
  row : List Nat
  deriving DecidableEq, Repr, Inhabited

/-- The first physical address beyond HBM: 660 GiB (R406). -/
def hbmEnd : Nat := 0xA500000000
/-- 600 GiB, the usable capacity of a re-striped package (R424). -/
def restripeEnd : Nat := 0x9600000000
/-- The usable capacity (R406, R424). -/
def Hbm.capacity (h : Hbm) : Nat := if h.cursor.isSome then restripeEnd else hbmEnd
/-- The stacks that are not lost, ascending (R424). -/
def Hbm.survivors (h : Hbm) : List Nat := (List.range numStacks).filter fun i => !h.lost.contains i
/-- Does the re-striped layout hold at a physical address (R424)? -/
def Hbm.restriped (h : Hbm) (pa : Nat) : Bool :=
  match h.cursor with
  | none => false
  | some c => c ≤ pa
/-- The spot of a physical address in the layout of 11 + 1 (R406). -/
def oldSpot (pa : Nat) : Spot :=
  let n := pa / 22528
  let j := pa % 22528 / 2048
  ⟨(n + 1 + j) % 12, n % 12, (n * 2048 + pa % 2048) / 512, List.range numStacks⟩
/-- The spot in the layout of 10 + 1 over the stacks that survived when it was asked for (R424). -/
def Hbm.newSpot (h : Hbm) (pa : Nat) : Spot :=
  let l := h.layout
  let m := pa / 20480
  let j := pa % 20480 / 2048
  ⟨(l[(m + 1 + j) % 11]?).getD 0, (l[m % 11]?).getD 0, (m * 2048 + pa % 2048) / 512, l⟩
/-- The spot of a physical address. -/
def Hbm.spot (h : Hbm) (pa : Nat) : Spot := if h.restriped pa then h.newSpot pa else oldSpot pa

/-- Raw address of a local sector's stored bytes (R407). -/
def rawData (q : Nat) : Nat := q / 15 * 8192 + q % 15 * 512
/-- Raw address of its metadata block (R407). -/
def rawMeta (q : Nat) : Nat := q / 15 * 8192 + 7680 + q % 15 * 32
/-- The channel of a local sector (R407). -/
def channelOf (q : Nat) : Nat := q / 15 % 32
/-- Is the unit on a lost stack, or served by a failed channel (R422)? -/
def Hbm.gone (h : Hbm) (stack q : Nat) : Bool := h.lost.contains stack || h.failed.contains (stack, channelOf q)

/-- A raw byte of a stack. -/
def Hbm.raw (h : Hbm) (stack a : Nat) : Byte := Sparse.get 0 h.dram (stack * 2 ^ 36 + a)
/-- Write raw bytes of a stack from an address upward. -/
def Hbm.putRaw (h : Hbm) (stack a : Nat) : List Byte → Hbm
  | [] => h
  | b :: l => Hbm.putRaw { h with dram := Sparse.set 0 h.dram (stack * 2 ^ 36 + a) b } stack (a + 1) l

/-! ### Logs -/

/-- On whose behalf an access is made, for the logs (R416): the requesting context, 0 for scrub and repair, and the tick. -/
structure Asker where
  asid : Nat
  tick : Nat
  deriving DecidableEq, Repr, Inhabited

/-- Append to the array or transfer log of a stack, the oldest of 256 records giving way (R416). -/
def Hbm.log (h : Hbm) (transfer : Bool) (kind stack q nsym lane retries raw : Nat) (w : Asker) : Hbm :=
  let w0 := BitVec.ofNat 64
    (kind * 2 ^ 60 + stack * 2 ^ 56 + channelOf q * 2 ^ 51 + nsym * 2 ^ 48 + lane * 2 ^ 41 + retries * 2 ^ 38 + raw)
  let w1 := BitVec.ofNat 64 (w.asid % 4096 * 2 ^ 52 + w.tick % 2 ^ 52)
  let r : MemLog := ⟨stack, transfer, w0, w1⟩
  let same := fun (m : MemLog) => m.stack == stack && m.transfer == transfer
  if (h.logs.filter same).length < 256 then { h with logs := h.logs ++ [r] }
  else
    let key := 2 * stack + transfer.toNat
    { h with logs := (h.logs.eraseP same) ++ [r], overflow := Sparse.set 0 h.overflow key (Sparse.get 0 h.overflow key + 1) }
/-- Append to the array log a record without lane and retries. -/
def Hbm.logArray (h : Hbm) (kind stack q nsym : Nat) (w : Asker) : Hbm :=
  h.log false kind stack q nsym 127 0 (rawData q) w

/-! ### The vertical bus (R415) -/

/-- Is an odd number of the 32 lanes of a lane group in error on a beat, so that the group's parity bit shows it? -/
def groupOdd (x : BitVec 64) (g : Nat) : Bool := (List.range 32).foldl (fun p i => p != x.getLsbD (32 * g + i)) false
/-- The lane groups that fail parity in an attempt, given its beats in error. -/
def failingGroups (a : List (Nat × BitVec 64)) : List Nat := [0, 1].filter fun g => a.any fun b => groupOdd b.2 g
/-- The spare lanes of a channel that are still free, ascending. -/
def Hbm.spares (h : Hbm) (stack ch : Nat) : List Nat :=
  [64, 65].filter fun x => !(h.lanes.any fun l => l.1 == stack && l.2.1 == ch && l.2.2.2 == x)
/-- Lane errors that parity does not show reach the cells or their reader: eight bytes for each beat. Log entry 87 (DEDUCED). -/
def Hbm.slip (h : Hbm) (stack raw : Nat) (a : List (Nat × BitVec 64)) : Hbm :=
  a.foldl (fun h b =>
    let at_ := raw + b.1 % 64 * 8
    h.putRaw stack at_ (leBytes (leNat ((List.range 8).map fun i => h.raw stack (at_ + i)) 8 ^^^ b.2.toNat) 8)) h
/-- A transfer that meets errors: it is repeated up to four times, and a clean repeat is logged; after a fourth failed one the failing
lanes of the failing groups are remapped, or the channel fails. -/
def Hbm.meet (h : Hbm) (q : Nat) (b : BusFault) (w : Asker) : Hbm :=
  let ch := channelOf q
  let tries := (b.attempts.take 5).map failingGroups
  let n := (tries.takeWhile fun g => !g.isEmpty).length
  let got := h.slip b.stack b.raw ((b.attempts[n]?).getD [])
  if n = 0 then got
  else if n < 5 then got.log true 8 b.stack q 0 127 n b.raw w
  else
    let groups := (tries[4]?).getD []
    let lanes := distinct (b.lanes.filter fun l => groups.contains (l / 32))
    let free := h.spares b.stack ch
    if free.length < lanes.length then
      { h.log true 0xA b.stack q 0 127 4 b.raw w with failed := h.failed ++ [(b.stack, ch)] }
    else
      (lanes.zip free).foldl
        (fun h x => { h.log true 9 b.stack q 0 x.1 4 b.raw w with lanes := h.lanes ++ [(b.stack, ch, x.1, x.2)] }) h
/-- A transfer of the sector or metadata area at a raw address, in either direction. -/
def Hbm.transfer (h : Hbm) (stack q raw : Nat) (w : Asker) : Hbm :=
  match h.bus.find? fun b => b.stack == stack && b.raw == raw with
  | none => h
  | some b => { h with bus := h.bus.erase b }.meet q b w

/-! ### The check-bit caches (R410) -/

/-- Lines of a channel's check-bit cache. -/
def cacheLines : Nat := 128
/-- The group of a local sector, and the raw address of a group's metadata area (R407). -/
def groupOf (q : Nat) : Nat := q / 15
def rawArea (g : Nat) : Nat := 8192 * g + 7680
/-- Replace bytes of a list from an index upward. -/
def spliceBytes (l : List Byte) (off : Nat) (bytes : List Byte) : List Byte :=
  l.take off ++ bytes ++ l.drop (off + bytes.length)
/-- The line of a group, if its channel's cache has it. -/
def Hbm.line? (h : Hbm) (stack g : Nat) : Option CheckLine := h.cache.find? fun l => l.stack == stack && l.group == g
/-- The metadata area of a group in DRAM. -/
def Hbm.area (h : Hbm) (stack g : Nat) : List Byte := (List.range 512).map fun i => h.raw stack (rawArea g + i)
/-- A full cache of a channel gives its oldest line up, which is written back if it has been written. Log entry 72 (DESIGN CHOICE). -/
def Hbm.evict (h : Hbm) (stack ch : Nat) (w : Asker) : Hbm :=
  let mine := h.cache.filter fun l => l.stack == stack && l.group % 32 == ch
  if mine.length < cacheLines then h
  else match mine with
    | [] => h
    | l :: _ =>
      let h := { h with cache := h.cache.erase l }
      if l.dirty then (h.putRaw l.stack (rawArea l.group) l.bytes).transfer l.stack (15 * l.group) (rawArea l.group) w else h
/-- A sector access whose group's line is absent reads the metadata area first. Log entry 72 (DESIGN CHOICE). -/
def Hbm.touch (h : Hbm) (stack q : Nat) (w : Asker) : Hbm :=
  let g := groupOf q
  if (h.line? stack g).isSome then h
  else
    let h := (h.evict stack (channelOf q) w).transfer stack q (rawArea g) w
    { h with cache := h.cache ++ [⟨stack, g, h.area stack g, false⟩] }
/-- The metadata block of a sector: in its line, if there is one. -/
def Hbm.block (h : Hbm) (stack q : Nat) : List Byte :=
  match h.line? stack (groupOf q) with
  | some l => (l.bytes.drop (32 * (q % 15))).take 32
  | none => (List.range 32).map fun i => h.raw stack (rawMeta q + i)
/-- Write the metadata block of a sector into its line. -/
def Hbm.putBlock (h : Hbm) (stack q : Nat) (b : List Byte) (w : Asker) : Hbm :=
  let h := h.touch stack q w
  { h with cache := h.cache.map fun l =>
      if l.stack = stack ∧ l.group = groupOf q then { l with bytes := spliceBytes l.bytes (32 * (q % 15)) b, dirty := true } else l }

/-! ### Images -/

/-- Little-endian pairs of bytes as symbols (R409). -/
def symbolsOf : List Byte → List Nat
  | a :: b :: l => (a.toNat + 256 * b.toNat) :: symbolsOf l
  | [a] => [a.toNat]
  | [] => []
/-- Symbols as little-endian pairs of bytes. -/
def bytesOfSymbols (l : List Nat) : List Byte := l.flatMap fun x => [BitVec.ofNat 8 x, BitVec.ofNat 8 (x / 256)]
/-- The received word of a sector: check symbols, then message symbols (R408, R409). -/
def Hbm.word (h : Hbm) (stack q : Nat) : List Nat :=
  let b := h.block stack q
  symbolsOf (b.drop 12) ++ symbolsOf ((List.range 512).map fun i => h.raw stack (rawData q + i)) ++ symbolsOf (b.take 12)
/-- Write an image with its check symbols (R413): the sector, and its metadata block in the channel's cache (R410). -/
def Hbm.putImage (h : Hbm) (stack q : Nat) (img : List Nat) (w : Asker) : Hbm :=
  ((h.putRaw stack (rawData q) (bytesOfSymbols (img.take 256))).transfer stack q (rawData q) w).putBlock stack q
    (bytesOfSymbols (img.drop 256 ++ rsCheck img)) w
/-- Write an image into its unit, unless that is lost (R423). -/
def Hbm.putIn (h : Hbm) (stack q : Nat) (img : List Nat) (w : Asker) : Hbm := if h.gone stack q then h else h.putImage stack q img w
/-- The stored bytes of an image. -/
def imgData (img : List Nat) : List Byte := bytesOfSymbols (img.take 256)
/-- MISC of an image. -/
def imgMisc (img : List Nat) : Nat := (img[260]?).getD 0 + 65536 * (img[261]?).getD 0
/-- TAG of an image. -/
def imgTag (img : List Nat) : List Nat := (img.drop 256).take 4
/-- KEY of an image (R408). -/
def imgKey (img : List Nat) : Nat := imgMisc img / 2 ^ 24 % 16
/-- POISON of an image (R408). -/
def imgPoison (img : List Nat) : Bool := imgMisc img / 2 ^ 31 % 2 == 1
/-- The XOR of two images. -/
def imgXor (a b : List Nat) : List Nat := List.zipWith (fun x y => x ^^^ y) a b
/-- The zero image. -/
def imgZero : List Nat := List.replicate 262 0
/-- The zero image with POISON = 1 (R418). -/
def imgLost : List Nat := List.replicate 261 0 ++ [2 ^ 15]

/-- The XTS key of an id as bytes, the lowest first (R412; log entry 16). -/
def Hbm.xtsKey (h : Hbm) (k : Nat) : List Nat := leVals (Sparse.get 0 h.keyXts k).toNat 64
/-- The integrity key of an id as bytes. Log entry 16 (DESIGN CHOICE). -/
def Hbm.macKey (h : Hbm) (k : Nat) : List Nat := leVals (Sparse.get 0 h.keyMac k).toNat 32
/-- The customisation string "AY9 sector" (R412). -/
def sectorString : List Nat := [0x41, 0x59, 0x39, 0x20, 0x73, 0x65, 0x63, 0x74, 0x6F, 0x72]
/-- The tag of a sector (R412), as symbols. -/
def Hbm.tagOf (h : Hbm) (k pa misc : Nat) (stored : List Byte) : List Nat :=
  symbolsOf (bytesOfVals (kmac256 (h.macKey k) (leVals (pa / 512) 8 ++ leVals misc 4 ++ valsOf stored) sectorString 8))
/-- Encrypt or decrypt the bytes of a sector under a key id (R412). -/
def Hbm.crypt (h : Hbm) (decrypt : Bool) (k pa : Nat) (l : List Byte) : List Byte :=
  if k = 0 then l else bytesOfVals (xts decrypt (h.xtsKey k) (pa / 512) (valsOf l))
/-- The image of 512 plaintext bytes written under a key id (R413). -/
def Hbm.makeImage (h : Hbm) (k pa : Nat) (plain : List Byte) : List Nat :=
  let stored := h.crypt false k pa plain
  let misc := k % 16 * 2 ^ 24
  let tag := if k = 0 then [0, 0, 0, 0] else h.tagOf k pa misc stored
  symbolsOf stored ++ tag ++ [misc % 65536, misc / 65536]

/-! ### Shadow windows (R419) -/

/-- Requests kept for each source at a target (R260, R419). -/
def windowDepth : Nat := 64
/-- Append a request to windows of which each holds the latest 64. -/
def enterWindow {α : Type} (same : α → Bool) (l : List α) (x : α) : List α :=
  (if (l.filter same).length < windowDepth then l else l.eraseP same) ++ [x]
/-- A parity controller keeps the request that a delta carries. -/
def Hbm.noteShadow (h : Hbm) (parity : Nat) : Option WindowEntry → Hbm
  | none => h
  | some e =>
    let same := fun (x : Nat × WindowEntry) => x.1 == parity && x.2.source == e.source && x.2.target == e.target
    { h with shadow := enterWindow same h.shadow (parity, e) }
/-- The deltas of a row are part of what its parity has become: none is under way any more, and what they carried is kept. -/
def Hbm.settleRow (h : Hbm) (parity q : Nat) : Hbm :=
  let mine := fun (d : Delta) => d.stack == parity && d.sector == q
  (h.deltas.filter mine).foldl (fun h d => h.noteShadow parity d.request) { h with deltas := h.deltas.filter fun d => !mine d }
/-- The parity stack whose controller is the home of a physical address, its data unit being lost (R423). -/
def Hbm.standIn (h : Hbm) (pa : Nat) : Option Nat :=
  let sp := h.spot pa
  if h.gone sp.data sp.sector then some sp.parity else none
/-- The request that has just written a sector travels with its delta (R419); where its row's parity has been formed anew, the parity
controller keeps it at once. -/
def Hbm.carry (h : Hbm) (pa : Nat) (e : WindowEntry) : Hbm :=
  let sp := h.spot pa
  match h.deltas.getLast? with
  | some d =>
    if d.pa = pa / 512 * 512 ∧ d.request = none then { h with deltas := h.deltas.dropLast ++ [{ d with request := some e }] }
    else if h.gone sp.parity sp.sector then h else h.noteShadow sp.parity (some e)
  | none => if h.gone sp.parity sp.sector then h else h.noteShadow sp.parity (some e)

/-! ### Parity -/

/-- The image that a controller finds in its sector (R410, R411): corrected, and then written back and logged; nothing if it is
uncorrectable or its unit is lost. -/
def Hbm.seek (h : Hbm) (stack q : Nat) (w : Asker) : Option (List Nat) × Hbm :=
  if h.gone stack q then (none, h)
  else
    let h := (h.touch stack q w).transfer stack q (rawData q) w
    if h.gone stack q then (none, h)
    else match rsDecode (h.word stack q) with
      | none => (none, h)
      | some (x, 0) => (some (x.drop 10), h)
      | some (x, n) => (some (x.drop 10), (h.putImage stack q (x.drop 10) w).logArray 1 stack q n w)

/-- A parity image with every delta under way for its row applied (R417, R421). -/
def Hbm.withDeltas (h : Hbm) (parity q : Nat) (img : List Nat) : List Nat :=
  h.deltas.foldl (fun p d => if d.stack = parity ∧ d.sector = q then imgXor p d.diff else p) img

/-- Reconstruct the image of a data sector from the other images of its row (R421): nothing if one of them is uncorrectable or lost, or a
data image poisoned. -/
def Hbm.reconstruct (h : Hbm) (sp : Spot) (w : Asker) : Option (List Nat) × Hbm :=
  (sp.row.filter (· ≠ sp.data)).foldl
    (fun (acc : Option (List Nat) × Hbm) st =>
      let (img, h) := acc.2.seek st sp.sector w
      let img := if st = sp.parity then img.map (h.withDeltas st sp.sector) else img.filter fun i => !imgPoison i
      (match acc.1, img with
        | some p, some i => some (imgXor p i)
        | _, _ => none, h))
    (some imgZero, h)

/-- The image of a data sector as its controller finds it (R411, R414, R423): corrected and written back, or reconstructed and
repaired, or, on a lost unit, reconstructed without repair; nothing is a media error. All of it is logged. -/
def Hbm.image (h : Hbm) (sp : Spot) (w : Asker) : Option (List Nat) × Hbm :=
  match h.seek sp.data sp.sector w with
  | (some img, h) => (some img, h)
  | (none, h) =>
    match h.reconstruct sp w with
    | (none, h) => (none, h.logArray 3 sp.data sp.sector 0 w)
    | (some img, h) =>
      if h.gone sp.data sp.sector then (some img, h)
      else (some img, (h.putImage sp.data sp.sector img w).logArray 2 sp.data sp.sector 0 ⟨0, w.tick⟩)

/-- What a read of a sector gives (R414). -/
inductive SectorRead where
  | data (l : List Byte)
  | poisoned
  | integrity
  deriving DecidableEq, Repr, Inhabited

/-- Is the CSM line or HBM sector that starts at the address quarantined or retired (R436)? Log entry 52 (DEDUCED). -/
def Hbm.barred (h : Hbm) (a : Nat) : Bool := (h.quarantined.any fun q => q.1 == a) || h.retired.contains a

/-- Read the sector of a physical address through an entry with a key id (R414). -/
def Hbm.read (h : Hbm) (pa key : Nat) (w : Asker) : SectorRead × Hbm :=
  let sp := h.spot pa
  match h.image sp w with
  | (none, h) => (.poisoned, h)
  | (some img, h) =>
    if imgPoison img || h.barred (pa / 512 * 512) then (.poisoned, h)
    else
      let k := imgKey img
      if k = 0 then (.data (imgData img), h)
      else if k ≠ key ∨ h.tagOf k pa (imgMisc img) (imgData img) ≠ imgTag img then
        (.integrity, h.logArray 4 sp.data sp.sector 0 w)
      else (.data (h.crypt true k pa (imgData img)), h)

/-- Recompute the parity of a row from its current images (R418), its own new image among them: another one that is unrecoverable, or on
a lost unit, becomes a poisoned zero image. -/
def Hbm.recompute (h : Hbm) (sp : Spot) (own : Option (List Nat)) (w : Asker) : Hbm :=
  let go := fun (acc : List Nat × Hbm) st =>
    match own, st == sp.data with
    | some img, true => (imgXor acc.1 img, acc.2)
    | _, _ =>
      match acc.2.seek st sp.sector w with
      | (some img, h) => (imgXor acc.1 img, h)
      | (none, h) => (imgXor acc.1 imgLost, (h.putIn st sp.sector imgLost w).logArray 5 st sp.sector 0 w)
  let (p, h) := (sp.row.filter (· ≠ sp.parity)).foldl go (imgZero, h)
  (h.settleRow sp.parity sp.sector).putIn sp.parity sp.sector p w

/-- Who writes a sector: the flat index of a core, or 288 for the host and Markhor, its launch, and the asker of the logs. -/
structure Writer where
  core : Nat
  launch : Nat
  asker : Asker
  deriving DecidableEq, Repr, Inhabited

/-- Put a new image in place of an old one (R417, R420, R423): its delta is on its way to the parity stack; with the parity unit
lost there is none; on a lost data unit the parity takes the change at once. -/
def Hbm.replaceImage (h : Hbm) (pa : Nat) (sp : Spot) (old new : List Nat) (w : Writer) : Hbm :=
  let diff := imgXor old new
  let h := h.putIn sp.data sp.sector new w.asker
  if h.gone sp.data sp.sector then
    match h.seek sp.parity sp.sector w.asker with
    | (none, h) => h
    | (some p, h) =>
      let p := h.withDeltas sp.parity sp.sector p
      (h.settleRow sp.parity sp.sector).putIn sp.parity sp.sector (imgXor p diff) w.asker
  else if h.gone sp.parity sp.sector then h
  else
    let d : Delta := ⟨pa / 512 * 512, sp.parity, sp.sector, sp.data, diff, w.core, w.launch, w.asker.asid, none⟩
    { h with deltas := h.deltas ++ [d] }

/-- Write a whole image over whatever a sector holds (R417, R418). -/
def Hbm.overwrite (h : Hbm) (pa : Nat) (new : List Nat) (w : Writer) : Hbm :=
  let sp := h.spot pa
  match h.image sp w.asker with
  | (some old, h) =>
    if imgPoison old then (h.putIn sp.data sp.sector new w.asker).recompute sp (some new) w.asker else h.replaceImage pa sp old new w
  | (none, h) => (h.putIn sp.data sp.sector new w.asker).recompute sp (some new) w.asker

/-- Write bytes within the sector of a physical address through an entry with a key id (R417, R418): false is an integrity
error, and nothing is written. A quarantined or retired sector stays poisoned (R436). Log entry 52 (DEDUCED). -/
def Hbm.write (h : Hbm) (pa key : Nat) (bytes : List Byte) (w : Writer) : Bool × Hbm :=
  let sp := h.spot pa
  let off := pa % 512
  let whole := bytes.length == 512 && !h.barred (pa / 512 * 512)
  let (img?, h) := h.image sp w.asker
  match img?.filter fun img => !imgPoison img && !h.barred (pa / 512 * 512) with
  | none =>
    let new := if whole then h.makeImage key pa bytes else imgLost
    let h := h.putIn sp.data sp.sector new w.asker
    let h := if whole then h else h.logArray 5 sp.data sp.sector 0 w.asker
    (true, h.recompute sp (some new) w.asker)
  | some old =>
    let k := imgKey old
    if k ≠ 0 ∧ k ≠ key then (false, h.logArray 4 sp.data sp.sector 0 w.asker)
    else
      let plain := h.crypt true k pa (imgData old)
      (true, h.replaceImage pa sp old (h.makeImage key pa (spliceBytes plain off bytes)) w)

/-- Apply a delta at its parity stack, which keeps the request that it carries (R417, R419). A parity sector that cannot be corrected is
formed anew from its row. -/
def Hbm.applyDelta (h : Hbm) (i tick : Nat) : Hbm :=
  match h.deltas[i]? with
  | none => h
  | some d =>
    let w : Asker := ⟨d.asid, tick⟩
    match h.seek d.stack d.sector w with
    | (some p, h) =>
      ({ h with deltas := h.deltas.eraseIdx i }.putIn d.stack d.sector (imgXor p d.diff) w).noteShadow d.stack d.request
    | (none, h) =>
      if h.gone d.stack d.sector then { h with deltas := h.deltas.eraseIdx i } else h.recompute (h.spot d.pa) none w

/-- Markhor as a writer. -/
def markhorAt (tick : Nat) : Writer := ⟨numCores, 0, ⟨0, tick⟩⟩
/-- Poison a sector (R436). -/
def Hbm.poison (h : Hbm) (pa tick : Nat) : Hbm := h.overwrite pa imgLost (markhorAt tick)
/-- Write the zero image with KEY 0 and POISON 0 (R436). -/
def Hbm.clear (h : Hbm) (pa tick : Nat) : Hbm := h.overwrite pa imgZero (markhorAt tick)
/-- A scrub's read of a sector: is it clean (R436)? -/
def Hbm.scrubRead (h : Hbm) (pa tick : Nat) : Bool × Hbm :=
  match h.image (h.spot pa) ⟨0, tick⟩ with
  | (some img, h) => (!imgPoison img, h)
  | (none, h) => (false, h)

/-- Is a write of the core still without its parity (R420)? -/
def Hbm.undurable (h : Hbm) (core : Nat) : Bool := h.deltas.any (·.core == core)

/-- What system software reads of the keys of an id through the IOD's window (R412). -/
def Hbm.keyWindow (_ : Hbm) (_ : Nat) : BitVec 512 × BitVec 256 := (0, 0)

/-- Move one stripe of the re-striped layout (R424): the images of its 40 data sectors are read in the old layout and written,
with their parity, in the new one; they are not encrypted again. Log entry 47 (DEDUCED). -/
def Hbm.moveStripe (h : Hbm) (tick : Nat) : Hbm :=
  let w : Asker := ⟨0, tick⟩
  match h.cursor with
  | none => h
  | some 0 => h
  | some c =>
    let base := c - 20480
    let got := (List.range 40).foldl
      (fun (acc : List (List Nat) × Hbm) i =>
        let (img, h) := acc.2.image (oldSpot (base + 512 * i)) w
        (acc.1 ++ [img.getD imgLost], h))
      ([], h)
    let img := fun i => (got.1[i]?).getD imgLost
    let h := (List.range 40).foldl
      (fun h i => let sp := h.newSpot (base + 512 * i); h.putIn sp.data sp.sector (img i) w) { got.2 with cursor := some base }
    (List.range 4).foldl
      (fun h r =>
        let sp := h.newSpot (base + 512 * r)
        h.putIn sp.parity sp.sector ((List.range 10).foldl (fun p j => imgXor p (img (4 * j + r))) imgZero) w) h

end Sys2Proof.Machine
end

