-- ==== Sys2Proof/Machine/Memory.lean ====
section
/-! DEFINITION. Sys2Proof/Machine/Memory.lean: translation (R354 to R358), where an access goes, bytes of chip shared memory, HBM and
host memory, stepped memory (R378 to R380), watched writes (R357, R393), atomics at their home unit (R204, R259). -/

namespace Sys2Proof.Machine

/-! ### Translation -/

/-- The size of an entry's region (R355). -/
def TEntry.size (e : TEntry) : Nat := 65536 * 2 ^ e.m
/-- Permissions and attributes (R355): read, write, checked-stepped, CSM, host, watch. -/
def TEntry.canRead (e : TEntry) : Bool := e.attr.getLsbD 5
def TEntry.canWrite (e : TEntry) : Bool := e.attr.getLsbD 4
def TEntry.stepped (e : TEntry) : Bool := e.attr.getLsbD 3
def TEntry.isCsm (e : TEntry) : Bool := e.attr.getLsbD 2
def TEntry.isHost (e : TEntry) : Bool := e.attr.getLsbD 1
def TEntry.watch (e : TEntry) : Bool := e.attr.getLsbD 0
/-- Does a valid entry cover the address (R354, R357)? -/
def TEntry.covers (e : TEntry) (va : Nat) : Bool := e.valid && decide (e.va ≤ va) && decide (va < e.va + e.size)
/-- The subpage of an address (R356). -/
def TEntry.subOf (e : TEntry) (va : Nat) : Nat := (va - e.va) / (e.size / 64)
/-- The state of a subpage: 0 DEV, 1 HOST, 2 DUP, 3 MIG (R355). -/
def TEntry.stateOf (e : TEntry) (i : Nat) : Nat := fld e.states (2 * i) 2
/-- The PRESENT bit of a subpage. -/
def TEntry.has (e : TEntry) (i : Nat) : Bool := e.present.getLsbD i

/-- The eight words of an entry as they stand at XLATPTR (R355). -/
def TEntry.words (e : TEntry) : List W64 :=
  [BitVec.ofNat 64 (e.m * 2 ^ 53 + (if e.valid then 2 ^ 52 else 0) + e.va), BitVec.ofNat 64 (e.pa + e.key * 2 ^ 12 + e.attr.toNat * 2 ^ 6),
    e.present, e.states.setWidth 64, (e.states >>> 64).setWidth 64, BitVec.ofNat 64 e.hbase, BitVec.ofNat 64 e.smeta, 0]
/-- The 32 KiB of a table (R354): entry i at bytes 64 i, an absent one zero. -/
def tableImage (t : Sparse TEntry) : List Byte :=
  (List.range 512).flatMap fun i => match t.find? fun x => x.1 == i with
    | some x => x.2.words.flatMap (bytesOf 8)
    | none => List.replicate 64 0

/-- The entry that covers an address (R354). -/
def findEntry (t : Sparse TEntry) (va : Nat) : Option (Nat × TEntry) :=
  if 2 ^ 52 ≤ va then none else t.find? fun x => x.2.covers va

/-- Which permission an access needs (R357). -/
inductive Need where
  | read | write | both
  deriving DecidableEq, Repr, Inhabited

/-- Where the bytes of an access lie (R358): a CSM address, an HBM address with the key id of the entry, a host address. -/
inductive Place where
  | csm (pa : Nat)
  | hbm (pa key : Nat)
  | host (a : Nat)
  deriving DecidableEq, Repr, Inhabited

/-- The place of an address in a present subpage (R356, R358). An entry with both attributes is a host entry, as its states say (log entry 86,
DESIGN CHOICE). -/
def TEntry.placeOf (e : TEntry) (va : Nat) : Place :=
  if e.isHost then .host (e.hbase + (va - e.va))
  else if e.isCsm then .csm (e.pa + (va - e.va))
  else if e.stateOf (e.subOf va) == 1 then .host (e.hbase + (va - e.va))
  else .hbm (e.pa + (va - e.va)) e.key

/-- What a lookup gives (R357). -/
inductive Look where
  | stray
  | absent (idx sub : Nat)
  | at (idx : Nat) (e : TEntry) (p : Place)
  deriving DecidableEq, Repr, Inhabited

/-- Does the entry give the permission? -/
def TEntry.allows (e : TEntry) : Need → Bool
  | .read => e.canRead
  | .write => e.canWrite
  | .both => e.canRead && e.canWrite

/-- A lookup (R357, R358): a write to a DUP subpage faults, for it must collapse the duplicate (R367). -/
def lookup (t : Sparse TEntry) (need : Need) (va : Nat) : Look :=
  match findEntry t va with
  | none => .stray
  | some (i, e) =>
    let sub := e.subOf va
    if !e.allows need then .stray
    else if !e.has sub || (need ≠ .read && e.stateOf sub == 2) then .absent i sub
    else .at i e (e.placeOf va)

/-- Can the subpages of the entry migrate (R356)? -/
def TEntry.movable (e : TEntry) : Bool := e.valid && !e.isCsm && !e.isHost
/-- An entry of the table of a module's kernel. -/
def State.tableEntry? (s : State) (module kernel entry : Nat) : Option TEntry :=
  ((s.module? module).bind fun m => m.kernels[kernel]?).bind fun k => (k.table.find? fun e => e.1 == entry).map (·.2)
/-- Where the bytes of an address reside now, present or not (R356, R365): while its subpage migrates, in its old residence. -/
def State.residence (s : State) (asid : Nat) (e : TEntry) (va : Nat) : Place :=
  let d := e.pa + (va - e.va)
  let old := s.migrations.find? fun m => m.asid == asid && m.phase == .invalidating && decide (m.lo ≤ d) && decide (d < m.hi)
  if e.movable && e.stateOf (e.subOf va) == 3 && (old.map (·.old)) == some 1 then .host (e.hbase + (va - e.va)) else e.placeOf va

/-! ### Bytes -/

/-- The CSM line of an address. -/
def lineOf (a : Nat) : Nat := a / 128 * 128

/-- Bytes of HBM from a physical address upward, by sectors (R414): the bytes, whether some are poisoned, the sectors in which an
integrity error was met. -/
def Hbm.readBytes (h : Hbm) (key : Nat) (w : Asker) : Nat → Nat → Nat → (List Byte × Bool × List Nat) × Hbm
  | 0, _, _ => (([], false, []), h)
  | fuel + 1, pa, n =>
    if n = 0 then (([], false, []), h)
    else
      let k := min n (512 - pa % 512)
      let (r, h) := h.read pa key w
      let (rest, h) := Hbm.readBytes h key w fuel (pa + k) (n - k)
      match r with
      | .data l => (((l.drop (pa % 512)).take k ++ rest.1, rest.2.1, rest.2.2), h)
      | .poisoned => ((List.replicate k 0 ++ rest.1, true, rest.2.2), h)
      | .integrity => ((List.replicate k 0 ++ rest.1, true, pa / 512 * 512 :: rest.2.2), h)

/-- Write bytes of HBM from a physical address upward (R417): the sectors in which an integrity error was met. -/
def Hbm.writeBytes (h : Hbm) (key : Nat) (w : Writer) : Nat → Nat → List Byte → List Nat × Hbm
  | 0, _, _ => ([], h)
  | fuel + 1, pa, l =>
    if l.isEmpty then ([], h)
    else
      let k := 512 - pa % 512
      let (ok, h) := h.write pa key (l.take k) w
      let (bad, h) := Hbm.writeBytes h key w fuel (pa + k) (l.drop k)
      (if ok then bad else pa / 512 * 512 :: bad, h)

/-- The address space of the reader is to be torn down (R432, R434): the cause and the ranges that the error names. -/
def State.tearDown (s : State) (asid cause : Nat) (ranges : List Nat) : State :=
  s.onContext asid fun x => match x.tearing with
    | some (c, l) => { x with tearing := some (c, l ++ ranges.filter fun a => !l.contains a) }
    | none => { x with tearing := some (cause, ranges) }
/-- An integrity error in some sectors (R414). -/
def State.tear (s : State) (asid : Nat) (bad : List Nat) : State :=
  if bad.isEmpty then s else s.tearDown asid causeIntegrity bad

/-- Units are lost (R420, R422): a write to one of them that is not yet durable ends its launch, or is listed in the report if it is the
host's, and its delta is gone; a parity unit lost leaves its writes durable. Log entry 46 (DEDUCED). -/
def State.loseUnits (s : State) (gone : Nat → Nat → Bool) : State :=
  let cut := s.hbm.deltas.filter fun d => gone d.data d.sector
  let s := (cut.filter fun d => decide (d.core < numCores)).foldl (fun s d => s.pin d.launch causeNotDurable d.core) s
  { s with hbm := { s.hbm with
      deltas := s.hbm.deltas.filter fun d => !gone d.data d.sector && !gone d.stack d.sector
      listed := s.hbm.listed ++ (cut.filter fun d => decide (numCores ≤ d.core)).map (·.pa) } }
/-- A stack is lost (R422): its base die keeps no window of R260 any more, and its loss is reported. -/
def State.loseStack (s : State) (stack : Nat) : State :=
  let s := { s with
    hbm := { s.hbm with lost := s.hbm.lost ++ [stack] }
    windows := s.windows.filter fun w => w.target ≠ 256 + stack }
  (s.loseUnits fun st _ => st == stack).postSystem 6 0 0 0
/-- What accesses have made of the stacked memory (R415, R422): Markhor records lane swaps (R442); a failed channel is a loss for its rows,
and the fourth of a stack loses the stack. -/
def State.settleHbm (s : State) (h : Hbm) : State :=
  let m := if h.lanes = s.hbm.lanes then s.markhor else s.markhor.writeBlock 3 (laneBody h.lanes)
  (h.failed.drop s.hbm.failed.length).foldl
    (fun s x =>
      let s := s.loseUnits fun st q => st == x.1 && channelOf q == x.2
      if 4 ≤ (s.hbm.failed.filter fun y => y.1 == x.1).length && !s.hbm.lost.contains x.1 then s.loseStack x.1 else s)
    { s with hbm := h, markhor := m }

/-- The canonical form of a memory: addresses strictly rising, no byte listed that an unlisted address reads as. -/
def Memory.wf (m : Memory) : Bool := Sparse.wf 0 m

/-- Bytes from a table upward. -/
def memBytes (m : Memory) (a n : Nat) : List Byte := (List.range n).map fun i => Sparse.get 0 m (a + i)
/-- Put bytes into a table from an address upward. -/
def putMem (m : Memory) (a : Nat) : List Byte → Memory
  | [] => m
  | b :: l => putMem (Sparse.set 0 m a b) (a + 1) l

/-- Do bytes of chip shared memory lie in a quarantined line or in an uncorrectable word (R436, R438)? -/
def State.csmBad (s : State) (pa n : Nat) : Bool :=
  ((List.range n).any fun i => s.hbm.barred (lineOf (pa + i))) ||
    (!s.csmMarks.isEmpty && (List.range ((pa + n + 7) / 8 - pa / 8)).any fun i => Sparse.get false s.csmMarks (pa / 8 + i))
/-- Write bytes of chip shared memory: a word written whole has a good code again. Log entry 71 (DEDUCED). -/
def State.putCsm (s : State) (pa : Nat) (l : List Byte) : State :=
  { s with
    csm := putMem s.csm pa l
    csmMarks := if s.csmMarks.isEmpty then [] else
      (List.range ((pa + l.length) / 8 - (pa + 7) / 8)).foldl (fun m i => Sparse.set false m ((pa + 7) / 8 + i) false) s.csmMarks }
/-- Words of chip shared memory written with what has been computed from them keep the marks that they had (R431). -/
def State.remark (s : State) (marks : Sparse Bool) : Place → Nat → State
  | .csm pa, n =>
    if marks.isEmpty then s
    else
      let words := (List.range ((pa + n + 7) / 8 - pa / 8)).map (pa / 8 + ·)
      { s with csmMarks := words.foldl (fun m w => Sparse.set false m w (Sparse.get false marks w)) s.csmMarks }
  | _, _ => s
/-- Read bytes at a place, and whether they are poisoned (R358, R414, R436). -/
def State.readPlace (s : State) (asid : Nat) (p : Place) (n : Nat) : (List Byte × Bool) × State :=
  match p with
  | .csm pa => ((memBytes s.csm pa n, s.csmBad pa n), s)
  | .host a => ((memBytes s.host a n, false), s)
  | .hbm pa key =>
    let (r, h) := s.hbm.readBytes key ⟨asid, s.gtc⟩ (n / 512 + 2) pa n
    ((r.1, r.2.1), (s.settleHbm h).tear asid r.2.2)

/-- Write bytes at a place on behalf of a core of a launch (R358, R417). -/
def State.writePlace (s : State) (asid core launch : Nat) (p : Place) (l : List Byte) : State :=
  match p with
  | .csm pa => s.putCsm pa l
  | .host a => { s with host := putMem s.host a l }
  | .hbm pa key =>
    let (bad, h) := s.hbm.writeBytes key ⟨core, launch, asid, s.gtc⟩ (l.length / 512 + 2) pa l
    (s.settleHbm h).tear asid bad

/-! ### Weight blocks (R385, R386) and invalidation (R393) -/

/-- A word of a weight block. -/
def Region.word64 (r : Region) (off : Nat) : Nat := leNat (memBytes r.block off 8) 8
/-- Set a word of a weight block. -/
def Region.setWord (r : Region) (off n v : Nat) : Region := { r with block := putMem r.block off (leBytes v n) }
/-- A 32-bit word of a weight block. -/
def Region.word32 (r : Region) (off : Nat) : Nat := leNat (memBytes r.block off 4) 4
/-- The state of a region: 0 OBSERVE, 1 FITTING, 2 FITTED, 3 FALLBACK, 4 INVALID. -/
def Region.state (r : Region) : Nat := r.word64 0 / 2 ^ 8 % 8
/-- Replace bits of a header word. -/
def Region.setField (r : Region) (off lo n v : Nat) : Region :=
  let w := r.word64 off
  r.setWord off 8 (w - w / 2 ^ lo % 2 ^ n * 2 ^ lo + v % 2 ^ n * 2 ^ lo)
/-- Set the state. -/
def Region.setState (r : Region) (x : Nat) : Region := r.setField 0 8 3 x

/-- The offsets of the weights that a region uses (R385). -/
def Region.weightOffs (r : Region) : List Nat :=
  let l32 := List.range 32
  (l32.flatMap fun j => (List.range r.nin).map fun i => 0x100 + 4 * (16 * j + i)) ++
  (l32.flatMap fun j => l32.map fun k => 0x980 + 4 * (32 * j + k)) ++
  ((List.range r.nout).flatMap fun o => l32.map fun j => 0x1A00 + 4 * (32 * o + j))
/-- The offsets of the biases that a region uses (R385). -/
def Region.biasOffs (r : Region) : List Nat :=
  ((List.range 32).map fun j => 0x900 + 4 * j) ++ ((List.range 32).map fun j => 0x1980 + 4 * j) ++
  ((List.range r.nout).map fun o => 0x1E00 + 4 * o)
/-- Write 0 to words of the block. -/
def Region.zero (r : Region) (offs : List Nat) : Region := offs.foldl (fun r f => r.setWord f 4 0) r
/-- Clear WFILL and WFAIL. -/
def Region.clearWindow (r : Region) : Region := r.setWord 0x18 8 0
/-- Entering INVALID (R393): weights and biases zero, WFILL, WFAIL and CARRY cleared. -/
def Region.invalid (r : Region) : Region :=
  (((r.setState 4).zero (r.weightOffs ++ r.biasOffs)).clearWindow).setWord 0x38 8 0

/-- The launch that holds a module's weight blocks (R383): the first granted one that has not ended. -/
def State.holder (s : State) (h : Nat) : Option Launch :=
  (s.launches.filter fun l => l.module == h && l.grantNo ≠ 0 && l.state ≠ .ended).foldl
    (fun acc l => match acc with
      | none => some l
      | some m => if l.grantNo < m.grantNo then some l else some m)
    none
/-- Change a region of a module. -/
def State.onRegion (s : State) (h r : Nat) (f : Region → Region) : State :=
  s.onModule h fun m => { m with regions := m.regions.mapIdx fun i x => if i = r then f x else x }

/-- The event record of a region's state change (R238, R390, R393). -/
def State.postRegion (s : State) (core newState r : Nat) (index : W64) : State :=
  s.postEvent core core (eventWord 8 0 (newState * 256 + r) 0 index.toNat) index

/-- Make a region INVALID (R393), in the frame of the launch that holds it (R383, R391): nothing if it is already, except that the record of
SGINV is posted all the same. -/
def State.invalidate (s : State) (h r core : Nat) (index : W64) (always : Bool) : State :=
  match (s.module? h).bind fun m => m.regions[r]? with
  | none => s
  | some x =>
    if x.state = 4 then (if always then s.postRegion core 4 r index else s)
    else
      let at_ := (s.holder h).map fun l => (l.id, l.frame)
      (s.onRegion h r fun x => { x.invalid with invAt := at_ }).postRegion core 4 r index

/-- A write performed into a watched entry is reported to the surrogate units (R357, R393). -/
def State.report (s : State) (core : Nat) (e : TEntry) (va n : Nat) : State :=
  if !e.watch then s
  else match (s.launchOf core).bind fun l => s.module? l.module with
    | none => s
    | some m =>
      (List.range m.regions.length).foldl
        (fun s r =>
          match m.regions[r]? with
          | none => s
          | some x =>
            if x.deps.any fun d => decide (va < d.1 + d.2) && decide (d.1 < va + n) then s.invalidate m.handle r core 0 false
            else s)
        s

/-! ### Stepped memory -/

/-- The metadata record of the line of an address (R378). Log entry 38 (DESIGN CHOICE). -/
def TEntry.metaAt (e : TEntry) (va : Nat) : Nat := e.smeta + e.size + 128 * ((va - e.va) / 128)
/-- The step word of a metadata record. Log entry 38 (DESIGN CHOICE). -/
def State.stepWord (s : State) (a : Nat) : Nat := leNat (memBytes s.stepMeta a 8) 8
/-- Does the record hold frame `n`? -/
def stepIs (w n : Nat) : Bool := w / 2 ^ 31 % 2 == 1 && w / 2 ^ 32 == n % 2 ^ 32
/-- T and WRITER of a word of the line. -/
def State.stepWriter (s : State) (a w : Nat) : Nat := leNat (memBytes s.stepMeta (a + 8 + 2 * w) 2) 2
/-- The writer field of unit `u` with T = 1. -/
def writerOf (u : Nat) : Nat := 2 ^ 15 + u

/-- The bytes that a read of a stepped entry by unit `u` in frame `n` returns (R380), given the current ones. -/
def State.stepView (s : State) (e : TEntry) (va u n : Nat) (cur : List Byte) : List Byte :=
  if !e.stepped then cur
  else cur.mapIdx fun i b =>
    let x := va + i
    let a := e.metaAt x
    if !stepIs (s.stepWord a) n || s.stepWriter a (x % 128 / 4) == writerOf u then b
    else Sparse.get 0 s.stepMeta (e.smeta + (x - e.va))

/-- The name of the step-start copy of the line of an address, as `stepMarks` has it. -/
def TEntry.stepLine (e : TEntry) (va : Nat) : Nat := (e.smeta + (va - e.va)) / 128
/-- Are the bytes that such a read returns poisoned: some come from a current copy that is, `now`, or from a step-start copy that is (R431)? -/
def State.stepPoison (s : State) (e : TEntry) (va k u n : Nat) (now : Bool) : Bool :=
  if !e.stepped then now
  else (List.range k).any fun i =>
    let a := e.metaAt (va + i)
    if !stepIs (s.stepWord a) n || s.stepWriter a ((va + i) % 128 / 4) == writerOf u then now
    else Sparse.get false s.stepMarks (e.stepLine (va + i))
/-- The step-start copy of a line becomes its current copy (R378, R379), and keeps its poison (R431). -/
def State.stepStart (s : State) (asid : Nat) (e : TEntry) (line : Nat) : State :=
  let (r, s) := s.readPlace asid (s.residence asid e line) 128
  { s with
    stepMeta := putMem s.stepMeta (e.smeta + (line - e.va)) r.1
    stepMarks := Sparse.set false s.stepMarks (e.stepLine line) r.2 }
/-- The check of one word (R379): none is a conflict. -/
def State.stepCheckWord (s : State) (asid : Nat) (e : TEntry) (va u n : Nat) (again : Bool) : Option State :=
  let a := e.metaAt va
  let line := va - (va - e.va) % 128
  let fresh := !stepIs (s.stepWord a) n
  let s :=
    if fresh then
      let s := s.stepStart asid e line
      let m := putMem s.stepMeta a (leBytes (n % 2 ^ 32 * 2 ^ 32 + 2 ^ 31 + u) 8)
      { s with stepMeta := putMem m (a + 8) (List.replicate 64 0) }
    else s
  let w := va % 128 / 4
  let sw := s.stepWord a
  let mine := s.stepWriter a w
  let multi := sw / 2 ^ 30 % 2 == 1
  let first := sw % 2 ^ 9
  if again && mine == writerOf u then some s
  else if mine / 2 ^ 15 % 2 = 0 then
    let m := putMem s.stepMeta (a + 8 + 2 * w) (leBytes (writerOf u) 2)
    let m := if first ≠ u ∧ !multi then putMem m a (leBytes (sw + 2 ^ 30) 8) else m
    some { s with stepMeta := m }
  else if !multi && first == u then some s
  else none

/-- The checks of the words of a write (R198, R379), in ascending address: the address of a conflict, or the state after them. -/
def State.stepCheckFrom (s : State) (asid : Nat) (e : TEntry) (u n : Nat) (again : Bool) : Nat → Nat → Nat ⊕ State
  | 0, _ => .inr s
  | k + 1, va =>
    match s.stepCheckWord asid e va u n again with
    | none => .inl va
    | some s => State.stepCheckFrom s asid e u n again k (va / 4 * 4 + 4)

/-- The check of a write of `k` bytes at `va` by unit `u` in frame `n`; an entry without the attribute accepts it. -/
def State.stepCheck (s : State) (asid : Nat) (e : TEntry) (va k u n : Nat) (again : Bool) : Nat ⊕ State :=
  if e.stepped then s.stepCheckFrom asid e u n again ((va + k + 3) / 4 - va / 4) va else .inr s

/-- The key of a stepped conflict in the order log (R371). -/
def conflictKey (idx : Nat) (e : TEntry) (va : Nat) : Nat := idx * 2 ^ 39 + (va - e.va) / 4
/-- The first byte of a range in each word that it touches. -/
def wordsOf (va n : Nat) : List Nat :=
  (List.range ((va + n + 3) / 4 - va / 4)).map fun i => if i = 0 then va else va / 4 * 4 + 4 * i
/-- Has a unit other than `u` written in the line of an address in frame `n`? -/
def State.othersWrote (s : State) (e : TEntry) (va u n : Nat) : Bool :=
  let sw := s.stepWord (e.metaAt va)
  stepIs sw n && (sw / 2 ^ 30 % 2 == 1 || sw % 2 ^ 9 ≠ u)
/-- Is the check of a word held in a replay (R374): a conflict that the log gives to another unit, or a check whose logged outcome is a
trap, until the other writer's has been accepted? Log entry 67 (DEDUCED). -/
def State.stepHeld (s : State) (l : Launch) (idx : Nat) (e : TEntry) (va u n : Nat) (again : Bool) : Bool :=
  l.replay && l.pinned.isNone && match nextLogged l.replayLog 9 (conflictKey idx e va) with
    | none => false
    | some r =>
      if (s.stepCheckWord l.asid e va u n again).isNone then r.src ≠ u
      else r.src == u && r.frame % 2 ^ 32 == l.frame % 2 ^ 32 && !s.othersWrote e va u n

/-- Words that an operation of the core of a context writes into a stepped entry: a conflicting one is not written, and the core will
trap (R311, R379). -/
def State.engineWords (s : State) (l : Launch) (key n idx : Nat) (e : TEntry) : Nat → Nat → List Byte → State
  | 0, _, _ => s
  | fuel + 1, va, b =>
    if b.isEmpty then s
    else
      let k := 4 - va % 4
      let s := match s.stepCheckWord l.asid e va (flat key) n false with
        | none =>
          s.chooseThen l.id 9 (conflictKey idx e va) (flat key) 0 false fun s =>
            s.onCore key fun k => { k with conflicts := k.conflicts ++ [BitVec.ofNat 64 va] }
        | some s => (s.writePlace l.asid (flat key) l.id (e.placeOf va) (b.take k)).report key e va (min k b.length)
      State.engineWords s l key n idx e fuel (va + k) (b.drop k)

/-- Bytes that an operation of the core of a context, issued in frame `n`, writes at a translated address (R212, R311, R312).
Log entry 20 (DEDUCED). -/
def State.engineWrite (s : State) (l : Launch) (key n idx : Nat) (e : TEntry) (va : Nat) (b : List Byte) : State :=
  if e.stepped then (s.engineWords l key n idx e b.length va b).endHolds l.id ((wordsOf va b.length).map (conflictKey idx e)) (flat key)
  else (s.writePlace l.asid (flat key) l.id (e.placeOf va) b).report key e va b.length
/-- The first word of such a write whose check a replay holds. -/
def State.engineHeld (s : State) (l : Launch) (key n idx : Nat) (e : TEntry) (va k : Nat) : Option Nat :=
  if e.stepped && l.replay then (wordsOf va k).find? fun a => s.stepHeld l idx e a (flat key) n false else none

/-! ### Atomics -/

/-- The new value of an atomic on `n` bytes (R204), XADD and XRD apart. -/
def atomicNew (op n : Nat) (x v : W64) : W64 :=
  let w := 8 * n
  let m := fun (k : Nat) => BitVec.ofNat 64 (k % 2 ^ w)
  let sx := toInt w true x.toNat
  let sv := toInt w true v.toNat
  let ux := x.toNat % 2 ^ w
  let uv := v.toNat % 2 ^ w
  match op with
  | 0 => m (x.toNat + v.toNat)
  | 1 => m (x &&& v).toNat
  | 2 => m (x ||| v).toNat
  | 3 => m (x ^^^ v).toNat
  | 4 => m (if sv < sx then uv else ux)
  | 5 => m (if sx < sv then uv else ux)
  | 6 => m (min ux uv)
  | 7 => m (max ux uv)
  | 8 => m uv
  | 9 => m (fAdd fp32 ux uv).1
  | _ => m (fAdd bf16 ux uv).1

/-- Bits of an exact accumulator cell (R258). -/
def cellNan : Nat := 2 ^ 388
def cellPinf : Nat := 2 ^ 389
def cellNinf : Nat := 2 ^ 390
/-- Set one bit of a number. -/
def setBit (x b : Nat) : Nat := if x / b % 2 = 1 then x else x + b

/-- XADD on the 512 bits of a cell (R259). -/
def cellAdd (cell v : Nat) : Nat :=
  match fp32.decode v with
  | .nan => setBit cell cellNan
  | .inf false => setBit cell cellPinf
  | .inf true => setBit cell cellNinf
  | f =>
    let n : Nat := cell % 2 ^ 384
    (cell - n) + ofInt 384 ((n : Int) + f.atExp (-149))

/-- XRD of a cell (R259). -/
def cellRead (cell : Nat) : Nat :=
  let nan := cell / cellNan % 2 == 1
  let pinf := cell / cellPinf % 2 == 1
  let ninf := cell / cellNinf % 2 == 1
  if nan || (pinf && ninf) then fp32.qnan
  else if pinf then fp32.infCode
  else if ninf then signCode fp32 true fp32.infCode
  else (roundInt fp32 .rne false (toInt 384 true (cell % 2 ^ 384)) (-149)).1

/-- The bytes that an atomic acts on: a cell for XADD and XRD. -/
def atomicBytes (op sz : Nat) : Nat := if op = 11 ∨ op = 12 then 64 else 2 ^ sz

/-- The new bytes and the returned value of an atomic (R204), a 4-byte one zero-extended: log entry 78 (DESIGN CHOICE). -/
def atomicDo (op sz : Nat) (old : List Byte) (v : W64) : List Byte × W64 :=
  let x := leNat old old.length
  if op = 11 then (leBytes (cellAdd x (v.toNat % 2 ^ 32)) 64, 0)
  else if op = 12 then (if v.getLsbD 0 then List.replicate 64 0 else old, BitVec.ofNat 64 (cellRead x))
  else (leBytes (atomicNew op (2 ^ sz) (BitVec.ofNat 64 x) v).toNat (2 ^ sz), BitVec.ofNat 64 x)

/-- One element of a VRED (R206): min and max by the signedness that the operation names (R204). -/
def vredElem (op et x v : Nat) : Nat :=
  let w := etWidth et
  let sx := toInt w true x
  let sv := toInt w true v
  match op with
  | 0 => (x + v) % 2 ^ w
  | 1 => x &&& v
  | 2 => x ||| v
  | 3 => x ^^^ v
  | 4 => if sv < sx then v else x
  | 5 => if sx < sv then v else x
  | 6 => min x v
  | 7 => max x v
  | _ => (fAdd (if et = 8 then fp32 else bf16) x v).1

/-- The 128 bytes of a line after its part of a VRED (R206). -/
def vredLine (op et : Nat) (old new : List Byte) : List Byte :=
  let w := etWidth et
  let x := leNat old 128
  let v := leNat new 128
  leBytes (((List.range (1024 / w)).foldr (fun i acc =>
    vredElem op et (x / 2 ^ (w * i) % 2 ^ w) (v / 2 ^ (w * i) % 2 ^ w) % 2 ^ w + acc * 2 ^ w) 0)) 128

/-- The target unit of a place: a CSM bank, an HBM stack, the host (R205, R257). -/
def Hbm.unitOf (h : Hbm) : Place → Nat
  | .csm pa => pa / 128 % 256
  | .hbm pa _ => 256 + (h.spot pa).data
  | .host _ => 300

/-- The key of a place in the order log (R371). -/
def Place.logTgt : Place → Nat
  | .csm pa => pa / 128
  | .hbm pa _ => pa / 128
  | .host a => 2 ^ 47 + a / 128 % 2 ^ 45

end Sys2Proof.Machine
end

