-- ==== Sys2Proof/Machine/Scratch.lean ====
section
/-! DEFINITION. Sys2Proof/Machine/Scratch.lean: the scratchpad (spec/12): bytes, full bits, bank formats and their conversions
(R251), and what the accesses of one bundle do at their access point (R195, R196, R254). -/

namespace Sys2Proof.Machine

/-- Bytes of a scratchpad (R248). -/
def scratchSize : Nat := 2097152
/-- The bytes of a core's scratchpad from an offset. -/
def Core.bytes (k : Core) (a n : Nat) : List Byte := memBytes k.scratch a n
/-- Write bytes to a core's scratchpad. -/
def Core.put (k : Core) (a : Nat) (l : List Byte) : Core := { k with scratch := putMem k.scratch a l }
/-- The full bit of a line (R248); every line is full unless listed. -/
def Core.isFull (k : Core) (line : Nat) : Bool := Sparse.get true k.full line
/-- Set or clear the full bit of a line. -/
def Core.setFull (k : Core) (line : Nat) (b : Bool) : Core := { k with full := Sparse.set true k.full line b }
/-- The bank of an offset (R248). -/
def bankOf (a : Nat) : Nat := a / 131072 % 16
/-- The lines that a range of bytes touches. -/
def linesOf (a n : Nat) : List Nat := if n = 0 then [] else (List.range (((a + n - 1) / 128) - a / 128 + 1)).map (a / 128 + ·)

/-! ### Uncorrectable words (R431, R438) -/

/-- Is a 64-bit word of a range uncorrectable? -/
def Core.spoiled (k : Core) (a n : Nat) : Bool :=
  !k.marks.isEmpty && (List.range ((a + n + 7) / 8 - a / 8)).any fun i => Sparse.get false k.marks (a / 8 + i)
/-- The 64-bit words that some bytes cover whole. -/
def coveredWords (addrs : List Nat) : List Nat :=
  (distinct (addrs.map (· / 8))).filter fun w => (List.range 8).all fun i => addrs.contains (8 * w + i)
/-- Words that have been written whole have good codes again. Log entry 71 (DEDUCED). -/
def Core.mend (k : Core) (words : List Nat) : Core := { k with marks := words.foldl (fun m w => Sparse.set false m w false) k.marks }
/-- Words of a range written whole. -/
def wordsWithin (a n : Nat) : List Nat := (List.range ((a + n) / 8 - (a + 7) / 8)).map ((a + 7) / 8 + ·)

/-! ### Bank formats -/

/-- The storage width in bytes of a bank format, for an element type (R200, R251). -/
def bankWidth (fmt et : Nat) : Nat :=
  if fmt = 0 then etWidth et / 8 else if fmt = 3 ∨ fmt = 4 then 4 else if fmt = 2 ∨ fmt = 5 ∨ fmt = 6 then 2 else 1
/-- Is the format an integer one (R24)? -/
def bankInt (fmt : Nat) : Bool := fmt == 1 || fmt == 2 || fmt == 3
/-- The width in bits of an integer bank format. -/
def bankBits (fmt : Nat) : Nat := if fmt = 1 then 8 else if fmt = 2 then 16 else 32
/-- The float format of a bank format (R24). -/
def bankFmt (fmt : Nat) : Fmt :=
  if fmt = 4 then fp32 else if fmt = 5 then fp16 else if fmt = 6 then bf16 else if fmt = 8 then e5m2 else e4m3
/-- FP8 bank formats: stores saturate (R251). -/
def bankFp8 (fmt : Nat) : Bool := fmt == 7 || fmt == 8
/-- Does the format move bytes unchanged (R251, R252)? -/
def bankRaw (fmt : Nat) : Bool := fmt == 0 || isMx fmt

/-- The exact value of a float or integer bank element. -/
def bankValue (fmt code : Nat) : FVal :=
  if bankInt fmt then
    let n := toInt (bankBits fmt) true code
    .fin (decide (n < 0)) n.natAbs 0
  else (bankFmt fmt).decode code

/-- Is the element type the bank's own float format, so that every encoding passes unchanged, a NaN's too (R40, R251)? -/
def bankSame (fmt et : Nat) : Bool := etFloat et && !bankInt fmt && bankFmt fmt == etFmt et

/-- Load conversion of one element (R251). -/
def loadConv (fmt et code : Nat) : Nat × BitVec 5 :=
  if bankRaw fmt || bankSame fmt et then (code, 0)
  else if etFloat et then
    if bankInt fmt then intToF (etFmt et) .rne (toInt (bankBits fmt) true code)
    else fConvert (bankFmt fmt) (etFmt et) .rne false code
  else
    let w := etWidth et
    let sg := etSigned et
    if bankInt fmt then (ofInt w (clampInt w sg (toInt (bankBits fmt) true code)), 0)
    else
      let r := fToInt .rne (intLo w sg) (intHi w sg) ((bankFmt fmt).decode code)
      (ofInt w r.1, r.2)

/-- Deliver an exact value in a bank format, as a store does (R251): integers clamp, with NV where the source is a float. -/
def storeValue (fmt : Nat) (fromFloat : Bool) (v : FVal) : Nat × BitVec 5 :=
  if bankInt fmt then
    let w := bankBits fmt
    let r := fToInt .rne (intLo w true) (intHi w true) v
    (ofInt w r.1, if fromFloat then r.2 else 0)
  else roundVal (bankFmt fmt) .rne (bankFp8 fmt) v

/-- Store conversion of one element (R251). -/
def storeConv (fmt et x : Nat) : Nat × BitVec 5 :=
  if bankRaw fmt || bankSame fmt et then (x, 0)
  else if etFloat et then storeValue fmt true ((etFmt et).decode x)
  else
    let n := toInt (etWidth et) (etSigned et) x
    storeValue fmt false (.fin (decide (n < 0)) n.natAbs 0)

/-! ### Writes that meet (R255) -/

/-- Bytes of scratchpads, by core and offset, have been written at one access point: those that the device step just before has written too
may have met them there, and each keeps the one value or the other (R255). Log entry 84 (DEDUCED). -/
def State.landing (s : State) (l : List (Nat × Nat)) : State :=
  let met := if s.landedAt + 1 = s.choice then
    s.landed.filter fun x => l.contains (x.1, x.2.1) && Config.earlierStays s.choice x.2.1 else []
  let s := met.foldl (fun s x => s.onCore x.1 fun k => k.put x.2.1 [x.2.2]) s
  { s with landed := l.map fun x => (x.1, x.2, Sparse.get 0 (s.core x.1).scratch x.2), landedAt := s.choice }

/-! ### Waiting readers (R254) -/

/-- Readers as `waiters` names them. -/
def readerLoad : Nat := 0
def readerConsume : Nat := 1
def readerOp (core queue : Nat) : Nat := 2 + 8 * core + queue

/-- A reader has found lines empty. -/
def Core.waitOn (k : Core) (who : Nat) (lines : List Nat) : Core :=
  { k with waiters := k.waiters.filter (fun x => !(x.2 == who && lines.contains x.1)) ++ lines.map fun l => (l, who) }
/-- Does a reader wait on one of the lines that is served ahead of a consuming action of `who`: for a direct load, an operation; for
a claim, any other? -/
def Core.othersWait (k : Core) (who : Nat) (lines : List Nat) : Bool :=
  k.waiters.any fun x => lines.contains x.1 && x.2 ≠ who && (2 ≤ x.2 || 2 ≤ who)

/-! ### The access point -/

/-- Log what a change of the core's own memory slots replaces (R292), unless the access is a release point. -/
def Core.undoByte (k : Core) (released : Bool) (a : Nat) : Core :=
  if released then k
  else { k with seg := { k.seg with undo := k.seg.undo ++ [.byte a (Sparse.get 0 k.scratch a)] } }
/-- Log an old full bit. -/
def Core.undoFull (k : Core) (released : Bool) (line : Nat) : Core :=
  if released then k else { k with seg := { k.seg with undo := k.seg.undo ++ [.full line (k.isFull line)] } }
/-- A store of the core's own memory slots. -/
def Core.ownPut (k : Core) (released : Bool) (a : Nat) (l : List Byte) : Core :=
  ((List.range l.length).foldl (fun k i => k.undoByte released (a + i)) k).put a l
/-- The addresses that an access writes. -/
def AccKind.writes : AccKind → List Nat
  | .st a sz _ _ => (List.range (2 ^ sz)).map (a + ·)
  | .vst et addrs fmts _ _ => (addrs.zip fmts).flatMap fun x => (List.range (bankWidth x.2 et)).map (x.1 + ·)
  | _ => []
/-- A store of the core's own memory slots mends the words that it covers, which a rewind takes back. -/
def Core.ownMend (k : Core) (c : Acc) : Core :=
  if k.marks.isEmpty then k
  else
    let l := (coveredWords c.kind.writes).filter fun w => Sparse.get false k.marks w
    let k := k.mend l
    if c.released then k else { k with seg := { k.seg with undo := k.seg.undo ++ l.map Undo.mark } }
/-- A change of full bits by the core's own memory slots. -/
def Core.ownFull (k : Core) (released : Bool) (lines : List Nat) (b : Bool) : Core :=
  lines.foldl (fun k l => (k.undoFull released l).setFull l b) k

/-- The lines that an access reads, and whether it needs them full (R196). -/
def AccKind.readLines : AccKind → List Nat
  | .ld a sz _ _ _ => linesOf a (2 ^ sz)
  | .vld et addrs fmts _ _ => distinct ((addrs.zip fmts).flatMap fun (a, f) => linesOf a (bankWidth f et))
  | _ => []
/-- May the scratchpad access be an observation (R301), which comes before every later access? A FETST may deliver 1. -/
def AccKind.observes : AccKind → Bool
  | .fetst _ _ => true
  | c => !c.readLines.isEmpty
/-- Does the access consume? -/
def AccKind.consumes : AccKind → Bool
  | .ld _ _ _ c _ => c
  | .vld _ _ _ c _ => c
  | _ => false

/-- The value that a scratchpad read delivers, with its flags. -/
def AccKind.value (k : Core) : AccKind → W64 × VReg × BitVec 5
  | .ld a sz sx _ _ =>
    let v := wordOf (k.bytes a (2 ^ sz))
    (if sx then signExt (2 ^ sz) v else v, 0, 0)
  | .vld et addrs fmts _ _ =>
    let rs := (addrs.zip fmts).map fun (a, f) => loadConv f et (leNat (k.bytes a (bankWidth f et)) (bankWidth f et))
    (0, BitVec.ofNat 8192 (packElems (etWidth et) (rs.map (·.1))), rs.foldl (fun fl r => fl ||| r.2) 0)
  | .fetst line _ => (if k.isFull line then 1 else 0, 0, 0)
  | _ => (0, 0, 0)

/-- Does a read meet an uncorrectable word? -/
def AccKind.spoiled (k : Core) : AccKind → Bool
  | .ld a sz _ _ _ => k.spoiled a (2 ^ sz)
  | .vld et addrs fmts _ _ => (addrs.zip fmts).any fun x => k.spoiled x.1 (bankWidth x.2 et)
  | _ => false
/-- The core with the lines that its waiting loads have been served with at their fills (R254). -/
def Core.asCaught (k : Core) : Core := k.caught.foldl (fun k x => k.put (128 * x.1) x.2) k

/-- The result of a read goes on its way: it lands four cycles after the access point (R189, R195). One with an uncorrectable word is
marked, and the close of the segment will find it (R293, R431, R438). -/
def Core.deliver (k : Core) (c : Acc) : Core :=
  let send := fun (w : Landing) =>
    { k with arch := { k.arch with inflA := k.arch.inflA ++ [⟨w, 0, c.left + 4, c.stale⟩] } }
  let v := c.kind.value (if c.kind.consumes then k else k.asCaught)
  let bad := c.kind.spoiled k
  let found := fun (k : Core) => if bad then { k with seg := { k.seg with bad := true } } else k
  match c.kind with
  | .ld _ _ _ _ d => found (send (if bad then .bad d else d.landing v.1))
  | .fetst _ d => send (d.landing v.1)
  | .vld _ _ _ _ d =>
    let k := found (match d with
      | .vq q id => send (if bad then .bad d else .vq q id v.2.1)
      | _ => k)
    { k with arch := k.arch.raise c.bundle v.2.2 }
  | _ => k

/-- Consuming actions of an access. -/
def Core.consume (k : Core) (c : Acc) : Core :=
  match c.kind with
  | .feset line n false => k.ownFull c.released ((List.range n).map (line + ·)) false
  | a => if a.consumes then k.ownFull c.released a.readLines false else k

/-- The bytes that an access writes. -/
def Core.store (k : Core) (c : Acc) : Core :=
  let k := k.ownMend c
  match c.kind with
  | .st a sz v _ => k.ownPut c.released a (bytesOf (2 ^ sz) v)
  | .vst et addrs fmts x _ =>
    let w := etWidth et
    ((addrs.zip fmts).mapIdx fun i (a, f) => (i, a, f)).foldl
      (fun k (i, a, f) =>
        let r := storeConv f et (elem x.toNat w i)
        let k := k.ownPut c.released a (leBytes r.1 (bankWidth f et))
        { k with arch := k.arch.raise c.bundle r.2 })
      k
  | _ => k

/-- Filling actions of an access. -/
def Core.fill (k : Core) (c : Acc) : Core :=
  match c.kind with
  | .feset line n true => k.ownFull c.released ((List.range n).map (line + ·)) true
  | .st a sz _ true => k.ownFull c.released (linesOf a (2 ^ sz)) true
  | .vst et addrs fmts _ true =>
    k.ownFull c.released (distinct ((addrs.zip fmts).flatMap fun (a, f) => linesOf a (bankWidth f et))) true
  | _ => k

/-- The accesses of the earliest bundle that has some pending: they meet the scratchpad at one access point (R195). -/
def Arch.accGroup (a : Arch) : List Acc :=
  match a.accs with
  | [] => []
  | c :: _ => a.accs.filter (·.bundle == c.bundle)

/-- Can every read of the group be made: its lines are full, and no reader ahead of its consuming action still waits (R196, R254)? -/
def Core.groupReady (k : Core) (g : List Acc) : Bool :=
  g.all fun c =>
    (c.kind.readLines.all fun l => k.isFull l || (!c.kind.consumes && k.caught.any fun x => x.1 == l)) &&
      !(c.kind.consumes && k.othersWait readerConsume c.kind.readLines)

/-- The group waits on the lines that it has found empty. -/
def Core.groupWaits (k : Core) (g : List Acc) : Core :=
  g.foldl
    (fun k c =>
      if c.kind.consumes then k.waitOn readerConsume (c.kind.readLines.filter (!k.isFull ·))
      else k.waitOn readerLoad (c.kind.readLines.filter fun l => !k.isFull l && !k.caught.any fun x => x.1 == l)) k

/-- Perform a group: reads, consuming actions, writes, fills (R195). -/
def Core.performGroup (k : Core) (g : List Acc) : Core :=
  let k := g.foldl Core.deliver k
  let k := g.foldl Core.consume k
  let k := g.foldl Core.store k
  let k := g.foldl Core.fill k
  { k with
    arch := { k.arch with accs := k.arch.accs.filter fun c => !(g.contains c) }
    waiters := k.waiters.filter fun x => 2 ≤ x.2
    caught := [] }

/-- The lines that an access fills. -/
def AccKind.fillLines : AccKind → List Nat
  | .feset line n true => (List.range n).map (line + ·)
  | .st a sz _ true => linesOf a (2 ^ sz)
  | .vst et addrs fmts _ true => distinct ((addrs.zip fmts).flatMap fun (a, f) => linesOf a (bankWidth f et))
  | _ => []

/-- A line has become full: a direct load that waits on it is served with it (R254). -/
def Core.catchLine (k : Core) (line : Nat) : Core :=
  if k.waiters.contains (line, readerLoad) then
    { k with
      caught := k.caught ++ [(line, k.bytes (128 * line) 128)]
      waiters := k.waiters.filter (· ≠ (line, readerLoad)) }
  else k
/-- Lines have become full, and every operation that waits on them has been served: the group of accesses that waits is performed if it
can be, ahead of every other consuming action (R254); with it the lines that the group has filled. -/
def Core.serveDirect (k : Core) (lines : List Nat) : Core × List Nat :=
  let waits := k.waiters.any fun x => decide (x.2 < 2)
  let k := lines.foldl Core.catchLine k
  let g := k.arch.accGroup
  if waits && k.groupReady g then (k.performGroup g, g.flatMap (·.kind.fillLines)) else (k, [])
/-- No access of the core's own waits any more. -/
def Core.dropDirect (k : Core) : Core := { k with waiters := k.waiters.filter fun x => 2 ≤ x.2, caught := [] }

/-- Do banks of the group stand in retention mode (R196, R439)? -/
def Core.retained (k : Core) (lines : List Nat) : Bool := lines.any fun l => Sparse.get false k.retention (bankOf (128 * l))

/-- The lines that an access writes or fills. -/
def AccKind.writeLines : AccKind → List Nat
  | .st a sz _ _ => linesOf a (2 ^ sz)
  | .vst et addrs fmts _ _ => distinct ((addrs.zip fmts).flatMap fun (a, f) => linesOf a (bankWidth f et))
  | .feset line n _ => (List.range n).map (line + ·)
  | .fetst line _ => [line]
  | _ => []

end Sys2Proof.Machine
end

