-- ==== Sys2Proof/Machine/Access.lean ====
section
/-! DEFINITION. Sys2Proof/Machine/Access.lean: what the meanings of the memory slots share: places in program order, fences
(R199, R207), release points and what is kept of them (R291, R293, R294), addresses and their checks (R192, R200, R201), stepped
checks at issue (R198), and the way of a write out of the core (R197, R362, R363). -/

namespace Sys2Proof.Machine

/-- The core whose part is issuing. -/
def State.mine (s : State) : Core := s.core s.part.core
/-- Replace the core whose part is issuing. -/
def State.putMine (s : State) (k : Core) : State := s.setCore s.part.core k
/-- A place in program order for an access of the core. -/
def Core.nextSeq (k : Core) : Nat × Core :=
  (k.arch.accSeq, { k with arch := { k.arch with accSeq := k.arch.accSeq + 1 } })
/-- A name for a request of the core. -/
def Core.nextId (k : Core) : Nat × Core := (k.offId, { k with offId := k.offId + 1 })

/-! ### Fences -/

/-- Has everything returned that an acquire fence waits for: loads, AMO, CAS, LDACQ before it (R207)? -/
def Core.returned (k : Core) (seq : Nat) : Bool :=
  (k.offs.all fun r => seq ≤ r.seq) && (k.arch.accs.all fun c => seq ≤ c.seq || c.kind.readLines.isEmpty)
/-- Is the write the core's own, not a piece or the enqueue of a CPYN (R369)? -/
def Write.own (w : Write) : Bool :=
  match w.kind with
  | .pieceCpyn _ _ _ _ _ | .enqueueCpyn _ _ _ _ _ => false
  | _ => true
/-- Has every access before a place been performed (R199, R363)? -/
def Core.performedBefore (k : Core) (seq : Nat) : Bool :=
  k.returned seq && (k.arch.accs.all fun c => seq ≤ c.seq) && (k.out.all fun w => seq ≤ w.seq) &&
    k.side.all fun w => !w.own || seq ≤ w.seq
/-- Is a fence satisfied (R207, R420)? -/
def State.fenceDone (s : State) (c : Nat) (f : Fence) : Bool :=
  let k := s.core c
  (!f.acq || k.returned f.seq) && (!f.rel || k.performedBefore f.seq) && (!f.durable || !s.hbm.undurable c)
/-- The core before the part that is issuing, by which fences are judged: one bundle's slots are not ordered by them (R299). -/
def State.beforePart (s : State) : State := s.setCore s.part.core s.part.before
/-- May a load of the part issue: no LDACQ out, no acquire or full fence in force (R199, R207)? -/
def State.loadsFree (s : State) : Bool :=
  let b := s.beforePart
  let k := s.part.before
  (k.offs.all fun r => !r.acq) && k.arch.fences.all fun f => !f.acq || b.fenceDone s.part.core f
/-- May a store, reduction, atomic or engine command of the part issue (R199, R207)? -/
def State.writesFree (s : State) : Bool :=
  let b := s.beforePart
  let k := s.part.before
  (k.offs.all fun r => !r.acq) && k.arch.fences.all fun f => b.fenceDone s.part.core f
/-- Has every access before the part been performed, as a fill, QSEND or EVPOST requires (R300)? -/
def Core.allPerformed (k : Core) : Bool := k.offs.isEmpty && k.out.isEmpty && k.side.all fun w => !w.own

/-! ### Release points -/

/-- What the slot's release point left, if it has been performed in this segment before a rewind (R294). Log entry 55 (DEDUCED). -/
def State.recorded? (s : State) : Option Recorded :=
  s.mine.seg.recorded.find? fun r => r.bundle == s.part.bundle && r.slot == s.part.slot
/-- The value that marks the recorded result of an instruction whose outcome is still open. -/
def openResult : W64 := BitVec.allOnes 64
/-- Is the outcome of a recorded instruction still open? -/
def Recorded.isOpen (r : Recorded) : Bool := decide (r.slot < 2) && r.value == some openResult
/-- Keep what a release point left (R293). Log entry 55 (DEDUCED). -/
def Core.keep (k : Core) (r : Recorded) : Core := { k with seg := { k.seg with recorded := k.seg.recorded ++ [r] } }
/-- A request of a pair's stream cycle waits at its source until the signatures of that cycle have compared equal (R428). -/
def Core.gate (k : Core) (bundle slot seq : Nat) : Core :=
  if k.unchecked.isEmpty then k else { k with gated := k.gated ++ [⟨seq, k.unchecked.length, bundle, slot⟩] }
/-- Have the signatures of the cycle that has sent the request compared equal? -/
def Core.compared (k : Core) (seq : Nat) : Bool := k.gated.all (·.seq ≠ seq)
/-- Keep that the release point of the slot has been performed, and the value it gave. -/
def State.keepValue (s : State) (k : Core) (v : Option W64) : Core := k.keep ⟨s.part.bundle, s.part.slot, v, false, [], none⟩

/-! ### Addresses -/

/-- The address of a scalar access (R194). -/
def scalarEa (b x : W64) (m : BitVec 17) : W64 :=
  b + x + BitVec.ofInt 64 (toInt 7 true (fld m 0 7) * 2 ^ fld m 12 2)
/-- A scalar scratchpad address that R192 accepts. -/
def scratchOk (a : W64) (n : Nat) : Bool := a.toNat % n == 0 && decide (a.toNat + n ≤ scratchSize)

/-- Element addresses: base + i x step (R200). -/
def strided (b step : W64) (c : Nat) : List W64 := (List.range c).map fun i => b + BitVec.ofNat 64 i * step
/-- Element addresses: base + index x width (R200). -/
def indexed (b : W64) (e : Nat) (idx : List Nat) : List W64 := idx.map fun i => b + BitVec.ofNat 64 (i * e)
/-- The 256 UINT32 indices of each index vector (R200). -/
def indicesOf (l : List VReg) (c : Nat) : List Nat := (l.flatMap fun x => (List.range 256).map (elem x.toNat 32)).take c

/-- The bank format of an offset as of issue (R25). -/
def Arch.fmtAt (a : Arch) (off : Nat) : Nat := Sparse.get 0 a.bfmt (bankOf off)

/-- The breach of R192, R201 or R252 that a scratchpad vector access makes: the address of the first one, for R252 the access's first
byte; an element that breaks R201 comes before R252. Log entry 90 (DESIGN CHOICE). -/
def vecBreach (a : Arch) (et e : Nat) (base : W64) (contiguous : Bool) (addrs : List W64) : Option W64 :=
  let c := addrs.length
  let bad := fun (x : W64) =>
    decide (scratchSize < x.toNat + e) || x.toNat % e ≠ 0 || bankWidth (a.fmtAt x.toNat) et ≠ e
  let mx := fun (x : W64) => isMx (a.fmtAt x.toNat) && !(et == 0 || et == 4)
  if contiguous && (base.toNat % min (c * e) 128 ≠ 0 || (decide (base.toNat < scratchSize) && (decide (131072 < base.toNat % 131072 + c * e)))) then some base
  else match addrs.find? bad with
    | some x => some x
    | none => if addrs.any mx then addrs.head? else none

/-! ### Scratchpad accesses -/

/-- A scratchpad access of the part goes on its way to its access point (R195). -/
def Core.access (k : Core) (p : Part) (kind : AccKind) (seq : Nat) (released : Bool) : Core :=
  let a := k.arch.supersede kind.target
  { k with arch := { a with accs := a.accs ++ [⟨kind, 3, p.bundle, seq, false, released⟩] } }

/-! ### Off-core accesses -/

/-- Do two ranges of bytes meet? -/
def overlap (a n b m : Nat) : Bool := decide (a < b + m) && decide (b < a + n)
/-- The ranges of bytes that a write touches. -/
def WriteKind.ranges : WriteKind → List (Nat × Nat)
  | .store l => l.map fun p => (p.1, p.2.length)
  | .red op sz va _ => [(va, atomicBytes op sz)]
  | .vred _ _ va l => [(va, l.length)]
  | .pieceCpyn va l _ _ _ => [(va, l.length)]
  | .enqueueCpyn _ _ _ _ _ => []
/-- Is the write a reduction? -/
def WriteKind.isRed : WriteKind → Bool
  | .red _ _ _ _ | .vred _ _ _ _ => true
  | _ => false
/-- Does the write touch a byte of the range? -/
def WriteKind.touches (w : WriteKind) (va n : Nat) : Bool := w.ranges.any fun r => overlap r.1 r.2 va n
/-- The ranges of bytes that an off-core request touches. -/
def OffKind.ranges : OffKind → List (Nat × Nat)
  | .ld va sz _ => [(va, 2 ^ sz)]
  | .vld et addrs => addrs.map fun a => (a, etWidth et / 8)
  | .amo op sz va _ => [(va, atomicBytes op sz)]
  | .cas sz va _ _ => [(va, 2 ^ sz)]

/-- A lookup of each of some addresses (R357): the first stray one stops the access. -/
def lookupAll (t : Sparse TEntry) (need : Need) (l : List Nat) : Got Unit :=
  match l.find? fun a => lookup t need a == .stray with
  | some a => .stray a
  | none => .ok ()
/-- Does an access of the kind meet an absent subpage (R357)? -/
def meetsAbsent (t : Sparse TEntry) (need : Need) (va : Nat) : Bool :=
  match lookup t need va with
  | .absent _ _ => true
  | _ => false
/-- Does a write in the side log touch the subpage of an address while that is still duplicated: a collapse is on its way (R367)? -/
def Core.collapsing (k : Core) (va : Nat) : Bool :=
  match findEntry k.table va with
  | none => false
  | some (_, e) =>
    let n := e.size / 64
    e.stateOf (e.subOf va) == 2 && k.side.any fun w => w.own && w.kind.touches (e.va + e.subOf va * n) n
/-- Must a read of the core at an address wait for the subpage (R361, R367)? -/
def Core.readWaits (k : Core) (va : Nat) : Bool := meetsAbsent k.table .read va || k.collapsing va
/-- Is the request a held load (R361, R363, R367)? -/
def Core.held (k : Core) (r : OffReq) : Bool :=
  match r.kind with
  | .ld va _ _ => k.readWaits va
  | .vld _ addrs => addrs.any k.readWaits
  | .amo _ _ va _ | .cas _ va _ _ =>
    r.answer.isNone && (meetsAbsent k.table .both va || k.side.any fun w => w.own && w.ch == r.ch && decide (w.seq < r.seq))
/-- Does a held load hold the access stream (R58, R361)? -/
def Core.holdsAccess (k : Core) : Bool := k.offs.any k.held

/-- The stepped checks at issue of the ranges that a write touches (R198), made before presence is asked (R357): a conflict traps, and
under replay a check waits for its logged order (R374). A part that had issued before a rewind repeats its checks (R379). Words accepted
before in a part that a conflict then cancels are taken back with it (log entry 81, DESIGN CHOICE). -/
def State.checkStepped (s : State) (ranges : List (Nat × Nat)) : Got State :=
  let c := s.part.core
  let k := s.mine
  let again := decide (s.part.bundle < k.redoTo)
  match s.launchOf c with
  | none => .ok s
  | some l =>
    Got.foldl
      (fun s (va, n) =>
        match findEntry k.table va with
        | none => .ok s
        | some (i, e) =>
          if !e.stepped then .ok s
          else
            let held := fun a => s.stepHeld l i e a c l.frame again
            match s.stepCheck l.asid e va n c l.frame again with
            | .inl a => if held a then .held l.id 9 (conflictKey i e a) else .trap ecStepped (BitVec.ofNat 64 a)
            | .inr t =>
              match (wordsOf va n).find? held with
              | some a => .held l.id 9 (conflictKey i e a)
              | none => .ok (t.endHolds l.id ((wordsOf va n).map (conflictKey i e)) c))
      s ranges

/-- Does a write that leaves the core go into the side log: its subpage is absent, a DUP subpage must collapse, or the side log holds an
entry of its channel (R362, R363)? -/
def Core.strays (k : Core) (w : Write) : Bool :=
  (w.kind.ranges.any fun r => meetsAbsent k.table .write r.1) || k.side.any fun x => x.ch == w.ch
/-- A write leaves the core (R197, R362, R363): to its targets, or into the side log. -/
def Core.send (k : Core) (w : Write) : Core :=
  if k.strays w then { k with side := k.side ++ [w] } else { k with out := k.out ++ [w] }

/-- Join neighbouring pieces of one 128-byte line into one (R362). -/
def joinLines : List (Nat × List Byte) → List (Nat × List Byte)
  | [] => []
  | p :: rest =>
    match joinLines rest with
    | q :: more => if p.1 + p.2.length = q.1 ∧ p.1 / 128 = q.1 / 128 then (p.1, p.2 ++ q.2) :: more else p :: q :: more
    | [] => [p]

/-- The pieces of a store of which something remains: of two elements at one address the higher one stays (R201). -/
def lastPieces : List (Nat × List Byte) → List (Nat × List Byte)
  | [] => []
  | p :: rest => if rest.any fun q => q.1 == p.1 then lastPieces rest else p :: lastPieces rest

/-- The entries that a write makes as it leaves the commit buffer (R362): one for each line of a vector store or a VRED.
Log entry 49 (DEDUCED). -/
def WriteKind.split : WriteKind → List WriteKind
  | .store l => (joinLines (lastPieces l)).map fun p => .store [p]
  | .vred op et va l => (List.range 8).map fun i => .vred op et (va + 128 * i) ((l.drop (128 * i)).take 128)
  | w => [w]

/-- A write leaves the commit buffer line by line (R293, R362). Log entry 50 (DEDUCED). -/
def Core.release (k : Core) (w : Write) : Core :=
  w.kind.split.foldl (fun k x => let (i, k) := k.nextId; k.send { w with id := i, kind := x }) k

/-- Entries of a side log (R362). -/
def sideDepth : Nat := 256
/-- Does the side log of a core hold no more than it can? -/
def Core.fits (k : Core) : Bool := decide (k.side.length ≤ sideDepth)

/-- The number of mem0's slot. -/
def slotMem0 : Nat := 4
/-- What mem0 of the bundle has put into the commit buffer leaves it with mem1's access, where that is performed at once and must come
behind it (R197, R290, R306): a write on its channel or to its bytes; a read of bytes that it reduces. Log entry 68 (DEDUCED). -/
def State.flushBundle (s : State) (k : Core) (ch : Nat) (ranges : List (Nat × Nat)) (load : Bool) : Core :=
  let hit := fun (w : Write) =>
    decide (s.part.before.arch.accSeq ≤ w.seq) &&
      ((w.ch == ch && !load) || ((!load || w.kind.isRed) && ranges.any fun r => w.kind.touches r.1 r.2))
  (k.seg.commit.filter hit).foldl
    (fun k w => ((k.release w).keep ⟨s.part.bundle, slotMem0, none, false, [], none⟩).gate s.part.bundle slotMem0 w.seq)
    { k with seg := { k.seg with commit := k.seg.commit.filter (!hit ·) } }

end Sys2Proof.Machine
end

