-- ==== Sys2Proof/Machine/LoadStore.lean ====
section
/-! DEFINITION. Sys2Proof/Machine/LoadStore.lean: address arithmetic (spec/09 R190, R191), scalar and vector loads and stores (R192 to
R201), FESET and FETST (R202), XLATQ (R217). -/

namespace Sys2Proof.Machine

/-! ### Address arithmetic -/

/-- Two a-type sources and an a-type result. -/
def addr2 (f : W64 → W64 → W64) (lat : Nat) (o : A3) : State → Got State :=
  onPartCore fun _ k =>
    (k.srcA o.s1.toNat).bind fun (x, k) => (k.srcA o.s2.toNat).bind fun (y, k) =>
      (k.dest o.d.toNat).map fun (d, k) => k.flyA d (f x y) lat

/-- AADD (R190). -/
def bodyAadd (o : A3) : State → Got State := addr2 (· + ·) 1 o
/-- Perform AADD. -/
def execAadd (o : A3) (s : State) : Out := runSlot (.aadd o) (bodyAadd o) s
/-- ASUB (R190). -/
def bodyAsub (o : A3) : State → Got State := addr2 (· - ·) 1 o
/-- Perform ASUB. -/
def execAsub (o : A3) (s : State) : Out := runSlot (.asub o) (bodyAsub o) s
/-- AMUL (R190). -/
def bodyAmul (o : A3) : State → Got State := addr2 (· * ·) 3 o
/-- Perform AMUL. -/
def execAmul (o : A3) (s : State) : Out := runSlot (.amul o) (bodyAmul o) s
/-- AAND (R190). -/
def bodyAand (o : A3) : State → Got State := addr2 (· &&& ·) 1 o
/-- Perform AAND. -/
def execAand (o : A3) (s : State) : Out := runSlot (.aand o) (bodyAand o) s
/-- AMIN (R190). -/
def bodyAmin (o : A3) : State → Got State := addr2 (fun x y => if x.toNat ≤ y.toNat then x else y) 1 o
/-- Perform AMIN. -/
def execAmin (o : A3) (s : State) : Out := runSlot (.amin o) (bodyAmin o) s
/-- ASHL: the amount as in R109 (R190). -/
def bodyAshl (o : A3) : State → Got State :=
  onPartCore fun _ k =>
    (k.srcA o.s1.toNat).bind fun (x, k) =>
      (if fld o.m 6 1 = 1 then .ok (BitVec.ofNat 64 (fld o.m 0 6), k) else k.srcA o.s2.toNat).bind fun (n, k) =>
        (k.dest o.d.toNat).map fun (d, k) => k.flyA d (x <<< (n.toNat % 64)) 1
/-- Perform ASHL. -/
def execAshl (o : A3) (s : State) : Out := runSlot (.ashl o) (bodyAshl o) s
/-- ACMP (R190, R114). -/
def bodyAcmp (o : A3) : State → Got State :=
  onPartCore fun _ k =>
    (k.srcA o.s1.toNat).bind fun (x, k) => (k.srcA o.s2.toNat).map fun (y, k) =>
      k.flyA (destP o.d.toNat) (if condHolds (fld o.m 0 4) x y then 1 else 0) 1
/-- Perform ACMP. -/
def execAcmp (o : A3) (s : State) : Out := runSlot (.acmp o) (bodyAcmp o) s
/-- AADDI (R191). -/
def bodyAaddi (o : AI) : State → Got State :=
  onPartCore fun _ k =>
    (k.srcA o.s1.toNat).bind fun (x, k) => (k.dest o.d.toNat).map fun (d, k) => k.flyA d (x + o.imm.signExtend 64) 1
/-- Perform AADDI. -/
def execAaddi (o : AI) (s : State) : Out := runSlot (.aaddi o) (bodyAaddi o) s
/-- AMOVI (R191). -/
def bodyAmovi (o : WI) : State → Got State :=
  onPartCore fun _ k => (k.dest o.d.toNat).map fun (d, k) => k.flyA d (o.imm.setWidth 64) 1
/-- Perform AMOVI. -/
def execAmovi (o : WI) (s : State) : Out := runSlot (.amovi o) (bodyAmovi o) s

/-! ### Scalar loads and stores -/

/-- An off-core load of the part is sent (R188, R197). -/
def Core.offLoad (k : Core) (p : Part) (kind : OffKind) (ch : Nat) (acq rel : Bool) (d : Dest) (kept : Option Recorded) : Core :=
  let (q, k) := k.nextSeq
  let (i, k) := k.nextId
  let r : OffReq := ⟨i, kind, ch, acq, rel, d, q, p.bundle, p.slot, kept.bind (·.value), (kept.map (·.poison)).getD false⟩
  { k with arch := k.arch.supersede d.target, offs := k.offs ++ [r] }

/-- LD and LDACQ (R192 to R194, R199); one that meets an absent subpage issues and is a held load (R361). -/
def loadScalar (acq : Bool) (o : A3) (s : State) : Got State :=
  (s.mine.srcA o.s1.toNat).bind fun (b, k) => (k.srcA o.s2.toNat).bind fun (x, k) =>
    let sz := fld o.m 12 2
    let n := 2 ^ sz
    let sx := fld o.m 11 1 == 1
    let ea := scalarEa b x o.m
    if fld o.m 16 1 = 0 then
      if !scratchOk ea n then .trap ecMisaligned ea
      else if !s.loadsFree then .stall
      else (k.dest o.d.toNat).map fun (d, k) =>
        let (q, k) := k.nextSeq
        let k := k.access s.part (.ld ea.toNat sz sx (fld o.m 10 1 == 1) d) q false
        s.putMine (if acq then
          { k with arch := { k.arch with fences := k.arch.fences ++ [⟨q + 1, true, false, false, false⟩] } } else k)
    else if ea.toNat % n ≠ 0 then .trap ecMisaligned ea
    else (lookupAll k.table .read [ea.toNat]).bind fun _ =>
      if !s.loadsFree then .stall
      else (k.dest o.d.toNat).bind fun (d, k) =>
        let k := s.flushBundle k (fld o.m 14 2) [(ea.toNat, n)] true
        if k.fits then .ok (s.putMine (k.offLoad s.part (.ld ea.toNat sz sx) (fld o.m 14 2) acq false d none)) else .stall

/-- LD (R193, R194). -/
def bodyLd (o : A3) (s : State) : Got State := loadScalar false o s
/-- Perform LD. -/
def execLd (o : A3) (s : State) : Out := runSlot (.ld o) (bodyLd o) s
/-- LDACQ (R193, R199). -/
def bodyLdacq (o : A3) (s : State) : Got State := loadScalar true o s
/-- Perform LDACQ. -/
def execLdacq (o : A3) (s : State) : Out := runSlot (.ldacq o) (bodyLdacq o) s

/-- The frame of the launch that the issuing core runs (R312). -/
def State.frameNow (s : State) : Nat := ((s.launchOf s.part.core).map (·.frame)).getD 0

/-- A write of the part: into the commit buffer, or, with release ordering, out at once (R197, R199, R293), if the side log can take it
(R362); one that has left the core in this segment before a rewind is not made again (R294). -/
def State.write (s : State) (k : Core) (kind : WriteKind) (ch : Nat) (rel : Bool) : Got Core :=
  let (q, k) := k.nextSeq
  let (i, k) := k.nextId
  let w : Write := ⟨i, kind, ch, q, rel, s.frameNow⟩
  if s.recorded?.isSome then .ok k
  else if !rel then .ok { k with seg := { k.seg with commit := k.seg.commit ++ [w] } }
  else
    let k := ((s.flushBundle k ch kind.ranges false).send w).gate s.part.bundle s.part.slot q
    if k.fits then .ok (s.keepValue k none) else .stall

/-- A scratchpad store or fill of the part; one that is a release point waits for every earlier access (R300), is kept and is not
made again after a rewind (R294). -/
def State.fillAccess (s : State) (k : Core) (kind : AccKind) (released : Bool) : Got State :=
  let (q, k) := k.nextSeq
  if !s.writesFree then .stall
  else if !released then .ok (s.putMine (k.access s.part kind q false))
  else if s.recorded?.isSome then .ok (s.putMine k)
  else if !s.part.before.allPerformed then .stall
  else .ok (s.putMine (s.keepValue (k.access s.part kind q true) none))

/-- ST and STREL (R192 to R194, R197 to R199). -/
def storeScalar (rel : Bool) (o : A3) (s : State) : Got State :=
  (s.mine.srcA o.s1.toNat).bind fun (b, k) => (k.srcA o.s2.toNat).bind fun (x, k) =>
    (k.srcSd o.s3.toNat).bind fun (v, k) =>
      let sz := fld o.m 12 2
      let n := 2 ^ sz
      let fe := fld o.m 10 1 == 1
      let ea := scalarEa b x o.m
      if fld o.m 16 1 = 0 then
        if !scratchOk ea n then .trap ecMisaligned ea
        else s.fillAccess k (.st ea.toNat sz v fe) (fe || rel)
      else if ea.toNat % n ≠ 0 then .trap ecMisaligned ea
      else (lookupAll k.table .write [ea.toNat]).bind fun _ =>
        if !s.writesFree then .stall
        else (s.checkStepped [(ea.toNat, n)]).bind fun t =>
          (s.write k (.store [(ea.toNat, bytesOf n v)]) (fld o.m 14 2) rel).map t.putMine

/-- ST (R193, R194). -/
def bodySt (o : A3) (s : State) : Got State := storeScalar false o s
/-- Perform ST. -/
def execSt (o : A3) (s : State) : Out := runSlot (.st o) (bodySt o) s
/-- STREL (R193, R199). -/
def bodyStrel (o : A3) (s : State) : Got State := storeScalar true o s
/-- Perform STREL. -/
def execStrel (o : A3) (s : State) : Out := runSlot (.strel o) (bodyStrel o) s

/-! ### Vector loads and stores -/

/-- The element type of a vector access. -/
def accEt (m : BitVec 17) : Nat := fld m 10 4
/-- The element width of an access from its base address (R200). -/
def accWidth (a : Arch) (m : BitVec 17) (base : W64) : Nat :=
  if fld m 16 1 = 1 then etWidth (accEt m) / 8 else bankWidth (a.fmtAt base.toNat) (accEt m)

/-- A vector load from its element addresses (R200, R201). -/
def loadVector (o : A3) (base : W64) (contiguous : Bool) (addrs : List W64) (k : Core) (s : State) : Got State :=
  let et := accEt o.m
  let e := accWidth k.arch o.m base
  let nats := addrs.map (·.toNat)
  if fld o.m 16 1 = 0 then
    match vecBreach k.arch et e base contiguous addrs with
    | some x => .trap ecMisaligned x
    | none =>
      if !s.loadsFree then .stall
      else (k.destVQ o.d.toNat).map fun (d, k) =>
        let (q, k) := k.nextSeq
        s.putMine (k.access s.part (.vld et nats (nats.map k.arch.fmtAt) (fld o.m 9 1 == 1) d) q false)
  else if contiguous && base.toNat % 128 ≠ 0 then .trap ecMisaligned base
  else match addrs.find? fun x => x.toNat % e ≠ 0 with
    | some x => .trap ecMisaligned x
    | none =>
      (lookupAll k.table .read nats).bind fun _ =>
        if !s.loadsFree then .stall
        else (k.destVQ o.d.toNat).bind fun (d, k) =>
          let k := s.flushBundle k (fld o.m 14 2) (nats.map fun a => (a, e)) true
          if k.fits then .ok (s.putMine (k.offLoad s.part (.vld et nats) (fld o.m 14 2) false false d none)) else .stall

/-- A vector store to its element addresses (R200, R201). Of the vector fills only VST's is a release point: R291 and R300 name ST and
VST, and list their vector loads one by one (log entry 24). -/
def storeVector (o : A3) (base : W64) (contiguous : Bool) (addrs : List W64) (x : VReg) (k : Core) (s : State) : Got State :=
  let et := accEt o.m
  let e := accWidth k.arch o.m base
  let nats := addrs.map (·.toNat)
  let fe := fld o.m 9 1 == 1
  if fld o.m 16 1 = 0 then
    match vecBreach k.arch et e base contiguous addrs with
    | some b => .trap ecMisaligned b
    | none => s.fillAccess k (.vst et nats (nats.map k.arch.fmtAt) x fe) (fe && contiguous)
  else if contiguous && base.toNat % 128 ≠ 0 then .trap ecMisaligned base
  else match addrs.find? fun x => x.toNat % e ≠ 0 with
    | some b => .trap ecMisaligned b
    | none =>
      (lookupAll k.table .write nats).bind fun _ =>
        if !s.writesFree then .stall
        else
          let pieces := nats.mapIdx fun i a => (a, leBytes (elem x.toNat (8 * e) i) e)
          (s.checkStepped (nats.map fun a => (a, e))).bind fun t => (s.write k (.store pieces) (fld o.m 14 2) false).map t.putMine

/-- The element count of an access. -/
def accCount (m : BitVec 17) : Nat := etCount (accEt m)

/-- VLD (R200). -/
def bodyVld (o : A3) (s : State) : Got State :=
  (s.mine.srcA o.s1.toNat).bind fun (b, k) => (k.srcA o.s2.toNat).bind fun (x, k) =>
    let base := b + x
    loadVector o base true (strided base (BitVec.ofNat 64 (accWidth k.arch o.m base)) (accCount o.m)) k s
/-- Perform VLD. -/
def execVld (o : A3) (s : State) : Out := runSlot (.vld o) (bodyVld o) s
/-- VLDS (R200). -/
def bodyVlds (o : A3) (s : State) : Got State :=
  (s.mine.srcA o.s1.toNat).bind fun (b, k) => (k.srcA o.s2.toNat).bind fun (x, k) =>
    loadVector o b false (strided b x (accCount o.m)) k s
/-- Perform VLDS. -/
def execVlds (o : A3) (s : State) : Out := runSlot (.vlds o) (bodyVlds o) s
/-- The number of index vectors that an access pops (R200). -/
def indexPops (m : BitVec 17) : Nat := (accCount m + 255) / 256
/-- VLDX (R200). -/
def bodyVldx (o : A3) (s : State) : Got State :=
  (s.mine.srcA o.s1.toNat).bind fun (b, k) => (k.vpops (vqOf o.s2.toNat) (indexPops o.m)).bind fun (l, k) =>
    loadVector o b false (indexed b (accWidth k.arch o.m b) (indicesOf l (accCount o.m))) k s
/-- Perform VLDX. -/
def execVldx (o : A3) (s : State) : Out := runSlot (.vldx o) (bodyVldx o) s
/-- VST (R200). -/
def bodyVst (o : A3) (s : State) : Got State :=
  (s.mine.srcA o.s1.toNat).bind fun (b, k) => (k.srcA o.s2.toNat).bind fun (x, k) =>
    (k.arch.vpop (vqOf o.s3.toNat)).bind fun (v, a) =>
      let base := b + x
      storeVector o base true (strided base (BitVec.ofNat 64 (accWidth k.arch o.m base)) (accCount o.m)) v { k with arch := a } s
/-- Perform VST. -/
def execVst (o : A3) (s : State) : Out := runSlot (.vst o) (bodyVst o) s
/-- VSTS (R200). -/
def bodyVsts (o : A3) (s : State) : Got State :=
  (s.mine.srcA o.s1.toNat).bind fun (b, k) => (k.srcA o.s2.toNat).bind fun (x, k) =>
    (k.arch.vpop (vqOf o.s3.toNat)).bind fun (v, a) =>
      storeVector o b false (strided b x (accCount o.m)) v { k with arch := a } s
/-- Perform VSTS. -/
def execVsts (o : A3) (s : State) : Out := runSlot (.vsts o) (bodyVsts o) s
/-- VSTX: the index entries are popped first (R200). -/
def bodyVstx (o : A3) (s : State) : Got State :=
  (s.mine.srcA o.s1.toNat).bind fun (b, k) => (k.vpops (vqOf o.s2.toNat) (indexPops o.m)).bind fun (l, k) =>
    (k.arch.vpop (vqOf o.s3.toNat)).bind fun (v, a) =>
      storeVector o b false (indexed b (accWidth k.arch o.m b) (indicesOf l (accCount o.m))) v { k with arch := a } s
/-- Perform VSTX. -/
def execVstx (o : A3) (s : State) : Out := runSlot (.vstx o) (bodyVstx o) s

/-! ### Full/empty operations and translation query -/

/-- FESET (R202). -/
def bodyFeset (o : A3) (s : State) : Got State :=
  (s.mine.srcA o.s1.toNat).bind fun (x, k) => (k.srcA o.s2.toNat).bind fun (n, k) =>
    let full := fld o.m 0 1 == 1
    if x.toNat % 128 ≠ 0 ∨ n.toNat = 0 ∨ 16384 < n.toNat ∨ scratchSize < x.toNat + 128 * n.toNat then .trap ecMisaligned x
    else s.fillAccess k (.feset (x.toNat / 128) n.toNat full) full
/-- Perform FESET. -/
def execFeset (o : A3) (s : State) : Out := runSlot (.feset o) (bodyFeset o) s
/-- FETST: an offset outside the scratchpad takes the trap of R192 (R202). -/
def bodyFetst (o : A3) (s : State) : Got State :=
  (s.mine.srcA o.s1.toNat).bind fun (x, k) =>
    if scratchSize ≤ x.toNat then .trap ecMisaligned x
    else if !s.loadsFree then .stall
    else
      let (q, k) := k.nextSeq
      .ok (s.putMine (k.access s.part (.fetst (x.toNat / 128) (destP o.d.toNat)) q false))
/-- Perform FETST. -/
def execFetst (o : A3) (s : State) : Out := runSlot (.fetst o) (bodyFetst o) s

/-- The word of XLATQ (R217). -/
def xlatqWord (t : Sparse TEntry) (va : W64) : W64 :=
  match findEntry t va.toNat with
  | none => 0
  | some (i, e) =>
    let sub := e.subOf va.toNat
    BitVec.ofNat 64 (2 ^ 63 + (e.has sub).toNat * 2 ^ 62 + i % 512 * 2 ^ 53 + e.stateOf sub * 2 ^ 51 + e.attr.toNat * 2 ^ 45 +
      e.key % 16 * 2 ^ 41)
/-- XLATQ (R217). -/
def bodyXlatq (o : A3) : State → Got State :=
  onPartCore fun _ k =>
    (k.srcA o.s1.toNat).bind fun (x, k) => (k.dest o.d.toNat).map fun (d, k) => k.flyA d (xlatqWord k.table x) 3
/-- Perform XLATQ. -/
def execXlatq (o : A3) (s : State) : Out := runSlot (.xlatq o) (bodyXlatq o) s

end Sys2Proof.Machine
end

