-- ==== Sys2Proof/Machine/Atomics.lean ====
section
/-! DEFINITION. Sys2Proof/Machine/Atomics.lean: AMO, CAS, RED, VRED (spec/09 R203 to R206), FENCE (R207), QFENCE (R208). -/

namespace Sys2Proof.Machine

/-- The operation of an atomic (R203). -/
def amoOp (m : BitVec 17) : Nat := fld m 13 4
/-- The size code of an atomic. -/
def amoSz (m : BitVec 17) : Nat := fld m 11 2
/-- The channel of an atomic. -/
def amoCh (m : BitVec 17) : Nat := fld m 9 2
/-- Acquire ordering (R203). -/
def amoAcq (m : BitVec 17) : Bool := fld m 4 1 == 1
/-- Release ordering (R203). -/
def amoRel (m : BitVec 17) : Bool := fld m 5 1 == 1

/-- A returning atomic of the part (R188, R198, R204): one that meets an absent subpage, or entries of its channel in the side log,
issues and is a held load (R361, R363); after a rewind it delivers what it returned (R294). -/
def returning (o : A3) (kind : OffKind) (va : W64) (n : Nat) (k : Core) (s : State) : Got State :=
  if va.toNat % n ≠ 0 then .trap ecMisaligned va
  else (lookupAll k.table .both [va.toNat]).bind fun _ =>
    if !s.writesFree then .stall
    else (s.checkStepped [(va.toNat, n)]).bind fun t =>
      (k.dest o.d.toNat).bind fun (d, k) =>
        let k := s.flushBundle k (amoCh o.m) [(va.toNat, n)] false
        let sent := k.offLoad s.part kind (amoCh o.m) (amoAcq o.m) (amoRel o.m) d s.recorded?
        if k.fits then .ok (t.putMine (sent.gate s.part.bundle s.part.slot k.arch.accSeq)) else .stall

/-- AMO (R203, R204, R258). -/
def bodyAmo (o : A3) (s : State) : Got State :=
  (s.mine.srcA o.s1.toNat).bind fun (a, k) => (k.srcA o.s2.toNat).bind fun (v, k) =>
    returning o (.amo (amoOp o.m) (amoSz o.m) a.toNat v) a (atomicBytes (amoOp o.m) (amoSz o.m)) k s
/-- Perform AMO. -/
def execAmo (o : A3) (s : State) : Out := runSlot (.amo o) (bodyAmo o) s
/-- CAS (R203, R204). -/
def bodyCas (o : A3) (s : State) : Got State :=
  (s.mine.srcA o.s1.toNat).bind fun (a, k) => (k.srcA o.s2.toNat).bind fun (c, k) => (k.srcA o.s3.toNat).bind fun (v, k) =>
    returning o (.cas (amoSz o.m) a.toNat c v) a (2 ^ amoSz o.m) k s
/-- Perform CAS. -/
def execCas (o : A3) (s : State) : Out := runSlot (.cas o) (bodyCas o) s

/-- RED (R203 to R205): held in the commit buffer, or with release ordering sent at once (R291, R292). -/
def bodyRed (o : A3) (s : State) : Got State :=
  (s.mine.srcA o.s1.toNat).bind fun (a, k) => (k.srcA o.s2.toNat).bind fun (v, k) =>
    let n := atomicBytes (amoOp o.m) (amoSz o.m)
    if a.toNat % n ≠ 0 then .trap ecMisaligned a
    else (lookupAll k.table .write [a.toNat]).bind fun _ =>
      if !s.writesFree then .stall
      else (s.checkStepped [(a.toNat, n)]).bind fun t =>
        (s.write k (.red (amoOp o.m) (amoSz o.m) a.toNat v) (amoCh o.m) (amoRel o.m)).map t.putMine
/-- Perform RED. -/
def execRed (o : A3) (s : State) : Out := runSlot (.red o) (bodyRed o) s
/-- VRED (R206). -/
def bodyVred (o : A3) (s : State) : Got State :=
  (s.mine.srcA o.s1.toNat).bind fun (a, k) => (k.arch.vpop (vqOf o.s2.toNat)).bind fun (x, ar) =>
    if a.toNat % 128 ≠ 0 then .trap ecMisaligned a
    else
      let lines := (List.range 8).map fun i => (a + BitVec.ofNat 64 (128 * i)).toNat
      (lookupAll k.table .write lines).bind fun _ =>
        if !s.writesFree then .stall
        else (s.checkStepped (lines.map fun x => (x, 128))).bind fun t =>
          (s.write { k with arch := ar } (.vred (amoOp o.m) (fld o.m 9 4) a.toNat (leBytes x.toNat 1024)) (fld o.m 7 2) false).map t.putMine
/-- Perform VRED. -/
def execVred (o : A3) (s : State) : Out := runSlot (.vred o) (bodyVred o) s

/-- The fence that a kind makes (R207). -/
def fenceOf (kind seq : Nat) : Fence := ⟨seq, kind ≠ 1, kind ≠ 0, 2 ≤ kind, kind == 3⟩
/-- FENCE: later accesses wait for what its kind names; a closing kind closes the segment at its bundle (R207). -/
def bodyFence (o : A3) : State → Got State :=
  onPartCore fun _ k =>
    let (q, k) := k.nextSeq
    .ok { k with arch := { k.arch with fences := k.arch.fences ++ [fenceOf (fld o.m 3 2) q] } }
/-- Perform FENCE. -/
def execFence (o : A3) (s : State) : Out := runSlot (.fence o) (bodyFence o) s

/-- The operations of a queue. -/
def Core.opsOf (k : Core) (q : Nat) : List Op := Sparse.get [] k.ops q
/-- Replace the operations of a queue. -/
def Core.setOps (k : Core) (q : Nat) (l : List Op) : Core := { k with ops := Sparse.set [] k.ops q l }
/-- The queues that a mask names (R208). -/
def queuesOf (mask : Nat) : List Nat := (List.range 7).filter fun q => mask / 2 ^ q % 2 == 1
/-- Join queues (R208): what is appended to one of them starts after what has been appended to any of them. -/
def Core.joinQueues (k : Core) (mask : Nat) : Core :=
  let qs := queuesOf mask
  let pairs := qs.flatMap fun q => qs.map fun r => (q, r, Sparse.get 0 k.opCount r)
  { k with qfence := (k.qfence.filter fun x => !(pairs.any fun y => x.1 == y.1 && x.2.1 == y.2.1)) ++ pairs }
/-- QFENCE (R208): with W the access stream stalls until the named queues' operations have performed. -/
def bodyQfence (o : A3) (s : State) : Got State :=
  let mask := fld o.m 0 7
  let k := s.part.before
  if fld o.m 7 1 = 1 ∧ (queuesOf mask).any (fun q => !(k.opsOf q).isEmpty) then .stall
  else .ok (s.putMine (s.mine.joinQueues mask))
/-- Perform QFENCE. -/
def execQfence (o : A3) (s : State) : Out := runSlot (.qfence o) (bodyQfence o) s

end Sys2Proof.Machine
end

