-- ==== Sys2Proof/Machine/Control.lean ====
section
/-! DEFINITION. Sys2Proof/Machine/Control.lean: branches, TRAP, BRK, ERET, SYSR, SYSW (spec/06 R123 to R130), the modulo
sequencer's LOOPM and LBRK (spec/10 R223 to R226) and HINT (spec/04 R76). -/

namespace Sys2Proof.Machine

/-- Keep what reading a source has done to the issuing core. -/
def State.withArch (s : State) (a : Arch) : State := s.onArch s.part.core fun _ => a

/-- Read an s-type source of the part, for a body that goes on with the whole state. -/
def State.readS (s : State) (n : Nat) : Got (W64 × State) :=
  (s.part.srcS n (s.core s.part.core).arch).map fun (v, a) => (v, s.withArch a)

/-- The target of a BR-format branch (R53). -/
def brTarget (pc : W64) (off : BitVec 32) : W64 := pc + 2 * off.signExtend 64

/-- BRI (R123). -/
def bodyBri (o : BrF) (s : State) : Got State := s.jump (s.part.plainJump (brTarget s.part.pc o.off) none)
/-- Perform BRI. -/
def execBri (o : BrF) (s : State) : Out := runSlot (.bri o) (bodyBri o) s
/-- CALL: the link is the next bundle in sequence (R65, R123). -/
def bodyCall (o : BrF) (s : State) : Got State :=
  s.jump (s.part.plainJump (brTarget s.part.pc o.off) (some (o.link.toNat, s.part.next)))
/-- Perform CALL. -/
def execCall (o : BrF) (s : State) : Out := runSlot (.call o) (bodyCall o) s
/-- BR (R123, R124). -/
def bodyBr (o : A3) (s : State) : Got State :=
  (s.readS o.s1.toNat).bind fun (x, s) => s.jump (s.part.plainJump x (some (o.d.toNat, s.part.next)))
/-- Perform BR. -/
def execBr (o : A3) (s : State) : Out := runSlot (.br o) (bodyBr o) s
/-- RET (R123, R124). -/
def bodyRet (o : A3) (s : State) : Got State := (s.readS o.s1.toNat).bind fun (x, s) => s.jump (s.part.plainJump x none)
/-- Perform RET. -/
def execRet (o : A3) (s : State) : Out := runSlot (.ret o) (bodyRet o) s

/-- TRAP and BRK: the trap is taken after every other slot has issued, the lower slot's first (R125, R126). TRAP_ENTRY takes it at the
bundle that would have issued next, once the stream cycles of both streams are settled, behind a stretch that is still to be skipped
(R454) or an outcome not yet decided (R452). -/
def trapAfter (cause : Nat) (code : Nat) (s : State) : Got State :=
  if s.part.trapped then .ok s
  else
    .ok ({ s with part := { s.part with trapped := true } }.onArch s.part.core fun a =>
      { a with trap := some ⟨cause, BitVec.ofNat 64 code, 0, true⟩ })

/-- TRAP (R125). -/
def bodyTrap (o : A3) (s : State) : Got State := trapAfter ecTrap (fld o.m 0 16) s
/-- Perform TRAP. -/
def execTrap (o : A3) (s : State) : Out := runSlot (.trap o) (bodyTrap o) s
/-- BRK (R125). -/
def bodyBrk (o : A3) (s : State) : Got State := trapAfter ecBrk (fld o.m 0 16) s
/-- Perform BRK. -/
def execBrk (o : A3) (s : State) : Out := runSlot (.brk o) (bodyBrk o) s

/-- Has every result landed that the execute stream had issued before this part (R222)? -/
def Part.drained (p : Part) : Bool := p.before.arch.inflX.isEmpty
/-- Has every result of both streams landed that was issued before this part (R128)? -/
def Part.drainedBoth (p : Part) : Bool := p.drained && p.before.arch.inflA.isEmpty && p.before.arch.accs.isEmpty

/-- ERET (R128): the EXC bit is cleared and the held context resumed, and the branch to EPC is taken; a segment closes at that
boundary (R290). Log entry 14 (DEDUCED). Where the branch is suppressed behind ctl0's (R66), the held sequencer is dropped with it
(log entry 53, DESIGN CHOICE). -/
def bodyEret (_ : A3) (s : State) : Got State :=
  if !s.part.drainedBoth then .stall
  else
    let c := s.part.core
    let target := (s.core c).arch.epc
    let a := (s.core c).arch.leaveTrap
    let resumed := (s.core c).arch.exc
    let s := s.onCore c fun k =>
      { k.askClose with arch := { a with loop := k.arch.loop, loopOn := k.arch.loopOn, rb := k.arch.rb } }
    s.jump ⟨target, 0, none, if resumed then a.loop else none, resumed && a.loopOn, false, if resumed then a.rb else s.part.rb, none⟩
/-- Perform ERET. -/
def execEret (o : A3) (s : State) : Out := runSlot (.eret o) (bodyEret o) s

/-- A bit as a number. -/
def bit (b : Bool) : Nat := b.toNat

/-- CORECOORD of a core (R22). -/
def coreCoord (c stage : Nat) : Nat :=
  c * 2 ^ 16 + stage % 16 * 2 ^ 12 + dieOf c * 2 ^ 8 + clusterOf c % 9 * 2 ^ 4 + coreInCluster c

/-- Has every transfer of the core landed: no off-core access is out, and no operation is inside a step (R351)?
Log entry 63 (DEDUCED). -/
def Core.landed (k : Core) : Bool :=
  k.offs.isEmpty && k.out.isEmpty &&
    k.ops.all fun q => q.2.all fun o => o.state ≠ .field && o.state ≠ .bench && o.state ≠ .migrating
/-- QUIET.DONE of a core (R23, R351): 0 while a debugger has halted it and its transfers have not landed. -/
def State.quiet (s : State) (c : Nat) : Bool :=
  !(((s.launchOf c).map (·.debugHalted)).getD false && s.halted c) || (s.core c).landed

/-- The value of a system register at issue (R16 to R24, R129): STATUS shows RB and LOOP as the part meets them, and EXC as it stood
before an ERET of the same bundle. -/
def State.readSys (s : State) (n : Nat) : W64 :=
  let c := s.part.core
  let k := s.core c
  let a := k.arch
  let l := s.launchOf c
  if n = 0 then BitVec.ofNat 64 (s.part.rb % 16 * 2 ^ 9 + bit s.part.loopOn * 2 ^ 8 + bit a.bcol * 2 ^ 7 + bit s.part.before.arch.exc * 2 ^ 6)
  else if n = 1 then a.epc
  else if n = 2 then BitVec.ofNat 64 (a.ecause % 256)
  else if n = 3 then a.eaddr
  else if n = 4 then a.evec
  else if n = 5 then a.fflags.setWidth 64
  else if n = 6 then BitVec.ofNat 64 (coreCoord c k.stage)
  else if n = 7 then (l.map (·.seed)).getD 0
  else if n = 8 then (l.map fun l => BitVec.ofNat 64 (l.frame % 2 ^ 32 * 2 ^ 32 + l.tick % 2 ^ 32)).getD 0
  else if n = 9 then BitVec.ofNat 64 s.gtc
  else if n = 0xA then BitVec.ofNat 64 (((l.bind fun l => s.context? l.asid).map (·.rank)).getD 0 % 8)
  else if n = 0xB then BitVec.ofNat 64 (bit a.sbchk)
  else if n = 0xC then BitVec.ofNat 64 (bit ((l.map (·.doubles)).getD false))
  else if n = 0xD then (Sparse.get (BitVec.allOnes 17) s.fieldmask (clusterOf c)).setWidth 64
  else if n = 0xE then BitVec.ofNat 64 (bit (s.quiet c))
  else BitVec.ofNat 64 (Sparse.get 0 a.bfmt (n - 0x10) % 16)

/-- SYSR (R129). -/
def bodySysr (o : AI) (s : State) : Got State :=
  (s.part.dstS o.d.toNat (s.readSys o.imm.toNat) 2 0 (s.core s.part.core).arch).map s.withArch
/-- Perform SYSR. -/
def execSysr (o : AI) (s : State) : Out := runSlot (.sysr o) (bodySysr o) s

/-- SYSW: the write takes effect at the end of the issue stream cycle (R130); a reserved bank format code traps before issue
(R24, R453). -/
def bodySysw (o : AI) (s : State) : Got State :=
  (s.readS o.s1.toNat).bind fun (x, s) =>
    if 0x10 ≤ o.imm.toNat ∧ 0xD ≤ x.toNat % 16 then .trap ecOperand x
    else .ok (s.onArch s.part.core fun a => a.flySys s.part.before.arch.inflX.length (.sys o.imm.toNat x))
/-- Perform SYSW. -/
def execSysw (o : AI) (s : State) : Out := runSlot (.sysw o) (bodySysw o) s

/-- LOOPM (R223, R224): RB := 0 and the loop starts at the next bundle with the stage predicates of pass 0; a trip count of 0 skips the
body (R454). -/
def bodyLoopm (o : A3) (s : State) : Got State :=
  (s.readS o.s1.toNat).bind fun (t, s) =>
    let ii := fld o.m 0 6 + 1
    let st := fld o.m 6 2 + 1
    if t = 0 then s.jump ⟨s.part.next, ii, none, none, false, false, 0, none⟩
    else s.jump ⟨s.part.next, 0, none, some ⟨s.part.next, ii, st, t.toNat, 0, 0⟩, true, true, 0, none⟩
/-- Perform LOOPM. -/
def execLoopm (o : A3) (s : State) : Out := runSlot (.loopm o) (bodyLoopm o) s

/-- LBRK without NOW in pass `k` (R225): the limit comes down; if no pass is owed behind this one and its last bundle has issued,
the loop has ended. -/
def Arch.lowerLimit (a : Arch) (k : Nat) (fall : W64) : Arch :=
  match a.loop with
  | none => a
  | some l =>
    let lower := fun (l : Loop) => { l with limit := min l.limit (k + 1) }
    let a := { a with turn := a.turn.map lower }
    if l.pos = 0 ∧ (lower l).passes ≤ l.pass then { a with loop := none, pc := fall } else { a with loop := some (lower l) }

/-- LBRK (R225). -/
def bodyLbrk (o : A3) (s : State) : Got State :=
  match s.part.loop with
  | none => .ok s
  | some l =>
    if fld o.m 0 1 = 1 then s.jump ⟨s.part.next, l.ii - 1 - l.pos, none, none, false, false, s.part.rb, none⟩
    else .ok (s.onArch s.part.core fun a => a.lowerLimit l.pass s.part.next)
/-- Perform LBRK. -/
def execLbrk (o : A3) (s : State) : Out := runSlot (.lbrk o) (bodyLbrk o) s

/-- HINT has no architectural effect, reads nothing and writes nothing (R76). -/
def bodyHint (_ : BitVec 6) (_ : WI) (s : State) : Got State := .ok s
/-- Perform HINT. -/
def execHint (n : BitVec 6) (o : WI) (s : State) : Out := runSlot (.hint n o) (bodyHint n o) s

end Sys2Proof.Machine
end

