-- ==== Sys2Proof/Machine/Engine.lean ====
section
/-! DEFINITION. Sys2Proof/Machine/Engine.lean: engine queues (spec/13 R264, R265), operation tags and status (spec/10 R236, R237),
completion (spec/08 R184) and the engine commands' issue (spec/08 R170 to R172, spec/09 R211, R218, R220). -/

namespace Sys2Proof.Machine

/-! ### Queues and operations -/

/-- The depth of an engine queue (R264). -/
def engineDepth (q : Nat) : Nat := if q = 6 then 1 else 8
/-- Has the queue room for one more operation (R172)? -/
def Core.hasRoom (k : Core) (q : Nat) : Bool := (k.opsOf q).length < engineDepth q
/-- The operations that the core has appended to a queue since its launch began (R236). -/
def Core.appended (k : Core) (q : Nat) : Nat := Sparse.get 0 k.opCount q
/-- The operations that the core has appended to any queue. -/
def Core.allAppended (k : Core) : Nat := ((List.range 7).map k.appended).foldl (· + ·) 0
/-- The operation at the head of a queue. -/
def Core.headOp (k : Core) (q : Nat) : Option Op := (k.opsOf q).head?
/-- Replace the operation at the head of a queue. -/
def Core.setHead (k : Core) (q : Nat) (o : Op) : Core := k.setOps q (o :: (k.opsOf q).drop 1)
/-- Change the operation at the head of a queue of a core. -/
def State.onHead (s : State) (c q : Nat) (f : Op → Op) : State :=
  s.onCore c fun k => match k.headOp q with
    | none => k
    | some o => k.setHead q (f o)

/-- The name of a line: its space, 0 for the virtual window and `t + 1` for the scratchpad of core `t`, and its number. -/
def lineKey (space line : Nat) : Nat := space * 2 ^ 64 + line
/-- An operation that waits on a line of core `t` is served with it (R254): its next step has read the line. -/
def State.serveOp (s : State) (t line : Nat) (b : List Byte) (who : Nat) : State :=
  (s.onHead ((who - 2) / 8) ((who - 2) % 8) fun o => { o with fetched := o.fetched ++ [(lineKey (t + 1) line, b)] }).onCore t fun k =>
    { k with waiters := k.waiters.filter (· ≠ (line, who)) }
/-- A line of core `t` has become full: the operations that wait to read it are served (R254). -/
def State.serveLine (s : State) (t line : Nat) : State :=
  let k := s.core t
  ((k.waiters.filter fun x => x.1 == line && decide (2 ≤ x.2)).map (·.2)).foldl
    (fun s who => s.serveOp t line (k.bytes (128 * line) 128) who) s
/-! ### The claim of an MMA (R176, R177) -/

/-- FMT of a matrix command (R174). -/
def Op.fmt (o : Op) : Nat := fld o.em 13 4
/-- Steps of an MMA, blocks of an MLAT: KN + 1 (R174). -/
def Op.blocks (o : Op) : Nat := fld o.em 8 5 + 1
/-- The latch named (R174). -/
def Op.latch (o : Op) : Nat := fld o.em 6 2
/-- A by tile handle (R174). -/
def Op.at (o : Op) : Bool := o.em.getLsbD 5
/-- ZC (R174). -/
def Op.zc (o : Op) : Bool := o.em.getLsbD 2
/-- TR, TC and TK of a tile coordinate (R171). -/
def coordR (x : W64) : Nat := fld x 32 16
def coordC (x : W64) : Nat := fld x 16 16
def coordK (x : W64) : Nat := fld x 0 16
/-- The bytes of a block of 32 elements (R166). -/
def blockBytes (fmt : Nat) : Nat := 4 * fmtBits fmt

/-- The configuration of a matrix queue (R169). -/
def Core.cfgOf (k : Core) (q : Nat) : W64 := Sparse.get 0 k.mxcfg q
/-- CSTR (R169). -/
def cstrOf (w : W64) : Nat := if fld w 32 16 = 0 then 256 else fld w 32 16
/-- LKB (R169). -/
def lkbOf (w : W64) : Nat := fld w 0 5
/-- The lines of a C tile, ascending by row (R167). -/
def tileLines (cb cstr : Nat) : List Nat :=
  (List.range 64).flatMap fun i => let l := (cb + i * cstr) / 128; [l, l + 1]
/-- The lines of C that an MMA claims. -/
def Core.clinesOf (k : Core) (q : Nat) (o : Op) : List Nat := tileLines o.o1.toNat (cstrOf (k.cfgOf q))

/-- The MMAs of a core. -/
def Core.mmas (k : Core) : List (Nat × Op) :=
  [0, 1].flatMap fun q => ((k.opsOf q).filter fun o => o.code == .mma).map fun o => (q, o)
/-- Must an MMA wait for another to claim (R176)? -/
def Core.claimWaits (k : Core) (q : Nat) (o : Op) : Bool :=
  k.mmas.any fun (q', x) =>
    decide (x.order < o.order) && !x.claimed &&
      (x.state == .unstarted || (k.clinesOf q' x).any fun l => (k.clinesOf q o).contains l)
/-- The snapshot of a latch range (R177): element side and scale side, by the latch's own byte numbers. -/
def Arch.latchBytes (a : Arch) (latch : Nat) : Memory × Memory :=
  (putMem [] 0 (memBytes a.latchE (latch * 32768) 32768), putMem [] 0 (memBytes a.latchS (latch * 2048) 2048))
/-- The accumulator words of a C tile. -/
def Core.tile (k : Core) (cb cstr : Nat) : Sparse W32 :=
  (List.range 64).foldl
    (fun m i => (List.range 64).foldl
      (fun m j => Sparse.set 0 m (64 * i + j) (BitVec.ofNat 32 (leNat (k.bytes (cb + i * cstr + 4 * j) 4) 4))) m)
    []

/-- The first mark of a word of a latch's scale side: the words of the element sides come before it (R168). -/
def scaleMark : Nat := 16384
/-- The words of the latches that an operation's blocks lie in, as `latchMarks` numbers them (R168, R177). -/
def Op.latchWords (o : Op) (lkb : Nat) : List Nat :=
  let span := fun (a n : Nat) => (List.range ((a + n + 7) / 8 - a / 8)).map (a / 8 + ·)
  (List.range 64).flatMap fun i =>
    span (o.latch * 32768 + 512 * i + lkb * blockBytes o.fmt) (o.blocks * blockBytes o.fmt) ++
      if isMx o.fmt then (span (o.latch * 2048 + 32 * i + lkb) o.blocks).map (scaleMark + ·) else []
/-- Does an MMA meet an uncorrectable word in its C or, with A from a latch, in the blocks and scales of that which it reads (R177, R186,
R432, R438)? Log entry 71 (DEDUCED). -/
def Core.claimSpoiled (k : Core) (q : Nat) (o : Op) : Bool :=
  (!o.zc && (k.clinesOf q o).any fun l => k.spoiled (128 * l) 128) ||
    (!o.at && !k.arch.latchMarks.isEmpty && (o.latchWords (lkbOf (k.cfgOf q))).any k.arch.latchMarks.contains)
/-- May the operations of a core go on: its launch runs without an error, and no halt has been asked for (R186, R271)? -/
def State.engines (s : State) (c : Nat) : Bool :=
  !s.haltAsked c && (match s.launchOf c with
    | none => false
    | some l => l.pinned == none)
/-- Is the operation an MMA that has started and not claimed C? -/
def Op.claims (o : Op) : Bool :=
  o.code == .mma && !o.claimed && (o.state == .claiming || o.state == .field || o.state == .bench)
/-- May it claim C now: no earlier MMA comes first, every line is full, with no reader ahead of it, and awake (R176, R254, R439)? -/
def State.mayClaim (s : State) (c q : Nat) (o : Op) : Bool :=
  let k := s.core c
  let lines := k.clinesOf q o
  !k.claimWaits q o && (o.zc || (lines.all k.isFull && !k.othersWait (readerOp c q) lines)) && !k.retained lines
/-- It claims C, empties its lines and takes its snapshot of A (R176, R177). -/
def State.claim (s : State) (c q : Nat) (o : Op) : State :=
  let k := s.core c
  let lines := k.clinesOf q o
  if k.claimSpoiled q o then s.pinCore c causeOperand
  else
    let c0 := if o.zc then [] else k.tile o.o1.toNat (cstrOf (k.cfgOf q))
    let (e, sc) := if o.at then ([], []) else k.arch.latchBytes o.latch
    let k := lines.foldl (fun k l => k.setFull l false) k
    (s.setCore c k).onHead c q fun o => { o with claimed := true, blocked := false, acc := c0, base := c0, snapE := e, snapS := sc }

/-! ### Fills (R254) -/

/-- A waiting claim of core `t` whose C has one of the lines is served with them, if it may claim: the older one first (R176, R254). -/
def State.serveClaim (s : State) (t : Nat) (lines : List Nat) : State :=
  let k := s.core t
  let waits := [0, 1].filterMap fun q => match k.headOp q with
    | some o =>
      if o.claims && s.engines t && s.mayClaim t q o && (k.clinesOf q o).any lines.contains then some (q, o) else none
    | none => none
  match waits with
  | [x, y] => if x.2.order < y.2.order then s.claim t x.1 x.2 else s.claim t y.1 y.2
  | [x] => s.claim t x.1 x.2
  | _ => s
/-- Lines of core `t` have become full, and the operations that wait to read them have been served: then the direct accesses that wait, then
at most one claim; what the direct accesses have filled themselves. -/
def State.serveCore (s : State) (t : Nat) (lines : List Nat) : State × List Nat :=
  let (k, more) := (s.core t).serveDirect lines
  ((s.setCore t k).serveClaim t lines, more.map (lineKey (t + 1)))
/-- Lines of scratchpads have become full (R254): every agent that waits on them is served, in the order of the rule. -/
def State.serveOnce (s : State) (keys : List Nat) : State × List Nat :=
  let l := keys.filterMap fun x => if x / 2 ^ 64 = 0 then none else some (x / 2 ^ 64 - 1, x % 2 ^ 64)
  let s := l.foldl (fun s x => s.serveLine x.1 x.2) s
  (distinct (l.map (·.1))).foldl
    (fun x t =>
      let (s, more) := x.1.serveCore t (l.filterMap fun x => if x.1 = t then some x.2 else none)
      (s, x.2 ++ more))
    (s, [])
/-- Serve who waits on lines that have become full, and on those that the accesses served have filled in turn. -/
def State.serveLines (s : State) (keys : List Nat) : State :=
  let (s, more) := s.serveOnce keys
  (s.serveOnce more).1

/-! ### Operations -/

/-- An operation as it is appended (R172, R266). -/
def Op.fresh (code : OpCode) (em : BitVec 17) (o1 o2 o3 : W64) (recA recB : List W64) : Op where
  code := code
  queue := 0
  seq := 0
  order := 0
  bundle := 0
  em := em
  o1 := o1
  o2 := o2
  o3 := o3
  recA := recA
  recB := recB
  frame := 0
  after := []
  state := .unstarted
  unit := 0
  everField := false
  marked := none
  onField := false
  steps := 0
  promo := 0
  demo := 0
  fieldSteps := false
  benchSteps := false
  claimed := false
  stepEnded := false
  cycles := 0
  flags := 0
  err := 0
  sticky9 := false
  next := 0
  acc := []
  snapE := []
  snapS := []
  fetched := []
  held := []
  own := []
  spill := []
  remains := false
  dropped := false
  idxLines := []
  unfilled := []
  since := 0
  total := 0
  blocked := false
  toField := false
  base := []
  mismatches := 0
  performed := false
  released := false

/-- The tag of an operation (R236). -/
def tagOf (queue seq : Nat) : W64 := BitVec.ofNat 64 (2 ^ 40 + queue % 8 * 2 ^ 37 + seq % 2 ^ 32)

/-- Append an operation to its queue (R172, R173, R208): its number, its place among all operations of the core (R176), the
operations of joined queues that it starts after. -/
def Core.append (k : Core) (o : Op) (q bundle frame : Nat) : W64 × Core :=
  let n := k.appended q + 1
  let o :=
    { o with
      queue := q
      seq := n
      order := k.allAppended
      bundle := bundle
      frame := frame
      since := k.arch.accSeq
      after := (k.qfence.filter fun x => x.1 == q).map fun x => x.2 }
  (tagOf q n, { k.setOps q (k.opsOf q ++ [o]) with opCount := Sparse.set 0 k.opCount q n })

/-- Has every operation of a queue up to a number performed? -/
def Core.performedUpTo (k : Core) (q n : Nat) : Bool := (k.opsOf q).all fun o => n < o.seq

/-! ### Status (R237) -/

/-- The completion word (R184): ERR and flags. -/
def Op.word (o : Op) : BitVec 16 := BitVec.ofNat 16 (o.err % 16 * 2 ^ 12 + o.flags.toNat)
/-- The code of the bindings that the steps of an operation have had (R237). -/
def Op.doneCode (o : Op) : Nat := if o.fieldSteps then (if o.benchSteps then 3 else 1) else 2
/-- NOW (R266); 00 for an operation parked before its first step. Log entry 91 (DESIGN CHOICE). -/
def Op.nowCode (o : Op) : Nat :=
  match o.state with
  | .unstarted | .claiming => 0
  | .field => 1
  | .bench => 2
  | .migrating => 3
  | .parked => if o.steps = 0 then 0 else if o.onField then 1 else 2
  | .done => if o.onField then 1 else 2
/-- The word that BSTAT delivers for an operation (R237). -/
def Op.status (o : Op) (complete : Bool) : W64 :=
  BitVec.ofNat 64
    (min o.steps (2 ^ 32 - 1) * 2 ^ 32 + (if complete ∧ o.word ≠ 0 then 2 ^ 25 else 0) + (if complete then 2 ^ 24 else 0) +
      min o.promo 255 * 2 ^ 16 + min o.demo 255 * 2 ^ 8 + (if o.everField then o.unit % 16 else 0) * 2 ^ 4 +
      (if complete then o.doneCode else 0) * 2 ^ 2 + o.nowCode)

/-- The operations of each queue whose status is kept (R237). -/
def statusDepth : Nat := 256

/-- BSTAT of a tag (R237). -/
def Core.bstat (k : Core) (cw : Bool) (tag : W64) : W64 :=
  let q := fld tag 37 3
  let n := k.appended q
  let age := (n + 2 ^ 32 - fld tag 0 32) % 2 ^ 32
  if !tag.getLsbD 40 ∨ q = 7 ∨ n ≤ age then 0
  else
    let seq := n - age
    match (k.opsOf q).find? (·.seq == seq) with
    | some o => if cw then 0 else o.status false
    | none =>
      if statusDepth ≤ age then (if cw then 0 else BitVec.ofNat 64 (2 ^ 24))
      else match k.status.find? fun x => x.queue == q && x.seq == seq with
        | none => 0
        | some x => if cw then x.word.setWidth 64 else x.low

/-! ### Completion -/

/-- The second word of a completion record (R238). -/
def Op.eventPayload (o : Op) : W64 :=
  match o.code with
  | .mma | .mcfg | .sfn => o.o1
  | .cpy | .cpyt | .cpyn | .cpym => (o.recB.head?).getD 0
  | .gath | .scat => BitVec.ofNat 64 (fld o.o2 0 21)
  | .mlat | .surrogate => 0

/-- Is the event bit of the command set (R174, R211)? -/
def Op.ev (o : Op) : Bool :=
  match o.code with
  | .surrogate => false
  | _ => o.em.getLsbD 3

/-- The operation at the head of a queue has performed (R180, R212, R237): it leaves the queue, its status is kept, its event record
is posted. -/
def State.complete (s : State) (c q : Nat) (o : Op) : State :=
  let o := { o with state := .done, performed := true, marked := none }
  let s := s.onCore c fun k =>
    { k.setOps q ((k.opsOf q).drop 1) with
      status := (k.status.filter fun x => x.queue ≠ q ∨ o.seq < x.seq + statusDepth) ++ [⟨q, o.seq, o.word, o.status true⟩] }
  if o.ev then s.postEvent c c (eventWord 1 o.doneCode o.word.toNat q o.seq) o.eventPayload else s

/-- An operation fails a check at its start (R175, R181, R183, R216): it completes at once with the code, no flag and no other effect. -/
def State.fail (s : State) (c q : Nat) (o : Op) (err : Nat) : State :=
  s.complete c q { o with err := err, flags := 0, onField := false, benchSteps := false, fieldSteps := false }

/-! ### Issue of a command -/

/-- The operands that a command reads at issue: three words, and the records captured as A and B. -/
structure Captured where
  o1 : W64
  o2 : W64
  o3 : W64
  recA : List W64
  recB : List W64
  deriving DecidableEq, Repr, Inhabited

/-- Issue an engine command (R172): operands and records are captured, the operation appended, its tag written with latency 1; after
a rewind the recorded tag alone is delivered (R294). -/
def issueOp (code : OpCode) (q : Nat) (o : EN) (read : Core → Got (Captured × Core)) (s : State) : Got State :=
  (read s.mine).bind fun (x, k) =>
    if !s.writesFree then .stall
    else (k.dest o.tag.toNat).bind fun (d, k) =>
      match s.recorded? with
      | some r => .ok (s.putMine (k.flyA d (r.value.getD 0) 1))
      | none =>
        if !k.hasRoom q then .stall
        else
          let (t, k) := k.append (Op.fresh code o.em x.o1 x.o2 x.o3 x.recA x.recB) q s.part.bundle s.frameNow
          .ok (s.putMine (s.keepValue (k.flyA d t 1) (some t)))

/-- The matrix queue that a command names (R172). -/
def matrixQueue (o : EN) : Nat := fld o.em 4 1
/-- The copy queue that a command names (R211). -/
def copyQueue (o : EN) : Nat := 2 + fld o.em 4 1

/-- MMA: C base, tile coordinate, the record of B and, with AT, that of A in the other group (R170, R174). -/
def bodyMma (o : EN) : State → Got State :=
  issueOp .mma (matrixQueue o) o fun k =>
    (k.srcA o.o1.toNat).bind fun (cb, k) => (k.group o.o2.toNat).bind fun b => (k.srcA o.o3.toNat).bind fun (co, k) =>
      (if o.em.getLsbD 5 then k.group (24 - o.o2.toNat) else .ok []).map fun a => (⟨cb, 0, co, a, b⟩, k)
/-- Perform MMA. -/
def execMma (o : EN) (s : State) : Out := runSlot (.mma o) (bodyMma o) s
/-- MLAT: the record of the source, tile coordinate (R170, R181). -/
def bodyMlat (o : EN) : State → Got State :=
  issueOp .mlat (matrixQueue o) o fun k =>
    (k.group o.o1.toNat).bind fun a => (k.srcA o.o2.toNat).map fun (co, k) => (⟨0, 0, co, a, []⟩, k)
/-- Perform MLAT. -/
def execMlat (o : EN) (s : State) : Out := runSlot (.mlat o) (bodyMlat o) s
/-- MCFG: the configuration word (R170, R183). -/
def bodyMcfg (o : EN) : State → Got State :=
  issueOp .mcfg (matrixQueue o) o fun k => (k.srcA o.o1.toNat).map fun (w, k) => (⟨w, 0, 0, [], []⟩, k)
/-- Perform MCFG. -/
def execMcfg (o : EN) (s : State) : Out := runSlot (.mcfg o) (bodyMcfg o) s

/-- The operands of a copy (R211): destination record as B, source record as A, and a third operand if it has one. -/
def readCopy (o : EN) (third : Bool) (k : Core) : Got (Captured × Core) :=
  (k.group o.o1.toNat).bind fun d => (k.group o.o2.toNat).bind fun a =>
    (if third then k.srcA o.o3.toNat else .ok (0, k)).map fun (x, k) => (⟨0, 0, x, a, d⟩, k)
/-- CPY (R211, R212). -/
def bodyCpy (o : EN) : State → Got State := issueOp .cpy (copyQueue o) o (readCopy o false)
/-- Perform CPY. -/
def execCpy (o : EN) (s : State) : Out := runSlot (.cpy o) (bodyCpy o) s
/-- CPYT (R211, R212). -/
def bodyCpyt (o : EN) : State → Got State := issueOp .cpyt (copyQueue o) o (readCopy o true)
/-- Perform CPYT. -/
def execCpyt (o : EN) (s : State) : Out := runSlot (.cpyt o) (bodyCpyt o) s
/-- CPYN (R211, R214). -/
def bodyCpyn (o : EN) : State → Got State := issueOp .cpyn (copyQueue o) o (readCopy o true)
/-- Perform CPYN. -/
def execCpyn (o : EN) (s : State) : Out := runSlot (.cpyn o) (bodyCpyn o) s
/-- CPYM (R211, R215). -/
def bodyCpym (o : EN) : State → Got State := issueOp .cpym (copyQueue o) o (readCopy o true)
/-- Perform CPYM. -/
def execCpym (o : EN) (s : State) : Out := runSlot (.cpym o) (bodyCpym o) s

/-- SFN (R218). -/
def bodySfn (o : EN) : State → Got State :=
  issueOp .sfn 4 o fun k =>
    (k.srcA o.o1.toNat).bind fun (d, k) => (k.srcA o.o2.toNat).bind fun (x, k) => (k.srcA o.o3.toNat).map fun (n, k) =>
      (⟨d, x, n, [], []⟩, k)
/-- Perform SFN. -/
def execSfn (o : EN) (s : State) : Out := runSlot (.sfn o) (bodySfn o) s
/-- The operands of GATH and SCAT (R220): the table's record as A, offset and count, the offset of the indices. -/
def readGather (o : EN) (k : Core) : Got (Captured × Core) :=
  (k.group o.o1.toNat).bind fun t => (k.srcA o.o2.toNat).bind fun (p, k) => (k.srcA o.o3.toNat).map fun (i, k) =>
    (⟨0, p, i, t, []⟩, k)
/-- GATH (R220). -/
def bodyGath (o : EN) : State → Got State := issueOp .gath 5 o (readGather o)
/-- Perform GATH. -/
def execGath (o : EN) (s : State) : Out := runSlot (.gath o) (bodyGath o) s
/-- SCAT (R220). -/
def bodyScat (o : EN) : State → Got State := issueOp .scat 5 o (readGather o)
/-- Perform SCAT. -/
def execScat (o : EN) (s : State) : Out := runSlot (.scat o) (bodyScat o) s

end Sys2Proof.Machine
end

