-- ==== Sys2Proof/Machine/Conditional.lean ====
section
/-! DEFINITION. Sys2Proof/Machine/Conditional.lean: the conditional streams of a cluster: SWR, SRD, SCNT (spec/07 R163 to R165,
spec/12 R261, R262). -/

namespace Sys2Proof.Machine

/-- The key of a stream of a core's launch: the core's cluster and the stream number, which is also its key in the order log (R261,
R371). -/
def streamKey (c : Nat) (m : BitVec 17) : Nat := 16 * clusterOf c + fld m 8 4
/-- The records of a stream of a launch, oldest first. -/
def Launch.stream (l : Launch) (key : Nat) : List W32 := Sparse.get [] l.streams key
/-- Replace the records of a stream of a launch. -/
def State.setStream (s : State) (id key : Nat) (l : List W32) : State :=
  s.onLaunch id fun x => { x with streams := Sparse.set [] x.streams key l }
/-- Records that a stream holds at most (R163). -/
def streamDepth : Nat := 4096

/-- The run of SWR: the active elements, ascending (R163). -/
def runOf (x : VReg) (mask : KReg) : List W32 :=
  (List.range 256).filterMap fun i => if maskBit mask i then some (BitVec.ofNat 32 (elem x.toNat 32 i)) else none

/-- SWR (R163, R165): one contiguous run enters; a recorded one is not repeated (R262, R294). -/
def bodySwr (o : A3) (s : State) : Got State :=
  let c := s.part.core
  (s.part.srcV 32 o.s1.toNat s.mine.arch).bind fun (x, a) =>
    let run := runOf x (s.mine.arch.maskOf o.m)
    let s := s.withArch a
    if run.isEmpty || s.recorded?.isSome then .ok s
    else match s.launchOf c with
      | none => .stall
      | some l =>
        let key := streamKey c o.m
        if streamDepth < (l.stream key).length + run.length then .stall
        else s.chooseGot l.id 2 key c run.length false fun t =>
          .ok ((t.setStream l.id key (l.stream key ++ run)).onCore c fun k => t.keepValue k none)
/-- Perform SWR. -/
def execSwr (o : A3) (s : State) : Out := runSlot (.swr o) (bodySwr o) s

/-- The vector of the oldest records, the rest 0 (R164). -/
def vecOfRecords (l : List W32) : VReg := vecOf 32 fun i => ((l[i]?).getD 0).toNat

/-- SRD (R164, R165): 256 records, or with DRAIN as many as there are; a recorded one delivers what it removed, and
vec1's meets the run of an SWR in vec0 of its bundle. Log entry 89 (DESIGN CHOICE). -/
def bodySrd (o : A3) (s : State) : Got State :=
  let c := s.part.core
  let send := fun (s : State) (x : VReg) => (s.part.dstV o.d.toNat x 3 0 (s.core c).arch).map fun a => s.onArch c fun _ => a
  match s.recorded? with
  | some r => send s (((r.vecs.head?).map (·.2)).getD 0)
  | none =>
    match s.launchOf c with
    | none => .stall
    | some l =>
      let key := streamKey c o.m
      let have_ := l.stream key
      if fld o.m 12 1 = 0 ∧ have_.length < 256 then .stall
      else
        let n := min have_.length 256
        let x := vecOfRecords (have_.take n)
        s.chooseGot l.id 3 key c n false fun t =>
          send ((t.setStream l.id key (have_.drop n)).onCore c fun k => k.keep ⟨t.part.bundle, t.part.slot, none, false, [(0, x)], none⟩) x
/-- Perform SRD. -/
def execSrd (o : A3) (s : State) : Out := runSlot (.srd o) (bodySrd o) s

/-- SCNT (R164): the record count at issue; vec1's counts the run of an SWR in vec0 of its bundle. Log entry 89 (DESIGN CHOICE). -/
def bodyScnt (o : A3) (s : State) : Got State :=
  let c := s.part.core
  let n := ((s.launchOf c).map fun l => (l.stream (streamKey c o.m)).length).getD 0
  (s.part.dstV o.d.toNat (BitVec.ofNat 8192 n) 2 0 s.mine.arch).map s.withArch
/-- Perform SCNT. -/
def execScnt (o : A3) (s : State) : Out := runSlot (.scnt o) (bodyScnt o) s

end Sys2Proof.Machine
end

