-- ==== Sys2Proof/Machine/Scalar.lean ====
section
/-! DEFINITION. Sys2Proof/Machine/Scalar.lean: the scalar integer, predicate and floating-point instructions of the control
slots (spec/06 R107 to R122). A `body` is what the instruction does under a true guard; the `exec` of the same name performs the
slot. -/

namespace Sys2Proof.Machine

/-! ### Values -/

/-- High 64 bits of the signed product (R107). -/
def mulHigh (x y : W64) : W64 := BitVec.ofInt 64 (x.toInt * y.toInt / 2 ^ 64)
/-- High 64 bits of the unsigned product (R107). -/
def mulHighU (x y : W64) : W64 := BitVec.ofNat 64 (x.toNat * y.toNat / 2 ^ 64)
/-- Quotient toward zero; all ones for a zero divisor, -2^63 for -2^63 / -1 (R108). -/
def divS (x y : W64) : W64 := if y = 0 then BitVec.allOnes 64 else x.sdiv y
/-- Unsigned quotient (R108). -/
def divU (x y : W64) : W64 := if y = 0 then BitVec.allOnes 64 else x / y
/-- Remainder with the sign of the dividend; the dividend for a zero divisor (R108). -/
def remS (x y : W64) : W64 := if y = 0 then x else x.srem y
/-- Unsigned remainder (R108). -/
def remU (x y : W64) : W64 := if y = 0 then x else x % y
/-- Leading zero bits, 64 for zero (R107). -/
def clz64 (x : W64) : Nat := if x = 0 then 64 else 63 - Nat.log2 x.toNat
/-- Trailing zero bits, 64 for zero (R107). -/
def ctz64 (x : W64) : Nat := ((List.range 64).find? fun i => x.getLsbD i).getD 64
/-- One bits (R107). -/
def popc64 (x : W64) : Nat := ((List.range 64).filter fun i => x.getLsbD i).length
/-- Bits [pos + n - 1 : pos], zero-extended. -/
def field64 (x : W64) (pos n : Nat) : Nat := x.toNat / 2 ^ pos % 2 ^ n
/-- An n-bit field sign-extended to 64 bits. -/
def sextField (n v : Nat) : W64 := BitVec.ofInt 64 (toInt n true v)
/-- Replace bits [pos + n - 1 : pos] (R110). -/
def insert64 (x y : W64) (pos n : Nat) : W64 :=
  BitVec.ofNat 64 (x.toNat - field64 x pos n * 2 ^ pos + y.toNat % 2 ^ n * 2 ^ pos)

/-! ### Bodies and meanings -/

/-- The shifts: the amount is SH, or the low six bits of S2 (R109). -/
def shiftBody (f : W64 → Nat → W64) (o : A3) : State → Got State :=
  onPart fun p a =>
    (p.srcS o.s1.toNat a).bind fun (x, a) =>
      if fld o.m 6 1 = 1 then p.dstS o.d.toNat (f x (fld o.m 0 6)) 1 0 a
      else (p.srcS o.s2.toNat a).bind fun (y, a) => p.dstS o.d.toNat (f x (y.toNat % 64)) 1 0 a

/-- ADD: x + y (R107). -/
def bodyAdd (o : A3) : State → Got State := scalar2 (fun x y => (x + y, 0)) 1 o
/-- Perform ADD. -/
def execAdd (o : A3) (s : State) : Out := runSlot (.add o) (bodyAdd o) s
/-- SUB: x - y (R107). -/
def bodySub (o : A3) : State → Got State := scalar2 (fun x y => (x - y, 0)) 1 o
/-- Perform SUB. -/
def execSub (o : A3) (s : State) : Out := runSlot (.sub o) (bodySub o) s
/-- MUL: x * y (R107). -/
def bodyMul (o : A3) : State → Got State := scalar2 (fun x y => (x * y, 0)) 3 o
/-- Perform MUL. -/
def execMul (o : A3) (s : State) : Out := runSlot (.mul o) (bodyMul o) s
/-- MULH: mulHigh x y (R107). -/
def bodyMulh (o : A3) : State → Got State := scalar2 (fun x y => (mulHigh x y, 0)) 3 o
/-- Perform MULH. -/
def execMulh (o : A3) (s : State) : Out := runSlot (.mulh o) (bodyMulh o) s
/-- MULHN: mulHighU x y (R107). -/
def bodyMulhn (o : A3) : State → Got State := scalar2 (fun x y => (mulHighU x y, 0)) 3 o
/-- Perform MULHN. -/
def execMulhn (o : A3) (s : State) : Out := runSlot (.mulhn o) (bodyMulhn o) s
/-- DIV: divS x y (R108). -/
def bodyDiv (o : A3) : State → Got State := scalar2 (fun x y => (divS x y, 0)) 18 o
/-- Perform DIV. -/
def execDiv (o : A3) (s : State) : Out := runSlot (.div o) (bodyDiv o) s
/-- DIVN: divU x y (R108). -/
def bodyDivn (o : A3) : State → Got State := scalar2 (fun x y => (divU x y, 0)) 18 o
/-- Perform DIVN. -/
def execDivn (o : A3) (s : State) : Out := runSlot (.divn o) (bodyDivn o) s
/-- REM: remS x y (R108). -/
def bodyRem (o : A3) : State → Got State := scalar2 (fun x y => (remS x y, 0)) 18 o
/-- Perform REM. -/
def execRem (o : A3) (s : State) : Out := runSlot (.rem o) (bodyRem o) s
/-- REMN: remU x y (R108). -/
def bodyRemn (o : A3) : State → Got State := scalar2 (fun x y => (remU x y, 0)) 18 o
/-- Perform REMN. -/
def execRemn (o : A3) (s : State) : Out := runSlot (.remn o) (bodyRemn o) s
/-- AND: x and y (R107). -/
def bodyAndS (o : A3) : State → Got State := scalar2 (fun x y => (x &&& y, 0)) 1 o
/-- Perform AND. -/
def execAndS (o : A3) (s : State) : Out := runSlot (.andS o) (bodyAndS o) s
/-- OR: x or y (R107). -/
def bodyOrS (o : A3) : State → Got State := scalar2 (fun x y => (x ||| y, 0)) 1 o
/-- Perform OR. -/
def execOrS (o : A3) (s : State) : Out := runSlot (.orS o) (bodyOrS o) s
/-- XOR: x xor y (R107). -/
def bodyXorS (o : A3) : State → Got State := scalar2 (fun x y => (x ^^^ y, 0)) 1 o
/-- Perform XOR. -/
def execXorS (o : A3) (s : State) : Out := runSlot (.xorS o) (bodyXorS o) s
/-- ANDN: x and not y (R107). -/
def bodyAndn (o : A3) : State → Got State := scalar2 (fun x y => (x &&& ~~~y, 0)) 1 o
/-- Perform ANDN. -/
def execAndn (o : A3) (s : State) : Out := runSlot (.andn o) (bodyAndn o) s
/-- SHL (R109). -/
def bodyShl (o : A3) : State → Got State := shiftBody (fun x n => x <<< n) o
/-- Perform SHL. -/
def execShl (o : A3) (s : State) : Out := runSlot (.shl o) (bodyShl o) s
/-- SHR (R109). -/
def bodyShr (o : A3) : State → Got State := shiftBody (fun x n => x >>> n) o
/-- Perform SHR. -/
def execShr (o : A3) (s : State) : Out := runSlot (.shr o) (bodyShr o) s
/-- SAR (R109). -/
def bodySar (o : A3) : State → Got State := shiftBody (fun x n => x.sshiftRight n) o
/-- Perform SAR. -/
def execSar (o : A3) (s : State) : Out := runSlot (.sar o) (bodySar o) s
/-- ROTR (R109). -/
def bodyRotr (o : A3) : State → Got State := shiftBody (fun x n => x.rotateRight n) o
/-- Perform ROTR. -/
def execRotr (o : A3) (s : State) : Out := runSlot (.rotr o) (bodyRotr o) s
/-- MIN (R107). -/
def bodyMinS (o : A3) : State → Got State := scalar2 (fun x y => (if x.slt y then x else y, 0)) 1 o
/-- Perform MIN. -/
def execMinS (o : A3) (s : State) : Out := runSlot (.minS o) (bodyMinS o) s
/-- MAX (R107). -/
def bodyMaxS (o : A3) : State → Got State := scalar2 (fun x y => (if x.slt y then y else x, 0)) 1 o
/-- Perform MAX. -/
def execMaxS (o : A3) (s : State) : Out := runSlot (.maxS o) (bodyMaxS o) s
/-- MINN (R107). -/
def bodyMinn (o : A3) : State → Got State := scalar2 (fun x y => (if x.ult y then x else y, 0)) 1 o
/-- Perform MINN. -/
def execMinn (o : A3) (s : State) : Out := runSlot (.minn o) (bodyMinn o) s
/-- MAXN (R107). -/
def bodyMaxn (o : A3) : State → Got State := scalar2 (fun x y => (if x.ult y then y else x, 0)) 1 o
/-- Perform MAXN. -/
def execMaxn (o : A3) (s : State) : Out := runSlot (.maxn o) (bodyMaxn o) s
/-- CLZ (R107). -/
def bodyClz (o : A3) : State → Got State := scalar1 (fun x => (BitVec.ofNat 64 (clz64 x), 0)) 1 o
/-- Perform CLZ. -/
def execClz (o : A3) (s : State) : Out := runSlot (.clz o) (bodyClz o) s
/-- CTZ (R107). -/
def bodyCtz (o : A3) : State → Got State := scalar1 (fun x => (BitVec.ofNat 64 (ctz64 x), 0)) 1 o
/-- Perform CTZ. -/
def execCtz (o : A3) (s : State) : Out := runSlot (.ctz o) (bodyCtz o) s
/-- POPC (R107). -/
def bodyPopc (o : A3) : State → Got State := scalar1 (fun x => (BitVec.ofNat 64 (popc64 x), 0)) 1 o
/-- Perform POPC. -/
def execPopc (o : A3) (s : State) : Out := runSlot (.popc o) (bodyPopc o) s
/-- SEXT (R110). -/
def bodySext (o : A3) : State → Got State := scalar1 (fun x => (sextField (fld o.m 0 6 + 1) (x.toNat % 2 ^ (fld o.m 0 6 + 1)), 0)) 1 o
/-- Perform SEXT. -/
def execSext (o : A3) (s : State) : Out := runSlot (.sext o) (bodySext o) s
/-- ZEXT (R110). -/
def bodyZext (o : A3) : State → Got State := scalar1 (fun x => (BitVec.ofNat 64 (x.toNat % 2 ^ (fld o.m 0 6 + 1)), 0)) 1 o
/-- Perform ZEXT. -/
def execZext (o : A3) (s : State) : Out := runSlot (.zext o) (bodyZext o) s
/-- BFX (R110). -/
def bodyBfx (o : A3) : State → Got State := scalar1 (fun x =>
    let v := field64 x (fld o.m 0 6) (fld o.m 6 6 + 1)
    (if fld o.m 12 1 = 1 then sextField (fld o.m 6 6 + 1) v else BitVec.ofNat 64 v, 0)) 1 o
/-- Perform BFX. -/
def execBfx (o : A3) (s : State) : Out := runSlot (.bfx o) (bodyBfx o) s
/-- BFI (R110). -/
def bodyBfi (o : A3) : State → Got State := scalar2 (fun x y => (insert64 x y (fld o.m 0 6) (fld o.m 6 6 + 1), 0)) 1 o
/-- Perform BFI. -/
def execBfi (o : A3) (s : State) : Out := runSlot (.bfi o) (bodyBfi o) s
/-- SEL: both sources are read whatever the predicate reads (R111). -/
def bodySel (o : A3) : State → Got State := 
  onPart fun p a =>
    (p.srcS o.s1.toNat a).bind fun (x, a) => (p.srcS o.s2.toNat a).bind fun (y, a) =>
      p.dstS o.d.toNat (if p.srcP o.s3.toNat then x else y) 1 0 a
/-- Perform SEL. -/
def execSel (o : A3) (s : State) : Out := runSlot (.sel o) (bodySel o) s
/-- ADDI (R112). -/
def bodyAddi (o : AI) : State → Got State := 
  onPart fun p a => (p.srcS o.s1.toNat a).bind fun (x, a) => p.dstS o.d.toNat (x + o.imm.signExtend 64) 1 0 a
/-- Perform ADDI. -/
def execAddi (o : AI) (s : State) : Out := runSlot (.addi o) (bodyAddi o) s
/-- CMPI (R115). -/
def bodyCmpi (o : AI) : State → Got State := 
  onPart fun p a =>
    (p.srcS o.s1.toNat a).bind fun (x, a) =>
      p.dstP o.d.toNat (condHolds (fld o.imm 27 4) x (sextField 27 (fld o.imm 0 27))) 1 a
/-- Perform CMPI. -/
def execCmpi (o : AI) (s : State) : Out := runSlot (.cmpi o) (bodyCmpi o) s
/-- MOVI (R113). -/
def bodyMovi (o : WI) : State → Got State := onPart fun p a => p.dstS o.d.toNat (o.imm.signExtend 64) 1 0 a
/-- Perform MOVI. -/
def execMovi (o : WI) (s : State) : Out := runSlot (.movi o) (bodyMovi o) s
/-- MOVHI: D is also a source, read at issue (R113). -/
def bodyMovhi (o : WI) : State → Got State := 
  onPart fun p a =>
    (p.srcS o.d.toNat a).bind fun (x, a) =>
      p.dstS o.d.toNat (BitVec.ofNat 64 (fld o.imm 0 26 * 2 ^ 38 + x.toNat % 2 ^ 38)) 1 0 a
/-- Perform MOVHI. -/
def execMovhi (o : WI) (s : State) : Out := runSlot (.movhi o) (bodyMovhi o) s
/-- CMP (R114). -/
def bodyCmp (o : A3) : State → Got State := scalarP (condHolds (fld o.m 0 4)) 1 o
/-- Perform CMP. -/
def execCmp (o : A3) (s : State) : Out := runSlot (.cmp o) (bodyCmp o) s
/-- PLOG (R116). -/
def bodyPlog (o : A3) : State → Got State := 
  onPart fun p a => p.dstP o.d.toNat (truthTable (fld o.m 0 4) (p.srcP o.s1.toNat) (p.srcP o.s2.toNat)) 1 a
/-- Perform PLOG. -/
def execPlog (o : A3) (s : State) : Out := runSlot (.plog o) (bodyPlog o) s
/-- PTST (R117). -/
def bodyPtst (o : A3) : State → Got State := 
  onPart fun p a => (p.srcS o.s1.toNat a).bind fun (x, a) => p.dstP o.d.toNat (x.getLsbD (fld o.m 0 6)) 1 a
/-- Perform PTST. -/
def execPtst (o : A3) (s : State) : Out := runSlot (.ptst o) (bodyPtst o) s
/-- FADDS (R119). -/
def bodyFadds (o : A3) : State → Got State := scalar2 (faddsVal (fld o.m 0 1 == 1)) 4 o
/-- Perform FADDS. -/
def execFadds (o : A3) (s : State) : Out := runSlot (.fadds o) (bodyFadds o) s
/-- FMULS (R119). -/
def bodyFmuls (o : A3) : State → Got State := scalar2 fmulsVal 4 o
/-- Perform FMULS. -/
def execFmuls (o : A3) (s : State) : Out := runSlot (.fmuls o) (bodyFmuls o) s
/-- FMAS (R119). -/
def bodyFmas (o : A3) : State → Got State := 
  onPart fun p a =>
    (p.srcS o.s1.toNat a).bind fun (x, a) => (p.srcS o.s2.toNat a).bind fun (y, a) => (p.srcS o.s3.toNat a).bind fun (z, a) =>
      let r := fmasVal (fld o.m 0 1 == 1) (fld o.m 1 1 == 1) x y z
      p.dstS o.d.toNat r.1 4 r.2 a
/-- Perform FMAS. -/
def execFmas (o : A3) (s : State) : Out := runSlot (.fmas o) (bodyFmas o) s
/-- FCMPS (R120). -/
def bodyFcmps (o : A3) : State → Got State := scalarP (fcmpsVal (fld o.m 0 3)) 2 o
/-- Perform FCMPS. -/
def execFcmps (o : A3) (s : State) : Out := runSlot (.fcmps o) (bodyFcmps o) s
/-- FCVTS (R122). -/
def bodyFcvts (o : A3) : State → Got State := scalar1 (fcvtsVal (fld o.m 2 4) (RMode.ofCode (fld o.m 0 2))) 3 o
/-- Perform FCVTS. -/
def execFcvts (o : A3) (s : State) : Out := runSlot (.fcvts o) (bodyFcvts o) s
/-- FMMS (R121). -/
def bodyFmms (o : A3) : State → Got State := scalar2 (fmmsVal (fld o.m 0 1 == 1)) 2 o
/-- Perform FMMS. -/
def execFmms (o : A3) (s : State) : Out := runSlot (.fmms o) (bodyFmms o) s

end Sys2Proof.Machine
end

