-- ==== Sys2Proof/Machine/Strands.lean ====
section
/-! DEFINITION. Sys2Proof/Machine/Strands.lean: strands, messages, events, launches and operation status (spec/10 R227 to R237). -/

namespace Sys2Proof.Machine

/-! ### Windows -/

/-- The launch of a core and the timetable entry that it runs or has ended last. -/
def State.entryOf (s : State) (c : Nat) : Option (Launch × TTEntry) :=
  match s.launchOf c with
  | none => none
  | some l =>
    match s.kernel? l, (s.core c).entry with
    | some k, some i => (k.tt[i]?).map fun e => (l, e)
    | _, _ => none
/-- The cores of a core's window, ascending: those with an open entry of the same release tick (R228); none in a fixed block. -/
def State.windowOf (s : State) (c : Nat) : List Nat :=
  match s.entryOf c with
  | none => []
  | some (l, e) =>
    if !e.window then []
    else match s.kernel? l with
      | none => []
      | some k => (k.tt.filter fun x => x.window && x.tick == e.tick).filterMap fun x => l.coreAt x.core
/-- Has core `x` ended the window that core `c` is in (R288)? Log entry 29 (DEDUCED); one that has taken its `bend.last` in an earlier
entry never opens the window (log entry 82, DESIGN CHOICE). -/
def State.endedWindow (s : State) (c x : Nat) : Bool :=
  (s.core x).run == .ended || ((s.core x).windowEnded && (s.core x).entryFrame == (s.core c).entryFrame &&
    (match s.entryOf c, s.entryOf x with
     | some (_, e), some (_, f) => e.tick == f.tick
     | _, _ => false))

/-! ### Deques and steals -/

/-- Records that a deque holds at most (R228). -/
def dequeDepth : Nat := 4096
/-- Push at the bottom, the newest end. -/
def Core.pushBottom (k : Core) (r : Record) : Core := { k with deque := k.deque ++ [r] }
/-- Push at the top, the oldest end. -/
def Core.pushTop (k : Core) (r : Record) : Core := { k with deque := r :: k.deque }
/-- The steal requests that wait in a core's MB, oldest first (R231). Log entry 61 (DEDUCED). -/
def Core.thieves (k : Core) : List Nat := (k.arch.q .mb).filterMap (·.thief)
/-- Take a core's request out of MB. -/
def Core.dropThief (k : Core) (thief : Nat) : Core :=
  let keep := fun (e : QEntry) => e.thief ≠ some thief
  let drop := fun (a : Arch) => a.setQ .mb ((a.q .mb).filter keep)
  { k with
    arch := drop k.arch
    seg := { k.seg with checkpoint := drop k.seg.checkpoint, arrived := k.seg.arrived.filter fun e => keep e.2 } }
/-- Answer a steal request with a record or with nothing (R231); an answered request comes back with no rewind of its victim (R294). -/
def State.answer (s : State) (victim thief : Nat) (r : Option Record) : State :=
  (s.onCore victim fun k => k.dropThief thief).onCore thief fun k => { k with wait := .answered r }
/-- AUX of a steal that is answered with nothing (R371). -/
def stealNothing : Nat := 2 ^ 31
/-- Answer a request with nothing, which is an order-sensitive choice (R231, R371). -/
def State.answerNothing (s : State) (id victim thief : Nat) : State :=
  s.chooseThen id 6 victim thief stealNothing true fun s => s.answer victim thief none
/-- Every request that waits in a core's MB is answered with nothing (R232, R288). -/
def State.answerAll (s : State) (id victim : Nat) : State :=
  ((s.core victim).thieves).foldl (fun s t => s.answerNothing id victim t) s

/-- The outcome of the instruction that was still open is kept (R293). -/
def Core.closeResult (k : Core) (vecs : List (Nat × VReg)) (jump : Option (W64 × List W64)) : Core :=
  { k with seg := { k.seg with recorded := k.seg.recorded.map fun r =>
      if r.isOpen then { r with value := none, vecs := vecs, jump := jump } else r } }

/-- Write `s1` to `s7` with latency 1 (R15, R222). -/
def Arch.loadArgs (a : Arch) (args : List W64) : Arch :=
  (List.range 7).foldl (fun a i => a.fly .execute (.s (i + 1) ((args[i]?).getD 0)) 1 0) a
/-- The seven argument words from a register base (R222). -/
def Part.args (p : Part) (a : Arch) (b : Nat) : List W64 := (List.range 7).map fun i => a.getS (rot p.rb (b + i))
/-- A PC that SPAWN and SUSP refuse (R229). -/
def badPc (x : W64) : Bool := x.getLsbD 0 || fld x 52 12 ≠ 0

/-- Go on with a strand (R230): its arguments are written and its PC is branched to. -/
def State.takeUp (s : State) (pc : W64) (args : List W64) : Got State :=
  (s.onArch s.part.core fun a => a.loadArgs args).jump (s.part.plainJump pc none)

/-- A slot decided after issue: behind another redirecting instruction of its bundle it is suppressed whole (R452).
Log entry 53 (DEDUCED). -/
def claimSlot (body : State → Got State) (s : State) : Got State :=
  if !s.part.drained then .stall
  else if s.part.claimed then .ok s.collide
  else body { s with part := { s.part with claimed := true } }

/-- Deliver the recorded outcome of SUSP, STEAL or BEND again (R294). -/
def State.redeliver (s : State) (r : Recorded) : Got State :=
  match r.jump with
  | some (pc, args) => s.takeUp pc args
  | none => .ok s

/-- Where a spawned record goes (R229): a full deque is an error pinned to the launch (R228), met by a record on its way when it
arrives. -/
def State.placeRecord (s : State) (c : Nat) (l : Launch) (r : Record) (index : W64) (pl : Bool) : State :=
  let w := s.windowOf c
  let x := (w[placeOver l.seed index w.length]?).getD c
  let away := pl && !w.isEmpty && x ≠ c && !s.endedWindow c x
  if away then
    let tick := ((s.entryOf c).map fun e => e.2.tick).getD 0
    { s with transits := s.transits ++ [⟨x, c, l.id, (s.core c).entryFrame, tick, r⟩] }
  else if dequeDepth ≤ (s.core c).deque.length then s.pin l.id causeDeque c
  else s.onCore c fun k => k.pushBottom r

/-- SPAWN (R229): to the oldest waiting request, or placed; under replay the request of the logged outcome is waited for (R374). -/
def bodySpawn (o : A3) (s : State) : Got State :=
  let c := s.part.core
  (s.readS o.s1.toNat).bind fun (x, s) =>
    if badPc x then .trap ecMisaligned x
    else
      let send := fun (s : State) (v : W64) => (s.part.dstS o.d.toNat v 1 0 (s.core c).arch).map fun a => s.onArch c fun _ => a
      match s.recorded? with
      | some r => send s (r.value.getD 0)
      | none =>
        match s.launchOf c with
        | none => .stall
        | some l =>
          let k := s.core c
          let n := k.spawned
          let index := BitVec.ofNat 64 (k.ordinal * 2 ^ 32 + n)
          let r : Record := ⟨BitVec.ofNat 8 (fld o.m 0 8), x, s.part.args s.part.before.arch o.s2.toNat, n⟩
          let done := fun (s : State) =>
            send (s.onCore c fun k => s.keepValue { k with spawned := n + 1 } (some index)) index
          let aux := n % 2 ^ 31
          let place := fun (_ : Unit) => done (s.placeRecord c l r index (fld o.m 8 1 == 1))
          let hand := fun (t : Nat) => s.chooseGot l.id 6 c t aux true fun s => done (s.answer c t (some r))
          if l.replay then
            match nextLogged l.replayLog 6 c with
            | none => place ()
            | some e =>
              if e.aux ≠ aux then place ()
              else match k.thieves with
                | t :: _ => if t = e.src then hand t else .held l.id 6 c
                | [] => .held l.id 6 c
          else match k.thieves with
            | t :: _ => hand t
            | [] => place ()
/-- Perform SPAWN. -/
def execSpawn (o : A3) (s : State) : Out := runSlot (.spawn o) (bodySpawn o) s

/-- The end of a strand (R230): the bottom record of the deque is taken up, or control falls through. -/
def State.nextStrand (s : State) : Got State :=
  let c := s.part.core
  let k := s.core c
  match k.deque.getLast? with
  | none => .ok (s.onCore c fun k => s.keepValue k none)
  | some r =>
    let s := s.onCore c fun k =>
      ({ k with deque := k.deque.dropLast }).keep ⟨s.part.bundle, s.part.slot, none, false, [], some (r.pc, r.args)⟩
    s.takeUp r.pc r.args

/-- SUSP (R230). -/
def bodySusp (o : A3) : State → Got State :=
  claimSlot fun s =>
    let c := s.part.core
    (s.readS o.s1.toNat).bind fun (x, s) =>
      let fin := fld o.m 8 1 == 1
      if !fin && badPc x then .trap ecMisaligned x
      else match s.recorded? with
        | some r => s.redeliver r
        | none =>
          let r : Record := ⟨BitVec.ofNat 8 (fld o.m 0 8), x, s.part.args s.part.before.arch o.s2.toNat, 0⟩
          (if fin then s else s.onCore c fun k => k.pushTop r).nextStrand
/-- Perform SUSP. -/
def execSusp (o : A3) (s : State) : Out := runSlot (.susp o) (bodySusp o) s

/-- Does the log of a replay let the core's next request to a victim reach its MB: its arrival stands before its outcome (R371, R374)?
Log entry 17 (DEDUCED). -/
def Launch.arrives (l : Launch) (c victim : Nat) : Bool :=
  l.replay && match l.replayLog.find? fun (r, used) => !used && r.src == c && (r.sameKey 5 (2 * 2 ^ 9 + victim) || r.sameKey 6 victim) with
    | some (r, _) => r.kind == 5
    | none => false
/-- A steal request leaves for its victim; the stream waits for the answer (R231). On its way it takes one of the 8 places of the outgoing
buffer of R233, behind earlier messages to its victim (log entry 61, DESIGN CHOICE). -/
def State.postSteal (s : State) (victim : Nat) : Got State :=
  let c := s.part.core
  let k := s.core c
  if 8 ≤ k.msgs.length then .stall
  else
    .ok
      { s.setCore c (s.keepValue { k with msgs := k.msgs ++ [⟨victim, true, true, 0⟩], wait := .steal victim } (some openResult)) with
        part := { s.part with undecided := true } }

/-- STEAL (R231): "nothing" at once if the victim is the core itself, no core of the window, or has ended the window; the last is an
outcome of the order log (log entry 17). -/
def bodySteal (o : A3) : State → Got State :=
  claimSlot fun s =>
    let c := s.part.core
    (s.readS o.s1.toNat).bind fun (x, s) =>
      match s.recorded? with
      | some r => s.redeliver r
      | none =>
        let nothing := fun (s : State) => Got.ok (s.onCore c fun k => s.keepValue k none)
        match (s.windowOf c)[x.toNat]?, s.launchOf c with
        | some v, some l =>
          if v = c then nothing s
          else if l.replay then
            if l.arrives c v then s.postSteal v else s.chooseGot l.id 6 v c stealNothing true nothing
          else if s.endedWindow c v then s.chooseGot l.id 6 v c stealNothing true nothing
          else s.postSteal v
        | _, _ => nothing s
/-- Perform STEAL. -/
def execSteal (o : A3) (s : State) : Out := runSlot (.steal o) (bodySteal o) s

/-- LAUNCH (R235): the record's address goes to the coordinator. -/
def bodyLaunchMsg (o : A3) (s : State) : Got State :=
  let c := s.part.core
  (s.readS o.s1.toNat).bind fun (x, s) =>
    if s.recorded?.isSome then .ok s
    else match s.launchOf c with
      | none => .stall
      | some l =>
        .ok { s.onCore c fun k => s.keepValue k none with launchMsgs := s.launchMsgs ++ [⟨c, l.id, x⟩] }
/-- Perform LAUNCH. -/
def execLaunchMsg (o : A3) (s : State) : Out := runSlot (.launchMsg o) (bodyLaunchMsg o) s

/-! ### The open region of a core -/

/-- Add to a counter in the upper or lower half of a word of a weight block's header, saturating (R386). -/
def Region.count (r : Region) (off lo n : Nat) : Region :=
  let v := r.word64 off / 2 ^ lo % 2 ^ 32
  r.setField off lo 32 (min (v + n) (2 ^ 32 - 1))

/-- The samples of an invocation are dropped together and counted (R389). -/
def State.dropSample (s : State) (l : Launch) (x : Sample) : State :=
  (s.onLaunch l.id fun l => { l with samples := l.samples.filter fun y => !(y.region == x.region && y.index == x.index) }).onRegion
    l.module x.region fun r => r.count 0x20 32 256
/-- A replay drops samples that it has kept as the log names them, in the order of the region's key (R374, R395). -/
def State.dropLogged (s : State) (id r : Nat) : Nat → State
  | 0 => s
  | n + 1 =>
    match s.launch? id with
    | none => s
    | some l =>
      if !l.replay then s
      else match (nextLogged l.replayLog 8 r).bind fun e =>
          l.samples.find? fun x => x.region == r && x.core == e.src && x.index % 2 ^ 32 == e.aux with
        | none => s
        | some x =>
          (s.chooseThen id 8 r x.core (x.index % 2 ^ 32) true fun s => s.dropSample l x).dropLogged id r n
/-- Drop every kept sample of a region whose turn in the log has come. -/
def State.settleDrops (s : State) (l : Launch) (r : Nat) : State :=
  s.dropLogged l.id r (((s.launch? l.id).map fun l => l.samples.length).getD 0)
/-- The open region of a core is abandoned (R240, R389): the invocation's samples, if it would yield any, are dropped, counted and
logged. Log entry 54 (DEDUCED). -/
def State.abandon (s : State) (c : Nat) (go : State → Got State) : Got State :=
  match (s.core c).region, s.launchOf c with
  | some x, some l =>
    let s := s.onCore c fun k => { k with region := none }
    if x.state ≤ 2 then
      (s.settleDrops l x.region).chooseGot l.id 8 x.region c (x.index.toNat % 2 ^ 32) true fun s =>
        go (s.onRegion l.module x.region fun r => r.count 0x20 32 256)
    else go s
  | _, _ => go s

/-- The entry of a core ends (R232): its block, or its part in the window. A TRAP or BRK beside a `bend.last` that ends the last entry of
the core has no bundle before which it could be taken, and is not taken (log entry 65, DESIGN CHOICE). -/
def State.endEntry (s : State) (c : Nat) (last : Bool) : State :=
  let window := match s.entryOf c with
    | some (_, e) => e.window
    | none => false
  let s := s.onCore c fun k =>
    { k with
      arch := { k.arch with loop := none, turn := none, loopOn := false }
      run := if last then .ended else .waiting
      blockEnded := true
      windowEnded := window
      lastMark := false
      mustClose := true
      closedFor := false
      rvPassed := false }
  match (s.core c).launch with
  | none => s
  | some id => s.answerAll id c

/-- Is the record on its way in the window that the core is in? -/
def State.inWindow (s : State) (c : Nat) (t : Transit) : Bool :=
  (s.core c).launch == some t.launch && (s.core c).entryFrame == t.frame && ((s.entryOf c).map fun e => e.2.window && e.2.tick == t.tick).getD false
/-- Is a record on its way that the core will still have to run in its window (R289): one for its deque, or one of its own that comes back
(log entry 82)? -/
def State.expects (s : State) (c : Nat) : Bool :=
  s.transits.any fun t => s.inWindow c t && (t.target == c || (t.sender == c && (s.core t.target).run == .ended))
/-- BEND (R232): with records left it acts as a finishing SUSP; else, with none on its way to the core, the entry ends. -/
def bodyBend (o : A3) : State → Got State :=
  claimSlot fun s =>
    let c := s.part.core
    let last := fld o.m 0 1 == 1
    match s.recorded? with
    | some r =>
      (match r.value with
       | some v => .ok { s.endEntry c (v.getLsbD 0) with part := { s.part with redirected := true } }
       | none => s.redeliver r)
    | none =>
      let k := s.core c
      if !k.deque.isEmpty then (s.onCore c fun k => { k with lastMark := k.lastMark || last }).nextStrand
      else if s.expects c then .stall
      else s.abandon c fun s =>
        let l := k.lastMark || last
        let s := s.onCore c fun k => s.keepValue k (some (if l then 1 else 0))
        .ok { s.endEntry c l with part := { s.part with redirected := true } }
/-- Perform BEND. -/
def execBend (o : A3) (s : State) : Out := runSlot (.bend o) (bodyBend o) s

/-! ### Messages and events -/

/-- Have all accesses of the core before the bundle been performed (R300)? The segment has closed at the bundle (R291), so its checkpoint
tells them from those of later bundles whose access parts have issued. Log entry 26 (DEDUCED). -/
def Part.quiet (p : Part) : Bool := p.before.performedBefore p.before.seg.checkpoint.accSeq
/-- Messages that an outgoing buffer holds (R233). -/
def msgDepth : Nat := 8
/-- The record of a message or post that names no core of the launch (R233, R238). -/
def State.undelivered (s : State) (c : Nat) (target : W64) (what : Nat) (v : W64) : State :=
  s.postEvent c c (eventWord 7 0 target.toNat 0 what) v

/-- QSEND (R233). -/
def bodyQsend (o : A3) (s : State) : Got State :=
  let c := s.part.core
  (s.readS o.s1.toNat).bind fun (x, s) => (s.readS o.s2.toNat).bind fun (v, s) =>
    if s.recorded?.isSome then .ok s
    else if !s.part.quiet then .stall
    else match s.launchOf c with
      | none => .stall
      | some l =>
        let kept := s.onCore c fun k => s.keepValue k none
        match l.coreAt x.toNat with
        | none => .ok (kept.undelivered c x 0 v)
        | some t =>
          if msgDepth ≤ (s.core c).msgs.length then .stall
          else .ok (kept.onCore c fun k => { k with msgs := k.msgs ++ [⟨t, fld o.m 0 1 == 1, false, v⟩] })
/-- Perform QSEND. -/
def execQsend (o : A3) (s : State) : Out := runSlot (.qsend o) (bodyQsend o) s

/-- EVPOST (R234). -/
def bodyEvpost (o : A3) (s : State) : Got State :=
  let c := s.part.core
  (s.readS o.s1.toNat).bind fun (x, s) => (s.readS o.s2.toNat).bind fun (v, s) =>
    if s.recorded?.isSome then .ok s
    else if !s.part.quiet then .stall
    else match s.launchOf c with
      | none => .stall
      | some l =>
        let kept := s.onCore c fun k => s.keepValue k none
        let w0 := eventWord 5 0 (fld o.m 0 16) 0 c
        if fld o.m 16 1 = 1 then .ok (kept.postHost l.asid w0 v)
        else match l.coreAt x.toNat with
          | none => .ok (kept.undelivered c x 1 v)
          | some t => .ok (kept.postEvent t c w0 v)
/-- Perform EVPOST. -/
def execEvpost (o : A3) (s : State) : Out := runSlot (.evpost o) (bodyEvpost o) s

/-- BSTAT (R237): the status at issue. -/
def bodyBstat (o : A3) : State → Got State :=
  fun s => (s.readS o.s1.toNat).bind fun (x, s) =>
    (s.part.dstS o.d.toNat (s.mine.bstat (fld o.m 0 1 == 1) x) 2 0 s.mine.arch).map s.withArch
/-- Perform BSTAT. -/
def execBstat (o : A3) (s : State) : Out := runSlot (.bstat o) (bodyBstat o) s

end Sys2Proof.Machine
end

