-- ==== Sys2Proof/Machine/Surrogate.lean ====
section
/-! DEFINITION. Sys2Proof/Machine/Surrogate.lean: the network of a surrogate (spec/22 R387), its samples (R389) and the surrogate
instructions (spec/10 R239 to R243, spec/22 R383, R393, R394). -/

namespace Sys2Proof.Machine

/-! ### The network -/

/-- Fused multiply-add, its flags discarded (R387, R388). -/
def kfma (a b c : Nat) : Nat := (fFma fp32 false false a b c).1
/-- `relu` (R387): the value where it is positive or NaN, else +0. -/
def relu (v : Nat) : Nat :=
  let x := fp32.decode v
  if x.isNan || FVal.lt (.fin false 0 0) x then v else 0
/-- Is the value positive (R391)? -/
def positive (v : Nat) : Bool := FVal.lt (.fin false 0 0) (fp32.decode v)
/-- The `i`-th number of a list, +0 beyond its end. -/
def at0 (l : List Nat) (i : Nat) : Nat := (l[i]?).getD 0
/-- A unit's pre-activation: its bias, then one fused step for each input, ascending (R387). -/
def unitSum (bias : Nat) (ws xs : List Nat) : Nat := (ws.zip xs).foldl (fun a p => kfma p.1 p.2 a) bias

/-- The weights and biases of a network, by layer: a row of weights for each unit. -/
structure Net where
  w1 : List (List Nat)
  b1 : List Nat
  w2 : List (List Nat)
  b2 : List Nat
  w3 : List (List Nat)
  b3 : List Nat
  deriving DecidableEq, Repr, Inhabited

/-- A word of a weight block. -/
def word32 (m : Memory) (off : Nat) : Nat := leNat (memBytes m off 4) 4
/-- The network that a weight block holds (R385). -/
def netOf (m : Memory) (nin nout : Nat) : Net where
  w1 := (List.range 32).map fun j => (List.range nin).map fun i => word32 m (0x100 + 4 * (16 * j + i))
  b1 := (List.range 32).map fun j => word32 m (0x900 + 4 * j)
  w2 := (List.range 32).map fun j => (List.range 32).map fun k => word32 m (0x980 + 4 * (32 * j + k))
  b2 := (List.range 32).map fun j => word32 m (0x1980 + 4 * j)
  w3 := (List.range nout).map fun o => (List.range 32).map fun j => word32 m (0x1A00 + 4 * (32 * o + j))
  b3 := (List.range nout).map fun o => word32 m (0x1E00 + 4 * o)

/-- The values of one evaluation: pre-activations, activations, outputs. -/
structure Pass where
  z1 : List Nat
  h1 : List Nat
  z2 : List Nat
  h2 : List Nat
  y : List Nat
  deriving DecidableEq, Repr, Inhabited

/-- One layer (R387). -/
def layer (w : List (List Nat)) (b xs : List Nat) : List Nat := (w.zip b).map fun p => unitSum p.2 p.1 xs
/-- `forward` (R387). -/
def Net.forward (n : Net) (x : List Nat) : Pass :=
  let z1 := layer n.w1 n.b1 x
  let h1 := z1.map relu
  let z2 := layer n.w2 n.b2 h1
  let h2 := z2.map relu
  ⟨z1, h1, z2, h2, layer n.w3 n.b3 h2⟩

/-- The inputs of lane `i` from input registers (R239). -/
def laneOf (xs : List VReg) (i : Nat) : List Nat := xs.map fun x => elem x.toNat 32 i
/-- The outputs of a surrogate invocation: 256 lanes of each output (R388). -/
def invoke (n : Net) (nout : Nat) (xs : List VReg) : List VReg :=
  let ys := (List.range 256).map fun i => (n.forward (laneOf xs i)).y
  (List.range nout).map fun o => vecOf 32 fun i => at0 ((ys[i]?).getD []) o

/-- Bytes of vectors one after another, and vectors from such bytes. -/
def bytesOfVecs (l : List VReg) : Memory := putMem [] 0 (l.flatMap fun x => leBytes x.toNat 1024)
def vecsOfBytes (m : Memory) (n : Nat) : List VReg :=
  (List.range n).map fun i => BitVec.ofNat 8192 (leNat (memBytes m (1024 * i) 1024) 1024)

/-! ### Regions -/

/-- The region of the module that a core runs. -/
def State.regionFor (s : State) (c r : Nat) : Option (Launch × Region) :=
  match s.launchOf c with
  | none => none
  | some l => ((s.module? l.module).bind fun m => m.regions[r]?).map fun x => (l, x)
/-- Does the launch hold its module's weight blocks? -/
def State.holds (s : State) (l : Launch) : Bool := (s.holder l.module).map (·.id) == some l.id
/-- The state of a region as an SGBEG of the launch meets it (R383). -/
def State.metState (s : State) (l : Launch) (x : Region) : Nat := if s.holds l then x.state else 4
/-- Is the invocation sampled (R240)? -/
def Region.sampled (x : Region) (seed index : W64) : Bool :=
  let k := x.word64 8 % 32
  k == 0 || (place64 seed index).toNat / 2 ^ (64 - k) == 0
/-- The registers of a list as the part names them (R14, R239). -/
def Part.vecs (p : Part) (a : Arch) (l : List Nat) : List VReg := l.map fun n => a.getV (rot p.rb n)
/-- Has one of them a poison mark (R431)? -/
def Part.spoiled (p : Part) (a : Arch) (l : List Nat) : Bool := !a.marks.isEmpty && l.any fun n => a.marked .v (rot p.rb n)
/-- The invocation index of the next SGBEG of a region on a core (R239). -/
def Core.nextIndex (k : Core) (r : Nat) : W64 := BitVec.ofNat 64 (k.ordinal * 2 ^ 32 + Sparse.get 0 k.sgCount r)

/-- Write a region's outputs: results of latency 1 (R240). -/
def Arch.writeOutputs (a : Arch) (rb : Nat) (outs : List Nat) (ys : List VReg) : Arch :=
  (outs.zip ys).foldl (fun a p => a.fly .execute (.v (rot rb p.1) p.2) 1 0) a

/-- The taken branch past a region (R240, R454): to the bundle after the one that holds its SGEND. -/
def Part.pastRegion (p : Part) (next : W64) (x : Region) : Jump :=
  ⟨next, 0, some (BitVec.ofNat 64 x.fin), none, false, false, p.rb, none⟩

/-- Append a surrogate invocation to SGQ (R240, R264): its region and index, the captured inputs, and the weights, which it reads with the
region's state in one action (R388, R393). Log entry 54 (DEDUCED). -/
def Core.appendInvocation (k : Core) (r : Nat) (index : W64) (ins : List VReg) (weights : Memory) (bundle frame : Nat) : Core :=
  (k.append { Op.fresh .surrogate 0 (BitVec.ofNat 64 r) index 0 [] [] with snapE := bytesOfVecs ins, snapS := weights } 6 bundle frame).2

/-- SGBEG (R240); issued again after a rewind it waits for the same invocation, or delivers its outputs (R294).
Log entry 54 (DEDUCED). -/
def bodySgbeg (o : A3) : State → Got State :=
  claimSlot fun s =>
    let c := s.part.core
    let r := fld o.m 0 6
    match s.regionFor c r with
    | none => .stall
    | some (l, x) =>
      match s.recorded? with
      | some rec =>
        (match rec.jump with
         | none =>
           if rec.value = some openResult then
             .ok { s.onCore c fun k => { k with wait := .invocation r s.part.next } with part := { s.part with undecided := true } }
           else .ok s
         | some _ => (s.onArch c fun a => a.writeOutputs s.part.rb x.outs (rec.vecs.map (·.2))).jump (s.part.pastRegion s.part.next x))
      | none => s.abandon c fun s =>
        let k := s.core c
        let index := k.nextIndex r
        if s.part.spoiled k.arch x.ins then .poison else
        let ins := s.part.vecs k.arch x.ins
        let st := s.metState l x
        let k := { k with sgCount := Sparse.set 0 k.sgCount r (Sparse.get 0 k.sgCount r + 1) }
        let began := fun (s : State) =>
          if s.holds l then s.onLaunch l.id fun l => { l with sgBegs := l.sgBegs ++ [(r, l.frame, c, index.toNat)] } else s
        let region : OpenRegion := ⟨r, index, l.frame, st, ins, none⟩
        if st ≠ 2 then
          .ok (began (s.setCore c { s.keepValue k none with region := if s.holds l then some region else none }))
        else if !k.hasRoom 6 then .stall
        else
          let k := k.appendInvocation r index ins x.block s.part.bundle l.frame
          if x.sampled l.seed index then .ok (began (s.setCore c { s.keepValue k none with region := some region }))
          else
            .ok { began (s.setCore c { s.keepValue k (some openResult) with wait := .invocation r s.part.next }) with
              part := { s.part with undecided := true } }
/-- Perform SGBEG. -/
def execSgbeg (o : A3) (s : State) : Out := runSlot (.sgbeg o) (bodySgbeg o) s

/-! ### Samples -/

/-- FP32 codes without their sign. -/
def absCode (x : Nat) : Nat := x % 2 ^ 31
/-- Is an FP32 code finite? -/
def finiteCode (x : Nat) : Bool := !(fp32.decode x).isNan && !(fp32.decode x).isInf
/-- `a ≤ b` of FP32 codes, false where one is NaN. -/
def leCode (a b : Nat) : Bool := fCompare fp32 3 a b
/-- The pass bit of one output (R389). -/
def passOutput (absT relT y t : Nat) : Bool :=
  let d := absCode (fSub fp32 y t).1
  let r := (fMul fp32 relT (absCode t)).1
  !(fp32.decode r).isNan && !(fp32.decode absT).isNan && (leCode d absT || leCode d r)
/-- The pass bit of a lane: every output passes (R389). -/
def passLane (x : Region) (ys ts : List Nat) : Bool :=
  ((ys.zip ts).mapIdx fun o p => passOutput (x.word32 (64 + 4 * o)) (x.word32 (96 + 4 * o)) p.1 p.2).all id
/-- The 256 lanes of each register. -/
def lanesOf (l : List VReg) : List (List W32) := l.map fun x => (List.range 256).map fun i => BitVec.ofNat 32 (elem x.toNat 32 i)

/-- SGEND (R241, R389): the region closes; its samples are kept for the frame's end, unless the log drops them when their turn comes
(R374). -/
def bodySgend (o : A3) (s : State) : Got State :=
  let c := s.part.core
  let r := fld o.m 0 6
  if !s.part.drained then .stall
  else if s.recorded?.isSome then .ok s
  else
    let kept := fun (s : State) => s.onCore c fun k => { s.keepValue k none with region := none }
    match (s.core c).region, s.regionFor c r with
    | some op, some (l, x) =>
      if op.region ≠ r then .ok (s.onCore c fun k => s.keepValue k none)
      else if op.state = 2 ∧ op.compare = none then .stall
      else if 2 < op.state ∨ x.state = 4 then .ok (kept s)
      else
        if s.part.spoiled (s.core c).arch x.outs then .poison else
        let truth := s.part.vecs (s.core c).arch x.outs
        let sample : Sample :=
          ⟨r, op.index.toNat, op.frame, op.state == 2, c, lanesOf op.inputs, lanesOf truth, lanesOf (op.compare.getD [])⟩
        .ok ((kept (s.onLaunch l.id fun l => { l with samples := l.samples ++ [sample] })).settleDrops l r)
    | _, _ => .ok (s.onCore c fun k => s.keepValue k none)
/-- Perform SGEND. -/
def execSgend (o : A3) (s : State) : Out := runSlot (.sgend o) (bodySgend o) s

/-- SGINV (R242, R393). -/
def bodySginv (o : A3) (s : State) : Got State :=
  let c := s.part.core
  let r := fld o.m 0 6
  if s.recorded?.isSome then .ok s
  else match s.regionFor c r with
    | none => .stall
    | some (l, _) =>
      .ok ((s.invalidate l.module r c ((s.core c).nextIndex r) true).onCore c fun k => s.keepValue k none)
/-- Perform SGINV. -/
def execSginv (o : A3) (s : State) : Out := runSlot (.sginv o) (bodySginv o) s

/-- Does a value lie within the limits of a field (R243)? The floating-point fields take the low 32 bits (log entry 18). -/
def cfgOk (field j nout : Nat) (v : W64) : Bool :=
  let x := lo32 v
  let neg := (fp32.decode x).neg? && absCode x ≠ 0
  match field with
  | 0 | 1 => finiteCode x && !neg && decide (j < nout)
  | 2 => decide (1 ≤ v.toNat) && decide (v.toNat ≤ 4096)
  | 3 => decide (v.toNat ≤ 16)
  | 4 => decide (v.toNat < 2 ^ 32)
  | _ => finiteCode x && positive x

/-- SGCFG (R243, R394): a request to the home, taken up when the frame is processed. -/
def bodySgcfg (o : A3) (s : State) : Got State :=
  let c := s.part.core
  let r := fld o.m 0 6
  let field := fld o.m 6 4
  let j := fld o.m 10 3
  (s.readS o.s1.toNat).bind fun (v, s) =>
    match s.regionFor c r with
    | none => .stall
    | some (l, x) =>
      let ok := cfgOk field j x.nout v
      let send := fun (s : State) => (s.part.dstP o.d.toNat ok 1 (s.core c).arch).map fun a => s.onArch c fun _ => a
      if s.recorded?.isSome then send s
      else
        let s := s.onCore c fun k => s.keepValue k none
        send (if ok && s.holds l then
          s.onLaunch l.id fun l =>
            { l with cfgs := l.cfgs ++ [⟨r, field, j, v.setWidth 32, (s.core c).ordinal, l.cfgs.length⟩] } else s)
/-- Perform SGCFG. -/
def execSgcfg (o : A3) (s : State) : Out := runSlot (.sgcfg o) (bodySgcfg o) s

end Sys2Proof.Machine
end

