-- ==== Sys2Proof/Machine/VectorInt.lean ====
section
/-! DEFINITION. Sys2Proof/Machine/VectorInt.lean: the element-wise integer, mask and selection instructions of the vector slots
(spec/07 R138 to R144). -/

namespace Sys2Proof.Machine

/-- The element type of a vector modifier (R133). -/
def etOf (m : BitVec 17) : Nat := fld m 0 4
/-- The element width of a vector modifier. -/
def widthOf (m : BitVec 17) : Nat := etWidth (etOf m)
/-- The element count of a vector modifier. -/
def countOf (m : BitVec 17) : Nat := 8192 / widthOf m
/-- Is the element type signed? -/
def signedOf (m : BitVec 17) : Bool := etSigned (etOf m)

/-- Deliver a v-type result under the mask of the modifier (R134). -/
def Part.putMasked (p : Part) (w : Nat) (o : A3) (lat : Nat) (f : Nat → Nat × BitVec 5) (a : Arch) : Got Arch :=
  let d := o.d.toNat
  let r := vecMasked w (maskBit (a.maskOf o.m)) (zeroing o.m d) (p.oldV d a) f
  p.dstV d r.1 lat r.2 a

/-- One v-type source in elements of width `ws`, a masked result in elements of width `wd`. -/
def vec1 (ws wd lat : Nat) (o : A3) (f : (Nat → Nat) → Nat → Nat × BitVec 5) : State → Got State :=
  onPart fun p a =>
    (p.srcV ws o.s1.toNat a).bind fun (x, a) => p.putMasked wd o lat (f (elem x.toNat ws)) a

/-- Two v-type sources in elements of width `ws`, a masked result in elements of width `wd`. -/
def vec2 (ws wd lat : Nat) (o : A3) (f : (Nat → Nat) → (Nat → Nat) → Nat → Nat × BitVec 5) : State → Got State :=
  onPart fun p a =>
    (p.srcV ws o.s1.toNat a).bind fun (x, a) => (p.srcV ws o.s2.toNat a).bind fun (y, a) =>
      p.putMasked wd o lat (f (elem x.toNat ws) (elem y.toNat ws)) a

/-- An element-wise integer instruction of two sources: the exact result of x and y taken modulo 2^w (R138). -/
def vecInt2 (lat : Nat) (o : A3) (f : Int → Int → Int) : State → Got State :=
  let w := widthOf o.m
  let sg := signedOf o.m
  vec2 w w lat o fun x y i => (ofInt w (f (toInt w sg (x i)) (toInt w sg (y i))), 0)

/-- The shifts: the amount is SH, or the low log2 w bits of an element of S2 (R139). -/
def vecShift (o : A3) (f : Nat → Bool → Nat → Nat → Nat) : State → Got State :=
  let w := widthOf o.m
  let sg := signedOf o.m
  if fld o.m 16 1 = 1 then vec1 w w 2 o fun x i => (f w sg (x i) (fld o.m 8 5), 0)
  else vec2 w w 2 o fun x y i => (f w sg (x i) (y i % w), 0)

/-- Shift right and round half up (R139). -/
def roundShift (w : Nat) (sg : Bool) (x n : Nat) : Nat :=
  if n = 0 then x else ofInt w ((toInt w sg x + 2 ^ (n - 1)) / 2 ^ n)

/-- The sum of `k` products of the elements that lane `i` takes (R140). -/
def dotSum (w : Nat) (sg : Bool) (k : Nat) (x y : Nat → Nat) (i : Nat) : Int :=
  (List.range k).foldl (fun s j => s + toInt w sg (x (k * i + j)) * toInt w sg (y (k * i + j))) 0

/-- VDOT4 and VDOT2: 32-bit lanes of D are source and destination (R140). -/
def vecDot (k : Nat) (o : A3) : State → Got State :=
  let w := widthOf o.m
  onPart fun p a =>
    let d := (p.oldV o.d.toNat a).toNat
    (p.srcV w o.s1.toNat a).bind fun (x, a) => (p.srcV w o.s2.toNat a).bind fun (y, a) =>
      p.putMasked 32 o 3
        (fun i => (ofInt 32 ((elem d 32 i : Nat) + dotSum w (signedOf o.m) k (elem x.toNat w) (elem y.toNat w) i), 0)) a

/-- The mask whose bits are given by a function. -/
def maskOfBits (f : Nat → Bool) : KReg := BitVec.ofNat 1024 (packElems 1 ((List.range 1024).map fun i => (f i).toNat))

/-- A comparison writes mask bits under its own mask; bits at and above the element count are 0 (R142, R147). -/
def vecCompare (o : A3) (c : (Nat → Nat) → (Nat → Nat) → Nat → Bool) : State → Got State :=
  let w := widthOf o.m
  onPart fun p a =>
    (p.srcV w o.s1.toNat a).bind fun (x, a) => (p.srcV w o.s2.toNat a).bind fun (y, a) =>
      let mask := a.maskOf o.m
      let old := a.getK o.d.toNat
      let zero := fld o.m 7 1 == 1
      let holds := c (elem x.toNat w) (elem y.toNat w)
      p.dstK o.d.toNat
        (maskOfBits fun i => decide (i < countOf o.m) && (if maskBit mask i then holds i else !zero && maskBit old i)) 2 a

/-- The conditions of VCMP (R142). -/
def vcmpHolds (w : Nat) (sg : Bool) (cond x y : Nat) : Bool :=
  let a := toInt w sg x
  let b := toInt w sg y
  match cond with
  | 0 => x == y
  | 1 => x != y
  | 2 => a < b
  | 3 => b ≤ a
  | 4 => a ≤ b
  | 5 => b < a
  | 0xA => x &&& y != 0
  | _ => x &&& y == 0

/-- KLOG's truth table over all 1,024 bits (R143). -/
def klogVal (tt : Nat) (x y : KReg) : KReg :=
  let pick := fun (i : Nat) (v : KReg) => if tt.testBit i then v else 0
  pick 3 (x &&& y) ||| pick 2 (x &&& ~~~y) ||| pick 1 (~~~x &&& y) ||| pick 0 (~~~x &&& ~~~y)

/-- A number in bytes 0 to 7 of a vector, the rest 0. -/
def vecWord (n : Nat) : VReg := BitVec.ofNat 8192 (n % 2 ^ 64)

/-- VADD (R138). -/
def bodyVadd (o : A3) : State → Got State := vecInt2 2 o fun x y => x + y
/-- Perform VADD. -/
def execVadd (o : A3) (s : State) : Out := runSlot (.vadd o) (bodyVadd o) s
/-- VSUB (R138). -/
def bodyVsub (o : A3) : State → Got State := vecInt2 2 o fun x y => x - y
/-- Perform VSUB. -/
def execVsub (o : A3) (s : State) : Out := runSlot (.vsub o) (bodyVsub o) s
/-- VMUL (R138). -/
def bodyVmul (o : A3) : State → Got State := vecInt2 3 o fun x y => x * y
/-- Perform VMUL. -/
def execVmul (o : A3) (s : State) : Out := runSlot (.vmul o) (bodyVmul o) s
/-- VMULH (R138). -/
def bodyVmulh (o : A3) : State → Got State := vecInt2 3 o fun x y => x * y / 2 ^ widthOf o.m
/-- Perform VMULH. -/
def execVmulh (o : A3) (s : State) : Out := runSlot (.vmulh o) (bodyVmulh o) s
/-- VMIN (R138). -/
def bodyVmin (o : A3) : State → Got State := vecInt2 2 o fun x y => min x y
/-- Perform VMIN. -/
def execVmin (o : A3) (s : State) : Out := runSlot (.vmin o) (bodyVmin o) s
/-- VMAX (R138). -/
def bodyVmax (o : A3) : State → Got State := vecInt2 2 o fun x y => max x y
/-- Perform VMAX. -/
def execVmax (o : A3) (s : State) : Out := runSlot (.vmax o) (bodyVmax o) s
/-- VABS: the most negative value maps to itself (R138). -/
def bodyVabs (o : A3) : State → Got State := 
  vec1 (widthOf o.m) (widthOf o.m) 2 o fun x i =>
    (ofInt (widthOf o.m) (toInt (widthOf o.m) (signedOf o.m) (x i)).natAbs, 0)
/-- Perform VABS. -/
def execVabs (o : A3) (s : State) : Out := runSlot (.vabs o) (bodyVabs o) s
/-- VAND (R138). -/
def bodyVand (o : A3) : State → Got State := 
  vec2 (widthOf o.m) (widthOf o.m) 2 o fun x y i => (x i &&& y i, 0)
/-- Perform VAND. -/
def execVand (o : A3) (s : State) : Out := runSlot (.vand o) (bodyVand o) s
/-- VOR (R138). -/
def bodyVor (o : A3) : State → Got State := 
  vec2 (widthOf o.m) (widthOf o.m) 2 o fun x y i => (x i ||| y i, 0)
/-- Perform VOR. -/
def execVor (o : A3) (s : State) : Out := runSlot (.vor o) (bodyVor o) s
/-- VXOR (R138). -/
def bodyVxor (o : A3) : State → Got State := 
  vec2 (widthOf o.m) (widthOf o.m) 2 o fun x y i => (x i ^^^ y i, 0)
/-- Perform VXOR. -/
def execVxor (o : A3) (s : State) : Out := runSlot (.vxor o) (bodyVxor o) s
/-- VSADD: clamped to the range of ET (R138). -/
def bodyVsadd (o : A3) : State → Got State := vecInt2 2 o fun x y => clampInt (widthOf o.m) (signedOf o.m) (x + y)
/-- Perform VSADD. -/
def execVsadd (o : A3) (s : State) : Out := runSlot (.vsadd o) (bodyVsadd o) s
/-- VSSUB: clamped to the range of ET (R138). -/
def bodyVssub (o : A3) : State → Got State := vecInt2 2 o fun x y => clampInt (widthOf o.m) (signedOf o.m) (x - y)
/-- Perform VSSUB. -/
def execVssub (o : A3) (s : State) : Out := runSlot (.vssub o) (bodyVssub o) s
/-- VSHL (R139). -/
def bodyVshl (o : A3) : State → Got State := vecShift o fun w _ x n => x * 2 ^ n % 2 ^ w
/-- Perform VSHL. -/
def execVshl (o : A3) (s : State) : Out := runSlot (.vshl o) (bodyVshl o) s
/-- VSHR (R139). -/
def bodyVshr (o : A3) : State → Got State := vecShift o fun _ _ x n => x / 2 ^ n
/-- Perform VSHR. -/
def execVshr (o : A3) (s : State) : Out := runSlot (.vshr o) (bodyVshr o) s
/-- VSAR (R139); the top bit fills for `.n` too: log entry 75 (DEDUCED). -/
def bodyVsar (o : A3) : State → Got State := vecShift o fun w _ x n => ofInt w (toInt w true x / 2 ^ n)
/-- Perform VSAR. -/
def execVsar (o : A3) (s : State) : Out := runSlot (.vsar o) (bodyVsar o) s
/-- VRSHR (R139). -/
def bodyVrshr (o : A3) : State → Got State := vecShift o roundShift
/-- Perform VRSHR. -/
def execVrshr (o : A3) (s : State) : Out := runSlot (.vrshr o) (bodyVrshr o) s
/-- VMAC: D is source and destination (R140). -/
def bodyVmac (o : A3) : State → Got State := 
  let w := widthOf o.m
  onPart fun p a =>
    let d := (p.oldV o.d.toNat a).toNat
    (p.srcV w o.s1.toNat a).bind fun (x, a) => (p.srcV w o.s2.toNat a).bind fun (y, a) =>
      p.putMasked w o 3 (fun i => ((elem d w i + elem x.toNat w i * elem y.toNat w i) % 2 ^ w, 0)) a
/-- Perform VMAC. -/
def execVmac (o : A3) (s : State) : Out := runSlot (.vmac o) (bodyVmac o) s
/-- VDOT4 (R140). -/
def bodyVdot4 (o : A3) : State → Got State := vecDot 4 o
/-- Perform VDOT4. -/
def execVdot4 (o : A3) (s : State) : Out := runSlot (.vdot4 o) (bodyVdot4 o) s
/-- VDOT2 (R140). -/
def bodyVdot2 (o : A3) : State → Got State := vecDot 2 o
/-- Perform VDOT2. -/
def execVdot2 (o : A3) (s : State) : Out := runSlot (.vdot2 o) (bodyVdot2 o) s
/-- VNARW (R141); a scalar source repeats at 2w: log entry 74 (DEDUCED). -/
def bodyVnarw (o : A3) : State → Got State := 
  let w := widthOf o.m
  let c := countOf o.m
  vec2 (2 * w) w 2 o fun x y i =>
    let v := if i < c / 2 then x i else y (i - c / 2)
    (if fld o.m 8 1 = 1 then ofInt w (clampInt w (signedOf o.m) (toInt (2 * w) (signedOf o.m) v)) else v % 2 ^ w, 0)
/-- Perform VNARW. -/
def execVnarw (o : A3) (s : State) : Out := runSlot (.vnarw o) (bodyVnarw o) s
/-- VWIDE (R141); a scalar source repeats at w/2: log entry 74 (DEDUCED). -/
def bodyVwide (o : A3) : State → Got State := 
  let w := widthOf o.m
  vec1 (w / 2) w 2 o fun x i => (ofInt w (toInt (w / 2) (signedOf o.m) (x (fld o.m 8 1 * countOf o.m + i))), 0)
/-- Perform VWIDE. -/
def execVwide (o : A3) (s : State) : Out := runSlot (.vwide o) (bodyVwide o) s
/-- VCMP (R142). -/
def bodyVcmp (o : A3) : State → Got State := 
  vecCompare o fun x y i => vcmpHolds (widthOf o.m) (signedOf o.m) (fld o.m 8 4) (x i) (y i)
/-- Perform VCMP. -/
def execVcmp (o : A3) (s : State) : Out := runSlot (.vcmp o) (bodyVcmp o) s
/-- KLOG (R143). -/
def bodyKlog (o : A3) : State → Got State := 
  onPart fun p a => p.dstK o.d.toNat (klogVal (fld o.m 8 4) (a.getK o.s1.toNat) (a.getK o.s2.toNat)) 1 a
/-- Perform KLOG. -/
def execKlog (o : A3) (s : State) : Out := runSlot (.klog o) (bodyKlog o) s
/-- KPOP (R143). -/
def bodyKpop (o : A3) : State → Got State := 
  onPart fun p a =>
    p.dstV o.d.toNat (vecWord ((List.range (countOf o.m)).filter (maskBit (a.getK o.s1.toNat))).length) 1 0 a
/-- Perform KPOP. -/
def execKpop (o : A3) (s : State) : Out := runSlot (.kpop o) (bodyKpop o) s
/-- KFST (R143). -/
def bodyKfst (o : A3) : State → Got State := 
  onPart fun p a =>
    let c := countOf o.m
    p.dstV o.d.toNat (vecWord (((List.range c).find? (maskBit (a.getK o.s1.toNat))).getD c)) 1 0 a
/-- Perform KFST. -/
def execKfst (o : A3) (s : State) : Out := runSlot (.kfst o) (bodyKfst o) s
/-- KSET (R143). -/
def bodyKset (o : A3) : State → Got State := 
  onPart fun p a =>
    (p.srcX o.s1.toNat a).bind fun (x, a) =>
      p.dstK o.d.toNat (BitVec.ofNat 1024 (2 ^ min x.toNat (countOf o.m) - 1)) 1 a
/-- Perform KSET. -/
def execKset (o : A3) (s : State) : Out := runSlot (.kset o) (bodyKset o) s
/-- VSEL: the mask selects and does not govern (R144). -/
def bodyVsel (o : A3) : State → Got State := 
  let w := widthOf o.m
  onPart fun p a =>
    (p.srcV w o.s1.toNat a).bind fun (x, a) => (p.srcV w o.s2.toNat a).bind fun (y, a) =>
      p.dstV o.d.toNat
        (vecOf w fun i => if maskBit (a.maskOf o.m) i then elem x.toNat w i else elem y.toNat w i) 2 0 a
/-- Perform VSEL. -/
def execVsel (o : A3) (s : State) : Out := runSlot (.vsel o) (bodyVsel o) s

end Sys2Proof.Machine
end

