-- ==== Sys2Proof/Machine/VectorFloat.lean ====
section
/-! DEFINITION. Sys2Proof/Machine/VectorFloat.lean: element-wise floating point, exact block arithmetic and reductions of the
vector slots (spec/07 R145 to R153). -/

namespace Sys2Proof.Machine

/-- The floating-point format of a vector modifier. -/
def fmtOf (m : BitVec 17) : Fmt := etFmt (etOf m)

/-- An element-wise floating-point instruction of two sources (R145). -/
def vecFp2 (lat : Nat) (o : A3) (f : Fmt → Nat → Nat → Nat × BitVec 5) : State → Got State :=
  vec2 (widthOf o.m) (widthOf o.m) lat o fun x y i => f (fmtOf o.m) (x i) (y i)

/-- The sign operations of VFSGN: only the sign bit changes (R148). -/
def signOp (w op x y : Nat) : Nat :=
  let h := 2 ^ (w - 1)
  let sx := x / h % 2
  let sy := y / h % 2
  let s := if op = 0 then sy else if op = 1 then 1 - sy else (sx + sy) % 2
  x % h + s * h

/-- The element codes of block `j` of a VXDOT operand (R150, R33). -/
def blockCodes (fmt : Nat) (x j : Nat) : List Nat :=
  (List.range 32).map fun i => if fmt = 9 then elem x 4 (32 * j + i) else elem x 8 (32 * j + i)

/-- Add two elements of the type: modulo 2^w, or rounded (R152). -/
def addElem (et x y : Nat) : Nat × BitVec 5 :=
  if etFloat et then fAdd (etFmt et) x y else ((x + y) % 2 ^ etWidth et, 0)

/-- Add two nodes, an absent one passing the other (R152). -/
def addNodes (et : Nat) (x y : Option Nat × BitVec 5) : Option Nat × BitVec 5 :=
  match x.1, y.1 with
  | some a, some b =>
    let r := addElem et a b
    (some r.1, x.2 ||| y.2 ||| r.2)
  | some a, none => (some a, x.2 ||| y.2)
  | none, b => (b, x.2 ||| y.2)

/-- One level of the tree. -/
def pairUp (et : Nat) : List (Option Nat × BitVec 5) → List (Option Nat × BitVec 5)
  | x :: y :: l => addNodes et x y :: pairUp et l
  | l => l

/-- `n` levels of the tree. -/
def treeLevels (et : Nat) : Nat → List (Option Nat × BitVec 5) → List (Option Nat × BitVec 5)
  | 0, l => l
  | n + 1, l => treeLevels et n (pairUp et l)

/-- The running prefix of VSCAN (R153): elements with their mask bits, the value so far. -/
def scanFrom (et : Nat) (r : Option Nat) : List (Bool × Nat) → List (Nat × BitVec 5)
  | [] => []
  | (false, _) :: l => (0, 0) :: scanFrom et r l
  | (true, v) :: l =>
    match r with
    | none => (v, 0) :: scanFrom et (some v) l
    | some u =>
      let s := addElem et u v
      s :: scanFrom et (some s.1) l

/-- VFADD (R146). -/
def bodyVfadd (o : A3) : State → Got State := vecFp2 4 o fAdd
/-- Perform VFADD. -/
def execVfadd (o : A3) (s : State) : Out := runSlot (.vfadd o) (bodyVfadd o) s
/-- VFSUB (R146). -/
def bodyVfsub (o : A3) : State → Got State := vecFp2 4 o fSub
/-- Perform VFSUB. -/
def execVfsub (o : A3) (s : State) : Out := runSlot (.vfsub o) (bodyVfsub o) s
/-- VFMUL (R146). -/
def bodyVfmul (o : A3) : State → Got State := vecFp2 4 o fMul
/-- Perform VFMUL. -/
def execVfmul (o : A3) (s : State) : Out := runSlot (.vfmul o) (bodyVfmul o) s
/-- VFMA, fused (R146). -/
def bodyVfma (o : A3) : State → Got State := 
  let w := widthOf o.m
  onPart fun p a =>
    (p.srcV w o.s1.toNat a).bind fun (x, a) => (p.srcV w o.s2.toNat a).bind fun (y, a) =>
      (p.srcV w o.s3.toNat a).bind fun (z, a) =>
        p.putMasked w o 4
          (fun i => fFma (fmtOf o.m) (fld o.m 8 1 == 1) (fld o.m 9 1 == 1) (elem x.toNat w i) (elem y.toNat w i) (elem z.toNat w i))
          a
/-- Perform VFMA. -/
def execVfma (o : A3) (s : State) : Out := runSlot (.vfma o) (bodyVfma o) s
/-- VFMIN (R147). -/
def bodyVfmin (o : A3) : State → Got State := vecFp2 2 o fun f x y => (fMinMax f false x y, 0)
/-- Perform VFMIN. -/
def execVfmin (o : A3) (s : State) : Out := runSlot (.vfmin o) (bodyVfmin o) s
/-- VFMAX (R147). -/
def bodyVfmax (o : A3) : State → Got State := vecFp2 2 o fun f x y => (fMinMax f true x y, 0)
/-- Perform VFMAX. -/
def execVfmax (o : A3) (s : State) : Out := runSlot (.vfmax o) (bodyVfmax o) s
/-- VFCMP (R147). -/
def bodyVfcmp (o : A3) : State → Got State := vecCompare o fun x y i => fCompare (fmtOf o.m) (fld o.m 8 3) (x i) (y i)
/-- Perform VFCMP. -/
def execVfcmp (o : A3) (s : State) : Out := runSlot (.vfcmp o) (bodyVfcmp o) s
/-- VFSGN (R148). -/
def bodyVfsgn (o : A3) : State → Got State := 
  vec2 (widthOf o.m) (widthOf o.m) 2 o fun x y i => (signOp (widthOf o.m) (fld o.m 8 2) (x i) (y i), 0)
/-- Perform VFSGN. -/
def execVfsgn (o : A3) (s : State) : Out := runSlot (.vfsgn o) (bodyVfsgn o) s
/-- VFCLS (R148). -/
def bodyVfcls (o : A3) : State → Got State := vec1 (widthOf o.m) (widthOf o.m) 2 o fun x i => (2 ^ fClass (fmtOf o.m) (x i), 0)
/-- Perform VFCLS. -/
def execVfcls (o : A3) (s : State) : Out := runSlot (.vfcls o) (bodyVfcls o) s
/-- VXDOT: the other half of D keeps its value even when Z = 1 (R150). -/
def bodyVxdot (o : A3) : State → Got State := 
  let fmt := fld o.m 0 4
  let scaled := isMx fmt
  let h := fld o.m 8 1
  onPart fun p a =>
    (p.srcV 64 o.s1.toNat a).bind fun (x, a) => (p.srcV 64 o.s2.toNat a).bind fun (y, a) =>
      (if scaled then p.srcV 64 o.s3.toNat a else .ok (0, a)).bind fun (sc, a) =>
        let d := o.d.toNat
        let old := p.oldV d a
        let zero := zeroing o.m d
        let mask := a.maskOf o.m
        let scale := fun j => if scaled then elem sc.toNat 8 j else 127
        let r := vecMasked 128 (fun i => i / 32 == h && (zero || maskBit mask i)) false old fun i =>
          let j := i - 32 * h
          if maskBit mask i then
            vxdotBlock fmt (blockCodes fmt x.toNat j) (blockCodes fmt y.toNat j) (scale j) (scale (32 + j))
          else (0, 0)
        p.dstV d r.1 5 r.2 a
/-- Perform VXDOT. -/
def execVxdot (o : A3) (s : State) : Out := runSlot (.vxdot o) (bodyVxdot o) s
/-- VXADD: elements outside the group of 64 receive those of S1 whatever the mask (R151). -/
def bodyVxadd (o : A3) : State → Got State := 
  let q := fld o.m 8 2
  onPart fun p a =>
    (p.srcV 32 o.s1.toNat a).bind fun (x, a) => (p.srcV 64 o.s2.toNat a).bind fun (y, a) =>
      let d := o.d.toNat
      let mask := a.maskOf o.m
      let r := vecMasked 32 (fun i => i / 64 != q || maskBit mask i) (zeroing o.m d) (p.oldV d a) fun i =>
        if i / 64 = q then vxaddElem (elem x.toNat 32 i) (elem y.toNat 128 (i % 64)) else (elem x.toNat 32 i, 0)
      p.dstV d r.1 4 r.2 a
/-- Perform VXADD. -/
def execVxadd (o : A3) (s : State) : Out := runSlot (.vxadd o) (bodyVxadd o) s
/-- VSUM: the mask marks contributors, groups are summed by the fixed tree (R152). -/
def bodyVsum (o : A3) : State → Got State := 
  let et := etOf o.m
  let w := widthOf o.m
  let lg := fld o.m 8 4
  onPart fun p a =>
    (p.srcV w o.s1.toNat a).bind fun (x, a) =>
      let mask := a.maskOf o.m
      let leaves := (List.range (countOf o.m)).map fun i =>
        ((if maskBit mask i then some (elem x.toNat w i) else none : Option Nat), (0 : BitVec 5))
      let tops := treeLevels et lg leaves
      p.dstV o.d.toNat (vecOf w fun g => (((tops[g]?).map (·.1)).getD none).getD 0) 6
        (tops.foldl (fun fl r => fl ||| r.2) 0) a
/-- Perform VSUM. -/
def execVsum (o : A3) (s : State) : Out := runSlot (.vsum o) (bodyVsum o) s
/-- VSCAN (R153). -/
def bodyVscan (o : A3) : State → Got State := 
  let et := etOf o.m
  let w := widthOf o.m
  onPart fun p a =>
    (p.srcV w o.s1.toNat a).bind fun (x, a) =>
      let mask := a.maskOf o.m
      let rs := scanFrom et none ((List.range (countOf o.m)).map fun i => (maskBit mask i, elem x.toNat w i))
      p.putMasked w o 8 (fun i => (rs[i]?).getD (0, 0)) a
/-- Perform VSCAN. -/
def execVscan (o : A3) (s : State) : Out := runSlot (.vscan o) (bodyVscan o) s

end Sys2Proof.Machine
end

