-- ==== Sys2Proof/Machine/VectorMove.lean ====
section
/-! DEFINITION. Sys2Proof/Machine/VectorMove.lean: conversions, permutes and moves of the vector slots (spec/07 R154 to R162). -/

namespace Sys2Proof.Machine

/-- Convert one element between two types of VCVT (R154, R36, R38, R40). -/
def convertElem (src dst : Nat) (mode : RMode) (x : Nat) : Nat × BitVec 5 :=
  if etFloat src then
    if etFloat dst then fConvert (etFmt src) (etFmt dst) mode false x
    else
      let r := fToInt mode (intLo (etWidth dst) (etSigned dst)) (intHi (etWidth dst) (etSigned dst)) ((etFmt src).decode x)
      (ofInt (etWidth dst) r.1, r.2)
  else intToF (etFmt dst) mode (toInt (etWidth src) (etSigned src) x)

/-- Where the bytes of a quantised block `b` go, part P (R156). -/
def mxOffset (mx p b : Nat) : Nat := if mx = 0 then p * 128 + 16 * b else p * 256 + 32 * b
/-- The bank format code of an MX format code of VMXQ and VMXDQ (R156, R24). -/
def mxFmt (mx : Nat) : Nat := 9 + mx
/-- The bytes of 32 element codes (R33). -/
def codeBytes (mx : Nat) (l : List Nat) : Nat := packElems (if mx = 0 then 4 else 8) l

/-- Replace `n` bytes of a vector at a byte offset. -/
def putBytes (x : Nat) (off n v : Nat) : Nat := x - elem (x / 2 ^ (8 * off)) (8 * n) 0 * 2 ^ (8 * off) + v % 2 ^ (8 * n) * 2 ^ (8 * off)

/-- VMXQ over the eight blocks of a vector of FP32 values (R156). -/
def vmxqVal (mx part : Nat) (scales : Bool) (x old : VReg) : VReg × BitVec 5 :=
  let go := fun (acc : Nat × BitVec 5) b =>
    let q := quantise (mxFmt mx) ((List.range 32).map fun i => fp32.decode (elem x.toNat 32 (32 * b + i)))
    if scales then (putBytes acc.1 (8 * part + b) 1 q.1, acc.2)
    else (putBytes acc.1 (mxOffset mx part b) (if mx = 0 then 16 else 32) (codeBytes mx q.2.1), acc.2 ||| q.2.2)
  let r := (List.range 8).foldl go (old.toNat, 0)
  (BitVec.ofNat 8192 r.1, r.2)

/-- Element `i` of VMXDQ (R157). -/
def vmxdqElem (mx part sp : Nat) (x sc i : Nat) : Nat × BitVec 5 :=
  let b := i / 32
  let off := mxOffset mx part b
  let code := if mx = 0 then elem x 4 (2 * off + i % 32) else elem x 8 (off + i % 32)
  roundVal fp32 .rne false (mxValue (mxFmt mx) (elem sc 8 (8 * sp + b)) code)

/-- The code of source element `i` of VEXP (R158, R33). -/
def vexpCode (fmt off x i : Nat) : Nat :=
  let y := x / 2 ^ (8 * off)
  if fmt = 0 then elem y 4 i else elem y 6 i

/-- VCVT (R154). Log entry 15 (DEDUCED). A scalar source repeats at the width of FROM: log entry 74 (DEDUCED). -/
def bodyVcvt (o : A3) : State → Got State := 
  let dst := etOf o.m
  let src := fld o.m 8 4
  let h := fld o.m 14 1
  let ws := etWidth src
  let wd := etWidth dst
  let cv := convertElem src dst (RMode.ofCode (fld o.m 12 2))
  onPart fun p a =>
    (p.srcV ws o.s1.toNat a).bind fun (x, a) =>
      let d := o.d.toNat
      let mask := a.maskOf o.m
      let n := 8192 / ws
      let r :=
        if wd < ws then
          let zero := zeroing o.m d
          vecMasked wd (fun i => i / n == h && (zero || maskBit mask (i - h * n))) false (p.oldV d a) fun i =>
            if maskBit mask (i - h * n) then cv (elem x.toNat ws (i - h * n)) else (0, 0)
        else
          let first := if ws < wd then h * (8192 / wd) else 0
          vecMasked wd (maskBit mask) (zeroing o.m d) (p.oldV d a) fun i => cv (elem x.toNat ws (first + i))
      p.dstV d r.1 3 r.2 a
/-- Perform VCVT. -/
def execVcvt (o : A3) (s : State) : Out := runSlot (.vcvt o) (bodyVcvt o) s
/-- VCVT8 (R155). Log entry 15 (DEDUCED). -/
def bodyVcvt8 (o : A3) : State → Got State := 
  let w := widthOf o.m
  let c := countOf o.m
  let q := fld o.m 13 2
  let f8 := if fld o.m 9 1 = 1 then e5m2 else e4m3
  if fld o.m 8 1 = 1 then
    onPart fun p a =>
      (p.srcV 64 o.s1.toNat a).bind fun (x, a) =>
        p.putMasked w o 3 (fun i => ((fConvert f8 (fmtOf o.m) .rne false (elem x.toNat 8 (q * c + i))).1, 0)) a
  else
    onPart fun p a =>
      (p.srcV w o.s1.toNat a).bind fun (x, a) =>
        let d := o.d.toNat
        let mask := a.maskOf o.m
        let zero := zeroing o.m d
        let r := vecMasked 8 (fun i => i / c == q && (zero || maskBit mask (i - q * c))) false (p.oldV d a) fun i =>
          if maskBit mask (i - q * c) then
            fConvert (fmtOf o.m) f8 (RMode.ofCode (fld o.m 10 2)) (fld o.m 12 1 == 1) (elem x.toNat w (i - q * c))
          else (0, 0)
        p.dstV d r.1 3 r.2 a
/-- Perform VCVT8. -/
def execVcvt8 (o : A3) (s : State) : Out := runSlot (.vcvt8 o) (bodyVcvt8 o) s
/-- VMXQ: D is also a source (R156). -/
def bodyVmxq (o : A3) : State → Got State := 
  onPart fun p a =>
    (p.srcV 32 o.s1.toNat a).bind fun (x, a) =>
      let r := vmxqVal (fld o.m 8 2) (fld o.m 11 4) (fld o.m 10 1 == 1) x (p.oldV o.d.toNat a)
      p.dstV o.d.toNat r.1 5 r.2 a
/-- Perform VMXQ. -/
def execVmxq (o : A3) (s : State) : Out := runSlot (.vmxq o) (bodyVmxq o) s
/-- VMXDQ (R157). -/
def bodyVmxdq (o : A3) : State → Got State := 
  onPart fun p a =>
    (p.srcV 64 o.s1.toNat a).bind fun (x, a) => (p.srcV 64 o.s2.toNat a).bind fun (y, a) =>
      p.putMasked 32 o 3 (vmxdqElem (fld o.m 8 2) (fld o.m 10 3) (fld o.m 13 4) x.toNat y.toNat) a
/-- Perform VMXDQ. -/
def execVmxdq (o : A3) (s : State) : Out := runSlot (.vmxdq o) (bodyVmxdq o) s
/-- VEXP: mask bit i governs byte 512H + i (R158; log entry 15). -/
def bodyVexp (o : A3) : State → Got State := 
  let fmt := fld o.m 8 2
  let h := fld o.m 10 1
  onPart fun p a =>
    (p.srcV 64 o.s1.toNat a).bind fun (x, a) =>
      let d := o.d.toNat
      let mask := a.maskOf o.m
      let zero := zeroing o.m d
      let r := vecMasked 8 (fun i => i / 512 == h && (zero || maskBit mask (i - 512 * h))) false (p.oldV d a) fun i =>
        (if maskBit mask (i - 512 * h) then expandCode fmt (vexpCode fmt (128 * fld o.m 11 3) x.toNat (i - 512 * h)) else 0, 0)
      p.dstV d r.1 3 r.2 a
/-- Perform VEXP. -/
def execVexp (o : A3) (s : State) : Out := runSlot (.vexp o) (bodyVexp o) s
/-- VPACK (R159). -/
def bodyVpack (o : A3) : State → Got State := 
  onPart fun p a =>
    (p.srcV 64 o.s1.toNat a).bind fun (x, a) => (p.srcV 64 o.s2.toNat a).bind fun (y, a) =>
      let u := x.toNat + y.toNat * 2 ^ 8192
      p.putMasked 8 o 3 (fun j => (elem u 8 (2 * j + 1) % 16 * 16 + elem u 8 (2 * j) % 16, 0)) a
/-- Perform VPACK. -/
def execVpack (o : A3) (s : State) : Out := runSlot (.vpack o) (bodyVpack o) s
/-- VUNPK (R159). -/
def bodyVunpk (o : A3) : State → Got State := 
  onPart fun p a =>
    (p.srcV 64 o.s1.toNat a).bind fun (x, a) =>
      p.putMasked 8 o 3 (fun i =>
        let v := elem x.toNat 4 (1024 * fld o.m 8 1 + i)
        (if fld o.m 9 1 = 1 then ofInt 8 (toInt 4 true v) else v, 0)) a
/-- Perform VUNPK. -/
def execVunpk (o : A3) (s : State) : Out := runSlot (.vunpk o) (bodyVunpk o) s
/-- VPERM (R160). -/
def bodyVperm (o : A3) : State → Got State := 
  let w := widthOf o.m
  vec2 w w 3 o fun x y i => (x (if w = 8 then i / 256 * 256 + y i else y i % countOf o.m), 0)
/-- Perform VPERM. -/
def execVperm (o : A3) (s : State) : Out := runSlot (.vperm o) (bodyVperm o) s
/-- VSHUF (R160). -/
def bodyVshuf (o : A3) : State → Got State := 
  let w := widthOf o.m
  let c := countOf o.m
  let pat := fld o.m 8 2
  vec2 w w 3 o fun x y i =>
    let u := fun k => if k < c then x k else y (k - c)
    (if pat = 0 then (if i % 2 = 0 then x (i / 2) else y (i / 2))
     else if pat = 1 then (if i % 2 = 0 then x (c / 2 + i / 2) else y (c / 2 + i / 2))
     else u (2 * i + pat % 2), 0)
/-- Perform VSHUF. -/
def execVshuf (o : A3) (s : State) : Out := runSlot (.vshuf o) (bodyVshuf o) s
/-- VSLIDE (R161). -/
def bodyVslide (o : A3) : State → Got State := 
  let w := widthOf o.m
  let c := countOf o.m
  onPart fun p a =>
    (p.srcV w o.s1.toNat a).bind fun (x, a) => (p.srcV w o.s2.toNat a).bind fun (y, a) =>
      (p.srcX o.s3.toNat a).bind fun (n, a) =>
        p.putMasked w o 3 (fun i =>
          let k := i + n.toNat
          (if k < c then elem x.toNat w k else if k < 2 * c then elem y.toNat w (k - c) else 0, 0)) a
/-- Perform VSLIDE. -/
def execVslide (o : A3) (s : State) : Out := runSlot (.vslide o) (bodyVslide o) s
/-- VBCST (R161). -/
def bodyVbcst (o : A3) : State → Got State := 
  let w := widthOf o.m
  onPart fun p a =>
    (p.srcV w o.s1.toNat a).bind fun (x, a) => (p.srcX o.s2.toNat a).bind fun (n, a) =>
      p.putMasked w o 3 (fun _ => (elem x.toNat w (n.toNat % countOf o.m), 0)) a
/-- Perform VBCST. -/
def execVbcst (o : A3) (s : State) : Out := runSlot (.vbcst o) (bodyVbcst o) s
/-- VEXTR: mask bit 0 governs the whole of D (R162). -/
def bodyVextr (o : A3) : State → Got State := 
  let w := widthOf o.m
  onPart fun p a =>
    (p.srcV w o.s1.toNat a).bind fun (x, a) => (p.srcX o.s2.toNat a).bind fun (n, a) =>
      let d := o.d.toNat
      let v := ofInt 64 (toInt w (signedOf o.m) (elem x.toNat w (n.toNat % countOf o.m)))
      let r := vecMasked 8192 (maskBit (a.maskOf o.m)) (zeroing o.m d) (p.oldV d a) fun _ => (v, 0)
      p.dstV d r.1 3 r.2 a
/-- Perform VEXTR. -/
def execVextr (o : A3) (s : State) : Out := runSlot (.vextr o) (bodyVextr o) s
/-- VINS: only the mask bit of the named element is consulted (R162). -/
def bodyVins (o : A3) : State → Got State := 
  let w := widthOf o.m
  onPart fun p a =>
    (p.srcX o.s1.toNat a).bind fun (v, a) => (p.srcX o.s2.toNat a).bind fun (n, a) =>
      let d := o.d.toNat
      let k := n.toNat % countOf o.m
      let on := maskBit (a.maskOf o.m) k
      let old := p.oldV d a
      let r := vecMasked w (fun i => i == k && (on || fld o.m 7 1 == 1)) false old fun _ => (if on then v.toNat % 2 ^ w else 0, 0)
      p.dstV d r.1 3 r.2 a
/-- Perform VINS. -/
def execVins (o : A3) (s : State) : Out := runSlot (.vins o) (bodyVins o) s
/-- VMOV (R162). -/
def bodyVmov (o : A3) : State → Got State := vec1 (widthOf o.m) (widthOf o.m) 2 o fun x i => (x i, 0)
/-- Perform VMOV. -/
def execVmov (o : A3) (s : State) : Out := runSlot (.vmov o) (bodyVmov o) s
/-- VMOVI (R162). -/
def bodyVmovi (o : WI) : State → Got State := 
  let w := etWidth (fld o.imm 34 4)
  onPart fun p a => p.dstV o.d.toNat (vecOf w fun _ => fld o.imm 0 32 % 2 ^ w) 2 0 a
/-- Perform VMOVI. -/
def execVmovi (o : WI) (s : State) : Out := runSlot (.vmovi o) (bodyVmovi o) s

end Sys2Proof.Machine
end

