-- ==== Sys2Proof/Machine/Slots.lean ====
section
/-! DEFINITION. Sys2Proof/Machine/Slots.lean: what performing each slot instruction would give, which decides whether a part
can issue (spec/01 R11, spec/03 R58); a device step is no slot. -/

namespace Sys2Proof.Machine

/-- The body of a slot instruction. -/
def slotBody (i : Instr) (s : State) : Got State :=
  match i with
  | .add o => bodyAdd o s
  | .sub o => bodySub o s
  | .mul o => bodyMul o s
  | .mulh o => bodyMulh o s
  | .mulhn o => bodyMulhn o s
  | .div o => bodyDiv o s
  | .divn o => bodyDivn o s
  | .rem o => bodyRem o s
  | .remn o => bodyRemn o s
  | .andS o => bodyAndS o s
  | .orS o => bodyOrS o s
  | .xorS o => bodyXorS o s
  | .andn o => bodyAndn o s
  | .shl o => bodyShl o s
  | .shr o => bodyShr o s
  | .sar o => bodySar o s
  | .rotr o => bodyRotr o s
  | .minS o => bodyMinS o s
  | .maxS o => bodyMaxS o s
  | .minn o => bodyMinn o s
  | .maxn o => bodyMaxn o s
  | .clz o => bodyClz o s
  | .ctz o => bodyCtz o s
  | .popc o => bodyPopc o s
  | .sext o => bodySext o s
  | .zext o => bodyZext o s
  | .bfx o => bodyBfx o s
  | .bfi o => bodyBfi o s
  | .sel o => bodySel o s
  | .addi o => bodyAddi o s
  | .cmpi o => bodyCmpi o s
  | .movi o => bodyMovi o s
  | .movhi o => bodyMovhi o s
  | .cmp o => bodyCmp o s
  | .plog o => bodyPlog o s
  | .ptst o => bodyPtst o s
  | .fadds o => bodyFadds o s
  | .fmuls o => bodyFmuls o s
  | .fmas o => bodyFmas o s
  | .fcmps o => bodyFcmps o s
  | .fcvts o => bodyFcvts o s
  | .fmms o => bodyFmms o s
  | .bri o => bodyBri o s
  | .br o => bodyBr o s
  | .call o => bodyCall o s
  | .ret o => bodyRet o s
  | .trap o => bodyTrap o s
  | .eret o => bodyEret o s
  | .sysr o => bodySysr o s
  | .sysw o => bodySysw o s
  | .brk o => bodyBrk o s
  | .loopm o => bodyLoopm o s
  | .lbrk o => bodyLbrk o s
  | .spawn o => bodySpawn o s
  | .susp o => bodySusp o s
  | .steal o => bodySteal o s
  | .launchMsg o => bodyLaunchMsg o s
  | .bend o => bodyBend o s
  | .qsend o => bodyQsend o s
  | .evpost o => bodyEvpost o s
  | .bstat o => bodyBstat o s
  | .sgbeg o => bodySgbeg o s
  | .sgend o => bodySgend o s
  | .sginv o => bodySginv o s
  | .sgcfg o => bodySgcfg o s
  | .hint n o => bodyHint n o s
  | .vadd o => bodyVadd o s
  | .vsub o => bodyVsub o s
  | .vmul o => bodyVmul o s
  | .vmulh o => bodyVmulh o s
  | .vmac o => bodyVmac o s
  | .vdot4 o => bodyVdot4 o s
  | .vdot2 o => bodyVdot2 o s
  | .vmin o => bodyVmin o s
  | .vmax o => bodyVmax o s
  | .vabs o => bodyVabs o s
  | .vshl o => bodyVshl o s
  | .vshr o => bodyVshr o s
  | .vsar o => bodyVsar o s
  | .vand o => bodyVand o s
  | .vor o => bodyVor o s
  | .vxor o => bodyVxor o s
  | .vsadd o => bodyVsadd o s
  | .vssub o => bodyVssub o s
  | .vrshr o => bodyVrshr o s
  | .vnarw o => bodyVnarw o s
  | .vwide o => bodyVwide o s
  | .vcmp o => bodyVcmp o s
  | .klog o => bodyKlog o s
  | .kpop o => bodyKpop o s
  | .kfst o => bodyKfst o s
  | .kset o => bodyKset o s
  | .vsel o => bodyVsel o s
  | .vfadd o => bodyVfadd o s
  | .vfsub o => bodyVfsub o s
  | .vfmul o => bodyVfmul o s
  | .vfma o => bodyVfma o s
  | .vfmin o => bodyVfmin o s
  | .vfmax o => bodyVfmax o s
  | .vfcmp o => bodyVfcmp o s
  | .vfsgn o => bodyVfsgn o s
  | .vfcls o => bodyVfcls o s
  | .vxdot o => bodyVxdot o s
  | .vxadd o => bodyVxadd o s
  | .vsum o => bodyVsum o s
  | .vscan o => bodyVscan o s
  | .vcvt o => bodyVcvt o s
  | .vcvt8 o => bodyVcvt8 o s
  | .vmxq o => bodyVmxq o s
  | .vmxdq o => bodyVmxdq o s
  | .vexp o => bodyVexp o s
  | .vpack o => bodyVpack o s
  | .vunpk o => bodyVunpk o s
  | .vperm o => bodyVperm o s
  | .vshuf o => bodyVshuf o s
  | .vslide o => bodyVslide o s
  | .vbcst o => bodyVbcst o s
  | .vextr o => bodyVextr o s
  | .vins o => bodyVins o s
  | .vmov o => bodyVmov o s
  | .vmovi o => bodyVmovi o s
  | .swr o => bodySwr o s
  | .srd o => bodySrd o s
  | .scnt o => bodyScnt o s
  | .aadd o => bodyAadd o s
  | .asub o => bodyAsub o s
  | .aaddi o => bodyAaddi o s
  | .ashl o => bodyAshl o s
  | .amul o => bodyAmul o s
  | .aand o => bodyAand o s
  | .amin o => bodyAmin o s
  | .acmp o => bodyAcmp o s
  | .amovi o => bodyAmovi o s
  | .ld o => bodyLd o s
  | .st o => bodySt o s
  | .ldacq o => bodyLdacq o s
  | .strel o => bodyStrel o s
  | .vld o => bodyVld o s
  | .vlds o => bodyVlds o s
  | .vldx o => bodyVldx o s
  | .vst o => bodyVst o s
  | .vsts o => bodyVsts o s
  | .vstx o => bodyVstx o s
  | .feset o => bodyFeset o s
  | .fetst o => bodyFetst o s
  | .amo o => bodyAmo o s
  | .cas o => bodyCas o s
  | .red o => bodyRed o s
  | .vred o => bodyVred o s
  | .fence o => bodyFence o s
  | .qfence o => bodyQfence o s
  | .cpy o => bodyCpy o s
  | .cpyt o => bodyCpyt o s
  | .cpyn o => bodyCpyn o s
  | .cpym o => bodyCpym o s
  | .xlatq o => bodyXlatq o s
  | .mma o => bodyMma o s
  | .mlat o => bodyMlat o s
  | .mcfg o => bodyMcfg o s
  | .sfn o => bodySfn o s
  | .gath o => bodyGath o s
  | .scat o => bodyScat o s
  | .streamPartIssue _ _ => .ok s
  | .stallCountExpiry _ _ => .ok s
  | .resultLands _ _ => .ok s
  | .offCoreLoadReturn _ _ => .ok s
  | .scratchpadAccessPoint _ => .ok s
  | .trapEntry _ => .ok s
  | .segmentClose _ => .ok s
  | .rendezvous _ => .ok s
  | .sideLogReplay _ _ => .ok s
  | .operationStart _ _ => .ok s
  | .fieldArbitration _ _ => .ok s
  | .stepBoundary _ _ => .ok s
  | .benchCycleSteal _ _ => .ok s
  | .mmaClaim _ _ => .ok s
  | .mmaStep _ _ => .ok s
  | .mmaWriteBack _ _ => .ok s
  | .mlatPerform _ _ => .ok s
  | .copyStep _ _ => .ok s
  | .copyPerformed _ _ => .ok s
  | .sfnStep _ => .ok s
  | .gatherStep _ => .ok s
  | .surrogateInvocation _ => .ok s
  | .eventEntry _ _ => .ok s
  | .messageArrival _ => .ok s
  | .stealAnswer _ => .ok s
  | .dequeTopDelivery _ => .ok s
  | .remoteAtomicRequest _ _ => .ok s
  | .requestResend _ _ => .ok s
  | .globalTick => .ok s
  | .frameCounterStart _ => .ok s
  | .entryStart _ => .ok s
  | .frameEndProcessing _ => .ok s
  | .launchMessage _ _ _ => .ok s
  | .grantDecision => .ok s
  | .grant _ => .ok s
  | .contextSave _ => .ok s
  | .resumption _ => .ok s
  | .launchEnd _ => .ok s
  | .hostEventPost _ => .ok s
  | .contextCreate _ _ => .ok s
  | .contextDestroy _ => .ok s
  | .rankWrite _ _ => .ok s
  | .slotTableWrite _ _ _ => .ok s
  | .dieFabricArbitration _ _ _ => .ok s
  | .debugHalt _ => .ok s
  | .debugResume _ => .ok s
  | .moduleLoad _ _ _ _ => .ok s
  | .moduleUnload _ => .ok s
  | .registerHostEventArea _ _ _ _ _ => .ok s
  | .moveToDevice _ _ _ => .ok s
  | .moveToHost _ _ _ _ => .ok s
  | .duplicate _ _ _ _ => .ok s
  | .unmap _ _ _ => .ok s
  | .faultRequest _ _ _ => .ok s
  | .declareUnresolvable _ _ => .ok s
  | .migration _ => .ok s
  | .invalidate _ _ => .ok s
  | .holdOffExpiry _ => .ok s
  | .replayHoldTimeout _ => .ok s
  | .hbmSectorRead _ _ _ _ _ => .ok s
  | .hbmSectorWrite _ _ _ _ _ => .ok s
  | .parityDelta _ => .ok s
  | .stackLost _ => .ok s
  | .restripe => .ok s
  | .restripeCursorAdvance => .ok s
  | .keyWrite _ _ _ => .ok s
  | .signatureCompare _ _ => .ok s
  | .resultSignatureCompare _ _ _ => .ok s
  | .endLaunchPinned _ => .ok s
  | .teardown _ => .ok s
  | .scrub _ _ => .ok s
  | .fieldmaskRemove _ _ => .ok s
  | .retentionEntry _ => .ok s
  | .retentionExit _ => .ok s
  | .weightBlockAccess _ _ _ _ => .ok s
  | .packageReset => .ok s
  | .attestationRequest _ => .ok s
  | .hostFaultRequest _ _ _ => .ok s
  | .registerSystemEventRing _ _ _ _ => .ok s
  | .registerCoreSetHandle _ _ _ => .ok s
  | .registerPublicKeys _ _ => .ok s

end Sys2Proof.Machine
end

