-- ==== Sys2Proof/Machine/Fetch.lean ====
section
/-! DEFINITION. Sys2Proof/Machine/Fetch.lean: fetching a bundle (spec/03 R46 to R57, R68, R69), and the checks that a bundle passes
before it issues (spec/04 R74, R77 to R79, spec/03 R61, R63, R66, R452, spec/06 R453). -/

namespace Sys2Proof.Machine

/-! ### Fetching -/

/-- What reading code bytes gives (R68, R69): the bytes and whether they are poisoned, or the lowest byte that is absent, is not
readable, or lies outside every entry. -/
inductive CodeRead where
  | ok (l : List Byte) (poison : Bool)
  | absent (a : Nat)
  | denied (a : Nat)
  | stray (a : Nat)
  deriving DecidableEq, Repr, Inhabited

/-- Read code bytes through the core's table, by fetch lines of 64 bytes (R68). -/
def State.readCode (s : State) (c asid : Nat) : Nat → Nat → Nat → CodeRead × State
  | 0, _, _ => (.ok [] false, s)
  | fuel + 1, va, n =>
    if n = 0 then (.ok [] false, s)
    else match findEntry (s.core c).table va with
      | none => (.stray va, s)
      | some (_, e) =>
        if !e.canRead then (.denied va, s)
        else if !e.has (e.subOf va) then (.absent va, s)
        else
          let m := min n (64 - va % 64)
          let (r, s) := s.readPlace asid (e.placeOf va) m
          match State.readCode s c asid fuel (va + m) (n - m) with
          | (.ok l p, s) => (.ok (r.1 ++ l) (r.2 || p), s)
          | x => x

/-- What fetching a bundle gives (R54 to R57, R69): the bundle with the address of the next one in sequence, a byte that cannot be
fetched, one that lies outside every entry, a decode defect with its EADDR, or poisoned code. -/
inductive Fetched where
  | bundle (b : Bundle) (next : W64)
  | fault (a : Nat)
  | denied (a : Nat)
  | stray (a : Nat)
  | defect (a : W64)
  | poison
  deriving DecidableEq, Repr, Inhabited

/-- The empty slot (R48). -/
def emptySyllable : Syllable := 0x80000000000000
/-- A bundle of empty slots. -/
def Bundle.empty (wait seg : Nat) (at_ : W64) : Bundle := ⟨wait, seg, false, List.replicate 6 emptySyllable, at_, List.replicate 6 at_⟩
/-- The bundle of a dictionary entry (R46, R47), used at a code address. -/
def dictBundle (x : BitVec 384) (pc : W64) : Bundle :=
  ⟨fld x 380 4, fld x 378 2, fld x 360 18 ≠ 0, (List.range 6).map fun i => x.extractLsb' (60 * i) 60, pc, List.replicate 6 pc⟩

/-- Go on with code bytes that could be read. -/
def CodeRead.thenBytes (r : CodeRead × State) (f : List Byte → State → Fetched × State) : Fetched × State :=
  match r with
  | (.ok _ true, s) => (.poison, s)
  | (.ok l false, s) => f l s
  | (.absent a, s) => (.fault a, s)
  | (.denied a, s) => (.denied a, s)
  | (.stray a, s) => (.stray a, s)

/-- The syllable words of a literal bundle (R57): `last` is one more than the slot of the word before. -/
def State.fetchWords (s : State) (c asid : Nat) : Nat → W64 → Nat → Bundle → Fetched × State
  | 0, q, _, _ => (.defect q, s)
  | fuel + 1, q, last, b =>
    CodeRead.thenBytes (s.readCode c asid 3 q.toNat 8) fun l s =>
      let w := wordOf l
      let k := wordSlot w
      if 5 < k ∨ k < last then (.defect q, s)
      else if k = 5 ∧ !wordStop w then (.defect q, s)
      else
        let b := { b with slots := b.slots.set k (wordSyllable w), slotAt := b.slotAt.set k q }
        if wordStop w then (.bundle b (q + 8), s) else State.fetchWords s c asid fuel (q + 8) (k + 1) b

/-- Fetch the bundle at a code address (R54 to R57). -/
def State.fetch (s : State) (c asid : Nat) (dict : List (BitVec 384)) (pc : W64) : Fetched × State :=
  CodeRead.thenBytes (s.readCode c asid 2 pc.toNat 2) fun l s =>
    let x := leNat l 2
    if x < 0xFF00 then
      match dict[x]? with
      | none => (.defect pc, s)
      | some d => (.bundle (dictBundle d pc) (pc + 2), s)
    else if x < 0xFFFF then (.defect pc, s)
    else
      CodeRead.thenBytes (s.readCode c asid 2 (pc + 2).toNat 2) fun l s =>
        let t := leNat l 2
        let b := Bundle.empty (t / 2 ^ 12) (t / 2 ^ 10 % 4) (pc + 2)
        if t % 2 ^ 9 ≠ 0 then (.defect (pc + 2), s)
        else if t / 2 ^ 9 % 2 = 1 then (.bundle b (pc + 4), s)
        else s.fetchWords c asid 7 (pc + 4) 0 b

/-- Read the length of a bundle that is passed over (R454): the address of the next one. An index beyond the dictionary has a length. -/
def State.fetchLength (s : State) (c asid : Nat) (pc : W64) : Fetched × State :=
  let none_ : List (BitVec 384) := List.replicate 0xFF00 0
  s.fetch c asid none_ pc

/-- The dictionary of the kernel that a core runs. -/
def State.dictOf (s : State) (c : Nat) : List (BitVec 384) := (((s.launchOf c).bind s.kernel?).map (·.dict)).getD []

/-! ### Slots of a bundle -/

/-- The syllable of a slot. -/
def Bundle.syllable (b : Bundle) (i : Nat) : Syllable := (b.slots[i]?).getD emptySyllable
/-- A slot decoded. -/
def Bundle.slot (b : Bundle) (i : Nat) : Except DecodeError Instr := decode (slotClass i) (b.syllable i)
/-- Is the slot not an empty slot (R48)? -/
def Bundle.filled (b : Bundle) (i : Nat) : Bool :=
  match b.slot i with
  | .error .emptySlot => false
  | _ => true
/-- Has the slot a defect that traps whatever its guard reads (R77)? -/
def Bundle.static (b : Bundle) (i : Nat) : Bool :=
  match b.slot i with
  | .ok _ => false
  | .error .emptySlot => false
  | .error _ => true
/-- The guard of a slot (R48). -/
def Bundle.guard (b : Bundle) (i : Nat) : Guard := guardOf (b.syllable i)
/-- The instruction of a slot whose guard reads true. -/
def Bundle.live (b : Bundle) (preds : BitVec 16) (i : Nat) : Option Instr :=
  match b.slot i with
  | .ok x => if guardHolds (b.guard i) preds then some x else none
  | .error _ => none
/-- The instructions of some slots whose guards read true. -/
def Bundle.lives (b : Bundle) (preds : BitVec 16) (l : List Nat) : List Instr := l.filterMap (b.live preds)
/-- The slots of a stream's part (R278). -/
def slotsOf : Side → List Nat
  | .execute => [0, 1, 2, 3]
  | .access => [4, 5]
/-- The syllable word of a slot (R56). -/
def Bundle.word (b : Bundle) (i : Nat) : W64 := BitVec.ofNat 64 (i * 2 ^ 60 + (b.syllable i).toNat)

/-- A predicate file as the first bundle of a pass meets it, with the pass's stage predicates (R224). -/
def passPreds (p : BitVec 16) (l : Option Loop) : BitVec 16 :=
  match l with
  | some x => if x.pos = 0 then x.stagePreds p else p
  | none => p
/-- The predicates that a bundle at a place of the sequencer reads behind the bundles whose execute parts have not issued, with what the
passes that begin among them will bring (R224, R280, R282). -/
def Arch.predsBehind (a : Arch) (ahead : List Ahead) (l : Option Loop) : BitVec 16 :=
  match ahead with
  | [] => a.turned.p
  | _ :: rest => passPreds (rest.foldl (fun p h => passPreds p h.loop) a.turned.p) l
/-- Does the slot write a predicate of the execute side? -/
def writesPred (i : Instr) (n : Nat) : Bool := i.fields.any fun f => f.1 == .pDst && f.2 == 64 + n
/-- Does the access stream know a predicate as a bundle behind some others reads it: its own, or one to which no write is in flight or
stands in a bundle still to issue (R280)? -/
def Arch.knows (a : Arch) (ahead : List Ahead) (n : Nat) : Bool :=
  n == 0 || (decide (8 ≤ n) && decide (n < 12)) ||
    (!a.pendingP n && !ahead.any fun h => [0, 1, 2, 3].any fun i => match h.bundle.slot i with
      | .ok x => writesPred x n
      | .error _ => false)

/-! ### What slots do to the streams -/

/-- Class M (R73, R74). -/
def classM : Instr → Bool
  | .vmul _ | .vmulh _ | .vmac _ | .vdot4 _ | .vdot2 _ | .vfmul _ | .vfma _ | .vxdot _ => true
  | _ => false
/-- Decided at issue, with a true guard a taken branch (R452). -/
def decidedAtIssue : Instr → Bool
  | .bri _ | .br _ | .call _ | .ret _ | .eret _ | .loopm _ => true
  | .lbrk o => fld o.m 0 1 == 1
  | _ => false
/-- Decided after issue (R452). -/
def decidedAfter : Instr → Bool
  | .susp _ | .steal _ | .bend _ | .sgbeg _ => true
  | _ => false
/-- Redirecting (R279). -/
def redirecting : Instr → Bool
  | .trap _ | .brk _ | .lbrk _ => true
  | i => decidedAtIssue i || decidedAfter i
/-- Does the instruction pop one of the ports that an observation reads: EQ, MB, IQ (R301)? -/
def popsObserved (i : Instr) : Bool :=
  i.fields.any fun (t, n) =>
    match t with
    | .sSrc => decide (61 ≤ n) && n ≤ 63
    | .vSrc | .xSrc => decide (125 ≤ n) && n ≤ 127
    | _ => false
/-- Does the access stream wait behind the slot until its execute part has issued (R127, R279, R301, R453)? -/
def holdsAccess : Instr → Bool
  | .sysw _ | .bstat _ | .spawn _ => true
  | i => redirecting i || popsObserved i
/-- Drains (R222, R128); one that R452 will suppress drains too. Log entry 53 (DEDUCED). -/
def drains : Instr → Bool
  | .susp _ | .steal _ | .bend _ | .sgbeg _ | .sgend _ | .eret _ => true
  | _ => false
/-- Can the slot trap on a value that it reads at issue (R453)? -/
def checksValue : Instr → Bool
  | .spawn _ => true
  | .susp o => fld o.m 8 1 == 0
  | .sysw o => decide (0x10 ≤ o.imm.toNat) && decide (o.imm.toNat ≤ 0x1F)
  | _ => false
/-- A release point (R291). Log entry 24 (DEDUCED). -/
def isRelease : Instr → Bool
  | .amo _ | .cas _ | .strel _ => true
  | .red o => fld o.m 5 1 == 1
  | .st o => fld o.m 10 1 == 1 && fld o.m 16 1 == 0
  | .vst o => fld o.m 9 1 == 1 && fld o.m 16 1 == 0
  | .feset o => fld o.m 0 1 == 1
  | .mma _ | .mlat _ | .mcfg _ | .cpy _ | .cpyt _ | .cpyn _ | .cpym _ | .sfn _ | .gath _ | .scat _ => true
  | .qsend _ | .evpost _ | .launchMsg _ | .spawn _ | .susp _ | .steal _ | .bend _ => true
  | .sgbeg _ | .sgend _ | .sginv _ | .sgcfg _ | .swr _ | .srd _ => true
  | _ => false
/-- A closing fence (R207). -/
def isClosingFence : Instr → Bool
  | .fence o => fld o.m 3 2 ≠ 0
  | _ => false

/-! ### Registers that a slot reads -/

/-- The registers that a source field names, under a rotation base. -/
def fieldReads (rb : Nat) : FieldTy × Nat → List (RFile × Nat)
  | (.sSrc, n) | (.sDstSrc, n) => if n < 56 then [(.s, rot rb n)] else []
  | (.pSrc, n) => [(.p, n - 64)]
  | (.bBase, n) => (List.range 7).map fun i => (.s, rot rb (n + i))
  | (.vSrc, n) | (.xSrc, n) | (.vDstSrc, n) =>
    if n < 56 ∨ n = 62 then [(.v, rot rb n)] else if 64 ≤ n ∧ n < 120 then [(.s, rot rb (n - 64))] else []
  | (.kReg, n) => [(.k, n)]
  | (.aSrc, n) | (.sdSrc, n) => if n < 28 ∨ (30 ≤ n ∧ n < 32) then [(.a, n)] else []
  | (.group, n) => (List.range 8).map fun i => (.a, n + i)
  | _ => []
/-- Does a source field of the instruction name registers? The argument base of `susp.fin` names none (R230). -/
def namesNone : Instr → FieldTy → Bool
  | .susp o, .bBase => fld o.m 8 1 == 1
  | _, _ => false
/-- Does the destination field also name a source? -/
def destRead : FieldTy → Bool
  | .sDstSrc | .vDstSrc => true
  | _ => false
/-- Results that leave part of the destination as it was whatever the mask (R150, R154, R155, R158). -/
def partialWrite : Instr → Bool
  | .vcvt o => [1, 5, 9, 10].contains (fld o.m 0 4) && [2, 6, 8].contains (fld o.m 8 4)
  | .vexp _ | .vxdot _ => true
  | .vcvt8 o => fld o.m 8 1 == 0
  | _ => false
/-- Instructions whose mask selects, without governing the destination (R144, R152). -/
def selects : Instr → Bool
  | .vsel _ | .vsum _ => true
  | _ => false
/-- The modifier of a vector instruction of format A3 (R133). -/
def vecMod? (i : Instr) : Option (BitVec 17) :=
  match i with
  | .vmovi _ => none
  | _ => match encode i with
    | some (.vector, y) => some (y.extractLsb' 0 17)
    | _ => none
/-- The registers that a slot reads at issue (R59, R61). -/
def readsOf (rb : Nat) (i : Instr) : List (RFile × Nat) :=
  let fs := i.fields
  let first := (fs.take 1).flatMap fun f => if destRead f.1 then fieldReads rb f else []
  let rest := (fs.drop 1).flatMap fun f => if namesNone i f.1 then [] else fieldReads rb f
  let other := match i with
    | .mma o => if o.em.getLsbD 5 then (List.range 8).map fun i => (RFile.a, 24 - o.o2.toNat + i) else []
    | _ => []
  let masked := match vecMod? i with
    | none => []
    | some m =>
      let k := fld m 4 3
      let merges := partialWrite i || (k ≠ 0 && fld m 7 1 == 0 && !selects i)
      (if k = 0 then [] else [(RFile.k, k)]) ++
        (if merges then (fs.take 1).flatMap fun f => match f with
          | (.vDst, n) => fieldReads rb (.vSrc, n)
          | (.kReg, n) => fieldReads rb (.kReg, n)
          | _ => [] else [])
  first ++ rest ++ other ++ masked

/-- The predicates as the execute stream's results in flight leave them, in the order in which they land (R59, R60, R222). -/
def Arch.predsDrained (a : Arch) : BitVec 16 :=
  let last := a.inflX.foldl (fun n e => max n e.left) 0
  (List.range (last + 1)).foldl
    (fun p n => a.inflX.foldl
      (fun p e => match e.what with
        | .p i b => if e.left = n then predSet p i b else p
        | _ => p) p) a.p

/-! ### Checks before issue (R78) -/

/-- Checks 3 to 5 of R78: header, illegal instructions, illegal operands: ECAUSE and EADDR. -/
def Bundle.defect (b : Bundle) (preds : BitVec 16) (inBody : Bool) (regions : Nat) : Option (Nat × W64) :=
  let addr := fun i => (b.slotAt[i]?).getD b.headAt
  let of := fun i => match b.live preds i with
    | none => none
    | some x => defectOf x inBody inBody regions
  let twoM := (match b.live preds 2 with
    | some x => classM x
    | none => false) && (match b.live preds 3 with
    | some x => classM x
    | none => false)
  if b.reserved || (inBody && b.wait ≠ 0) then some (ecIllegal, b.headAt)
  else match (List.range 6).find? fun i => b.static i || of i == some ecIllegal || (i == 3 && twoM) with
    | some i => some (ecIllegal, addr i)
    | none => ((List.range 6).find? fun i => of i == some ecOperand).map fun i => (ecOperand, addr i)

/-- Check 6: does a slot read a register whose latest issued write has not landed (R61)? -/
def Arch.undersized (a : Arch) (b : Bundle) (preds : BitVec 16) : Bool :=
  (List.range 6).any fun i =>
    b.filled i &&
      ((let g := (b.guard i).pred.toNat
        g ≠ 0 && a.pending true .p g) ||
        (match b.live preds i with
         | none => false
         | some x => (readsOf a.rb x).any fun (f, n) => a.pending true f n))

/-- Check 7: a branch collision that traps (R66, R452). -/
def Bundle.collides (b : Bundle) (preds : BitVec 16) : Bool :=
  match b.live preds 0, b.live preds 1 with
  | some x, some y =>
    (decidedAtIssue x && (decidedAtIssue y || decidedAfter y)) || (decidedAfter x && decidedAfter y)
  | _, _ => false

/-- Is a predicate's write pending at the bundle, as the nullifier asks (R63, R224)? -/
def Arch.predPending (a : Arch) (inBody : Bool) (n : Nat) : Bool := (inBody && decide (12 ≤ n)) || a.pending false .p n

/-- Is the bundle nullified (R63, R64)? -/
def Arch.nullifies (a : Arch) (b : Bundle) (preds : BitVec 16) (inBody : Bool) : Bool :=
  let filled := (List.range 6).filter b.filled
  b.seg == 0 && !filled.isEmpty &&
    filled.all fun i => !guardHolds (b.guard i) preds && !a.predPending inBody (b.guard i).pred.toNat

end Sys2Proof.Machine
end

