-- ==== Sys2Proof/Machine/Issue.lean ====
section
/-! DEFINITION. Sys2Proof/Machine/Issue.lean: the two streams of a core (spec/14 R278 to R282, spec/03 R58 to R66, R454, spec/10
R224): STREAM_PART_ISSUE, STALL_COUNT_EXPIRY, RESULT_LANDS, SCRATCHPAD_ACCESS_POINT, TRAP_ENTRY, BENCH_CYCLE_STEAL. -/

namespace Sys2Proof.Machine

/-! ### Where the streams stand -/

/-- Does the execute stream stand at the bundle that the access stream issues next? -/
def Core.poised (k : Core) : Bool := k.arch.ahead.isEmpty && k.arch.waitX == 0 && k.arch.settled .execute
/-- The predicates that an execute part reads: p8 to p11 as its access part read them (R280). -/
def mergePreds (own access : BitVec 16) : BitVec 16 := (own &&& ~~~(0x0F00 : BitVec 16)) ||| (access &&& 0x0F00)
/-- Does a trap stop the access stream: one that has been asked for, or that of a conflict of the core's operations (R311)? -/
def Core.trapDue (k : Core) : Bool := k.arch.trap.isSome || (!k.conflicts.isEmpty && !k.arch.exc)
/-- May a slot of a bundle behind others hold the access stream: it is of a kind that does, and its guard reads true or is not yet known
(R127, R279, R301, R453)? -/
def Arch.mayHold (a : Arch) (earlier : List Ahead) (h : Ahead) (i : Nat) : Bool :=
  let g := h.bundle.guard i
  match h.bundle.slot i with
  | .ok x =>
    holdsAccess x &&
      (!a.knows earlier g.pred.toNat || guardHolds g (mergePreds (a.predsBehind earlier h.loop) h.preds))
  | .error _ => false
/-- Does the access stream wait behind a bundle whose execute part has not issued? -/
def Arch.blocked (a : Arch) : Bool :=
  (List.range a.ahead.length).any fun j => match a.ahead[j]? with
    | none => false
    | some h => [0, 1, 2, 3].any (a.mayHold (a.ahead.take j) h)
/-- Is the instruction an ERET? -/
def isEret : Instr → Bool
  | .eret _ => true
  | _ => false
/-- May the bundle be nullified, by its words (R63)? In a body a stage predicate always counts as pending (R224). -/
def Bundle.mayNullify (b : Bundle) (inBody : Bool) : Bool :=
  let filled := (List.range 6).filter b.filled
  b.seg == 0 && !filled.isEmpty && filled.all fun i =>
    let n := (b.guard i).pred.toNat
    n ≠ 0 && !(inBody && decide (12 ≤ n))
/-- Must both streams stand at the bundle before its access part issues: it may close the segment, drain, be nullified, trap before
issue, or read a predicate that the access stream does not know (R63, R78, R222, R280, R290, R453)? An ERET's own access part issues
as another's does (R127). -/
def Bundle.needsBoth (b : Bundle) (a : Arch) (regions : Nat) : Bool :=
  let inBody := a.loop.isSome
  let filled := (List.range 6).filter b.filled
  let suspect := fun i => match b.slot i with
    | .ok x => (defectOf x inBody inBody regions).isSome || checksValue x || isRelease x || isClosingFence x || (drains x && !isEret x)
    | .error .emptySlot => false
    | .error _ => true
  let m := fun i => match b.slot i with
    | .ok x => classM x
    | .error _ => false
  a.sbchk || b.seg ≠ 0 || b.reserved || (inBody && b.wait ≠ 0) || filled.any suspect || (m 2 && m 3) ||
    b.mayNullify inBody ||
    [4, 5].any fun i => b.filled i && !a.knows a.ahead (b.guard i).pred.toNat

/-- The access stream goes on behind a bundle (R54, R224, R282). -/
def Arch.advance (a : Arch) (next : W64) : Arch :=
  match a.loop with
  | none => { a with pc := next }
  | some l =>
    if l.pos + 1 < l.ii then { a with pc := next, loop := some { l with pos := l.pos + 1 } }
    else if l.pass + 1 < l.passes then { a with pc := l.start, loop := some { l with pass := l.pass + 1, pos := 0 } }
    else { a with pc := next, loop := none }
/-- The execute stream meets a bundle: what the end of the pass before it brings has been done, and behind the last bundle of a pass the
pass will turn (R14, R224). -/
def Arch.enter (a : Arch) (l : Option Loop) : Arch :=
  let a := a.turned
  match l with
  | none => a
  | some x => if x.pos + 1 = x.ii then { a with turn := some x } else a

/-- The slots of a part in the order in which they are performed: TRAP and BRK behind every other slot (R125). -/
def Bundle.order (b : Bundle) (side : Side) : List Nat :=
  let late := fun i => match b.slot i with
    | .ok (.trap _) => true
    | .ok (.brk _) => true
    | _ => false
  let l := (slotsOf side).filter b.filled
  l.filter (fun i => !late i) ++ l.filter late
/-- Does a slot of the part read a register with a poison mark (R431)? -/
def State.readsMark (s : State) (b : Bundle) (side : Side) : Bool :=
  let a := (s.core s.part.core).arch
  !a.marks.isEmpty && (b.order side).any fun i => match b.live s.part.preds i with
    | none => false
    | some x => (readsOf s.part.rb x).any fun r => a.marked r.1 r.2
/-- What issuing the part would give (R11): each slot with a true guard in turn. Log entry 4 (DESIGN CHOICE). -/
def State.tryPart (s : State) (b : Bundle) (side : Side) : Got State :=
  if s.readsMark b side then .poison
  else Got.foldl
    (fun s i => match b.live s.part.preds i with
      | none => .ok s
      | some x => slotBody x { s with part := { s.part with slot := i } })
    s (b.order side)
/-- The part issues: its syllable words are to be performed. Log entry 4 (DESIGN CHOICE). -/
def State.latchPart (s : State) (b : Bundle) (side : Side) : State := { s with latch := (b.order side).map b.word }

/-! ### The bench -/

/-- The queues of a core whose benched operation uses the stream's cycles, ascending (R272); an MLAT borrows none (R181). -/
def Core.benchQueues (k : Core) (side : Side) : List Nat :=
  (List.range 7).filter fun q =>
    (q == 2 || q == 3) == (side == .access) && (match k.headOp q with
      | some o => o.state == .bench && o.code ≠ .mlat
      | none => false)
/-- Does the core hold a benched operation that uses the stream's cycles? -/
def Core.benched (k : Core) (side : Side) : Bool := !(k.benchQueues side).isEmpty
/-- Cycles that have passed without one for the bench, and the queue that had the last one. -/
def Core.benchIdle (k : Core) : Side → Nat
  | .execute => k.benchIdleX
  | .access => k.benchIdleA
def Core.benchLast (k : Core) : Side → Nat
  | .execute => k.benchLastX
  | .access => k.benchLastA
/-- Set them. -/
def Core.setBench (k : Core) (side : Side) (idle last : Nat) : Core :=
  match side with
  | .execute => { k with benchIdleX := idle, benchLastX := last }
  | .access => { k with benchIdleA := idle, benchLastA := last }
/-- A cycle of the stream goes to the bench (R272): the benched operations have its cycles in turn, by ascending queue code. -/
def Core.benchCycle (k : Core) (side : Side) : Core :=
  let l := k.benchQueues side
  match (l.find? (k.benchLast side < ·)).or l.head? with
  | none => k.setBench side 0 (k.benchLast side)
  | some q => (match k.headOp q with
      | some o => k.setHead q { o with cycles := o.cycles + 1 }
      | none => k).setBench side 0 q
/-- Does the part leave the bench no cycle (R272)? -/
def Bundle.occupies (b : Bundle) (preds : BitVec 16) : Side → Bool
  | .execute => (b.live preds 3).isSome || (match b.live preds 2 with
    | some x => classM x
    | none => false)
  | .access => (b.live preds 4).isSome || (b.live preds 5).isSome
/-- Must the part give way to the bench (R272)? -/
def Core.benchTurn (k : Core) (side : Side) (b : Bundle) (preds : BitVec 16) : Bool :=
  k.benched side && b.occupies preds side && decide (7 ≤ k.benchIdle side)
/-- Count the cycle of an issuing part for the bench. -/
def Core.countBench (k : Core) (side : Side) (b : Bundle) (preds : BitVec 16) : Core :=
  if !b.occupies preds side then k.benchCycle side
  else if k.benched side then k.setBench side (k.benchIdle side + 1) (k.benchLast side)
  else k.setBench side 0 (k.benchLast side)

/-! ### The execute stream -/

/-- The execute part of a bundle is set up: its stream cycle begins, the sequencer is met, WAIT is loaded; the flags that the bundle's
scratchpad accesses have raised already come with it, behind a write of FFLAGS (R21). -/
def State.setupExecute (s : State) (c : Nat) (h : Ahead) (rest : List Ahead) : State :=
  let k := s.core c
  let a := k.arch
  let t := a.turned
  let preds := mergePreds t.p h.preds
  let arch := { (a.tick .execute).enter h.loop with ahead := rest, waitX := h.bundle.wait }
  let arch := if h.flags = 0 then arch else arch.fly .execute .flagsOnly 1 h.flags
  { s.setCore c ({ k with arch := arch, unchecked := s.unchecked c }.countBench .execute h.bundle preds) with
    part :=
      { Part.idle with
        core := c
        pc := h.pc
        next := h.next
        bundle := a.issued - a.ahead.length
        side := .execute
        preds := preds
        rb := t.rb
        loopOn := h.loop.isSome
        loop := h.loop
        slotAt := h.bundle.slotAt
        before := k } }

/-- A drain (R58, R128, R222): the cycle of a bundle that waits for the execute stream's results in flight, if it has one to wait for. An
instruction that will be suppressed waits too: log entry 53 (DEDUCED). -/
def Arch.drainX? (a : Arch) (l : List Instr) : Option Arch :=
  if l.any drains && !a.inflX.isEmpty then some (a.tick .execute) else none
/-- The same of an execute part: an ERET waits for the access stream's results too, those of its own access part among them (R62, R128). -/
def Arch.drain? (a : Arch) (l : List Instr) : Option Arch :=
  (a.drainX? l).or
    (if l.any isEret && !(a.inflA.isEmpty && a.accs.isEmpty) then
      some (if a.waitA = 0 && a.settled .access then a.tick .access else a)
    else none)
/-- A drain cycle passes: a stream cycle in which nothing issues (R222, R272). -/
def State.drain (s : State) (c : Nat) (a : Arch) : State :=
  s.onCore c fun k => { k with arch := a, unchecked := s.unchecked c }.benchCycle .execute

/-- A rewinding core whose execute stream has come to the bundle at which the error was found lowers its flag (R295). -/
def Core.lowerFlag (k : Core) : Core := if k.rewindFlag && decide (k.rewindTo ≤ k.arch.nextX) then { k with rewindFlag := false } else k

/-- The execute stream issues its part of the next bundle, if it can (R11, R58, R278). Log entry 4 (DESIGN CHOICE). -/
def State.issueExecute (s : State) (c : Nat) : State :=
  let s := s.onCore c Core.lowerFlag
  let k := s.core c
  let a := k.arch
  match a.ahead with
  | [] => s
  | h :: rest =>
    if !s.canIssue c || k.wait ≠ .none || k.mustClose || a.waitX ≠ 0 || !a.settled .execute then s
    else
      let t := s.setupExecute c h rest
      if k.benchTurn .execute h.bundle t.part.preds then s
      else match a.drain? (h.bundle.lives t.part.preds [0, 1, 2, 3]) with
        | some a => s.drain c a
        | none =>
          match t.tryPart h.bundle .execute with
          | .ok _ => t.latchPart h.bundle .execute
          | .poison => t.meetPoison
          | .stray _ => s.strayAccess c
          | .held id kind tgt => (s.onCore c fun k => k.benchCycle .execute).noteHold id kind tgt c
          | _ => s.onCore c fun k => k.benchCycle .execute

/-! ### The access stream -/

/-- Ask for the trap that a bundle takes before it issues, with both streams standing at it (R69, R78). -/
def State.ask (s : State) (c cause : Nat) (addr : W64) : State := s.onArch c fun a => a.askTrap cause addr a.pc

/-- A slot's performance traps (R192, R198): the access part is cancelled; which writer of a stepped word traps is an order-sensitive
choice (R311, R371). -/
def State.cancelAccess (s : State) (c cause : Nat) (addr : W64) : State :=
  if cause = ecStepped then
    match s.launchOf c, findEntry (s.core c).table addr.toNat with
    | some l, some (i, e) => s.chooseThen l.id 9 (conflictKey i e addr.toNat) c 0 false fun s => s.ask c cause addr
    | _, _ => s.ask c cause addr
  else s.ask c cause addr

/-- Bytes of an undo buffer (R290). Log entry 51 (DESIGN CHOICE). -/
def undoSize : Nat := 16384
/-- What the undo buffer holds with the stores whose access points are still to come. Log entry 51 (DESIGN CHOICE). -/
def Core.undoWeight (k : Core) : Nat :=
  k.seg.undo.length + (k.arch.accs.map fun c => match c.kind with
    | .st _ sz _ _ => 2 ^ sz
    | .vst et addrs fmts _ _ => ((addrs.zip fmts).map fun x => bankWidth x.2 et).foldl (· + ·) 0
    | .feset _ n false => n
    | .ld a sz _ true _ => (linesOf a (2 ^ sz)).length
    | k => if k.consumes then k.readLines.length else 0).foldl (· + ·) 0
/-- Entries of a commit buffer (R197). -/
def commitDepth : Nat := 64
/-- Would the part's memory slots need a close first: a full commit or undo buffer, or a read of bytes that a reduction in the commit
buffer touches (R197, R290)? Log entry 50 (DEDUCED). -/
def Core.overfills (k t : Core) : Bool :=
  decide (commitDepth < t.seg.commit.length) || decide (undoSize < t.undoWeight) ||
    (t.offs.drop k.offs.length).any fun r =>
      k.seg.commit.any fun w => w.kind.isRed && r.kind.ranges.any fun x => w.kind.touches x.1 x.2

/-- The access part of a bundle is set up: its stream cycle begins, the bundle enters the branch queue, WAIT is loaded. -/
def State.setupAccess (s : State) (c : Nat) (b : Bundle) (next : W64) (preds : BitVec 16) : State :=
  let k := s.core c
  let a := k.arch
  let t := (a.tick .access).advance next
  let arch :=
    { t with
      ahead := a.ahead ++ [⟨b, a.pc, next, a.loop, preds, 0⟩]
      issued := a.issued + 1
      waitA := b.wait
      fences := a.fences.filter fun f => !s.fenceDone c f }
  { s.setCore c ({ k with arch := arch, closedFor := false, rvPassed := false, unchecked := s.unchecked c }.countBench .access b preds) with
    part :=
      { Part.idle with
        core := c
        pc := a.pc
        next := next
        bundle := a.issued
        side := .access
        preds := preds
        rb := a.rb
        loopOn := a.loop.isSome
        loop := a.loop
        slot := 4
        slotAt := b.slotAt
        before := k } }

/-- What the execute part of a bundle would give if it issued with its access part (R453). -/
def State.tryTogether (s : State) (c : Nat) (b : Bundle) (next : W64) (preds : BitVec 16) : Got State :=
  let a := (s.core c).arch
  let h : Ahead := ⟨b, a.pc, next, a.loop, preds, 0⟩
  let t := s.onArch c fun a => { a.advance next with issued := a.issued + 1, ahead := [h] }
  (t.setupExecute c h []).tryPart b .execute

/-- The access part issues, if its slots can be performed (R11, R197, R290); `together` brings the execute part at once (R453), so that
neither issues in a cycle that the bench takes (R272). -/
def State.performAccess (s : State) (c : Nat) (b : Bundle) (next : W64) (preds : BitVec 16) (together : Bool) : State :=
  let k := s.core c
  if k.benchTurn .access b preds || (together && k.benchTurn .execute b preds) then s
  else
    let t := s.setupAccess c b next preds
    match t.tryPart b .access with
    | .ok u =>
      if !k.closedFor && k.overfills (u.core c) then (if k.poised then s.onCore c Core.askClose else s)
      else
        let t := t.latchPart b .access
        if together then { t with agenda := .streamPartIssue c .execute :: t.agenda } else t
    | .poison => t.meetPoison
    | .trap cause addr => s.cancelAccess c cause addr
    | .stray _ => s.strayAccess c
    | .held id kind tgt => (s.onCore c fun k => k.benchCycle .access).noteHold id kind tgt c
    | .stall => s.onCore c fun k => k.benchCycle .access

/-- A nullified bundle passes (R63): no slot issues and no stream cycle elapses; the bench has its cycle (R272). -/
def State.passNullified (s : State) (c : Nat) (next : W64) : State :=
  s.onCore c fun k =>
    let a := k.arch
    let t := { (a.advance next).enter a.loop with issued := a.issued + 1 }
    ({ k with arch := t, closedFor := false, rvPassed := false }.benchCycle .execute).benchCycle .access

/-- Is the core in a rendezvous group of more than itself (R295, R341)? -/
def State.group (s : State) (c : Nat) : List Nat :=
  match s.launchOf c with
  | none => []
  | some l =>
    if l.rvg = 0 then []
    else
      let g := (s.core c).ordinal / l.rvg
      (l.cores.mapIdx fun i x => (i, x)).filterMap fun (i, x) => if i / l.rvg = g ∧ x ≠ c then some x else none

/-- The access stream has the next bundle before it (R78, R222, R279, R290, R295, R453): with both streams at it its checks are made,
the execute stream drains for it, it is nullified, or its segment closes; else it issues. Every guard and predicate is read behind the
drain, by both parts alike (R280), also where checks 3 to 5 ask which slots live (R49, R222). Log entry 64 (DEDUCED). -/
def State.meetBundle (s : State) (c : Nat) (b : Bundle) (next : W64) : State :=
  let k := s.core c
  let a := k.arch.turned
  let inBody := a.loop.isSome
  let regions := s.regionCount c
  let preds := a.predsBehind a.ahead a.loop
  if !b.needsBoth a regions then s.performAccess c b next preds false
  else if !k.poised then s
  else
    let drained := k.arch.drainX? (b.lives preds [0, 1, 2, 3])
    match b.defect (if drained.isSome then a.predsDrained else preds) inBody regions, drained with
    | some (cause, addr), _ => s.ask c cause addr
    | none, some a => s.drain c a
    | none, none =>
      if a.sbchk && a.undersized b preds then s.ask c ecStallCount 0
      else if a.sbchk && b.collides preds then s.ask c ecCollision 0
      else if a.nullifies b preds inBody then s.passNullified c next
      else
        let lives := b.lives preds [0, 1, 2, 3, 4, 5]
        let closes := b.seg % 2 = 1 || lives.any fun i => isRelease i || isClosingFence i
        if closes && !k.closedFor then s.onCore c Core.askClose
        else if 2 ≤ b.seg ∧ !(s.group c).isEmpty ∧ !k.rvPassed then s
        else if !lives.any checksValue then s.performAccess c b next preds false
        else match s.tryTogether c b next preds with
          | .ok _ => s.performAccess c b next preds true
          | .trap cause v => s.ask c cause v
          | .poison => s.onCore c fun k => { k.askClose with seg := { k.seg with errorAt := some a.issued } }
          | .stray _ => s.strayAccess c
          | .held id kind tgt => (s.onCore c fun k => k.benchCycle .execute).noteHold id kind tgt c
          | .stall => s.onCore c fun k => k.benchCycle .execute

/-- Pass over one bundle of a stretch (R454): its length alone is read. A stretch whose end is not found ends at the bundle with the
defect; a TRAP or BRK of the redirecting bundle is then taken there (log entry 65), else the defect's own trap is. -/
def State.passOver (s : State) (c asid : Nat) : State :=
  let a := (s.core c).arch
  let (r, s) := s.fetchLength c asid a.pc
  match r with
  | .bundle _ next =>
    s.onArch c fun a =>
      if a.skip ≠ 0 then { a with pc := next, skip := a.skip - 1 }
      else { a with pc := next, till := if a.till.any fun t => decide (next.toNat ≤ t.toNat) then a.till else none }
  | .defect addr => (if a.trap.isSome then s else s.ask c ecIllegal addr).onArch c fun a => { a with skip := 0, till := none }
  | .stray _ | .denied _ => s.strayAccess c
  | .fault _ => s
  | .poison => s.onCore c fun k => { k.askClose with seg := { k.seg with errorAt := some a.issued } }

/-- The access stream issues its part of the next bundle, or comes nearer to it, if it can (R58, R69, R278, R279). -/
def State.issueAccess (s : State) (c : Nat) : State :=
  let s := s.onCore c Core.lowerFlag
  let k := s.core c
  let a := k.arch
  let passStart := match a.loop with
    | some l => l.pos == 0
    | none => false
  match s.launchOf c with
  | none => s
  | some l =>
    let passing := a.skip ≠ 0 || a.till.isSome
    if !s.canIssue c || k.wait ≠ .none || k.mustClose || (k.trapDue && !passing) || a.waitA ≠ 0 || !a.settled .access ||
        decide (64 ≤ a.ahead.length) || a.blocked || k.holdsAccess || (s.haltAsked c && passStart) then s
    else if passing then s.passOver c l.asid
    else if a.pc.getLsbD 0 then (if k.poised then s.ask c ecMisaligned a.pc else s)
    else
      let (r, s) := s.fetch c l.asid (s.dictOf c) a.pc
      match r with
      | .bundle b next => s.meetBundle c b next
      | r =>
        if !k.poised then s
        else match r with
          | .fault x | .denied x => s.ask c ecFetch (BitVec.ofNat 64 x)
          | .stray _ => s.strayAccess c
          | .defect x => s.ask c ecIllegal x
          | _ => s.onCore c fun k => { k.askClose with seg := { k.seg with errorAt := some a.issued } }

/-- A stream's part of the next bundle issues, if it can. -/
def State.issue (s : State) (c : Nat) : Side → State
  | .execute => s.issueExecute c
  | .access => s.issueAccess c

/-! ### Stalls (R58) -/

/-- Does a WAIT cycle of the stream pass (R58)? A held load stalls the access stream (R361). -/
def State.waitPasses (s : State) (c : Nat) (side : Side) : Bool :=
  let k := s.core c
  s.canIssue c && k.arch.wait side ≠ 0 && k.arch.settled side && !(side == .access && k.holdsAccess)
/-- Would an attempt to issue bring the stream on: issue a part, pass a bundle or a cycle, or ask for a trap or a close? -/
def State.moves (s : State) (c : Nat) (side : Side) : Bool :=
  let t := s.issue c side
  !t.latch.isEmpty || (t.core c).arch ≠ (s.core c).arch || (t.core c).mustClose != (s.core c).mustClose || t.launches ≠ s.launches
/-- Does the stream stall: the core runs, no result of it is to land, and neither a WAIT cycle nor a part of it comes next (R58)? -/
def State.stalls (s : State) (c : Nat) (side : Side) : Bool :=
  let a := (s.core c).arch
  s.canIssue c && !a.due .execute && !a.due .access && !s.waitPasses c side && !s.moves c side

/-- The reserved queue entry that a destination names. -/
def Dest.entry? : Dest → Option Nat
  | .q _ id => some id
  | .vq _ id => some id
  | _ => none
/-- The reserved queue entry that a result fills. -/
def Landing.entry? : Landing → Option Nat
  | .q _ id _ => some id
  | .vq _ id _ => some id
  | .bad d => d.entry?
  | _ => none
/-- The reserved queue entry that a scratchpad access fills. -/
def AccKind.entry? : AccKind → Option Nat
  | .ld _ _ _ _ d => d.entry?
  | .vld _ _ _ _ d => d.entry?
  | .fetst _ d => d.entry?
  | _ => none
/-- The core's queues with every entry filled that a fixed-latency result will fill. -/
def Arch.allFilled (a : Arch) : Arch :=
  let ids := (a.inflX ++ a.inflA).filterMap (·.what.entry?) ++ a.accs.filterMap (·.kind.entry?)
  { a with
    qs := a.qs.map fun x => (x.1, x.2.map fun e => if e.val.isNone && ids.contains e.id then { e with val := some 0 } else e)
    vqs := a.vqs.map fun x => (x.1, x.2.map fun e => if e.val.isNone && ids.contains e.id then { e with val := some 0 } else e) }
/-- Do both streams stall because one of them pops an entry that a fixed-latency result will fill, so that the stream cycle of its landing
would never come? Log entry 19 (DEDUCED). -/
def State.queueStall (s : State) (c : Nat) : Bool :=
  s.stalls c .execute && s.stalls c .access &&
    (let t := s.onArch c Arch.allFilled
     t.moves c .execute || t.moves c .access)

/-! ### The steps -/

/-- A stream's part of the next bundle issues, if it can (R58). -/
def execStreamPartIssue (core : Nat) (side : Side) (s : State) : Out :=
  .next (s.issue core side)

/-- One cycle of a WAIT count passes (R58), but not while a held load stalls the access stream (R361); after the last the stream may
issue its next part. -/
def execStallCountExpiry (core : Nat) (side : Side) (s : State) : Out :=
  let a := (s.core core).arch
  if s.waitPasses core side then
    .next (s.onCore core fun k =>
      ({ k with arch := (a.tick side).setWait side (a.wait side - 1), unchecked := s.unchecked core }).benchCycle side)
  else .next s

/-- Does the core hold a context that runs: it is in a launch that no error is pinned to, and not saved? -/
def State.lively (s : State) (c : Nat) : Bool :=
  (s.core c).halt ≠ .saved && (match s.launchOf c with
    | none => false
    | some l => l.pinned == none)

/-- The first result in flight that a test accepts, and the others. -/
def splitFirst (f : InFlight → Bool) : List InFlight → Option (List InFlight × InFlight × List InFlight)
  | [] => none
  | e :: l => if f e then some ([], e, l) else (splitFirst f l).map fun (x, y, z) => (e :: x, y, z)

/-- The next result of a stream that is due lands (R59). -/
def Arch.landNext (a : Arch) (side : Side) : Arch :=
  match splitFirst (·.left == 0) (a.infl side) with
  | some (x, e, z) => (a.setInfl side (x ++ z)).landOne e
  | none => a

/-- The first queue entry among the stream's results is filled before the cycle of its landing; its flags keep that cycle. -/
def Arch.fillNext (a : Arch) (side : Side) : Arch :=
  let l := (a.infl side).filter (·.what.entry?.isSome)
  let first := l.foldl (fun n e => min n e.left) ((l.head?.map (·.left)).getD 0)
  match splitFirst (fun e => e.what.entry?.isSome && e.left == first) (a.infl side) with
  | some (x, e, z) => (a.setInfl side (x ++ { e with what := .flagsOnly } :: z)).land e.what
  | none => a

/-- A fixed-latency result is written (R59); where a pop stalls both streams for a queue entry, that is filled (R246, R448).
Log entry 19 (DEDUCED). -/
def execResultLands (core : Nat) (side : Side) (s : State) : Out :=
  if !s.lively core then .next s
  else if (s.core core).arch.due side then .next (s.onArch core fun a => a.landNext side)
  else if s.queueStall core then .next (s.onArch core fun a => a.fillNext side)
  else .next s

/-- The lines that a group of accesses touches. -/
def groupLines (g : List Acc) : List Nat := g.flatMap fun c => c.kind.readLines ++ c.kind.writeLines

/-- Does something wait for the accesses of a group to be performed: a fence, an off-core access behind an observation, the start of an
operation of their bundle or a later one (R207, R300)? -/
def Core.awaits (k : Core) (g : List Acc) : Bool :=
  (k.arch.fences.any fun f => (f.acq || f.rel) && g.any fun c => decide (c.seq < f.seq)) ||
    (g.any fun c => c.kind.observes &&
      ((k.offs.any fun r => decide (c.seq < r.seq)) || k.out.any fun w => decide (c.seq < w.seq))) ||
    (List.range 7).any fun q => match k.headOp q with
      | some o => o.state == .unstarted && g.any fun c => decide (c.bundle ≤ o.bundle)
      | none => false
/-- Do both streams stand where a trap can be taken? -/
def State.mayTrap (s : State) (c : Nat) : Bool :=
  let k := s.core c
  let a := k.arch
  s.canIssue c && k.wait == .none && !k.mustClose && a.ahead.isEmpty && a.waitX == 0 && a.settled .execute &&
    a.settled .access && a.skip == 0 && a.till.isNone
/-- Is a context save's close under way at the boundary at which the core has halted (R347)? -/
def State.saving (s : State) (c : Nat) : Bool := (s.core c).halt == .requested && s.halted c
/-- Does a stall of the access stream wait for the accesses of a group to be performed, so that their stream cycle would not come: a close,
a context save's too, or one that a trap makes; a stall of the stream for something that waits for them; a stall of both streams for a
queue entry? Log entry 19 (DEDUCED). -/
def State.stallAwaits (s : State) (c : Nat) (g : List Acc) : Bool :=
  let k := s.core c
  k.mustClose || (k.arch.trap.isSome && s.mayTrap c) || (s.saving c && g.any fun x => decide (x.bundle < k.arch.nextX)) ||
    (k.awaits g && s.stalls c .access) || s.queueStall c

/-- The scratchpad accesses of a bundle perform at the end of their stream cycle (R195, R196), or when a stall waits for them; while a line
that they read is empty they wait. -/
def execScratchpadAccessPoint (core : Nat) (s : State) : Out :=
  let k := s.core core
  let g := k.arch.accGroup
  if !s.lively core || g.isEmpty || k.arch.due .execute || k.retained (groupLines g) || !(g.any (·.left == 0) || s.stallAwaits core g) then .next s
  else if k.groupReady g then
    .next (((s.setCore core (k.performGroup g)).landing ((g.flatMap (·.kind.writes)).map fun a => (core, a))).serveLines
      ((g.flatMap (·.kind.fillLines)).map (lineKey (core + 1))))
  else .next (s.setCore core (k.groupWaits g))

/-- The trap that has been asked for is taken, both streams standing at its boundary (R78, R126); else that of a conflict of the core's
operations, its segment closed first, for a rewind would not bring it back (R311; log entry 20). The scratchpad accesses before it have
been performed: the close there waits for them (R290, R293). -/
def execTrapEntry (core : Nat) (s : State) : Out :=
  let k := s.core core
  let a := k.arch
  if !s.mayTrap core || !a.accs.isEmpty then .next s
  else match a.trap, k.conflicts with
    | some r, _ => .next (s.takeTrap core r.cause r.addr (if r.post then a.pc else r.epc))
    | none, v :: rest =>
      if a.exc then .next s
      else if !k.closedFor then .next (s.onCore core Core.askClose)
      else .next ((s.onCore core fun k => { k with conflicts := rest }).takeTrap core ecStepped v a.pc)
    | none, [] => .next s

/-- Does a stream of a core stand still, so that its cycles pass without an issue: the core does not run, or the stream stalls (R272)? -/
def State.standsStill (s : State) (c : Nat) (side : Side) : Bool := !s.canIssue c || s.stalls c side
/-- The bench has a cycle of a stream that stands still, or takes one after seven without (R272). -/
def execBenchCycleSteal (core : Nat) (side : Side) (s : State) : Out :=
  let k := s.core core
  if k.benched side && (decide (7 ≤ k.benchIdle side) || s.standsStill core side) then .next (s.setCore core (k.benchCycle side))
  else .next s

end Sys2Proof.Machine
end

