-- ==== Sys2Proof/Machine/Segment.lean ====
section
/-! DEFINITION. Sys2Proof/Machine/Segment.lean: segments (spec/14 R290 to R295): SEGMENT_CLOSE with commit and rewind, and RENDEZVOUS. -/

namespace Sys2Proof.Machine

/-- Undo one change of the scratchpad (R294). -/
def Core.undoOne (k : Core) : Undo → Core
  | .byte a old => k.put a [old]
  | .full line old => k.setFull line old
  | .mark w => { k with marks := Sparse.set false k.marks w true }

/-- The registers and queues of a checkpoint, with what has arrived since behind the restored contents (R294), with the marks that it has (R431), beyond a queue's
depth if need be (log entry 66, DESIGN CHOICE); a latch keeps what an MLAT has written since (R168, R173), and a trap of a bundle of an earlier segment stays due
(R125). -/
def Arch.restore (cp : Arch) (now : Arch) (arrived : List (Q × QEntry)) : Arch :=
  let met := fun (x : Q × QEntry) => match (now.q x.1).find? fun e => e.id == x.2.id with
    | some e => { x.2 with poison := e.poison }
    | none => x.2
  let a := arrived.foldl (fun a x => a.setQ x.1 (a.q x.1 ++ [met x])) cp
  { a with
    qid := now.qid
    accs := cp.accs ++ now.accs.filter fun c => c.released && !cp.accs.contains c
    latchE := now.latchE
    latchS := now.latchS
    latchMarks := now.latchMarks
    trap := cp.trap.filter (·.post) }

/-- What the execute stream waited for at the opening boundary (R347) it waits for again after a rewind, or meets the outcome that has come
since (R294). -/
def Core.waitAgain (k : Core) : Core :=
  let k := { k with deferred := k.seg.deferred }
  match k.seg.wait, k.seg.recorded.find? fun r => decide (r.slot < 2) && decide (r.bundle < k.arch.issued) with
  | w, none => { k with wait := w }
  | w, some r =>
    if r.isOpen then { k with wait := w }
    else match w, r.jump with
      | .invocation _ _, some j =>
        let a := k.arch.writeOutputs k.arch.rb (r.vecs.map (·.1)) (r.vecs.map (·.2))
        let a := if k.deferred.isSome then a.fly .execute .bcol 1 0 else a
        { k with arch := a.go ⟨j.1, 0, j.2.head?, none, false, false, a.rb, none⟩, wait := .none, deferred := none }
      | .none, _ => { k with wait := .none }
      | _, j => { k with wait := .answered (j.map fun x => ⟨0, x.1, x.2, 0⟩) }

/-- A rewind (R294): the undo buffer is undone in reverse order, the commit buffer discarded, the checkpoint restored; the flag is
raised (R295). A waiting STEAL of the segment, which a save has withdrawn, issues again (R231). Log entry 55 (DEDUCED). -/
def Core.rewind (k : Core) : Core :=
  let k := (k.seg.undo.reverse.foldl Core.undoOne k).dropDirect
  Core.waitAgain { k with
    arch := k.seg.checkpoint.restore k.arch k.seg.arrived
    seg :=
      { k.seg with
        commit := []
        undo := []
        recorded := (match k.wait, k.seg.wait with
          | .steal _, .none => k.seg.recorded.filter (!·.isOpen)
          | _, _ => k.seg.recorded)
        rewinds := k.seg.rewinds + 1
        errorAt := none
        bad := false }
    mustClose := false
    closedFor := k.seg.closedFor
    rvPassed := false
    rewindFlag := true
    rewindTo := k.seg.errorAt.getD k.arch.issued
    redoTo := max k.redoTo k.arch.issued
    run := (match k.run with
      | .waiting | .ended => .running
      | r => r)
    unchecked := []
    gated := [] }

/-- The error found by a close (R293, R294): a rewind, or, the third time in one segment, an error pinned to the launch. -/
def State.rewindCore (s : State) (c : Nat) : State :=
  if 2 ≤ (s.core c).seg.rewinds then s.pinCore c causeRewinds else s.onCore c Core.rewind

/-- The segment is committed (R293), its commit buffer gone: the undo buffer is discarded, a new checkpoint taken. An error found since
the commit buffer left belongs to the new segment.
Where access parts have issued ahead, a cause of the next bundle makes its own close. What
the execute stream waits for at a context save stays open, and the records of a bundle that a rewind has still to issue again stay
(R294, R347). -/
def Core.commit (k : Core) : Core :=
  let closed := k.arch.ahead.isEmpty
  let kept := k.seg.recorded.filter fun r => decide (k.arch.issued ≤ r.bundle + k.arch.ahead.length) || (k.wait ≠ .none && r.isOpen)
  { k with
    seg :=
      { Segment.openAt k.arch with
        closedFor := closed
        wait := k.wait
        deferred := k.deferred
        recorded := kept
        errorAt := k.seg.errorAt
        bad := k.seg.bad }
    mustClose := false
    closedFor := closed }

/-- Does an instruction of the core wait for its outcome in a way that no rewind may cut off: a STEAL, unless a save withdraws it, with
its answer come or still to come? A surrogate invocation goes on through a rewind, and its SGBEG meets it again. -/
def Core.undecided (k : Core) (saving : Bool) : Bool :=
  match k.wait with
  | .steal _ => !saving
  | .answered _ => true
  | _ => false

/-- The commit buffer leaves, in issue order (R197, R293). -/
def Core.leave (k : Core) : Core :=
  k.seg.commit.foldl Core.release { k with seg := { k.seg with commit := [], leaving := true } }

/-- A close goes on (R293, R428), or must still wait: for loads and atomics, for pending scratchpad accesses, for signatures, for room in
the side log (R362); then, its commit buffer gone, until the writes that have left the core are performed (R299). Results in flight keep
the stream cycles at which they land (R59, R448). `saving` is a context save (R347). -/
def State.closeSegment (s : State) (c : Nat) (saving : Bool) : Option State :=
  let k := s.core c
  if !k.offs.isEmpty || !k.unchecked.isEmpty then none
  else if k.seg.leaving then (if k.out.isEmpty then some (s.setCore c k.commit) else none)
  else if k.seg.bad || k.seg.errorAt.isSome then (if k.undecided saving then none else some (s.rewindCore c))
  else if k.arch.accs.any fun x => decide (x.bundle < k.arch.nextX) then none
  else if !k.leave.fits then none
  else if k.leave.out.isEmpty then some (s.setCore c k.leave.commit)
  else some (s.setCore c k.leave)

/-- A segment close (R290 to R294). Log entry 25 (DEDUCED). -/
def execSegmentClose (core : Nat) (s : State) : Out :=
  let k := s.core core
  let a := k.arch
  let at_ := a.ahead.isEmpty && (k.run ≠ .running || (a.waitX == 0 && a.waitA == 0))
  if k.mustClose && s.lively core && !s.halted core && (k.seg.errorAt.isSome || at_) then
    .next ((s.closeSegment core false).getD s)
  else .next s

/-- A core that waits at a rendezvous boundary proceeds once no partner has its rewind flag raised (R295). -/
def execRendezvous (core : Nat) (s : State) : Out :=
  let k := s.core core
  match s.launchOf core with
  | none => .next s
  | some l =>
    if !s.canIssue core || !k.poised || k.mustClose || (s.group core).any fun c => (s.core c).rewindFlag then .next s
    else match (s.fetch core l.asid (s.dictOf core) k.arch.pc).1 with
      | .bundle b _ =>
        if 2 ≤ b.seg ∧ (b.seg = 2 ∨ k.closedFor) then .next (s.onCore core fun k => { k with rvPassed := true }) else .next s
      | _ => .next s

end Sys2Proof.Machine
end

