-- ==== Sys2Proof/Machine/Layout.lean ====
section
/-! DEFINITION. Sys2Proof/Machine/Layout.lean: layout records and where their elements lie (spec/09 R209, R210), the lines that a step
reads (spec/08 R178, spec/09 R212, R213) and the bytes that it writes. -/

namespace Sys2Proof.Machine

/-! ### Records (R209) -/

/-- A word of a captured record. -/
def recW (r : List W64) (i : Nat) : W64 := (r[i]?).getD 0
/-- FMT. -/
def recFmt (r : List W64) : Nat := fld (recW r 1) 0 4
/-- WIN. -/
def recWin (r : List W64) : Nat := fld (recW r 1) 4 2
/-- BAX. -/
def recBax (r : List W64) : Nat := fld (recW r 1) 8 1
/-- TCORE. -/
def recTcore (r : List W64) : Nat := fld (recW r 1) 16 9
/-- ROWS. -/
def recRows (r : List W64) : Nat := fld (recW r 2) 0 32
/-- COLS. -/
def recCols (r : List W64) : Nat := fld (recW r 2) 32 32
/-- Has the record a must-be-zero field that is not (R209)? -/
def recDirty (r : List W64) : Bool :=
  fld (recW r 1) 25 39 ≠ 0 || fld (recW r 1) 9 7 ≠ 0 || fld (recW r 4) 49 15 ≠ 0 || recW r 7 ≠ 0
/-- Has the record such a field, or WIN 3 (R175, R216)? -/
def recBad (r : List W64) : Bool := recDirty r || recWin r == 3
/-- The byte stride between blocks. -/
def recBstr (r : List W64) : Nat := if fld (recW r 4) 0 32 = 0 then 4 * fmtBits (recFmt r) else fld (recW r 4) 0 32

/-- The major line and the place along it of element (r, c) (R210). -/
def recAxes (r : List W64) (row col : Nat) : Nat × Nat := if recBax r = 0 then (row, col) else (col, row)
/-- The address of the block of element (r, c) (R210). -/
def recBlock (r : List W64) (row col : Nat) : Int :=
  let (m, k) := recAxes r row col
  ((recW r 0).toNat : Int) + m * toInt 64 true (recW r 3).toNat + (k / 32 * recBstr r : Nat)
/-- The address of element (r, c) in bits: eight times its byte address, and four more for a high nibble (R210). -/
def recElem (r : List W64) (row col : Nat) : Nat :=
  let e := (recAxes r row col).2 % 32
  ofInt 64 (recBlock r row col + (e * fmtBits (recFmt r) / 8 : Nat)) * 8 + e * fmtBits (recFmt r) % 8
/-- The address of the scale byte of element (r, c) (R210). -/
def recScale (r : List W64) (row col : Nat) : Nat :=
  let (m, k) := recAxes r row col
  if fld (recW r 4) 48 1 = 0 then ofInt 64 (recBlock r row col + (fld (recW r 4) 32 16 : Nat))
  else ofInt 64 ((recW r 5).toNat + m * toInt 64 true (recW r 6).toNat + (k / 32 : Nat))
/-- The bytes that element (r, c) lies in: the first and how many. -/
def recSpan (r : List W64) (row col : Nat) : Nat × Nat := (recElem r row col / 8, (fmtBits (recFmt r) + 7) / 8)
/-- The spans of bytes that element (r, c) and its scale lie in. -/
def recSpans (r : List W64) (row col : Nat) : List (Nat × Nat) :=
  if isMx (recFmt r) then [recSpan r row col, (recScale r row col, 1)] else [recSpan r row col]

/-- The spaces that a record names (R209): 0 the virtual window, `t + 1` the scratchpad of core `t`. -/
def recSpace (c : Nat) (r : List W64) : Nat :=
  if recWin r = 0 then c + 1 else if recWin r = 1 then 0 else recTcore r + 1
/-- Is a span within the scratchpad, if the record names one? -/
def spanOk (space : Nat) (x : Nat × Nat) : Bool := space == 0 || decide (x.1 + x.2 ≤ scratchSize)
/-- The elements of a rectangle of a record, row by row. -/
def cells (r0 c0 rows cols : Nat) : List (Nat × Nat) :=
  (List.range rows).flatMap fun i => (List.range cols).map fun j => (r0 + i, c0 + j)
/-- Does a rectangle of a record lie within the scratchpad that it names? -/
def recInside (c : Nat) (r : List W64) (l : List (Nat × Nat)) : Bool :=
  recSpace c r == 0 || l.all fun x => (recSpans r x.1 x.2).all (spanOk (recSpace c r))

/-! ### Lines -/

/-- The lines of a span. -/
def spanKeys (space : Nat) (x : Nat × Nat) : List Nat := (linesOf x.1 x.2).map (lineKey space)
/-- A byte of the lines read. -/
def lineByte (ls : List (Nat × List Byte)) (space a : Nat) : Nat :=
  match ls.find? fun x => x.1 == lineKey space (a / 128) with
  | some x => ((x.2[a % 128]?).getD 0).toNat
  | none => 0
/-- Little-endian bytes of the lines read. -/
def lineNat (ls : List (Nat × List Byte)) (space a : Nat) : Nat → Nat
  | 0 => 0
  | n + 1 => lineNat ls space a n + lineByte ls space (a + n) * 256 ^ n
/-- The code of element (r, c) in the lines read. -/
def recCode (ls : List (Nat × List Byte)) (space : Nat) (r : List W64) (row col : Nat) : Nat :=
  let e := recElem r row col
  lineNat ls space (e / 8) ((fmtBits (recFmt r) + 7) / 8) / 2 ^ (e % 8) % 2 ^ fmtBits (recFmt r)

/-- What reading a line for an operation gives: its bytes; nothing yet; a stray address (R178, R19); poisoned bytes (R432). -/
inductive Grab where
  | got (l : List Byte)
  | wait
  | stray
  | poison
  deriving DecidableEq, Repr, Inhabited

/-- Earlier writes of the core to bytes of its own that a reader of the operation must see (R306). -/
def Core.owes (k : Core) (since va n : Nat) : Bool :=
  (k.out ++ k.side).any fun w => w.own && decide (w.seq < since) && w.kind.touches va n

/-- Read one line for an operation of a core (R178, R213, R253, R380, R439). -/
def State.grabLine (s : State) (c frame since key : Nat) : Grab × State :=
  let line := key % 2 ^ 64
  if key / 2 ^ 64 = 0 then
    match lookup (s.core c).table .read (128 * line), s.launchOf c with
    | .at _ e p, some l =>
      if (s.core c).owes since (128 * line) 128 then (.wait, s)
      else
        let (r, s) := s.readPlace l.asid p 128
        (if s.stepPoison e (128 * line) 128 c frame r.2 then .poison else .got (s.stepView e (128 * line) c frame r.1), s)
    | .absent _ _, some _ => (.wait, s)
    | _, _ => (.stray, s)
  else
    let k := s.core (key / 2 ^ 64 - 1)
    (if !k.isFull line || k.retained [line] then .wait
     else if k.spoiled (128 * line) 128 then .poison else .got (k.bytes (128 * line) 128), s)

/-- What reading the lines of a step gives: the lines had, those still missing, whether an address is stray, whether bytes are
poisoned. -/
structure Grabbed where
  lines : List (Nat × List Byte)
  missing : List Nat
  stray : Bool
  poison : Bool
  deriving DecidableEq, Repr, Inhabited

/-- Read the lines of a step that have not been read yet (R178). -/
def State.grabLines (s : State) (c frame since : Nat) (keys : List Nat) (had : List (Nat × List Byte)) : Grabbed × State :=
  keys.foldl
    (fun (g, s) key =>
      if g.lines.any fun x => x.1 == key then (g, s)
      else
        let (r, s) := s.grabLine c frame since key
        (match r with
         | .got l => { g with lines := g.lines ++ [(key, l)] }
         | .wait => { g with missing := g.missing ++ [key] }
         | .stray => { g with stray := true }
         | .poison => { g with poison := true }, s))
    (⟨had, [], false, false⟩, s)

/-- Cores whose scratchpads an operation reads. -/
def Op.sources (c : Nat) (o : Op) : List Nat :=
  distinct (c :: [o.recA, o.recB].filterMap fun r => if recWin r = 2 then some (recTcore r) else none)
/-- The operation waits on no line any more. -/
def State.dropReader (s : State) (c q : Nat) (o : Op) : State :=
  (o.sources c).foldl
    (fun s t => s.onCore t fun k => { k with waiters := k.waiters.filter fun x => x.2 ≠ readerOp c q }) s
/-- The operation waits on lines that it has found empty (R254). -/
def State.addReader (s : State) (c q : Nat) (keys : List Nat) : State :=
  keys.foldl
    (fun s key => if key / 2 ^ 64 = 0 then s
      else s.onCore (key / 2 ^ 64 - 1) fun k => { k with waiters := k.waiters ++ [(key % 2 ^ 64, readerOp c q)] }) s

/-- Read what the step of an operation needs (R178, R212): its lines, or nothing while it waits, keeping those that it has read; a
stray address and poisoned bytes are errors pinned to the launch (R19, R432). -/
def State.operands (s : State) (c q : Nat) (o : Op) (keys : List Nat) : Option (List (Nat × List Byte)) × State :=
  let (g, s) := s.grabLines c o.frame o.since (distinct keys) o.fetched
  let s := s.dropReader c q o
  let s := s.onHead c q fun o => { o with fetched := g.lines, blocked := !g.missing.isEmpty }
  if g.stray then (none, s.strayAccess c)
  else if g.poison then (none, s.pinCore c causeOperand)
  else if g.missing.isEmpty then (some g.lines, s)
  else (none, s.addReader c q g.missing)

/-! ### Writing -/

/-- Bytes to be written, each with its space and address. -/
abbrev Puts := List (Nat × Nat × Byte)

/-- Join neighbouring bytes of one 512-byte sector into runs. -/
def runsOf : List (Nat × Byte) → List (Nat × List Byte)
  | [] => []
  | (a, b) :: rest =>
    match runsOf rest with
    | (x, l) :: more => if a + 1 = x ∧ x % 512 ≠ 0 then (a, b :: l) :: more else (a, [b]) :: (x, l) :: more
    | [] => [(a, [b])]
/-- The bytes for one space. -/
def Puts.within (p : Puts) (space : Nat) : List (Nat × Byte) :=
  p.filterMap fun x => if x.1 = space then some x.2 else none
/-- The spaces written, in order of first appearance. -/
def Puts.spaces (p : Puts) : List Nat := distinct (p.map (·.1))

/-- Write the bytes of a step of an operation of core `c` issued in frame `n` (R212, R213, R255, R312). -/
def State.land (s : State) (c n : Nat) (p : Puts) : State :=
  (p.spaces.foldl
    (fun s space =>
      let l := runsOf (p.within space)
      if space = 0 then
        l.foldl
          (fun s (va, b) => match lookup (s.core c).table .write va, s.launchOf c with
            | .at i e _, some x => s.engineWrite x c n i e va b
            | _, _ => s)
          s
      else s.onCore (space - 1) fun k =>
        let k := l.foldl (fun k (a, b) => k.put a b) k
        if k.marks.isEmpty then k else k.mend (coveredWords (p.within space |>.map (·.1))))
    s).landing (p.filterMap fun x => if x.1 = 0 then none else some (x.1 - 1, x.2.1))

/-- Set lines of scratchpads full, in the order given, and serve those who wait on them (R212, R254). -/
def State.fillLines (s : State) (keys : List Nat) : State :=
  (keys.foldl
    (fun s key => if key / 2 ^ 64 = 0 then s
      else s.onCore (key / 2 ^ 64 - 1) fun k => k.setFull (key % 2 ^ 64) true) s).serveLines keys

/-- The scratchpad lines of some bytes. -/
def Puts.keys (p : Puts) : List Nat := distinct ((p.filter fun x => x.1 ≠ 0).map fun x => lineKey x.1 (x.2.1 / 128))

/-- What stands in the way of writing the bytes: a stray address (R212), an absent subpage, a bank in retention mode (R439), an earlier
write of the core to the bytes (R306), a stepped check that a replay holds (R374). -/
inductive Hurdle where
  | none
  | stray
  | absent (va : Nat)
  | wait
  | held (id tgt : Nat)
  deriving DecidableEq, Repr, Inhabited

/-- The first stepped check of a step's writes, issued in frame `n`, that a replay holds: its launch and key. -/
def State.checkHeld (s : State) (c n : Nat) (p : Puts) : Option (Nat × Nat) :=
  match s.launchOf c with
  | none => none
  | some l =>
    if !l.replay then none
    else p.findSome? fun x => match findEntry (s.core c).table x.2.1 with
      | some (i, e) =>
        if x.1 = 0 then (s.engineHeld l c n i e x.2.1 1).map fun a => (l.id, conflictKey i e a) else none
      | none => none

/-- The first hurdle of the writes of a step of an operation of core `c`, in ascending order of the bytes. -/
def State.hurdle (s : State) (c : Nat) (o : Op) (p : Puts) : Hurdle :=
  let look := fun a => lookup (s.core c).table .write a
  if p.any fun x => x.1 == 0 && look x.2.1 == .stray then .stray
  else match p.find? fun x => x.1 == 0 && (match look x.2.1 with
      | .absent _ _ => true
      | _ => false) with
    | some x => .absent x.2.1
    | none =>
      if (p.keys.any fun key => (s.core (key / 2 ^ 64 - 1)).retained [key % 2 ^ 64]) ||
          p.any fun x => x.1 == 0 && (s.core c).owes o.since x.2.1 1 then .wait
      else match s.checkHeld c o.frame p with
        | some (id, tgt) => .held id tgt
        | none => .none

/-- May a step of an operation be performed: the operation is bound, on the bench with a cycle of its core (R272), and its last step's
end has been dealt with? -/
def Op.atStep (o : Op) : Bool := (o.state == .field || (o.state == .bench && o.cycles ≠ 0)) && !o.stepEnded && !o.performed
/-- A step of an operation has ended (R268). -/
def Op.stepped (o : Op) : Op :=
  { o with
    steps := o.steps + 1
    next := o.next + 1
    onField := o.state == .field
    fieldSteps := o.fieldSteps || o.state == .field
    benchSteps := o.benchSteps || o.state == .bench
    stepEnded := true
    cycles := 0
    blocked := false
    fetched := [] }
/-- The flags of a step join those gathered (R179, R184). -/
def Op.raise (o : Op) (f : BitVec 6) : Op := { o with flags := o.flags ||| f }

end Sys2Proof.Machine
end

