-- ==== Sys2Proof/Machine/Binding.lean ====
section
/-! DEFINITION. Sys2Proof/Machine/Binding.lean: field and bench (spec/13 R264 to R271): FIELD_ARBITRATION, STEP_BOUNDARY,
FIELDMASK_REMOVE, and the retention mode of banks and overhead stores (spec/26 R439). -/

namespace Sys2Proof.Machine

/-! ### Units -/

/-- The queues whose operations a kind of unit serves (R264). -/
def kindQueues : UnitKind → List Nat
  | .matrix => [0, 1]
  | .copy => [2, 3]
  | .special => [4]
  | .gather => [5]
  | .surrogate => [6]
/-- The kind of unit that serves a queue. -/
def queueKind (q : Nat) : UnitKind :=
  if q < 2 then .matrix else if q < 4 then .copy else if q = 4 then .special else if q = 5 then .gather else .surrogate
/-- The first FIELDMASK bit of a kind and the number of its units (R23, R264). -/
def kindBits : UnitKind → Nat × Nat
  | .matrix => (0, 8)
  | .copy => (8, 4)
  | .special => (12, 2)
  | .gather => (14, 2)
  | .surrogate => (16, 1)
/-- The cores of a cluster. -/
def coresOf (cluster : Nat) : List Nat := (List.range coresPerCluster).map (cluster * coresPerCluster + ·)
/-- The operations at the heads of the queues that a kind of unit serves in a cluster, with their cores and queues. -/
def State.kindHeads (s : State) (cluster : Nat) (kind : UnitKind) : List (Nat × Nat × Op) :=
  (coresOf cluster).flatMap fun c => (kindQueues kind).filterMap fun q => ((s.core c).headOp q).map fun o => (c, q, o)
/-- Does the operation hold a field unit? -/
def Op.holdsUnit (o : Op) : Bool := o.state == .field || (o.state == .migrating && o.toField)
/-- FIELDMASK of a cluster (R23). -/
def State.maskOf (s : State) (cluster : Nat) : BitVec 17 := Sparse.get (BitVec.allOnes 17) s.fieldmask cluster
/-- Units that are to be removed from FIELDMASK once their operation has left them (R269). -/
def State.pendingOf (s : State) (cluster : Nat) : BitVec 17 := Sparse.get 0 s.pendingMask cluster
/-- Does some operation hold a unit of a kind? -/
def State.unitHeld (s : State) (cluster : Nat) (kind : UnitKind) (u : Nat) : Bool :=
  (s.kindHeads cluster kind).any fun x => x.2.2.holdsUnit && x.2.2.unit == u
/-- The lowest-numbered enabled unit of a kind that is free (R267). -/
def State.freeUnit (s : State) (cluster : Nat) (kind : UnitKind) : Option Nat :=
  let (b, n) := kindBits kind
  (List.range n).find? fun u =>
    (s.maskOf cluster).getLsbD (b + u) && !(s.pendingOf cluster).getLsbD (b + u) && !s.unitHeld cluster kind u
/-- The kind and number of a FIELDMASK bit. -/
def unitOfBit (i : Nat) : UnitKind × Nat :=
  if i < 8 then (.matrix, i) else if i < 12 then (.copy, i - 8) else if i < 14 then (.special, i - 12)
  else if i < 16 then (.gather, i - 14) else (.surrogate, i - 16)
/-- Units that are to be removed and that no operation holds are removed (R269). -/
def State.settleUnits (s : State) (cluster : Nat) : State :=
  let gone := (List.range 17).filter fun i =>
    (s.pendingOf cluster).getLsbD i && !s.unitHeld cluster (unitOfBit i).1 (unitOfBit i).2
  let m := gone.foldl (fun m i => m &&& ~~~(BitVec.shiftLeft 1 i)) (s.maskOf cluster)
  let p := gone.foldl (fun m i => m &&& ~~~(BitVec.shiftLeft 1 i)) (s.pendingOf cluster)
  { s with
    fieldmask := Sparse.set (BitVec.allOnes 17) s.fieldmask cluster m
    pendingMask := Sparse.set 0 s.pendingMask cluster p }

/-- System software, once the window is open (R441), removes units from FIELDMASK (R269): a running operation migrates at its next step boundary first. -/
def execFieldmaskRemove (cluster : Nat) (mask : BitVec 17) (s : State) : Out :=
  if !s.markhor.booted then .next s
  else .next
    (({ s with pendingMask := Sparse.set 0 s.pendingMask cluster (s.pendingOf cluster ||| (mask &&& s.maskOf cluster)) } : State).settleUnits
      cluster)

/-! ### Arbitration (R267) -/

/-- The rank of the context of a core's launch (R267, R339). -/
def State.rankOf (s : State) (c : Nat) : Nat := (((s.launchOf c).bind fun l => s.context? l.asid).map (·.rank)).getD 0
/-- Does candidate `a` come before candidate `b`: by rank, then core, then queue? -/
def State.outranks (s : State) (a b : Nat × Nat) : Bool :=
  decide (s.rankOf b.1 < s.rankOf a.1) ||
    (s.rankOf a.1 == s.rankOf b.1 && (decide (a.1 < b.1) || (a.1 == b.1 && decide (a.2 < b.2))))
/-- Insert into a list ordered by a test. -/
def insertBy {α : Type} (before : α → α → Bool) (x : α) : List α → List α
  | [] => [x]
  | y :: l => if before x y then x :: y :: l else y :: insertBy before x l
/-- Order a list by a test. -/
def sortBy {α : Type} (before : α → α → Bool) : List α → List α
  | [] => []
  | x :: l => insertBy before x (sortBy before l)

/-- Give up the claim of a candidate (R271). -/
def State.unmark (s : State) (cluster : Nat) (kind : UnitKind) (c q : Nat) : State :=
  (s.kindHeads cluster kind).foldl
    (fun s x => if x.2.2.marked = some (c, q) then s.onHead x.1 x.2.1 fun o => { o with marked := none } else s) s
/-- The operations that run on units and may be displaced for a candidate, in the order in which they are tried (R267). -/
def State.victims (s : State) (cluster : Nat) (kind : UnitKind) (c : Nat) : List (Nat × Nat × Op) :=
  sortBy
    (fun a b => decide (s.rankOf a.1 < s.rankOf b.1) ||
      (s.rankOf a.1 == s.rankOf b.1 && (decide (b.1 < a.1) || (a.1 == b.1 && decide (b.2.2.unit < a.2.2.unit)))))
    ((s.kindHeads cluster kind).filter fun x => x.2.2.holdsUnit && decide (s.rankOf x.1 < s.rankOf c))
/-- The operation that a candidate marks, with the claimant that it displaces. -/
def State.victim (s : State) (cluster : Nat) (kind : UnitKind) (c q : Nat) : Option (Nat × Nat × Option (Nat × Nat)) :=
  ((s.victims cluster kind c).find? fun x => match x.2.2.marked with
    | some cl => !s.outranks cl (c, q)
    | none => true).map fun x => (x.1, x.2.1, x.2.2.marked)
/-- Bind a candidate to a field unit: a benched one is promoted and migrates (R267, R270). -/
def Op.bindField (o : Op) (u : Nat) : Op :=
  if o.state = .bench then
    { o with
      state := .migrating
      toField := true
      unit := u
      everField := true
      promo := o.promo + 1
      stepEnded := false
      fetched := []
      idxLines := [] }
  else { o with state := .field, unit := u, everField := true }

/-- Arbitrate the candidates in turn (R267); a displaced claimant starts again at once. -/
def State.arbitrate (s : State) (cluster : Nat) (kind : UnitKind) : Nat → List (Nat × Nat) → State
  | 0, _ => s
  | _ + 1, [] => s
  | fuel + 1, (c, q) :: rest =>
    let s := s.unmark cluster kind c q
    match (s.core c).headOp q with
    | none => State.arbitrate s cluster kind fuel rest
    | some o =>
      match s.freeUnit cluster kind with
      | some u => State.arbitrate (s.onHead c q fun o => o.bindField u) cluster kind fuel rest
      | none =>
        if o.state = .bench then
          State.arbitrate (s.onHead c q fun o => { o with stepEnded := false }) cluster kind fuel rest
        else match s.victim cluster kind c q with
          | some (vc, vq, old) =>
            State.arbitrate (s.onHead vc vq fun o => { o with marked := some (c, q) }) cluster kind fuel
              (match old with
               | some d => d :: rest
               | none => rest)
          | none => State.arbitrate (s.onHead c q fun o => { o with state := .bench }) cluster kind fuel rest

/-- Is the operation a candidate (R267)? -/
def Op.candidate (o : Op) : Bool :=
  o.state == .claiming || (o.state == .bench && o.stepEnded && decide (o.next < o.total))

/-- One arbitration of a cluster for one kind of unit over its candidates, in their order (R267). -/
def State.arbitration (s : State) (cluster : Nat) (kind : UnitKind) : State :=
  let l := (s.kindHeads cluster kind).filter fun x => x.2.2.candidate && s.engines x.1
  s.arbitrate cluster kind 1000 ((sortBy (fun a b => s.outranks (a.1, a.2.1) (b.1, b.2.1)) l).map fun x => (x.1, x.2.1))
/-- One arbitration of a cluster for one kind of unit (R267). -/
def execFieldArbitration (cluster : Nat) (kind : UnitKind) (s : State) : Out := .next (s.arbitration cluster kind)
/-- The arbitration of the cycle in which operations of some cores start, or enter again (R267, R271). -/
def State.arbitrateFor (s : State) (cores : List Nat) : State :=
  (distinct (cores.map clusterOf)).foldl
    (fun s cl => [UnitKind.matrix, .copy, .special, .gather, .surrogate].foldl (fun s kind => s.arbitration cl kind) s) s

/-! ### Step boundaries -/

/-- Park an operation (R271): it releases its unit and gives up its claim. -/
def State.parkOp (s : State) (c q : Nat) (o : Op) : State :=
  let s := (s.unmark (clusterOf c) (queueKind q) c q).dropReader c q o
  (s.onHead c q fun o => { o with state := .parked, marked := none, blocked := false, stepEnded := false, fetched := [], idxLines := [] }).settleUnits (clusterOf c)

/-- The boundary after a step, or before one that still waits for its operands or its claim (R268 to R271), whose staged operands then go:
a migration ends; the operation parks
if a halt has been asked for; a marked one, or one whose unit is removed, migrates to its bench; else it goes on. -/
def State.boundary (s : State) (c q : Nat) : State :=
  match (s.core c).headOp q with
  | none => s
  | some o =>
    let ask := s.haltAsked c
    let unclaimed := o.code == .mma && !o.claimed
    let here := (o.stepEnded || o.blocked || unclaimed) && !o.performed && decide (o.next < o.total)
    match o.state with
    | .migrating =>
      s.onHead c q fun o => { o with state := if o.toField then .field else .bench, stepEnded := false }
    | .claiming => if ask then s.parkOp c q o else s
    | .field =>
      if !here then s
      else if ask then s.parkOp c q o
      else if o.marked.isSome || (s.pendingOf (clusterOf c)).getLsbD ((kindBits (queueKind q)).1 + o.unit) then
        ((s.dropReader c q o).onHead c q fun o =>
          { o with
            state := .migrating
            toField := false
            demo := o.demo + 1
            marked := none
            fetched := []
            idxLines := [] }).settleUnits (clusterOf c)
      else s.onHead c q fun o => { o with stepEnded := false }
    | .bench => if here && ask then s.parkOp c q o else s
    | _ => s

/-- A step boundary of an operation, with the arbitration of its cycle (R267, R268). -/
def execStepBoundary (core queue : Nat) (s : State) : Out :=
  if s.lively core then .next ((s.boundary core queue).arbitration (clusterOf core) (queueKind queue)) else .next s

/-! ### Retention mode (R439) -/

/-- The overhead store of a matrix array. -/
def arrayKey (cluster array : Nat) : Nat := 8 * cluster + array
/-- Does an access wait on a bank: a scratchpad access that is due, a reader that waits on a line of it? -/
def State.bankBusy (s : State) (core bank : Nat) : Bool :=
  let k := s.core core
  (k.arch.accs.any fun c => (groupLines [c]).any fun l => bankOf (128 * l) == bank) ||
    k.waiters.any fun x => bankOf (128 * x.1) == bank
/-- Is an array at work? -/
def State.arrayBusy (s : State) (cluster array : Nat) : Bool := s.unitHeld cluster .matrix array

/-- An idle bank, its core halted, saved or waiting, or an idle overhead store enters retention mode (R439). -/
def execRetentionEntry (u : RetentionUnit) (s : State) : Out :=
  match u with
  | .bank c b =>
    if s.bankBusy c b || ((s.core c).run == .running && !s.halted c && (s.core c).halt ≠ .saved) then .next s
    else .next (s.onCore c fun k => { k with retention := Sparse.set false k.retention b true })
  | .overhead cl a =>
    if s.arrayBusy cl a then .next s else .next { s with overhead := Sparse.set false s.overhead (arrayKey cl a) true }

/-- A bank or an overhead store leaves retention mode (R439). -/
def execRetentionExit (u : RetentionUnit) (s : State) : Out :=
  match u with
  | .bank c b => .next (s.onCore c fun k => { k with retention := Sparse.set false k.retention b false })
  | .overhead cl a => .next { s with overhead := Sparse.set false s.overhead (arrayKey cl a) false }

end Sys2Proof.Machine
end

