-- ==== Sys2Proof/Machine/Matrix.lean ====
section
/-! DEFINITION. Sys2Proof/Machine/Matrix.lean: the matrix engine (spec/08): checks at the start (R175, R181, R183), MMA_CLAIM, MMA_STEP,
MLAT_PERFORM, the write-back (R180), and what an operation leaves behind at its end, in doubles once its result signatures have
compared equal (spec/26 R429). -/

namespace Sys2Proof.Machine

/-! ### Configuration -/

/-- Is a matrix configuration word valid (R169, R175)? -/
def mxcfgOk (w : W64) : Bool :=
  let st := fld w 32 16
  fld w 48 16 == 0 && fld w 5 27 == 0 && (st == 0 || (st % 128 == 0 && decide (256 ≤ st) && decide (st ≤ 32768)))
/-! ### The operands' elements -/

/-- The elements of the A record that an operation reads for its `b`-th block (R177, R181). -/
def Op.cellsA (o : Op) (b : Nat) : List (Nat × Nat) := cells (64 * coordR o.o3) (coordK o.o3 + 32 * b) 64 32
/-- The elements of the B record for the `b`-th block (R178). -/
def Op.cellsB (o : Op) (b : Nat) : List (Nat × Nat) := cells (coordK o.o3 + 32 * b) (64 * coordC o.o3) 32 64
/-- The lines that some elements of a record and their scales lie in. -/
def recKeys (c : Nat) (r : List W64) (l : List (Nat × Nat)) : List Nat :=
  distinct (l.flatMap fun x => (recSpans r x.1 x.2).flatMap (spanKeys (recSpace c r)))
/-- A step's worth of one row of A, or of one column of B: element codes and scale (R177 to R179). -/
def recBlockOf (ls : List (Nat × List Byte)) (c : Nat) (r : List W64) (at_ : Nat → Nat × Nat) : List Nat × Nat :=
  let codes := (List.range 32).map fun e => recCode ls (recSpace c r) r (at_ e).1 (at_ e).2
  let scale := if isMx (recFmt r) then lineByte ls (recSpace c r) (recScale r (at_ 0).1 (at_ 0).2) else 0x7F
  (codes, scale)

/-! ### Checks (R175, R181) -/

/-- The records that a matrix operation reads, each with the elements it reads and whether it stands as A. -/
def Op.reads (o : Op) : List (List W64 × List (Nat × Nat) × Bool) :=
  let all := fun (f : Nat → List (Nat × Nat)) => (List.range o.blocks).flatMap f
  let a := (o.recA, all o.cellsA, true)
  match o.code with
  | .mlat => [a]
  | _ => if o.at then [(o.recB, all o.cellsB, false), a] else [(o.recB, all o.cellsB, false)]
/-- Lies the operation's rectangle beyond a record's extents? -/
def Op.beyond (o : Op) (r : List W64) (isA : Bool) : Bool :=
  let k := coordK o.o3 + 32 * o.blocks
  if isA then decide (recRows r < 64 * coordR o.o3 + 64) || decide (recCols r < k)
  else decide (recRows r < k) || decide (recCols r < 64 * coordC o.o3 + 64)
/-- Does a record with WIN 2 name a core outside the launch's core set? -/
def outside (cores : List Nat) (r : List W64) : Bool := recWin r == 2 && !cores.contains (recTcore r)
/-- The ERR code of a matrix operation's checks at its start (R175, R181): 0 if it passes. -/
def matrixErr (k : Core) (c q : Nat) (cores : List Nat) (o : Op) : Nat :=
  let w := k.cfgOf q
  let rs := o.reads
  let isMma := o.code == .mma
  let cb := o.o1.toNat
  let lines := k.clinesOf q o
  if !mxcfgOk w then 5
  else if rs.any fun x => recBad x.1 then 6
  else if coordK o.o3 % 32 ≠ 0 || (isMma && (cb % 128 ≠ 0 || decide (scratchSize < cb + 63 * cstrOf w + 256))) ||
      rs.any fun x => o.beyond x.1 x.2.2 || !recInside c x.1 x.2.1 then 2
  else if rs.any fun x => outside cores x.1 then 8
  else if !(isMma && o.at) && decide (512 / blockBytes o.fmt < lkbOf w + o.blocks) then 3
  else if rs.any fun x => recFmt x.1 ≠ o.fmt || (isMx o.fmt && recBax x.1 ≠ (if x.2.2 then 0 else 1)) then 1
  else if isMma && rs.any fun x =>
      (recKeys c x.1 x.2.1).any fun key => key / 2 ^ 64 == c + 1 && lines.contains (key % 2 ^ 64) then 4
  else 0

/-! ### Claim (R176, R177) -/

/-- An MMA claims C and takes its snapshot of A, if it may (R176, R177); else it waits. -/
def execMmaClaim (core queue : Nat) (s : State) : Out :=
  match (s.core core).headOp queue with
  | none => .next s
  | some o =>
    if !o.claims || !s.engines core then .next s
    else if s.mayClaim core queue o then .next (s.claim core queue o)
    else .next (s.onHead core queue fun o => { o with blocked := o.state ≠ .claiming })

/-! ### Steps (R179) -/

/-- A block of row `i` of A out of the snapshot of a latch (R168, R177). -/
def Op.latchBlock (o : Op) (lkb b i : Nat) : List Nat × Nat :=
  let w := fmtBits o.fmt
  let at_ := 512 * i + (lkb + b) * blockBytes o.fmt
  let x := leNat (memBytes o.snapE at_ (blockBytes o.fmt)) (blockBytes o.fmt)
  ((List.range 32).map fun e => x / 2 ^ (w * e) % 2 ^ w,
    if isMx o.fmt then (Sparse.get 0 o.snapS (32 * i + lkb + b)).toNat else 0x7F)
/-- IV of a completion word (R184). -/
def wordIV : BitVec 6 := 32
/-- One step on one cell (R179): INT8, the BF16 and FP16 tree in four blocks of eight, or the exact block. -/
def mmaCell (fmt c : Nat) (a b : List Nat × Nat) : Nat × BitVec 6 :=
  if fmt = 1 then
    let r := int8Block c a.1 b.1
    (r.1, if r.2 then wordIV else 0)
  else if fmt = 5 ∨ fmt = 6 then
    let f := if fmt = 5 then fp16 else bf16
    (List.range 4).foldl
      (fun (c, fl) i =>
        let r := treeBlock f c ((a.1.drop (8 * i)).take 8) ((b.1.drop (8 * i)).take 8)
        (r.1, fl ||| r.2.setWidth 6))
      (c, (0 : BitVec 6))
  else
    let r := exactBlock fmt c a.1 b.1 a.2 b.2
    (r.1, r.2.setWidth 6)
/-- One step on the whole partial tile (R179). -/
def mmaTile (fmt : Nat) (acc : Sparse W32) (a b : List (List Nat × Nat)) : Sparse W32 × BitVec 6 :=
  (a.mapIdx fun i x => (i, x)).foldl
    (fun t (i, x) => (b.mapIdx fun j y => (j, y)).foldl
      (fun (acc, fl) (j, y) =>
        let r := mmaCell fmt (Sparse.get 0 acc (64 * i + j)).toNat x y
        (Sparse.set 0 acc (64 * i + j) (BitVec.ofNat 32 r.1), fl ||| r.2))
      t)
    (acc, (0 : BitVec 6))

/-- Does the operation run on an array whose overhead store stands in retention mode (R439)? -/
def State.arrayAsleep (s : State) (c : Nat) (o : Op) : Bool :=
  o.state == .field && Sparse.get false s.overhead (arrayKey (clusterOf c) o.unit)

/-- An MMA performs its next step, or waits for the operands of it, which it reads in the step (R178, R179): log entry 76 (DESIGN CHOICE). -/
def execMmaStep (core queue : Nat) (s : State) : Out :=
  let k := s.core core
  match k.headOp queue with
  | none => .next s
  | some o =>
    if o.code ≠ .mma || !o.claimed || !o.atStep || decide (o.total ≤ o.next) || !s.lively core || s.arrayAsleep core o then .next s
    else
      let b := o.next
      let keys := recKeys core o.recB (o.cellsB b) ++ (if o.at then recKeys core o.recA (o.cellsA b) else [])
      match s.operands core queue o keys with
      | (none, s) => .next s
      | (some ls, s) =>
        let rows := (List.range 64).map fun i =>
          if o.at then recBlockOf ls core o.recA fun e => (64 * coordR o.o3 + i, coordK o.o3 + 32 * b + e)
          else o.latchBlock (lkbOf (k.cfgOf queue)) b i
        let cols := (List.range 64).map fun j =>
          recBlockOf ls core o.recB fun e => (coordK o.o3 + 32 * b + e, 64 * coordC o.o3 + j)
        let r := mmaTile o.fmt o.acc rows cols
        .next (s.onHead core queue fun o => ({ o with acc := r.1 }.raise r.2).stepped)

/-! ### Ends of operations -/

/-- An operation has performed: it completes, and a unit that was to be removed is (R269). -/
def State.finish (s : State) (c q : Nat) (o : Op) : State := (s.complete c q o).settleUnits (clusterOf c)

/-- The bytes of a tile row. -/
def Op.rowBytes (o : Op) (i : Nat) : List Byte :=
  (List.range 64).flatMap fun j => leBytes (Sparse.get 0 o.acc (64 * i + j)).toNat 4
/-- C is written back in ascending line order, each line set full as it is written (R180). -/
def Core.writeTile (k : Core) (q : Nat) (o : Op) : Core :=
  let cstr := cstrOf (k.cfgOf q)
  (List.range 64).foldl
    (fun k i =>
      let a := o.o1.toNat + i * cstr
      (((k.put a (o.rowBytes i)).mend (wordsWithin a 256)).setFull (a / 128) true).setFull (a / 128 + 1) true)
    k
/-- The bytes of a core's scratchpad that the write-back of C writes. -/
def Core.tileAddrs (k : Core) (q : Nat) (o : Op) : List Nat :=
  (List.range 64).flatMap fun i => (List.range 256).map fun j => o.o1.toNat + i * cstrOf (k.cfgOf q) + j
/-- The write-back of C on its core, and who waits on its lines is served (R180, R254, R255). -/
def State.storeTile (s : State) (c q : Nat) (o : Op) : State :=
  ((s.onCore c fun k => k.writeTile q o).landing (((s.core c).tileAddrs q o).map fun a => (c, a))).serveLines
    (((s.core c).clinesOf q o).map (lineKey (c + 1)))
/-- The blocks of an MLAT enter its latch in one action (R181, R182): `snapE` and `snapS` hold them by the latch's own byte numbers. -/
def Arch.putLatch (a : Arch) (o : Op) : Arch :=
  { a with
    latchE := o.snapE.foldl (fun m x => Sparse.set 0 m (o.latch * 32768 + x.1) x.2) a.latchE
    latchS := o.snapS.foldl (fun m x => Sparse.set 0 m (o.latch * 2048 + x.1) x.2) a.latchS
    latchMarks := if a.latchMarks.isEmpty then [] else
      let w := coveredWords (o.snapE.map fun x => o.latch * 32768 + x.1) ++
        (coveredWords (o.snapS.map fun x => o.latch * 2048 + x.1)).map (scaleMark + ·)
      a.latchMarks.filter fun x => !w.contains x }

/-- An MMA has made its steps: C is written back and the operation completes (R180); in doubles the result waits for its signatures
(R429). -/
def execMmaWriteBack (core queue : Nat) (s : State) : Out :=
  match (s.core core).headOp queue with
  | none => .next s
  | some o =>
    if o.code ≠ .mma || !o.claimed || o.performed || decide (o.next < o.total) || !s.lively core ||
        (s.core core).retained ((s.core core).clinesOf queue o) then .next s
    else if s.doubled core then .next (s.onHead core queue fun o => { o with performed := true })
    else .next ((s.storeTile core queue o).finish core queue o)

/-- The latch bytes of an MLAT, listed whole, zeros included (R181). -/
def Op.latchPut (o : Op) (ls : List (Nat × List Byte)) (c lkb : Nat) : Memory × Memory :=
  let w := fmtBits o.fmt
  let bs := (List.range 64).flatMap fun i => (List.range o.blocks).map fun b =>
    (i, b, recBlockOf ls c o.recA fun e => (64 * coordR o.o3 + i, coordK o.o3 + 32 * b + e))
  let e := bs.flatMap fun (i, b, x) =>
    (leBytes (packElems w x.1) (blockBytes o.fmt)).mapIdx fun n v => (512 * i + (lkb + b) * blockBytes o.fmt + n, v)
  let sc := if isMx o.fmt then bs.map fun (i, b, x) => (32 * i + lkb + b, BitVec.ofNat 8 x.2) else []
  (e, sc)

/-- An MLAT reads its blocks and writes its latch in one action (R181). -/
def execMlatPerform (core queue : Nat) (s : State) : Out :=
  let k := s.core core
  match k.headOp queue with
  | none => .next s
  | some o =>
    if o.code ≠ .mlat || o.state ≠ .bench || o.performed || !s.lively core then .next s
    else
      match s.operands core queue o (recKeys core o.recA ((List.range o.blocks).flatMap o.cellsA)) with
      | (none, s) => .next s
      | (some ls, s) =>
        let (e, sc) := o.latchPut ls core (lkbOf (k.cfgOf queue))
        let o := { o with snapE := e, snapS := sc }.stepped
        if s.doubled core then .next (s.onHead core queue fun _ => { o with performed := true })
        else .next ((s.onArch core fun a => a.putLatch o).finish core queue o)

end Sys2Proof.Machine
end

