-- ==== Sys2Proof/Machine/Requests.lean ====
section
/-! DEFINITION. Sys2Proof/Machine/Requests.lean: off-core accesses at their targets: OFF_CORE_LOAD_RETURN (R188, R197),
REMOTE_ATOMIC_REQUEST (R205, R257, R260; also a plain store that has left its core), REQUEST_RESEND (R260) and SIDE_LOG_REPLAY
(R364, R369). -/

namespace Sys2Proof.Machine

/-! ### Order -/

/-- May an access at place `seq` on channel `ch` that touches `ranges` be performed, as the core's own order wants it (R197, R299,
R300, R306, R364): earlier accesses of its channel and to its bytes and earlier observations of the scratchpad come first; `load` says
that it only reads, and then earlier plain stores are no hindrance but are forwarded; an earlier STREL of its channel is one (R299), also
in the side log (R363). Log entry 48 (DEDUCED). -/
def Core.inOrder (k : Core) (seq ch : Nat) (ranges : List (Nat × Nat)) (load : Bool) : Bool :=
  let meets := fun (w : Write) => ranges.any fun r => w.kind.touches r.1 r.2
  let shares := fun (r : OffReq) => r.kind.ranges.any fun x => ranges.any fun y => overlap x.1 x.2 y.1 y.2
  (k.offs.all fun r => seq ≤ r.seq || r.answer.isSome || !(r.ch == ch || shares r)) &&
  (k.arch.accs.all fun c => seq ≤ c.seq || !c.kind.observes) &&
  let chained := fun (w : Write) => w.ch == ch && (!load || (w.rel && !w.kind.isRed))
  (k.out.all fun w => seq ≤ w.seq || !(chained w || (meets w && (!load || w.kind.isRed)))) &&
  (k.side.all fun w => if w.own then seq ≤ w.seq || !(chained w || meets w) else !(load && meets w))

/-! ### Reading -/

/-- The core's own stores to a byte, the latest last (R197): those still in `out` or in the commit buffer. -/
def Core.forwarded (k : Core) (seq va : Nat) : Option Byte :=
  (k.out ++ k.seg.commit).foldl
    (fun acc w =>
      if w.seq < seq then
        match w.kind with
        | .store l => l.foldl (fun acc p => if p.1 ≤ va ∧ va < p.1 + p.2.length then p.2[va - p.1]? else acc) acc
        | _ => acc
      else acc)
    none

/-- Read bytes for a load of the core (R357, R358, R380, R197): none while the load is held. -/
def State.loadBytes (s : State) (c seq va n : Nat) : Option ((List Byte × Bool) × State) :=
  let k := s.core c
  match (if k.collapsing va then .stray else lookup k.table .read va), s.launchOf c with
  | .at _ e p, some l =>
    let (r, s) := s.readPlace l.asid p n
    let cur := s.stepView e va c l.frame r.1
    let own := (List.range n).map fun i => k.forwarded seq (va + i)
    some ((List.zipWith (fun (b : Byte) o => o.getD b) cur own, s.stepPoison e va n c l.frame r.2 && !(own.all Option.isSome)), s)
  | _, _ => none

/-- Read the elements of a vector load. Log entry 49 (DEDUCED). -/
def State.loadElems (s : State) (c seq n : Nat) : List Nat → Option ((List Nat × Bool) × State)
  | [] => some (([], false), s)
  | a :: l =>
    match s.loadBytes c seq a n with
    | none => none
    | some (r, s) =>
      match State.loadElems s c seq n l with
      | none => none
      | some (rs, s) => some ((leNat r.1 n :: rs.1, r.2 || rs.2), s)

/-! ### Returning -/

/-- A value arrives at its destination (R188); a poisoned one is marked, and the close of the segment will find it (R293, R431). -/
def Core.arriveAt (k : Core) (d : Dest) (v : W64) (x : VReg) (poison : Bool) : Core :=
  let a := k.arch
  let a := match d with
    | .a n => if poison && n ≠ 0 then (a.setA n v).mark .a n else a.setA n v
    | .q q id => a.fillQ q id v poison
    | .vq q id => a.fillVQ q id x poison
    | _ => a
  let k := { k with arch := a }
  if poison then { k with seg := { k.seg with bad := true } } else k

/-- The request is done with. -/
def Core.dropOff (k : Core) (id : Nat) : Core := { k with offs := k.offs.filter (·.id ≠ id) }

/-- The value of a load or the answer of an AMO or CAS arrives and fills its destination (R188, R293). -/
def execOffCoreLoadReturn (core req : Nat) (s : State) : Out :=
  let k := s.core core
  match k.offs.find? (·.id == req) with
  | none => .next s
  | some r =>
    match r.kind with
    | .ld va sz sx =>
      if !k.inOrder r.seq r.ch r.kind.ranges true then .next s
      else (match s.loadBytes core r.seq va (2 ^ sz) with
        | none => .next s
        | some (b, s) =>
          let v := wordOf b.1
          .next (s.onCore core fun k => (k.arriveAt r.dest (if sx then signExt (2 ^ sz) v else v) 0 b.2).dropOff req))
    | .vld et addrs =>
      if !k.inOrder r.seq r.ch r.kind.ranges true then .next s
      else (match s.loadElems core r.seq (etWidth et / 8) addrs with
        | none => .next s
        | some (b, s) =>
          .next (s.onCore core fun k =>
            (k.arriveAt r.dest 0 (BitVec.ofNat 8192 (packElems (etWidth et) b.1)) b.2).dropOff req))
    | _ =>
      match r.answer with
      | none => .next s
      | some v =>
        .next (s.onCore core fun k =>
          let k := (k.arriveAt r.dest v 0 r.poison).dropOff req
          if k.seg.recorded.any fun x => x.bundle == r.bundle && x.slot == r.slot then k
          else k.keep ⟨r.bundle, r.slot, some v, r.poison, [], none⟩)

/-! ### At the home unit -/

/-- The number of a source's next request to a unit (R260). -/
def State.nextTag (s : State) (source unit : Nat) : Nat := Sparse.get 0 s.tags (512 * source + unit)
/-- Requests to one target unit that a source holds unacknowledged at most (R260). -/
def unackedDepth : Nat := 32
/-- Would one more request of a core's channel to a unit be too many (R260): one that is sent again is unacknowledged, and so are those
behind it? Log entry 70 (DEDUCED). -/
def State.spanFull (s : State) (core ch unit : Nat) : Bool :=
  let next := s.nextTag (8 * flat core + ch) unit
  s.resends.any fun r => match r.sent with
    | some (source, u, tag) =>
      source == 8 * flat core + ch && u == unit && decide (unackedDepth ≤ (next % 65536 + 65536 - tag) % 65536)
    | none => false
/-- Note a request as applied (R260): its tag and acknowledgement enter the window of its source at the target, and travel with its parity
delta (R419); for a lost unit that window is the parity controller's shadow window (R423). -/
def State.noteApplied (s : State) (core req ch : Nat) (p : Place) (ack : Option W64) : State :=
  let unit := s.hbm.unitOf p
  let source := 8 * flat core + ch
  let tag := s.nextTag source unit
  let e : WindowEntry := ⟨(s.core core).launch.getD 0, req, source, unit, tag % 65536, ack⟩
  let entered := { s with windows := enterWindow (fun w => w.source == source && w.target == unit) s.windows e }
  let s := match p with
    | .hbm pa _ => (match s.hbm.standIn pa with
      | some parity => { s with hbm := s.hbm.noteShadow parity (some e) }
      | none => { entered with hbm := s.hbm.carry pa e })
    | _ => entered
  { s with
    tags := Sparse.set 0 s.tags (512 * source + unit) (tag + 1)
    resends := s.resends.map fun r =>
      if some r.launch = (s.core core).launch ∧ r.core = core ∧ r.req = req then { r with sent := some (source, unit, tag % 65536) } else r }

/-- Read, change and write the bytes of an atomic at its place in one action (R204, R257, R380): the old value, and whether it was
poisoned, a mark that what is written keeps (R431). -/
def State.atomicAt (s : State) (core asid launch frame va n : Nat) (e : TEntry) (p : Place) (f : List Byte → List Byte × W64) :
    (W64 × Bool) × State :=
  let (r, s) := s.readPlace asid p n
  let old := s.stepView e va (flat core) frame r.1
  let (new, v) := f old
  let bad := s.stepPoison e va n (flat core) frame r.2
  let s := (s.writePlace asid (flat core) launch p new).remark s.csmMarks p n
  ((v, bad), s.report core e va n)

/-- Perform one write at its target (R197, R204, R206): none while its subpage is absent. -/
def State.perform (s : State) (core : Nat) (w : Write) : Option State :=
  match s.launchOf core with
  | none => none
  | some l =>
    let t := (s.core core).table
    match w.kind with
    | .store pieces =>
      pieces.foldl
        (fun acc (va, b) =>
          acc.bind fun s => match lookup t .write va with
            | .at _ e p => some ((s.writePlace l.asid (flat core) l.id p b).report core e va b.length)
            | _ => none)
        (some s)
    | .pieceCpyn va b issuer _ _ =>
      (match lookup t .write va with
       | .at i e _ =>
         let key := if core < numCores then issuer else savedKey l.id issuer
         if (s.engineHeld l key w.frame i e va b.length).isSome then none else some (s.engineWrite l key w.frame i e va b)
       | _ => none)
    | .red op sz va v =>
      (match lookup t .write va with
       | .at _ e p =>
         some ((s.atomicAt core l.asid l.id w.frame va (atomicBytes op sz) e p fun old => atomicDo op sz old v).2)
       | _ => none)
    | .vred op et va b =>
      (match lookup t .write va with
       | .at _ e p => some ((s.atomicAt core l.asid l.id w.frame va 128 e p fun old => (vredLine op et old b, 0)).2)
       | _ => none)
    | .enqueueCpyn target issuer queue opSeq payload =>
      some (s.postEventFor l.id target issuer (eventWord 2 0 issuer queue opSeq) payload)

/-- The place of an address of a core. -/
def State.placeFor (s : State) (core : Nat) (need : Need) (va : Nat) : Option Place :=
  match lookup (s.core core).table need va with
  | .at _ _ p => some p
  | _ => none

/-- Is the request one that the order log records: a non-exact atomic or reduction (R371)? -/
def WriteKind.logged : WriteKind → Bool
  | .red op _ _ _ => op ≠ 11
  | .vred _ _ _ _ => true
  | _ => false

/-- The first address of a write. -/
def WriteKind.first (w : WriteKind) : Nat := ((w.ranges.head?).map (·.1)).getD 0

/-- May a write leave for its target now (R197, R199, R299): every off-core load before it has been performed (R300), and in doubles the
signature of the cycle that has sent it has compared equal (R428)? Log entry 48 (DEDUCED). -/
def Core.ready (k : Core) (w : Write) : Bool :=
  k.inOrder w.seq w.ch w.kind.ranges false && (!w.rel || k.performedBefore w.seq) &&
    (k.offs.all fun r => w.seq ≤ r.seq || r.answer.isSome) && k.compared w.seq

/-- Perform a write of a core at its target; a reduction is an order-sensitive choice, is tagged and acknowledged (R205, R260, R371);
`drop` takes it out of the place where it stood. -/
def State.applyWrite (s : State) (core : Nat) (w : Write) (drop : State → State) : State :=
  match s.placeFor core .write w.kind.first, (s.core core).launch with
  | some p, some id =>
    let go := fun (s : State) =>
      match s.perform core w with
      | none => s
      | some s => drop (if w.kind.isRed then s.noteApplied core w.id w.ch p none else s)
    if w.kind.isRed && s.spanFull core w.ch (s.hbm.unitOf p) then s
    else if w.kind.logged then s.chooseThen id 1 p.logTgt (flat core) w.ch true go else go s
  | _, _ => s

/-- Is a returning atomic ready at its home unit (R197, R199, R300, R363, R428)? -/
def Core.readyAtomic (k : Core) (r : OffReq) : Bool :=
  k.inOrder r.seq r.ch r.kind.ranges false &&
  (k.offs.all fun x => r.seq ≤ x.seq || x.answer.isSome) &&
  (k.side.all fun w =>
    if w.own then r.seq ≤ w.seq || w.ch ≠ r.ch else !(r.kind.ranges.any fun x => w.kind.touches x.1 x.2)) &&
  (!r.rel || k.performedBefore r.seq) && k.compared r.seq

/-- Apply an AMO or CAS (R204). -/
def State.applyReturning (s : State) (core : Nat) (r : OffReq) (va n : Nat) (f : List Byte → List Byte × W64) : State :=
  match lookup (s.core core).table .both va, s.launchOf core with
  | .at _ e p, some l =>
    if s.spanFull core r.ch (s.hbm.unitOf p) then s
    else s.chooseThen l.id 1 p.logTgt core r.ch true fun s =>
      let (v, s) := s.atomicAt core l.asid l.id l.frame va n e p f
      let s := s.noteApplied core r.id r.ch p (some v.1)
      s.onCore core fun k =>
        { k with offs := k.offs.map fun x => if x.id = r.id then { x with answer := some v.1, poison := v.2 } else x }
  | _, _ => s

/-- The requests that targets and parity controllers keep (R260, R419). -/
def State.keptRequests (s : State) : List WindowEntry := s.windows ++ s.hbm.shadow.map (·.2)
/-- The request that a source knows by a name is in a window: its entry. -/
def State.windowed (s : State) (core req : Nat) : Option WindowEntry :=
  s.keptRequests.find? fun w => some w.launch == (s.core core).launch && w.source / 8 == flat core && w.req == req
/-- The second copy of a request finds its tag in the window: it is not applied, and the recorded acknowledgement answers it (R260). -/
def State.answerAgain (s : State) (core : Nat) (r : Resend) (w : WindowEntry) : State :=
  { s.onCore core fun k =>
      if k.launch = some w.launch then
        { k with offs := k.offs.map fun x => if x.id = w.req then { x with answer := w.ack.or x.answer } else x }
      else k with
    resends := s.resends.erase r }
/-- An atomic, a reduction or a cell request is applied once at its home unit and acknowledged (R204, R205, R257, R259, R260); a plain
store that has left its core is performed at the same unit (R257); a second copy of a request is answered from the window. -/
def execRemoteAtomicRequest (core req : Nat) (s : State) : Out :=
  let k := s.core core
  match k.offs.find? fun r => r.id == req && r.answer.isNone with
  | some r =>
    if !k.readyAtomic r then .next s
    else (match r.kind with
      | .amo op sz va v => .next (s.applyReturning core r va (atomicBytes op sz) fun old => atomicDo op sz old v)
      | .cas sz va cmp new =>
        .next (s.applyReturning core r va (2 ^ sz) fun old =>
          let x := wordOf old
          (if x = BitVec.ofNat 64 (cmp.toNat % 2 ^ (8 * 2 ^ sz)) then bytesOf (2 ^ sz) new else old, x))
      | _ => .next s)
  | none =>
    match k.out.find? (·.id == req) with
    | some w =>
      if k.ready w then
        .next (s.applyWrite core w fun s => s.onCore core fun k => { k with out := k.out.filter (·.id ≠ req) })
      else .next s
    | none =>
      match s.resends.find? fun r => r.core == core && r.req == req && r.sent.isSome with
      | none => .next s
      | some r =>
        (match s.keptRequests.find? fun w => r.sent == some (w.source, w.target, w.tag) with
         | some w => .next (s.answerAgain core r w)
         | none => .next s)

/-- May a request that has been applied still be unacknowledged at its source: fewer than 32 later ones of its source to its target have been
applied (R260)? Log entry 70 (DEDUCED). -/
def State.mayLack (s : State) (w : WindowEntry) : Bool :=
  let next := s.nextTag w.source w.target
  decide ((next % 65536 + 65536 - w.tag) % 65536 ≤ unackedDepth)
/-- The requests of a core that are applied at a unit and have not been, in program order: name, place, channel, unit (R260). -/
def State.requests (s : State) (core : Nat) : List (Nat × Nat × Nat × Nat) :=
  let k := s.core core
  let unit := fun (need : Need) (va : Nat) => ((s.placeFor core need va).map s.hbm.unitOf).getD 0
  (k.offs.filterMap fun r => match r.kind with
    | .amo _ _ va _ | .cas _ va _ _ => if r.answer.isNone then some (r.id, r.seq, r.ch, unit .both va) else none
    | _ => none) ++
  k.out.filterMap fun w => if w.kind.isRed then some (w.id, w.seq, w.ch, unit .write w.kind.first) else none
/-- Has the core sent the request: is it one of the 32 that its source may hold unacknowledged at its target (R260)? Log entry 70
(DEDUCED). -/
def State.sentOn (s : State) (core req : Nat) : Bool :=
  let l := s.requests core
  match l.find? fun x => x.1 == req with
  | none => false
  | some x =>
    let before := (l.filter fun y => y.2.2 == x.2.2 && decide (y.2.1 < x.2.1)).length
    let lacking := (s.resends.filter fun r => match r.sent with
      | some (source, u, _) => source == 8 * flat core + x.2.2.1 && u == x.2.2.2
      | none => false).length
    decide (before + lacking < unackedDepth)
/-- A source sends an unacknowledged request again with its original tag (R260): one not applied yet, or one whose acknowledgement has not
come. -/
def execRequestResend (core req : Nat) (s : State) : Out :=
  let k := s.core core
  let id := k.launch.getD 0
  if s.sentOn core req then .next { s with resends := s.resends ++ [⟨id, core, req, none⟩] }
  else match s.windowed core req with
    | some w =>
      if s.mayLack w then .next { s with resends := s.resends ++ [⟨id, core, req, some (w.source, w.target, w.tag)⟩] } else .next s
    | none => .next s

/-- The keys of a core's contexts: its own, and those of its saved contexts (R347, R364). -/
def State.contextKeys (s : State) (core : Nat) : List Nat := core :: s.launches.map fun l => savedKey l.id core
/-- The side-log entries of a core's contexts: key and place. -/
def State.sideEntries (s : State) (core : Nat) : List (Nat × Nat) :=
  (s.contextKeys core).flatMap fun key => (List.range (s.core key).side.length).map fun i => (key, i)

/-- Replay the entry at a place of a context's side log (R364, R369). -/
def State.replayEntry (s : State) (key idx : Nat) : State :=
  let k := s.core key
  match k.side[idx]? with
  | none => s
  | some w =>
    let ahead := (k.side.take idx).any fun x => x.ch == w.ch
    let dead := match (s.launchOf key).bind fun l => s.context? l.asid with
      | some x => x.tombstone
      | none => true
    let rest := { k with side := k.side.eraseIdx idx }
    if ahead || dead || (w.own && !rest.ready w) then s
    else
      let drop := fun (s : State) => s.onCore key fun k => { k with side := k.side.eraseIdx idx }
      match w.kind with
      | .enqueueCpyn _ _ _ _ _ => ((s.perform key w).map drop).getD s
      | _ => s.applyWrite key w drop

/-- A side-log entry is performed as the original access would have been (R364, R369): once its subpage is present and every earlier
entry of its channel has gone, also while the core is halted or its context saved. -/
def execSideLogReplay (core idx : Nat) (s : State) : Out :=
  match (s.sideEntries core)[idx]? with
  | none => .next s
  | some x => .next (s.replayEntry x.1 x.2)

end Sys2Proof.Machine
end

