-- ==== Sys2Proof/Machine/Copy.lean ====
section
/-! DEFINITION. Sys2Proof/Machine/Copy.lean: the copy family (spec/09 R211 to R216, spec/12 R253): its plan, checks, COPY_STEP and
COPY_PERFORMED, with the remainder and the enqueue of CPYN (spec/20 R369). -/

namespace Sys2Proof.Machine

/-! ### Geometry -/

/-- The first row and column of the source region (R212). -/
def Op.origin (o : Op) : Nat × Nat := if o.code = .cpyt then (64 * coordR o.o3, 64 * coordC o.o3) else (0, 0)
/-- The extents of the source region (R212). -/
def Op.extents (o : Op) : Nat × Nat := if o.code = .cpyt then (64, 64) else (recRows o.recA, recCols o.recA)
/-- The elements of the destination. -/
def Op.dstCells (o : Op) : List (Nat × Nat) := cells 0 0 (recRows o.recB) (recCols o.recB)
/-- The source element of a destination element. -/
def Op.srcOf (o : Op) (x : Nat × Nat) : Nat × Nat := (o.origin.1 + x.1, o.origin.2 + x.2)
/-- The cores that a CPYM names (R215), by flat index; a cluster beyond the die's names none of the package.
Bits [63:14] are ignored: log entry 77 (DEDUCED). -/
def cpymTargets (x : W64) : List Nat :=
  let cluster := fld x 8 4
  let base := fld x 12 2 * coresPerDie + cluster * coresPerCluster
  (List.range 8).filterMap fun j =>
    if x.getLsbD j then some (if cluster < 9 then base + j else numCores) else none
/-- The spaces that a copy writes. -/
def Op.targets (o : Op) (c : Nat) : List Nat :=
  if o.code = .cpym then (cpymTargets o.o3).map (· + 1) else [recSpace c o.recB]

/-- Is a copy defined between two formats (R216, R253)? -/
def copyDefined (d s : Nat) : Bool := decide (d < 0xD) && decide (s < 0xD) && (d == s || (d ≠ 0 && s ≠ 0))
/-- The ERR code of a copy's checks at its start (R216): 0 if it passes. -/
def copyErr (c : Nat) (cores : List Nat) (o : Op) : Nat :=
  let d := o.recB
  let a := o.recA
  let (r0, c0) := o.origin
  let (nr, nc) := o.extents
  let src := cells r0 c0 nr nc
  if recBad d || recBad a then 6
  else if !copyDefined (recFmt d) (recFmt a) then 1
  else if recRows d = 0 || recCols d = 0 || recRows a = 0 || recCols a = 0 || decide (recRows a < r0 + nr) || decide (recCols a < c0 + nc) ||
      (o.code == .cpym && recWin d ≠ 2) || !recInside c d o.dstCells || !recInside c a src then 2
  else if outside cores a || (o.code ≠ .cpym && outside cores d) || (o.code == .cpyn && !cores.contains (recTcore d)) ||
      (o.code == .cpym && (cpymTargets o.o3).any fun t => !cores.contains t) then 8
  else if (recRows d, recCols d) ≠ (if o.code = .cpyt then (64, 64) else (recRows a, recCols a)) then 7
  else 0

/-! ### The plan (R212) -/

/-- Where a destination byte comes from: the `k`-th byte of an element's code; the codes of an MXFP4 pair; the scale of the block of an
element. -/
inductive ByteSrc where
  | elem (cell : Nat × Nat) (k : Nat)
  | pair (lo hi : Option (Nat × Nat))
  | scale (cell : Nat × Nat)
  deriving DecidableEq, Repr, Inhabited

/-- Add one source of a destination byte: the two nibbles of a byte join. -/
def ByteSrc.join (old : Option ByteSrc) (new : ByteSrc) : ByteSrc :=
  match old, new with
  | some (.pair lo hi), .pair lo' hi' => .pair (lo'.or lo) (hi'.or hi)
  | some (.scale x), .scale _ => .scale x
  | _, x => x
/-- The bytes of one destination element (R210, R33). -/
def Op.elemBytes (o : Op) (x : Nat × Nat) : List (Nat × ByteSrc) :=
  let e := recElem o.recB x.1 x.2
  let w := fmtBits (recFmt o.recB)
  (if w = 4 then [(e / 8, if e % 8 = 0 then .pair (some x) none else .pair none (some x))]
   else (List.range (w / 8)).map fun k => (e / 8 + k, .elem x k)) ++
  (if isMx (recFmt o.recB) then [(recScale o.recB x.1 x.2, .scale x)] else [])
/-- The destination bytes in ascending address, each with its source (R212). -/
def Op.plan (o : Op) : Sparse (Option ByteSrc) :=
  (o.dstCells.flatMap o.elemBytes).foldl
    (fun m (a, b) => Sparse.set none m a (some (ByteSrc.join (Sparse.get none m a) b))) []

/-- The source bits of one element that a CPYM's step counts (R215): its code and, with the first element of a source block, the
block's scale. -/
def Op.cellBits (o : Op) (x : Nat × Nat) : Nat :=
  let y := o.srcOf x
  fmtBits (recFmt o.recA) + (if isMx (recFmt o.recA) && (recAxes o.recA y.1 y.2).2 % 32 == 0 then 8 else 0)
/-- What a destination byte adds to a step's size in bits: itself, or, for CPYM, the source bits of the elements that it begins (R212,
R215). -/
def Op.weight (o : Op) (b : ByteSrc) : Nat :=
  if o.code ≠ .cpym then 8
  else match b with
    | .elem x k => if k = 0 then o.cellBits x else 0
    | .pair lo hi => ((lo.map o.cellBits).getD 0) + ((hi.map o.cellBits).getD 0)
    | .scale _ => 0
/-- Cut a list into steps of 4 KiB, the step at hand having `n` bits so far (R212, R215): a full step ends before the next byte that adds
to it. -/
def stepsOf (w : ByteSrc → Nat) : Nat → List (Nat × ByteSrc) → List (Nat × ByteSrc) × List (List (Nat × ByteSrc))
  | _, [] => ([], [])
  | n, x :: l =>
    if n < 32768 ∨ w x.2 = 0 then
      let (y, rest) := stepsOf w (n + w x.2) l
      (x :: y, rest)
    else
      let (y, rest) := stepsOf w (w x.2) l
      ([], (x :: y) :: rest)
/-- The steps of a copy. -/
def Op.steps? (o : Op) : List (List (Nat × ByteSrc)) :=
  let (y, rest) := stepsOf o.weight 0 (o.plan.filterMap fun x => x.2.map fun b => (x.1, b))
  y :: rest

/-! ### Conversion (R212, R253) -/

/-- The destination elements of the block of one that the extents leave present, in order along the block. -/
def Op.blockCells (o : Op) (x : Nat × Nat) : List (Nat × Nat) :=
  let d := o.recB
  let k := (recAxes d x.1 x.2).2 / 32 * 32
  let n := min 32 ((if recBax d = 0 then recCols d else recRows d) - k)
  (List.range n).map fun e => if recBax d = 0 then (x.1, k + e) else (k + e, x.2)
/-- Does the destination format want its blocks quantised (R253)? -/
def Op.quantises (o : Op) : Bool := isMx (recFmt o.recB) && recFmt o.recA ≠ recFmt o.recB
/-- The destination elements that a byte depends on. -/
def Op.needs (o : Op) : ByteSrc → List (Nat × Nat)
  | .elem x _ => if o.quantises then o.blockCells x else [x]
  | .pair lo hi => (lo.toList ++ hi.toList).flatMap fun x => if o.quantises then o.blockCells x else [x]
  | .scale x => o.blockCells x
/-- The source lines of a destination byte. -/
def Op.byteKeys (o : Op) (c : Nat) (b : ByteSrc) : List Nat :=
  (o.needs b).flatMap fun x => (recSpans o.recA (o.srcOf x).1 (o.srcOf x).2).flatMap (spanKeys (recSpace c o.recA))

/-- The code of a source element. -/
def Op.srcCode (o : Op) (ls : List (Nat × List Byte)) (c : Nat) (x : Nat × Nat) : Nat :=
  recCode ls (recSpace c o.recA) o.recA (o.srcOf x).1 (o.srcOf x).2
/-- Where the scale of a source element lies. -/
def Op.srcScaleAt (o : Op) (x : Nat × Nat) : Nat := recScale o.recA (o.srcOf x).1 (o.srcOf x).2
/-- The exact value of a source element (R253 step 1). -/
def Op.srcValue (o : Op) (ls : List (Nat × List Byte)) (c : Nat) (x : Nat × Nat) : FVal :=
  let f := recFmt o.recA
  if isMx f then mxValue f (lineByte ls (recSpace c o.recA) (o.srcScaleAt x)) (o.srcCode ls c x)
  else bankValue f (o.srcCode ls c x)
/-- The block of a destination element, quantised (R39, R253). -/
def Op.quantised (o : Op) (ls : List (Nat × List Byte)) (c : Nat) (x : Nat × Nat) : Nat × List Nat × BitVec 5 :=
  quantise (recFmt o.recB) ((o.blockCells x).map (o.srcValue ls c))
/-- The destination code of an element, with its flags (R212, R253). -/
def Op.dstCode (o : Op) (ls : List (Nat × List Byte)) (c : Nat) (x : Nat × Nat) : Nat × BitVec 5 :=
  let d := recFmt o.recB
  if recFmt o.recA = d then (o.srcCode ls c x, 0)
  else if isMx d then
    let r := o.quantised ls c x
    ((r.2.1[(recAxes o.recB x.1 x.2).2 % 32]?).getD 0, r.2.2)
  else storeValue d (!bankInt (recFmt o.recA)) (o.srcValue ls c x)
/-- The scale byte of a destination block: quantised, or that of its source block; elements of several source blocks have none in common,
and the spec states no value (log entry 21). -/
def Op.dstScale (o : Op) (ls : List (Nat × List Byte)) (c fresh addr : Nat) (x : Nat × Nat) : Nat :=
  if recFmt o.recA = recFmt o.recB then
    let a := o.srcScaleAt x
    if (o.blockCells x).all fun y => o.srcScaleAt y == a then lineByte ls (recSpace c o.recA) a
    else (Config.freeScale fresh addr).toNat
  else (o.quantised ls c x).1
/-- A destination byte, with its flags: the nibble that no element of the copy has is 0 (R253, R369). -/
def Op.dstByte (o : Op) (ls : List (Nat × List Byte)) (c fresh addr : Nat) : ByteSrc → Nat × BitVec 5
  | .elem x k =>
    let r := o.dstCode ls c x
    (r.1 / 256 ^ k % 256, r.2)
  | .pair lo hi =>
    let code := fun (x : Option (Nat × Nat)) => (x.map (o.dstCode ls c)).getD (0, 0)
    ((code lo).1 + 16 * (code hi).1, (code lo).2 ||| (code hi).2)
  | .scale x => (o.dstScale ls c fresh addr x, 0)

/-! ### Steps -/

/-- Lines of a destination whose last byte of the operation has landed once the bytes have (R212): those that no later byte falls in. -/
def lastKeys (now later : List Nat) : List Nat := now.filter fun k => !later.contains k
/-- The lines of some bytes in some spaces. -/
def addrKeys (spaces : List Nat) (addrs : List Nat) : List Nat :=
  distinct (spaces.flatMap fun sp => if sp = 0 then [] else (distinct (addrs.map (· / 128))).map (lineKey sp))

/-- The end of a step that has its bytes: they land and their lines fill; in doubles those for other places than the core's own scratchpad,
and every fill, are held until the result signatures have compared equal (R429). -/
def State.landStep (s : State) (c q : Nat) (o : Op) (p : Puts) (fills : List Nat) (spill : List (Nat × Byte)) (flags : BitVec 5) : State :=
  let hold := s.doubled c
  let mine := p.filter fun x => x.1 == c + 1
  let s := if hold then s.land c o.frame mine else (s.land c o.frame p).fillLines fills
  s.onHead c q fun o =>
    { (o.raise (flags.setWidth 6)).stepped with
      held := if hold then o.held ++ p.filter fun x => x.1 ≠ c + 1 else []
      own := if hold then o.own ++ mine else []
      spill := o.spill ++ spill }

/-- A copy performs its next step, or waits for it (R212 to R215). -/
def execCopyStep (core queue : Nat) (s : State) : Out :=
  match (s.core core).headOp queue with
  | none => .next s
  | some o =>
    let isCopy := o.code == .cpy || o.code == .cpyt || o.code == .cpyn || o.code == .cpym
    if !isCopy || !o.atStep || decide (o.total ≤ o.next) || !s.lively core then .next s
    else
      let steps := o.steps?
      let now := (steps[o.next]?).getD []
      let later := (steps.drop (o.next + 1)).flatMap fun l => l.map (·.1)
      match s.operands core queue o (now.flatMap fun x => o.byteKeys core x.2) with
      | (none, s) => .next s
      | (some ls, s) =>
        let rs := now.map fun x => (x.1, o.dstByte ls core s.choice x.1 x.2)
        let flags := rs.foldl (fun f r => f ||| r.2.2) (0 : BitVec 5)
        let bytes := rs.map fun r => (r.1, BitVec.ofNat 8 r.2.1)
        let spaces := o.targets core
        let put := fun (l : List (Nat × Byte)) => spaces.flatMap fun sp => l.map fun x => (sp, x.1, x.2)
        let wait := s.onHead core queue fun o => { o with blocked := true }
        let h := s.hurdle core o (put bytes)
        if !o.spill.isEmpty && h ≠ .stray then .next (s.landStep core queue o [] [] bytes flags)
        else match h with
          | .stray => .next (s.strayAccess core)
          | .wait => .next wait
          | .held id tgt => .next (wait.noteHold id 9 tgt core)
          | .absent va =>
            if o.code = .cpyn then
              let below := bytes.filter fun x => x.1 < va
              .next (s.landStep core queue o (put below) [] (bytes.filter fun x => va ≤ x.1) flags)
            else .next wait
          | .none =>
            .next (s.landStep core queue o (put bytes) (lastKeys (addrKeys spaces (now.map (·.1))) (addrKeys spaces later)) [] flags)

/-! ### CPYN (R214, R369) -/

/-- The pieces of a remainder: neighbouring bytes of one subpage, at most 4 KiB. Log entry 57 (DEDUCED). -/
def piecesOf (sub : Nat → Nat) : List (Nat × Byte) → List (Nat × List Byte)
  | [] => []
  | (a, b) :: rest =>
    match piecesOf sub rest with
    | (x, l) :: more =>
      if a + 1 = x ∧ sub a = sub x ∧ l.length < 4096 then (a, b :: l) :: more else (a, [b]) :: (x, l) :: more
    | [] => [(a, [b])]
/-- The subpage of an address, as a number that no other subpage has. -/
def subpageKey (t : Sparse TEntry) (va : Nat) : Nat :=
  match findEntry t va with
  | some (i, e) => 64 * i + e.subOf va
  | none => 0
/-- The channel of a CPYN remainder in the target's side log (R369). -/
def cpynChannel (issuer queue : Nat) : Nat := 16 + 8 * issuer + queue
/-- Free entries of a core's side log. -/
def Core.sideRoom (k : Core) : Nat := sideDepth - k.side.length
/-- Place an entry of a CPYN in the target's side log. -/
def State.sideEntry (s : State) (target issuer queue frame : Nat) (kind : WriteKind) : State :=
  s.onCore target fun k =>
    let (i, k) := k.nextId
    { k with side := k.side ++ [⟨i, kind, cpynChannel issuer queue, 0, false, frame⟩] }
/-- The record of a CPYN arrives on its target's EQ (R214, R238). -/
def State.enqueueCpyn (s : State) (c q : Nat) (o : Op) : State :=
  s.postEvent (recTcore o.recB) c (eventWord 2 0 c q o.seq) o.o3

/-- What is left of a CPYN once its bytes have landed: the enqueue; or the pieces of its remainder and behind them the enqueue, as
the target's side log has room (R214, R369). None while room is lacking; nothing once it has been discarded. -/
def State.endCpyn (s : State) (c q : Nat) (o : Op) : Option State × State :=
  if o.dropped then (some s, s)
  else if o.spill.isEmpty && !o.remains then (some (s.enqueueCpyn c q o), s)
  else
    let t := recTcore o.recB
    let pieces := piecesOf (subpageKey (s.core c).table) o.spill
    let room := (s.core t).sideRoom
    let place := fun (s : State) (p : Nat × List Byte) => s.sideEntry t c q o.frame (.pieceCpyn p.1 p.2 c q o.seq)
    if pieces.length < room then
      let s := pieces.foldl place s
      (some (s.sideEntry t c q o.frame (.enqueueCpyn t c q o.seq o.o3)), s)
    else
      let placed := (pieces.take room).foldl place s
      let left := ((pieces.drop room).flatMap fun p => p.2.mapIdx fun i b => (p.1 + i, b))
      (none, placed.onHead c q fun _ => { o with spill := left, remains := o.remains || room ≠ 0 })

/-- The operation has performed, its bytes landed and its lines full (R212): a CPYN enqueues, and it completes. -/
def State.endCopy (s : State) (c q : Nat) (o : Op) : State :=
  if o.code = .cpyn then
    match s.endCpyn c q o with
    | (some t, _) => t.finish c q o
    | (none, t) => t
  else s.finish c q o

/-- Every destination byte has landed and every line is full: the copy completes (R212); in doubles its result waits for its signatures
(R429), and a CPYN that has been released goes on placing its remainder (R369). -/
def execCopyPerformed (core queue : Nat) (s : State) : Out :=
  match (s.core core).headOp queue with
  | none => .next s
  | some o =>
    let isCopy := o.code == .cpy || o.code == .cpyt || o.code == .cpyn || o.code == .cpym
    let bound := o.state == .field || o.state == .bench
    if !isCopy || !bound || o.performed != o.released || decide (o.next < o.total) || !s.lively core then .next s
    else if s.doubled core && !o.released then .next (s.onHead core queue fun o => { o with performed := true })
    else .next (s.endCopy core queue o)

end Sys2Proof.Machine
end

