-- ==== Sys2Proof/Machine/Special.lean ====
section
/-! DEFINITION. Sys2Proof/Machine/Special.lean: the special functions (spec/09 R218, R219), correctly rounded by evaluation to 800 bits
with every exact case taken apart, SFN_STEP, and GATH and SCAT (R220). -/

namespace Sys2Proof.Machine

/-! ### Fixed point of 800 fraction bits -/

/-- Fraction bits of the evaluation. -/
def fxBits : Nat := 800
/-- One. -/
def fxOne : Nat := 2 ^ fxBits
/-- The product. -/
def fxMul (a b : Nat) : Nat := a * b / fxOne
/-- The terms of the exponential series from the `n`-th on. -/
def fxExpTerms (r : Nat) : Nat → Nat → Nat → Nat
  | 0, _, _ => 0
  | fuel + 1, n, t => if t = 0 then 0 else t + fxExpTerms r fuel (n + 1) (fxMul t r / (n + 1))
/-- e^r for 0 ≤ r < 1. -/
def fxExp (r : Nat) : Nat := fxExpTerms r 400 0 fxOne
/-- The terms of the series of artanh from z^n / n on, `p` being z^n. -/
def fxAtanhTerms (z2 : Nat) : Nat → Nat → Nat → Nat
  | 0, _, _ => 0
  | fuel + 1, n, p => if p = 0 then 0 else p / n + fxAtanhTerms z2 fuel (n + 2) (fxMul p z2)
/-- ln((1 + z) / (1 - z)) = 2 artanh z, for z ≤ 1/3. -/
def fxLnRatio (z : Nat) : Nat := 2 * fxAtanhTerms (fxMul z z) 600 1 z
/-- ln 2. -/
def fxLn2 : Nat := fxLnRatio (fxOne / 3)
/-- ln m for 1 ≤ m < 2. -/
def fxLn (m : Nat) : Nat := fxLnRatio ((m - fxOne) * fxOne / (m + fxOne))
/-- e^x as a fraction and a power of two, for |x| below 2^10. -/
def fxExpOf (x : Int) : Nat × Int :=
  let n := x / (fxLn2 : Int)
  (fxExp (x - n * fxLn2).toNat, n)
/-- A power of two times a fixed-point number, as a fixed-point number. -/
def fxScale (x : Nat × Int) : Nat := if 0 ≤ x.2 then x.1 * 2 ^ x.2.toNat else x.1 / 2 ^ (-x.2).toNat

/-- The integer square root, bit by bit from bit `b - 1` down. -/
def isqrtFrom (n : Nat) : Nat → Nat → Nat
  | 0, r => r
  | b + 1, r => if (r + 2 ^ b) * (r + 2 ^ b) ≤ n then isqrtFrom n b (r + 2 ^ b) else isqrtFrom n b r
/-- The integer square root of a number below 2^2000. -/
def isqrt (n : Nat) : Nat := isqrtFrom n 1000 0

/-! ### Functions on FP32 (R218, R219) -/

/-- Round a magnitude to FP32, with more bits behind it if `sticky`. -/
def out32 (neg : Bool) (m : Nat) (e : Int) (sticky : Bool) : Nat × BitVec 5 := roundMag fp32 .rne false neg m e sticky
/-- An inexact result in fixed point. -/
def outFx (neg : Bool) (m : Nat) : Nat × BitVec 5 := out32 neg m (-(fxBits : Int)) true
/-- The canonical NaN with NV. -/
def outNaN : Nat × BitVec 5 := (fp32.qnan, flagNV)
/-- FP32 codes of 1 and infinity with a sign. -/
def code1 (neg : Bool) : Nat := signCode fp32 neg 0x3F800000
def codeInf (neg : Bool) : Nat := signCode fp32 neg fp32.infCode
def codeZero (neg : Bool) : Nat := signCode fp32 neg 0

/-- x / y (R219). -/
def sfDiv (x y : FVal) : Nat × BitVec 5 :=
  match x, y with
  | .nan, _ | _, .nan => (fp32.qnan, 0)
  | .inf _, .inf _ => outNaN
  | .inf a, .fin b _ _ => (codeInf (a != b), 0)
  | .fin a _ _, .inf b => (codeZero (a != b), 0)
  | .fin a m e, .fin b m' e' =>
    if m' = 0 then (if m = 0 then outNaN else (codeInf (a != b), flagDZ))
    else
      let n := m * 2 ^ 64
      out32 (a != b) (n / m') (e - e' - 64) (n % m' ≠ 0)

/-- A signed finite value in fixed point; FP32 values have no bit below 2^-149. -/
def fxOf (neg : Bool) (m : Nat) (e : Int) : Int := (FVal.fin neg m e).atExp (-(fxBits : Int))

/-- SQRT (R219). -/
def sfSqrt : FVal → Nat × BitVec 5
  | .nan => (fp32.qnan, 0)
  | .inf n => if n then outNaN else (fp32.infCode, 0)
  | .fin n m e =>
    if m = 0 then (codeZero n, 0)
    else if n then outNaN
    else
      let odd := e % 2
      let x := m * 2 ^ (odd.toNat + 128)
      let r := isqrt x
      out32 false r ((e - odd) / 2 - 64) (r * r ≠ x)

/-- RSQRT (R219): the root of 2^k / m. -/
def sfRsqrt : FVal → Nat × BitVec 5
  | .nan => (fp32.qnan, 0)
  | .inf n => if n then outNaN else (0, 0)
  | .fin n m e =>
    if m = 0 then (codeInf n, flagDZ)
    else if n then outNaN
    else
      let odd := e % 2
      let k : Nat := 400
      let x := 2 ^ (2 * k) / (m * 2 ^ odd.toNat)
      let r := isqrt x
      out32 false r (-((e - odd) / 2) - (k : Int)) (r * r * (m * 2 ^ odd.toNat) ≠ 2 ^ (2 * k))

/-- Is a finite value whole (exponent 0 or above, or nothing below it)? -/
def wholeOf (neg : Bool) (m : Nat) (e : Int) : Option Int :=
  let s : Int := if neg then -1 else 1
  if 0 ≤ e then some (s * (m * 2 ^ e.toNat : Nat))
  else if m % 2 ^ (-e).toNat = 0 then some (s * (m / 2 ^ (-e).toNat : Nat)) else none
/-- A result beyond every finite FP32, and one below half of the smallest. -/
def outHuge : Nat × BitVec 5 := out32 false 1 1000 true
def outTiny : Nat × BitVec 5 := out32 false 1 (-1000) true

/-- EXP and EXP2 of a finite argument (R219), `e2` telling which. -/
def sfExpFin (e2 neg : Bool) (m : Nat) (e : Int) : Nat × BitVec 5 :=
  if m = 0 then (code1 false, 0)
  else
    let big := decide (9 < topExp m e)
    if big then (if neg then outTiny else outHuge)
    else match e2, wholeOf neg m e with
      | true, some n => out32 false 1 n false
      | _, _ =>
        let x := fxOf neg m e
        if e2 then
          let n := x / (fxOne : Int)
          out32 false (fxExp (fxMul (x - n * fxOne).toNat fxLn2)) (n - fxBits) true
        else
          let r := fxExpOf x
          out32 false r.1 (r.2 - fxBits) true
/-- EXP and EXP2 (R219). -/
def sfExp (e2 : Bool) : FVal → Nat × BitVec 5
  | .nan => (fp32.qnan, 0)
  | .inf n => (if n then 0 else fp32.infCode, 0)
  | .fin n m e => sfExpFin e2 n m e

/-- LOG2 (R219). -/
def sfLog2 : FVal → Nat × BitVec 5
  | .nan => (fp32.qnan, 0)
  | .inf n => if n then outNaN else (fp32.infCode, 0)
  | .fin n m e =>
    if m = 0 then (codeInf true, flagDZ)
    else if n then outNaN
    else
      let t := topExp m e
      let lead := Nat.log2 m
      if m = 2 ^ lead then roundInt fp32 .rne false t 0
      else
        let f := fxLn (m * fxOne / 2 ^ lead) * fxOne / fxLn2
        let v := t * (fxOne : Int) + f
        outFx (decide (v < 0)) v.natAbs

/-- TANH (R219): (e^2x - 1) / (e^2x + 1) of the magnitude. -/
def sfTanh : FVal → Nat × BitVec 5
  | .nan => (fp32.qnan, 0)
  | .inf n => (code1 n, 0)
  | .fin n m e =>
    if m = 0 then (codeZero n, 0)
    else if 6 < topExp m e then outFx n (fxOne - 1)
    else
      let y := fxScale (fxExpOf (2 * fxOf false m e))
      outFx n ((y - fxOne) * fxOne / (y + fxOne))

/-- LOGISTIC (R219): 1 / (1 + e^-x). -/
def sfLogistic : FVal → Nat × BitVec 5
  | .nan => (fp32.qnan, 0)
  | .inf n => (if n then 0 else code1 false, 0)
  | .fin n m e =>
    if m = 0 then (0x3F000000, 0)
    else if 8 < topExp m e then (if n then outTiny else outFx false (fxOne - 1))
    else
      let y := fxScale (fxExpOf (fxOf false m e))
      outFx false (if n then fxOne * fxOne / (fxOne + y) else y * fxOne / (fxOne + y))

/-- One result of SFN (R218): `f` is FUNC. -/
def sfnOf (f x y : Nat) : Nat × BitVec 5 :=
  let v := fp32.decode x
  match f with
  | 0 => sfDiv v (fp32.decode y)
  | 1 => sfDiv (.fin false 1 0) v
  | 2 => sfSqrt v
  | 3 => sfRsqrt v
  | 4 => sfExp true v
  | 5 => sfExp false v
  | 6 => sfLog2 v
  | 7 => sfTanh v
  | _ => sfLogistic v

/-! ### SFN -/

/-- FUNC, COUNT and the offset of y (R218); bits [63:53] are ignored: log entry 77 (DEDUCED). -/
def Op.func (o : Op) : Nat := fld o.em 13 4
def Op.count (o : Op) : Nat := fld o.o3 0 32
def Op.yAt (o : Op) : Nat := fld o.o3 32 21
/-- Do two ranges of `n` bytes overlap other than identically? -/
def crosses (a b n : Nat) : Bool := a ≠ b && overlap a n b n
/-- The ERR code of an SFN's checks at its start (R216, R218). Log entry 56 (DESIGN CHOICE). -/
def sfnErr (o : Op) : Nat :=
  let n := 4 * o.count
  let d := o.o1.toNat
  let x := o.o2.toNat
  let y := o.yAt
  let two := o.func == 0
  let bad := fun a => a % 4 ≠ 0 || decide (scratchSize < a + n)
  if bad d || bad x || (two && bad y) then 2
  else if crosses d x n || (two && crosses d y n) then 4
  else 0

/-- Elements of one step of SFN, GATH and SCAT (R264). -/
def stepElems : Nat := 1024
/-- Steps for a number of elements. -/
def stepCount (n : Nat) : Nat := (n + stepElems - 1) / stepElems
/-- The elements of a step: the first, and how many. -/
def stepRange (n i : Nat) : Nat × Nat := (i * stepElems, min stepElems (n - i * stepElems))

/-- The end of a step of SFN, GATH or SCAT: after the last one the operation completes (R212), in doubles once its signatures have
compared equal (R429). -/
def State.endElems (s : State) (c q : Nat) : State :=
  match (s.core c).headOp q with
  | none => s
  | some o =>
    if o.next < o.total then s
    else if s.doubled c then s.onHead c q fun o => { o with performed := true }
    else s.finish c q o

/-- A special-function step reads its sources, then writes (R218). -/
def execSfnStep (core : Nat) (s : State) : Out :=
  match (s.core core).headOp 4 with
  | none => .next s
  | some o =>
    if o.code ≠ .sfn || !o.atStep || !s.lively core then .next s
    else
      let own := core + 1
      let (i0, n) := stepRange o.count o.next
      let span := fun a => spanKeys own (a + 4 * i0, 4 * n)
      match s.operands core 4 o (span o.o2.toNat ++ (if o.func = 0 then span o.yAt else [])) with
      | (none, s) => .next s
      | (some ls, s) =>
        let rs := (List.range n).map fun j =>
          let w := fun a => lineNat ls own (a + 4 * (i0 + j)) 4
          sfnOf o.func (w o.o2.toNat) (w o.yAt)
        let flags := rs.foldl (fun f r => f ||| r.2) (0 : BitVec 5)
        let d := o.o1.toNat
        let p : Puts := (rs.mapIdx fun j r => (j, r)).flatMap fun (j, r) =>
          (leBytes r.1 4).mapIdx fun b v => (own, d + 4 * (i0 + j) + b, v)
        let left := if i0 + n < o.count then spanKeys own (d + 4 * (i0 + n), 4) else []
        match s.hurdle core o p with
        | .none => .next ((s.landStep core 4 o p (lastKeys p.keys left) [] flags).endElems core 4)
        | _ => .next (s.onHead core 4 fun o => { o with blocked := true })

/-! ### GATH and SCAT (R220) -/

/-- p and COUNT (R220); bits [31:21] of O2 are ignored: log entry 77 (DEDUCED). -/
def Op.gp (o : Op) : Nat := fld o.o2 0 21
def Op.gcount (o : Op) : Nat := fld o.o2 32 32
/-- Bytes of a row. -/
def Op.rowLen (o : Op) : Nat := recCols o.recA * (fmtBits (recFmt o.recA) / 8)
/-- The ERR code of the checks at the start (R216, R220). Log entry 56 (DESIGN CHOICE). -/
def gatherErr (c : Nat) (cores : List Nat) (o : Op) : Nat :=
  let t := o.recA
  let f := recFmt t
  let x := o.o3.toNat
  if recBad t then 6
  else if recBax t = 1 || isMx f || decide (0xD ≤ f) then 1
  else if recRows t = 0 || recCols t = 0 || o.gp % 128 ≠ 0 || x % 4 ≠ 0 || decide (scratchSize < x + 4 * o.gcount) ||
      decide (scratchSize < o.gp + o.gcount * o.rowLen) || !recInside c t (cells 0 0 (recRows t) (recCols t)) then 2
  else if outside cores t then 8
  else 0
/-- The addresses of the bytes of a table row. -/
def Op.rowAddrs (o : Op) (row : Nat) : List Nat :=
  (List.range (recCols o.recA)).flatMap fun j =>
    let x := recSpan o.recA row j
    (List.range x.2).map (x.1 + ·)

/-- The address of an index. -/
def Op.idxAt (o : Op) (i : Nat) : Nat := o.o3.toNat + 4 * i
/-- The lines of `n` indices from one on. -/
def Op.idxKeys (o : Op) (c i n : Nat) : List Nat := spanKeys (c + 1) (o.idxAt i, 4 * n)
/-- The indices that a step names, each with its number. -/
def Op.idxRows (o : Op) (ls : List (Nat × List Byte)) (c i n : Nat) : List (Nat × Nat) :=
  (List.range n).map fun j => (i + j, lineNat ls (c + 1) (o.idxAt (i + j)) 4)
/-- The lines of the scratchpad that hold a row of the table. -/
def Op.rowKeys (o : Op) (c row : Nat) : List Nat :=
  (distinct ((o.rowAddrs row).map (· / 128))).map (lineKey (recSpace c o.recA))
/-- The table lines that a scatter may set full after the step that ends before index `i`, out of those that it has written: the indices to
come are read ahead of their steps (R178), and while some of their lines are empty no line is known to have had its last byte (R212, R220).
Log entry 57 (DEDUCED). -/
def State.scatterFills (s : State) (c : Nat) (o : Op) (i : Nat) (written : List Nat) : List Nat × List (Nat × List Byte) :=
  let (g, _) := s.grabLines c o.frame o.since (distinct (o.idxKeys c i (o.gcount - i))) o.idxLines
  if i < o.gcount && !g.missing.isEmpty then ([], g.lines)
  else
    let later := ((o.idxRows g.lines c i (o.gcount - i)).filter fun x => x.2 < recRows o.recA).flatMap fun x => o.rowKeys c x.2
    (lastKeys written later, g.lines)

/-- A gather or scatter step moves its rows (R220). Log entry 57 (DEDUCED). -/
def execGatherStep (core : Nat) (s : State) : Out :=
  match (s.core core).headOp 5 with
  | none => .next s
  | some o =>
    if (o.code ≠ .gath && o.code ≠ .scat) || !o.atStep || !s.lively core then .next s
    else
      let own := core + 1
      let sp := recSpace core o.recA
      let (i0, n) := stepRange o.gcount o.next
      match s.operands core 5 { o with fetched := o.fetched ++ o.idxLines } (o.idxKeys core i0 n) with
      | (none, s) => .next s
      | (some ls, s) =>
        let rows := o.idxRows ls core i0 n
        let good := rows.filter fun x => x.2 < recRows o.recA
        let side := fun (i : Nat) => o.gp + i * o.rowLen
        let gather := o.code == .gath
        let keys := good.flatMap fun x => if gather then o.rowKeys core x.2 else spanKeys own (side x.1, o.rowLen)
        match s.operands core 5 { o with fetched := ls } keys with
        | (none, s) => .next s
        | (some ls, s) =>
          let val := fun sp a => BitVec.ofNat 8 (lineByte ls sp a)
          let p : Puts :=
            if gather then
              rows.flatMap fun x =>
                let src := if x.2 < recRows o.recA then (o.rowAddrs x.2).map (val sp) else List.replicate o.rowLen 0
                src.mapIdx fun k v => (own, side x.1 + k, v)
            else
              good.flatMap fun x => (o.rowAddrs x.2).mapIdx fun k a => (sp, a, val own (side x.1 + k))
          let written := distinct (o.unfilled ++ p.keys)
          let (fills, ahead) :=
            if gather then (lastKeys p.keys (if i0 + n < o.gcount then spanKeys own (side (i0 + n), o.rowLen) else []), [])
            else s.scatterFills core o (i0 + n) written
          let sticky := rows.any fun x => recRows o.recA ≤ x.2
          match s.hurdle core o p with
          | .stray => .next (s.strayAccess core)
          | .held id tgt => .next ((s.onHead core 5 fun o => { o with blocked := true }).noteHold id 9 tgt core)
          | .none =>
            let s := s.onHead core 5 fun o =>
              { o with
                sticky9 := o.sticky9 || sticky
                err := if o.sticky9 || sticky then 9 else 0
                idxLines := ahead
                unfilled := if gather then [] else written.filter fun k => !fills.contains k }
            .next ((s.landStep core 5 o p fills [] 0).endElems core 5)
          | _ => .next (s.onHead core 5 fun o => { o with blocked := true })

end Sys2Proof.Machine
end

