-- ==== Sys2Proof/Machine/Start.lean ====
section
/-! DEFINITION. Sys2Proof/Machine/Start.lean: OPERATION_START (spec/13 R265) and SURROGATE_INVOCATION (spec/10 R240, spec/22 R388). -/

namespace Sys2Proof.Machine

/-! ### Start -/

/-- Do scratchpad accesses of the core's memory slots still precede the start of an operation (R300)? -/
def Core.accsBefore (k : Core) (bundle : Nat) : Bool :=
  k.arch.accs.any fun c => decide (c.bundle ≤ bundle)
/-- May the operation start: it is at the head of its queue and unstarted, every operation that it comes after has performed, and the
core's earlier scratchpad accesses have too (R173, R208, R265, R300)? -/
def State.mayStart (s : State) (c : Nat) (o : Op) : Bool :=
  let k := s.core c
  s.engines c && o.state == .unstarted && (o.after.all fun x => k.performedUpTo x.1 x.2) && !k.accsBefore o.bundle
/-- The core set of a core's launch (R341). -/
def State.coreSet (s : State) (c : Nat) : List Nat := ((s.launchOf c).map Launch.held).getD []
/-- An operation that passes its checks starts, with its number of steps; one without any has performed. -/
def State.begin (s : State) (c q : Nat) (o : Op) (total : Nat) : State :=
  if total = 0 then s.finish c q { o with benchSteps := false }
  else s.onHead c q fun o => { o with state := .claiming, total := total }
/-- An operation starts or fails its checks. -/
def State.check (s : State) (c q : Nat) (o : Op) (err total : Nat) : State :=
  if err = 0 then s.begin c q o total else s.fail c q o err
/-- Start an operation (R175, R181, R183, R212, R216, R265, R388). Log entry 28 (DEDUCED). Log entry 56 (DESIGN CHOICE). -/
def State.startOp (s : State) (c q : Nat) (o : Op) : State :=
  let k := s.core c
  match o.code with
  | .mcfg =>
    if mxcfgOk o.o1 then
      (s.setCore c { k with mxcfg := Sparse.set 0 k.mxcfg q o.o1 }).finish c q { o with steps := 1, benchSteps := true }
    else s.fail c q o 5
  | .mlat =>
    let e := matrixErr k c q (s.coreSet c) o
    if e = 0 then s.onHead c q fun o => { o with state := .bench, total := 1 } else s.fail c q o e
  | .mma => s.check c q o (matrixErr k c q (s.coreSet c) o) o.blocks
  | .cpy | .cpyt | .cpyn | .cpym => s.check c q o (copyErr c (s.coreSet c) o) o.steps?.length
  | .sfn => s.check c q o (sfnErr o) (stepCount o.count)
  | .gath | .scat => s.check c q o (gatherErr c (s.coreSet c) o) (stepCount o.gcount)
  | .surrogate => s.check c q o 0 1

/-- An operation that has reached the head of its queue starts (R265), and is a candidate in the arbitration of that cycle (R267). -/
def execOperationStart (core queue : Nat) (s : State) : Out :=
  match (s.core core).headOp queue with
  | none => .next s
  | some o =>
    if !s.mayStart core o then .next s
    else
      .next ((s.startOp core queue o).arbitration (clusterOf core) (queueKind queue))

/-! ### Surrogate invocations -/

/-- The outputs of an invocation (R388). -/
def Op.outputs (o : Op) (x : Region) : List VReg := invoke (netOf o.snapS x.nin x.nout) x.nout (vecsOfBytes o.snapE x.nin)
/-- The outputs reach the core (R240): they are compared at the SGEND of a sampled invocation, or written as the SGBEG's results, and
the streams go on behind the region; while a rewound SGBEG is still to be issued again they are kept for it (R294). -/
def State.deliverOutputs (s : State) (c : Nat) (o : Op) (x : Region) : State :=
  let ys := o.outputs x
  let r := o.o1.toNat
  let k := s.core c
  match k.wait with
  | .invocation r' next =>
    if r' ≠ r then s
    else
      let a := k.arch.writeOutputs k.arch.rb x.outs ys
      let a := if k.deferred.isSome then a.fly .execute .bcol 1 0 else a
      let a := a.go ⟨next, 0, some (BitVec.ofNat 64 x.fin), none, false, false, a.rb, none⟩
      s.setCore c ({ k with arch := a, wait := .none, deferred := none }.closeResult (x.outs.zip ys) (some (next, [BitVec.ofNat 64 x.fin])))
  | _ =>
    if k.wait == .none && k.seg.recorded.any (·.isOpen) then s.setCore c (k.closeResult (x.outs.zip ys) (some (0, [])))
    else match k.region with
    | some g => if g.region = r ∧ g.index = o.o2 then s.setCore c { k with region := some { g with compare := some ys } } else s
    | none => s
/-- An invocation has been evaluated: it is counted in FITS (R386), its outputs reach the core, and it completes. -/
def State.endInvocation (s : State) (c : Nat) (o : Op) : State :=
  let r := o.o1.toNat
  match s.regionFor c r with
  | none => s.finish c 6 o
  | some (l, x) =>
    let s := s.onRegion l.module r fun x => x.setWord 0x30 8 (min (x.word64 0x30 + 1) (2 ^ 64 - 1))
    (s.deliverOutputs c o x).finish c 6 o

/-- A surrogate invocation evaluates its network (R388). -/
def execSurrogateInvocation (core : Nat) (s : State) : Out :=
  match (s.core core).headOp 6 with
  | none => .next s
  | some o =>
    if !o.atStep || !s.lively core then .next s
    else if s.doubled core then .next (s.onHead core 6 fun o => { o.stepped with performed := true })
    else .next (s.endInvocation core o.stepped)

end Sys2Proof.Machine
end

