-- ==== Sys2Proof/Machine/Doubles.lean ====
section
/-! DEFINITION. Sys2Proof/Machine/Doubles.lean: the two cores of a pair (spec/26 R426 to R429): commit signatures, SIGNATURE_COMPARE, the
result signatures of an engine operation, RESULT_SIGNATURE_COMPARE. -/

namespace Sys2Proof.Machine

/-! ### CRC-32 -/

/-- One bit of the CRC-32 of IEEE 802.3, the polynomial reflected (R427). -/
def crcBit (r : BitVec 32) : BitVec 32 := if r.getLsbD 0 then (r >>> 1) ^^^ 0xEDB88320 else r >>> 1
/-- One byte. -/
def crcByte (r : BitVec 32) (b : Byte) : BitVec 32 := (List.range 8).foldl (fun r _ => crcBit r) (r ^^^ b.setWidth 32)
/-- The CRC-32 of some bytes (R427, R429). -/
def crc32 (l : List Byte) : BitVec 32 := ~~~(l.foldl crcByte (BitVec.allOnes 32))

/-! ### The effects of a stream cycle (R427) -/

/-- The keys whose values differ between two tables, ascending in the second, with the value there. -/
def Sparse.changes {α : Type} [DecidableEq α] (d : α) (x y : Sparse α) : List (Nat × α) :=
  (distinct ((x ++ y).map (·.1))).filterMap fun n =>
    if Sparse.get d x n = Sparse.get d y n then none else some (n, Sparse.get d y n)
/-- The bytes that name a place of a unit: a number for the unit, eight bytes for the place. -/
def placeBytes (unit n : Nat) : List Byte := BitVec.ofNat 8 unit :: leBytes n 8
/-- The bytes of changed values of a width. -/
def changeBytes {α : Type} [DecidableEq α] (unit : Nat) (d : α) (f : α → List Byte) (x y : Sparse α) : List Byte :=
  (Sparse.changes d x y).flatMap fun e => placeBytes unit e.1 ++ f e.2
/-- The bytes of a write's data. -/
def WriteKind.data : WriteKind → List Byte
  | .store l => l.flatMap (·.2)
  | .red op sz _ v => placeBytes op sz ++ bytesOf 8 v
  | .vred op et _ b => placeBytes op et ++ b
  | .pieceCpyn _ b _ _ _ => b
  | .enqueueCpyn _ _ _ _ v => bytesOf 8 v
/-- The bytes of a request: the ranges that it touches, and its data. -/
def WriteKind.encode (w : WriteKind) : List Byte := (w.ranges.flatMap fun r => placeBytes 20 r.1 ++ leBytes r.2 8) ++ w.data
def OffKind.encode (r : OffKind) : List Byte :=
  (r.ranges.flatMap fun x => placeBytes 21 x.1 ++ leBytes x.2 8) ++ match r with
    | .amo op _ _ v => placeBytes 22 op ++ bytesOf 8 v
    | .cas _ _ cmp new => bytesOf 8 cmp ++ bytesOf 8 new
    | _ => []
/-- The bytes of a queue's entries. -/
def entriesBytes (l : List QEntry) : List Byte := l.flatMap fun e => leBytes e.id 8 ++ bytesOf 8 (e.val.getD 0)
def ventriesBytes (l : List VEntry) : List Byte := l.flatMap fun e => leBytes e.id 8 ++ leBytes (e.val.getD 0).toNat 1024
/-- The effects of the stream cycle between two moments of a core, as the bytes that its signature is taken over (R427). Log entry 39
(DESIGN CHOICE): the encoding is the implementation's. -/
def effects (x y : Shadow) : List Byte :=
  let a := x.arch
  let b := y.arch
  changeBytes 1 0 (bytesOf 8) a.s b.s ++ changeBytes 2 0 (bytesOf 8) a.a b.a ++ leBytes b.p.toNat 2 ++
    changeBytes 3 0 (fun v => leBytes v.toNat 1024) a.v b.v ++ changeBytes 4 0 (fun v => leBytes v.toNat 128) a.k b.k ++
    leBytes b.fflags.toNat 1 ++ changeBytes 5 [] entriesBytes a.qs b.qs ++ changeBytes 6 [] ventriesBytes a.vqs b.vqs ++
    changeBytes 7 0 (fun v => [v]) x.scratch y.scratch ++ changeBytes 8 true (fun v => [BitVec.ofNat 8 v.toNat]) x.full y.full ++
    ((y.writes.filter fun w => !x.writes.contains w).flatMap fun w => w.kind.encode) ++
    ((y.offs.filter fun r => !x.offs.contains r).flatMap fun r => r.kind.encode) ++ bytesOf 8 b.pc
/-- The follower's effects where a transient error has changed some of their bits (R426, R427). -/
def disturb (l : List Byte) (fault : Nat) : List Byte := leBytes (leNat l l.length ^^^ fault) l.length

/-! ### The follower (R426) -/

/-- The follower has issued what the leader has, two cycles later and with the leader's inputs (R426): its registers are the leader's, and in
its own scratchpad it has written what the leader has written in its. -/
def Core.followTo (k : Core) (x y : Shadow) : Core :=
  { k with
    arch := y.arch
    scratch := (Sparse.changes 0 x.scratch y.scratch).foldl (fun m e => Sparse.set 0 m e.1 e.2) k.scratch
    full := (Sparse.changes true x.full y.full).foldl (fun m e => Sparse.set true m e.1 e.2) k.full }
/-- One comparison has been made: requests of its cycle may leave (R428). -/
def Core.openGates (k : Core) : Core :=
  { k with gated := k.gated.filterMap fun g => if g.owed ≤ 1 then none else some { g with owed := g.owed - 1 } }
/-- Requests of cycles that have not compared equal never leave the pair (R428): the rewind makes them again. -/
def Core.dropGated (k : Core) : Core :=
  let free := fun (seq : Nat) => k.compared seq
  { k with
    out := k.out.filter fun w => free w.seq
    side := k.side.filter fun w => !w.own || free w.seq
    offs := k.offs.filter fun r => free r.seq
    seg := { k.seg with recorded := k.seg.recorded.filter fun r => !k.gated.any fun g => g.bundle == r.bundle && g.slot == r.slot }
    gated := [] }

/-- A pair compares the commit signatures of its first stream cycle that is still to be compared (R427, R428): `fault` names the bits of the
follower's effects that a transient error has changed. A mismatch counts as an error consumed in the segment.
Log entry 39 (DESIGN CHOICE). -/
def execSignatureCompare (leader fault : Nat) (s : State) : Out :=
  let k := s.core leader
  match k.unchecked with
  | [] => .next s
  | x :: rest =>
    if !s.doubled leader then .next s
    else
      let y := (rest.head?).getD k.shadow
      let e := effects x y
      if crc32 e = crc32 (disturb e fault) then
        .next ((s.setCore leader { k with unchecked := rest, base := y }.openGates).onCore (leader + 1) fun f => f.followTo k.base y)
      else
        .next (s.setCore leader
          { k with unchecked := [], mustClose := true, seg := { k.seg with errorAt := some k.arch.issued } }.dropGated)

/-! ### Engine operations (R429) -/

/-- A mismatch: the operation is performed again from its start, with what it captured at issue and claimed. -/
def Op.again (o : Op) : Op :=
  { o with
    mismatches := o.mismatches + 1
    performed := false
    next := 0
    acc := o.base
    flags := 0
    err := 0
    sticky9 := false
    held := []
    own := []
    spill := []
    remains := false
    dropped := false
    idxLines := []
    unfilled := []
    fetched := []
    stepEnded := false
    blocked := false }
/-- The result signatures match: the leader's writes are released, lines fill, the operation has performed. A CPYN's bytes from an absent
subpage on become its remainder (R369). -/
def State.releaseOp (s : State) (c q : Nat) (o : Op) : State :=
  match o.code with
  | .mma => (s.storeTile c q o).finish c q o
  | .mlat => (s.onArch c fun a => a.putLatch o).finish c q o
  | .surrogate => s.endInvocation c o
  | _ =>
    let done := fun (p : Puts) (o : Op) =>
      ((s.land c o.frame p).fillLines (distinct (Puts.keys o.own ++ Puts.keys p))).endCopy c q { o with held := [], own := [], released := true }
    match s.hurdle c o o.held with
    | .held id tgt => s.noteHold id 9 tgt (flat c)
    | .none => done o.held o
    | .absent va =>
      if o.code = .cpyn then
        let high := fun (x : Nat × Nat × Byte) => decide (va ≤ x.2.1)
        done (o.held.filter (!high ·)) { o with spill := (o.held.filter high).map (·.2) ++ o.spill }
      else s
    | _ => s
/-- The bytes that a result signature is taken over: every destination byte, and the completion word (R429). -/
def State.resultBytes (s : State) (c q : Nat) (o : Op) : List Byte :=
  (match o.code with
   | .mma => (List.range 64).flatMap o.rowBytes
   | .mlat => (o.snapE ++ o.snapS).map (·.2)
   | .surrogate => ((s.regionFor c o.o1.toNat).map fun x => (o.outputs x.2).flatMap fun y => leBytes y.toNat 1024).getD []
   | _ => (o.own ++ o.held).map (·.2.2) ++ o.spill.map (·.2)) ++ leBytes o.word.toNat 2 ++ leBytes q 1
/-- The result signatures of an operation are compared (R429): `fault` names the bits of the follower's result that a transient error has
changed; the third mismatch ends the launch. Log entry 39 (DESIGN CHOICE). -/
def execResultSignatureCompare (leader queue fault : Nat) (s : State) : Out :=
  match (s.core leader).headOp queue with
  | none => .next s
  | some o =>
    let b := s.resultBytes leader queue o
    if !o.performed || o.released || !s.lively leader then .next s
    else if crc32 b = crc32 (disturb b fault) then .next (s.releaseOp leader queue o)
    else if 2 ≤ o.mismatches then .next (s.pinCore leader causeMismatch)
    else .next (s.onHead leader queue Op.again)

end Sys2Proof.Machine
end

