-- ==== Sys2Proof/Machine/Events.lean ====
section
/-! DEFINITION. Sys2Proof/Machine/Events.lean: what arrives in a core's queues and deque (spec/01 R13, spec/10 R229, R231, R233,
spec/21 R371, R374): EVENT_ENTRY, MESSAGE_ARRIVAL, STEAL_ANSWER, DEQUE_TOP_DELIVERY. -/

namespace Sys2Proof.Machine

/-- Remove the first element that a test accepts. -/
def dropFirst {α : Type} (f : α → Bool) : List α → List α
  | [] => []
  | x :: l => if f x then l else x :: dropFirst f l

/-- Does the core hold the context of a launch, not saved? -/
def State.present (s : State) (c id : Nat) : Bool := (s.core c).launch == some id && (s.core c).halt ≠ .saved

/-! ### Events (R13) -/

/-- The event KIND of a record (R238). -/
def HeldEvent.kind (e : HeldEvent) : Nat := fld e.w0 60 4
/-- Is the entry of an event an order-sensitive choice (R371): is it no completion of the core's own engine queues? Log entry 83 (DEDUCED). -/
def HeldEvent.sensitive (e : HeldEvent) : Bool := e.source ≠ e.target || e.kind ≠ 1
/-- An event record enters an EQ: its two words together. -/
def State.enterEvent (s : State) (e : HeldEvent) : State :=
  s.onCore e.target fun k => (k.arrive .eq (some e.w0) none).arrive .eq (some e.w1) none
/-- The events held for the EQ of a core that may enter next: the first of each source and KIND. -/
def State.nextEvents (s : State) (c : Nat) : List HeldEvent :=
  (s.heldEvents.filter fun e => e.target == c && s.present c e.launch).foldl
    (fun l e => if l.any fun x => x.source == e.source && x.kind == e.kind then l else l ++ [e]) []

/-- A held event record enters the EQ once there is room (R13). -/
def execEventEntry (core idx : Nat) (s : State) : Out :=
  match (s.nextEvents core)[idx]? with
  | none => .next s
  | some e =>
    if Q.eq.depth < ((s.core core).arch.q .eq).length + 2 then .next s
    else
      let go := fun (s : State) => { s.enterEvent e with heldEvents := dropFirst (· == e) s.heldEvents }
      if e.sensitive then
        .next (s.chooseThen e.launch 4 core e.source (e.kind * 2 ^ 28) true go)
      else .next (go s)

/-! ### Messages (R231, R233) -/

/-- The queue that a message enters. -/
def Message.queue (m : Message) : Q := if m.toMb || m.steal then .mb else .iq
/-- TGT of a message in the order log (R371). -/
def Message.tgt (m : Message) : Nat := (if m.steal then 2 else if m.toMb then 1 else 0) * 2 ^ 9 + m.target
/-- Has the message's target room for it? A request to a victim that has ended its window needs none. -/
def State.msgFits (s : State) (c : Nat) (m : Message) : Bool :=
  (m.steal && s.endedWindow c m.target) || decide (((s.core m.target).arch.q m.queue).length < m.queue.depth)
/-- Does a replay hold the message until another sender's has arrived (R374)? -/
def State.msgHeld (s : State) (c : Nat) (m : Message) : Bool :=
  match s.launchOf c with
  | none => false
  | some l => l.replay && ((nextLogged l.replayLog 5 m.tgt).any fun r => r.src != c)
/-- The first message that can arrive: no earlier one goes to the same target; one that a replay holds stands behind the others. -/
def State.nextMessage (s : State) (c : Nat) : Option Message :=
  let l := (s.core c).msgs.foldl (fun l (m : Message) => if l.any fun x => x.target == m.target then l else l ++ [m]) []
  let l := l.filter (s.msgFits c)
  (l.find? fun m => !s.msgHeld c m).or l.head?

/-- A message, or a steal request, arrives (R231, R233); a request whose victim has ended its window is answered "nothing", in a replay once
the log has it (R374). -/
def execMessageArrival (core : Nat) (s : State) : Out :=
  match s.nextMessage core, (s.core core).launch with
  | some m, some id =>
    let sent := fun (s : State) => s.onCore core fun k => { k with msgs := dropFirst (· == m) k.msgs }
    if !s.present core id || !s.present m.target id then .next s
    else if m.steal && s.endedWindow core m.target then
      .next (if ((s.launch? id).map fun l => l.arrives core m.target).getD false then s.chooseThen id 5 m.tgt core 0 false sent
        else (sent s).answerNothing id m.target core)
    else
      .next (s.chooseThen id 5 m.tgt core 0 false fun s =>
        (sent s).onCore m.target fun k =>
          if m.steal then k.arrive .mb none (some core) else k.arrive m.queue (some m.value) none)
  | _, _ => .next s

/-! ### Steals (R231) -/

/-- A branch that was put off behind an undecided instruction: suppressed if that has redirected, else taken with its link (R452); none
while its link finds no room. -/
def Core.settleDeferred (k : Core) (redirected : Bool) : Option Core :=
  match k.deferred with
  | none => some k
  | some j =>
    let k := { k with deferred := none }
    if redirected then some { k with arch := k.arch.fly .execute .bcol 1 0 }
    else
      let linked : Got Arch := match j.link with
        | none => .ok k.arch
        | some (n, v) => ({ Part.idle with rb := j.rb }).dstS n v 1 0 k.arch
      match linked with
      | .ok a => some { k with arch := a.go j }
      | _ => none
/-- The stealer takes up its answer (R230, R231). -/
def Core.takeAnswer (k : Core) (r : Option Record) : Option Core :=
  match r with
  | none => (k.settleDeferred false).map fun k => { k.closeResult [] none with wait := .none }
  | some r =>
    (k.settleDeferred true).map fun k =>
      { k.closeResult [] (some (r.pc, r.args)) with
        arch := (k.arch.loadArgs r.args).go ⟨r.pc, 0, none, none, false, false, k.arch.rb, none⟩
        wait := .none }
/-- May a waiting request be answered with nothing: its victim has ended its window; under replay, the log says so (R374)? -/
def State.nothingDue (s : State) (l : Launch) (c victim : Nat) : Bool :=
  if l.replay then
    !l.arrives c victim && match nextLogged l.replayLog 6 victim with
    | some r => r.src == c && r.aux == stealNothing
    | none => s.endedWindow c victim
  else s.endedWindow c victim

/-- The stealer goes on with the answer that has come; a request that is due is answered with nothing (R231). -/
def execStealAnswer (core : Nat) (s : State) : Out :=
  let k := s.core core
  match k.wait, s.launchOf core with
  | .answered r, some _ =>
    if s.lively core then .next ((k.takeAnswer r).elim s (s.setCore core)) else .next s
  | .steal v, some l =>
    if s.lively core && s.nothingDue l core v then
      .next ((s.onCore core fun k => { k with msgs := k.msgs.filter fun m => !m.steal }).answerNothing l.id v core)
    else if s.lively core && l.replay then .next (s.noteHold l.id 6 v core)
    else .next s
  | _, _ => .next s

/-! ### Deques (R229) -/

/-- The core of the record's window that runs it when its own core takes no further entry: its sender, or the first that still is in the
window (R289). Log entry 82 (DESIGN CHOICE). -/
def State.heir (s : State) (t : Transit) : Option Nat :=
  (t.sender :: allCores).find? fun c => (s.core c).run == .running && s.inWindow c t
/-- A placed record arrives at the top of its core's deque (R229), in the window that it was spawned in, and in a replay when its arrival is
the next one logged (R374); a deque that is full is an error pinned to the launch (R228). -/
def execDequeTopDelivery (idx : Nat) (s : State) : Out :=
  match s.transits[idx]? with
  | none => .next s
  | some t =>
    let before := (s.transits.take idx).any fun x => x.target == t.target && x.sender == t.sender
    let push := fun (c : Nat) (s : State) =>
      if dequeDepth ≤ (s.core c).deque.length then s.pin t.launch causeDeque t.sender
      else { s.onCore c fun k => k.pushTop t.record with transits := s.transits.eraseIdx idx }
    if (s.core t.target).run == .ended && (s.core t.target).launch == some t.launch then
      .next (((s.heir t).map fun c => push c s).getD s)
    else if before || !s.present t.target t.launch || (s.core t.target).run ≠ .running || !s.inWindow t.target t then .next s
    else .next (s.chooseThen t.launch 5 (3 * 2 ^ 9 + t.target) t.sender 0 false (push t.target))

end Sys2Proof.Machine
end

