-- ==== Sys2Proof/Machine/Training.lean ====
section
/-! DEFINITION. Sys2Proof/Machine/Training.lean: what the home does with a frame's samples (spec/22 R389 to R394): requests, training,
comparison and the moves between states. -/

namespace Sys2Proof.Machine

/-! ### Parameters -/

/-- FP32 operations whose flags are discarded. -/
def kadd (a b : Nat) : Nat := (fAdd fp32 a b).1
def ksub (a b : Nat) : Nat := (fSub fp32 a b).1
def kmul (a b : Nat) : Nat := (fMul fp32 a b).1
/-- Write a row of words. -/
def Region.putRow (x : Region) (off : Nat) (l : List Nat) : Region :=
  (l.mapIdx fun i v => (i, v)).foldl (fun x p => x.setWord (off + 4 * p.1) 4 p.2) x
/-- Write rows of words a stride apart. -/
def Region.putRows (x : Region) (off stride : Nat) (l : List (List Nat)) : Region :=
  (l.mapIdx fun i v => (i, v)).foldl (fun x p => x.putRow (off + stride * p.1) p.2) x
/-- Write the parameters of a network (R385). -/
def Region.putNet (x : Region) (n : Net) : Region :=
  let x := ((x.putRows 0x100 64 n.w1).putRow 0x900 n.b1).putRows 0x980 128 n.w2
  ((x.putRow 0x1980 n.b2).putRows 0x1A00 128 n.w3).putRow 0x1E00 n.b3
/-- The network of a region. -/
def Region.net (x : Region) : Net := netOf x.block x.nin x.nout
/-- Every parameter. -/
def Net.all (n : Net) : List Nat := n.w1.flatten ++ n.b1 ++ n.w2.flatten ++ n.b2 ++ n.w3.flatten ++ n.b3
/-- Combine two networks parameter by parameter. -/
def Net.zip (f : Nat → Nat → Nat) (a b : Net) : Net :=
  let row := List.zipWith f
  ⟨List.zipWith row a.w1 b.w1, row a.b1 b.b1, List.zipWith row a.w2 b.w2, row a.b2 b.b2, List.zipWith row a.w3 b.w3, row a.b3 b.b3⟩

/-- The initial weight at an offset of the block (R392). -/
def initWeight (region gen off e : Nat) : Nat :=
  let seed := BitVec.ofNat 64 (0x4B55000000000000 + region * 2 ^ 32 + gen)
  let u : Nat := (place64 seed (BitVec.ofNat 64 (off / 4))).toNat / 2 ^ 41
  (roundInt fp32 .rne false ((u : Int) - 2 ^ 22) (-((22 + e : Nat) : Int))).1
/-- Initialisation (R392): GEN counts up, biases are +0, weights come from PLACE64. -/
def Region.initialise (x : Region) (region : Nat) : Region :=
  let gen := min (x.word64 0 / 2 ^ 32 + 1) (2 ^ 32 - 1)
  let x := x.setField 0 32 32 gen
  let w := fun off stride n e rows => (List.range rows).map fun j => (List.range n).map fun i =>
    initWeight region gen (off + stride * j + 4 * i) e
  x.putNet
    { w1 := w 0x100 64 x.nin 2 32
      b1 := List.replicate 32 0
      w2 := w 0x980 128 32 3 32
      b2 := List.replicate 32 0
      w3 := w 0x1A00 128 32 3 x.nout
      b3 := List.replicate x.nout 0 }

/-! ### One step of descent (R391) -/

/-- The gradient after one more sample. -/
def Net.gradient (n g : Net) (x t : List Nat) : Net :=
  let p := n.forward x
  let d3 := List.zipWith ksub p.y t
  let back := fun (z : List Nat) (rows : List (List Nat)) (d : List Nat) =>
    z.mapIdx fun j v => if positive v then (rows.zip d).foldl (fun a q => kfma (at0 q.1 j) q.2 a) 0 else 0
  let d2 := back p.z2 n.w3 d3
  let d1 := back p.z1 n.w2 d2
  let upd := fun (g : List (List Nat)) (d v : List Nat) => List.zipWith (fun row d => List.zipWith (fun a x => kfma d x a) row v) g d
  { w1 := upd g.w1 d1 x
    b1 := List.zipWith kadd g.b1 d1
    w2 := upd g.w2 d2 p.h1
    b2 := List.zipWith kadd g.b2 d2
    w3 := upd g.w3 d3 p.h2
    b3 := List.zipWith kadd g.b3 d3 }
/-- A network of zeros of the same shape. -/
def Net.zeros (n : Net) : Net := n.zip (fun _ _ => 0) n
/-- `sgd_step` (R391): none if some new parameter is not finite. Log entry 58 (DEDUCED). -/
def Region.sgd (x : Region) (batch : List (List Nat × List Nat)) : Option Region :=
  let n := x.net
  let g := batch.foldl (fun g p => n.gradient g p.1 p.2) n.zeros
  let lr := x.word32 0x14
  let n' := n.zip (fun p g => ksub p (kmul lr (kmul g 0x3C800000))) g
  if n'.all.all finiteCode then
    let x := x.putNet n'
    some (x.setWord 0x28 8 (min (x.word64 0x28 + 1) (2 ^ 64 - 1)))
  else none

/-! ### Samples -/

/-- A lane sample: the invocation and its core, or none for a carried one; inputs, true outputs, surrogate outputs. -/
structure LaneSample where
  origin : Option (Nat × Nat)
  x : List Nat
  t : List Nat
  y : List Nat
  deriving DecidableEq, Repr, Inhabited

/-- The samples held in the sample buffer (R385). -/
def Region.carried (x : Region) : List LaneSample :=
  (List.range (x.word64 0x38)).map fun i =>
    let w := fun k => x.word32 (0x2000 + 96 * i + 4 * k)
    ⟨none, (List.range x.nin).map w, (List.range x.nout).map fun o => w (16 + o), []⟩
/-- Carry samples over to the next frame. -/
def Region.carry (x : Region) (l : List LaneSample) : Region :=
  let x := (l.mapIdx fun i p => (i, p)).foldl
    (fun x (i, p) => (x.putRow (0x2000 + 96 * i) p.x).putRow (0x2000 + 96 * i + 64) p.t) x
  x.setWord 0x38 8 l.length
/-- The lanes of a sample, ascending. -/
def Sample.lanes (s : Sample) : List LaneSample :=
  (List.range 256).map fun i =>
    let col := fun (l : List (List W32)) => l.map fun r => ((r[i]?).getD 0).toNat
    ⟨some (s.index, s.core), col s.inputs, col s.truth, col s.outputs⟩
/-- Is a training sample finite (R389)? -/
def LaneSample.finite (p : LaneSample) : Bool := (p.x ++ p.t).all finiteCode
/-- The samples that the home takes of a frame (R390): those that are finite, if it trains, at most 1,024; and how many it skips.
Log entry 58 (DEDUCED). -/
def takeSamples (training : Bool) (l : List LaneSample) : List LaneSample × Nat :=
  let good := if training then l.filter (·.finite) else l
  (good.take 1024, l.length - (good.take 1024).length)

/-- WFILL, WFAIL and W (R386). -/
def Region.wfill (x : Region) : Nat := x.word64 0x18 / 2 ^ 32
def Region.wfail (x : Region) : Nat := x.word64 0x18 % 2 ^ 32
def Region.window (x : Region) : Nat := x.word64 8 / 2 ^ 16 % 2 ^ 13
/-- Count a compared sample. -/
def Region.compared (x : Region) (pass : Bool) : Region :=
  x.setWord 0x18 8 ((x.wfill + 1) * 2 ^ 32 + x.wfail + (if pass then 0 else 1))

/-- How the processing of a region stands: the region, the state changes made, each with the invocation that decided it, and whether
it has stopped. -/
structure Fitting where
  x : Region
  moves : List (Nat × Option (Nat × Nat))
  stop : Bool
  deriving DecidableEq, Repr, Inhabited

/-- Samples of a batch counted one by one (R391): FITTED as soon as a full window has few enough failures, which leaves WFILL and WFAIL as
they stand. -/
def Fitting.count (f : Fitting) : List LaneSample → Fitting
  | [] => f
  | p :: l =>
    if f.stop then f
    else
      let x := f.x.compared (passLane f.x (f.x.net.forward p.x).y p.t)
      if x.wfill < x.window then Fitting.count { f with x := x } l
      else if x.wfail ≤ x.window / 16 then
        { x := (x.setState 2).setWord 0x38 8 0, moves := f.moves ++ [(2, p.origin)], stop := true }
      else Fitting.count { f with x := x.clearWindow } l
/-- FITTING (R391): batches of 64, the remainder carried. -/
def Fitting.fit : Nat → Fitting → List LaneSample → Fitting
  | 0, f, _ => f
  | fuel + 1, f, l =>
    if l.length < 64 then { f with x := f.x.carry l }
    else
      let batch := l.take 64
      let f := f.count batch
      if f.stop then f
      else match f.x.sgd (batch.map fun p => (p.x, p.t)) with
        | some x => Fitting.fit fuel { f with x := x } (l.drop 64)
        | none => { x := f.x.invalid, moves := f.moves ++ [(4, ((batch.getLast?).bind fun p => p.origin))], stop := true }
/-- FITTED (R391): compared samples until the window has failed. -/
def Fitting.watch (f : Fitting) : List LaneSample → Fitting
  | [] => f
  | p :: l =>
    let x := f.x.compared (passLane f.x p.y p.t)
    if x.window / 16 < x.wfail then
      { x := ((x.setState 3).clearWindow).setField 0x10 0 32 (x.word64 8 / 2 ^ 32), moves := f.moves ++ [(3, p.origin)], stop := true }
    else Fitting.watch { f with x := if x.window ≤ x.wfill then x.clearWindow else x } l

/-! ### Requests (R394) -/

/-- A request takes effect. -/
def Region.configure (x : Region) (q : CfgReq) : Region :=
  let v := q.value.toNat
  match q.field with
  | 0 => (x.setWord (64 + 4 * q.j) 4 v).clearWindow
  | 1 => (x.setWord (96 + 4 * q.j) 4 v).clearWindow
  | 2 => (x.setField 8 16 13 v).clearWindow
  | 3 => x.setField 8 0 5 v
  | 4 =>
    let x := x.setField 8 32 32 v
    if x.state = 3 then x.setField 0x10 0 32 v else x
  | _ => x.setField 0x10 32 32 v

/-! ### A frame -/

/-- Order by a number. -/
def sortOn {α : Type} (f : α → Nat) (l : List α) : List α :=
  l.foldl (fun sorted x => sorted.takeWhile (fun y => decide (f y ≤ f x)) ++ x :: sorted.dropWhile fun y => decide (f y ≤ f x)) []

/-- Process one region at the end of a frame (R391): `begs` are the frame's SGBEGs of the region in index order, each with its core,
`here` the launch and frame. -/
def Region.process (x : Region) (r : Nat) (here : Nat × Nat) (begs : List (Nat × Nat)) (samples : List Sample) : Fitting :=
  let st := x.state
  let training := st ≠ 2
  let lanes := (samples.filter fun s => s.compared == !training).flatMap Sample.lanes
  let (l, skips) := takeSamples training lanes
  let f : Fitting := ⟨x, [], false⟩
  let skip := fun (x : Region) => x.count 0x20 0 skips
  if st = 4 then
    (if begs.isEmpty || x.invAt == some here then f else { x := x.setState 0, moves := [(0, begs.head?)], stop := false })
  else if st = 3 then
    let left := x.word64 0x10 % 2 ^ 32
    if begs.length < left || begs.isEmpty then { f with x := x.setField 0x10 0 32 (left - begs.length) }
    else
      { x := ((x.setField 0x10 0 32 0).setState 1).clearWindow, moves := [(1, begs[left - 1]?)], stop := false }
  else if st = 2 then Fitting.watch { f with x := skip x } l
  else
    let x := skip x
    let pool := x.carried ++ l
    if st = 1 then Fitting.fit (pool.length / 64 + 1) { f with x := x.setWord 0x38 8 0 } pool
    else if pool.length < 64 then { f with x := x.carry pool }
    else
      let x := ((x.setState 1).initialise r).setWord 0x38 8 0
      Fitting.fit (pool.length / 64 + 1) ⟨x, [(1, (pool[63]?).bind fun p => p.origin)], false⟩ pool

/-- Process one region of a launch (R390): the records of its state changes go to the core of the invocation that decided each; a carried
sample's change goes to the frame's first invocation. -/
def State.processRegion (s : State) (l : Launch) (r : Nat) : State :=
  match (s.module? l.module).bind fun m => m.regions[r]? with
  | none => s
  | some x =>
    let reqs := sortOn (fun (q : CfgReq) => q.ordinal * 2 ^ 64 + q.seq) (l.cfgs.filter fun q => q.region == r)
    let x := reqs.foldl Region.configure x
    let begs := (sortOn (fun (b : Nat × Nat) => b.1) ((l.sgBegs.filter fun b => b.1 == r).map fun b => (b.2.2.2, b.2.2.1)))
    let samples := sortOn (fun (a : Sample) => a.index) (l.samples.filter fun a => a.region == r)
    let f := x.process r (l.id, l.frame) begs samples
    let x := if f.moves.any fun m => m.1 == 4 then { f.x with invAt := some (l.id, l.frame) } else f.x
    let s := s.onRegion l.module r fun _ => x
    f.moves.foldl
      (fun s m => match m.2.or begs.head? with
        | some (index, core) => s.postRegion core m.1 r (BitVec.ofNat 64 index)
        | none => s)
      s

/-- Process the regions of a launch at the end of a frame, or at its end (R390); one that does not hold the weight blocks has captured
nothing (R383). -/
def State.processFrame (s : State) (id : Nat) : State :=
  match s.launch? id with
  | none => s
  | some l =>
    let n := ((s.module? l.module).map fun m => m.regions.length).getD 0
    let s :=
      if s.holds l then
        (List.range n).foldl (fun s r =>
          let s := s.settleDrops l r
          s.processRegion ((s.launch? id).getD l) r) s
      else s
    s.onLaunch id fun l => { l with samples := [], cfgs := [], sgBegs := [], frameDone := true }

end Sys2Proof.Machine
end

