-- ==== Sys2Proof/Machine/Upset.lean ====
section
/-! DEFINITION. Sys2Proof/Machine/Upset.lean: errors found in on-chip storage and in best-effort data (spec/26 R431, R432, R437, R438),
which GLOBAL_TICK takes in. Log entry 71 (DESIGN CHOICE, DEDUCED). -/

namespace Sys2Proof.Machine

/-- The units of a package as the error counters number them (R437): a core by its flat index, the surrogate unit of a cluster, a base die. -/
def surrogateUnit (cluster : Nat) : Nat := numCores + cluster
def baseDie (stack : Nat) : Nat := numCores + numClusters + stack
/-- An error of a unit is counted (R437). -/
def State.countError (s : State) (unit : Nat) : State := { s with errors := Sparse.set 0 s.errors unit (Sparse.get 0 s.errors unit + 1) }
/-- Remove the `i`-th element that a test accepts. -/
def eraseNth {α : Type} (f : α → Bool) : Nat → List α → List α
  | _, [] => []
  | i, x :: l => if f x then (if i = 0 then l else x :: eraseNth f (i - 1) l) else x :: eraseNth f i l

/-- The samples of an invocation are dropped, and recorded; in a replay those that the log holds are dropped in its order, and others
make it diverge (R371, R375, R389). -/
def State.dropSamples (s : State) (l : Launch) (x : Sample) : State :=
  if l.replay then
    if l.replayLog.any fun (e, used) => !used && e.sameKey 8 x.region && e.src == x.core && e.aux == x.index % 2 ^ 32 then
      s.settleDrops l x.region
    else s.diverge l.id (s.replayBytes l.id) x.core
  else s.chooseThen l.id 8 x.region x.core (x.index % 2 ^ 32) true fun s => s.dropSample l x

/-- An entry of a queue is marked. -/
def QEntry.spoil (e : QEntry) : QEntry := { e with poison := e.val.isSome || e.poison }
def VEntry.spoil (e : VEntry) : VEntry := { e with poison := e.val.isSome || e.poison }
/-- Mark the entry at a place of a list. -/
def spoilAt {α : Type} (f : α → α) (l : List α) (i : Nat) : List α := l.mapIdx fun j e => if j = i then f e else e

/-- What an error does where it is found (R437, R438): storage that a core reads is marked until it is written; the state of a launch or of an
operation is an error pinned to it, state that launches share tears the context down (R432); a cache is read again; best-effort data
is dropped. -/
def State.upset (s : State) : Upset → State
  | .scratchpad c a => s.onCore c fun k => { k with marks := Sparse.set false k.marks (a / 8) true }
  | .csm a => { s with csmMarks := Sparse.set false s.csmMarks (a / 8) true }
  | .scalar c n => if n = 0 then s else s.onArch c fun a => a.mark .s n
  | .access c n => if n = 0 then s else s.onArch c fun a => a.mark .a n
  | .vector c n => if n = 62 then s else s.onArch c fun a => a.mark .v n
  | .mask c n => if n = 0 then s else s.onArch c fun a => a.mark .k n
  | .latch c w => s.onArch c fun a => { a with latchMarks := w :: a.latchMarks.filter (· ≠ w) }
  | .entry c q i => s.onArch c fun a => { a with qs := Sparse.set [] a.qs q (spoilAt QEntry.spoil (Sparse.get [] a.qs q) i) }
  | .ventry c q i => s.onArch c fun a => { a with vqs := Sparse.set [] a.vqs q (spoilAt VEntry.spoil (Sparse.get [] a.vqs q) i) }
  | .engine c q => match (s.core c).headOp q with
    | some o => if o.state == .unstarted then s else s.pinCore c causeLaunchState
    | none => s
  | .launchState c => s.pinCore c causeLaunchState
  | .shared asid => s.tearDown asid causeShared []
  | .refetched _ => s
  | .checkLine stack g => { s with hbm := { s.hbm with cache := s.hbm.cache.filter fun l => !(l.stack == stack && l.group == g) } }
  | .logRecord stack transfer i =>
    { s with hbm := { s.hbm with logs := eraseNth (fun m => m.stack == stack && m.transfer == transfer) i s.hbm.logs } }.countError
      (baseDie stack)
  | .telemetry unit => s.countError unit
  | .sample id i => match s.launch? id with
    | none => s
    | some l => match l.samples[i]? with
      | none => s
      | some x => (s.dropSamples l x).countError (surrogateUnit (clusterOf x.core))

/-- Has the package the storage that an error is in (R1, R6)? -/
def Upset.within : Upset → Bool
  | .scratchpad c a => decide (c < numCores ∧ a < scratchSize)
  | .scalar c n | .vector c n => decide (c < numCores ∧ n < 64)
  | .access c n => decide (c < numCores ∧ n < 32)
  | .mask c n => decide (c < numCores ∧ n < 8)
  | .latch c w => decide (c < numCores ∧ w < 16384 + 1024)
  | .entry c _ _ | .ventry c _ _ | .engine c _ | .refetched c => decide (c < numCores)
  | .csm a => decide (a < 2 ^ 29)
  | .checkLine stack _ | .logRecord stack _ _ => decide (stack < numStacks)
  | .telemetry unit => decide (unit < baseDie numStacks)
  | .launchState _ | .shared _ | .sample _ _ => true
/-- Errors in storage of the package, each taking its effect. -/
def State.upsets (s : State) (l : List Upset) : State := (l.filter Upset.within).foldl State.upset s
/-- A tick takes in the errors found before it; those of the next interval are free (log entry 71). -/
def State.takeFound (s : State) : State :=
  let s := s.upsets s.found
  { s with found := Config.found s.choice }

end Sys2Proof.Machine
end

