-- ==== Sys2Proof/Machine/Frames.lean ====
section
/-! DEFINITION. Sys2Proof/Machine/Frames.lean: the global tick, frame counters, timetable entries and slips (spec/14 R283 to R288, spec/15
R312, spec/21 R374): GLOBAL_TICK, FRAME_COUNTER_START, ENTRY_START, FRAME_END_PROCESSING. -/

namespace Sys2Proof.Machine

/-! ### Entries -/

/-- The deadline of a timetable entry (R284): the release tick of the core's next entry, or the frame's end. -/
def Kernel.deadline (k : Kernel) (i : Nat) : Nat :=
  match k.tt[i]?, k.tt[i + 1]? with
  | some e, some f => if f.core = e.core then f.tick else k.frameTicks
  | _, _ => k.frameTicks
/-- The entry that a core runs after the entry at an index in frame `n` (R283): its next one, or its first of the next frame. -/
def Kernel.nextEntry (k : Kernel) (ordinal : Nat) (at_ : Option Nat) (n : Nat) : Option (Nat × Nat) :=
  let first := k.tt.findIdx? fun e => e.core == ordinal
  match at_ with
  | none => first.map fun i => (i, n)
  | some i =>
    if ((k.tt[i + 1]?).map fun e => e.core == ordinal).getD false then some (i + 1, n) else first.map fun i => (i, n + 1)

/-- Has a core ended the entry at an index in frame `n` (R284)? A core that has issued `bend.last` runs no further entry. -/
def Core.pastEntry (k : Core) (n i : Nat) : Bool :=
  k.run == .ended || (match k.entry with
    | none => false
    | some j => decide (n < k.entryFrame) || (n == k.entryFrame && (decide (i < j) || (i == j && k.run ≠ .running))))
/-- Has the core of an entry of a launch ended it? -/
def State.entryPast (s : State) (l : Launch) (n i : Nat) (e : TTEntry) : Bool :=
  match l.coreAt e.core with
  | none => true
  | some c => (s.core c).pastEntry n i
/-- Has a block ended, or the window of an entry drained (R285, R288)? -/
def State.entryDone (s : State) (l : Launch) (k : Kernel) (n i : Nat) : Bool :=
  match k.tt[i]? with
  | none => true
  | some e =>
    if e.window then
      (List.range k.tt.length).all fun j => match k.tt[j]? with
        | none => true
        | some f => !(f.window && f.tick == e.tick) || s.entryPast l n j f
    else s.entryPast l n i e

/-! ### The hold of R312 -/

/-- May the operation write into a checked-stepped entry (R312)? One that has not started has no known destination; a scatter's may
be any row of its table. Log entry 30 (DEDUCED). -/
def State.writesStepped (s : State) (c : Nat) (o : Op) : Bool :=
  let hit := fun a => ((findEntry (s.core c).table a).map fun x => x.2.stepped).getD false
  o.state == .unstarted || (match o.code with
    | .cpy | .cpyt | .cpyn => recSpace c o.recB == 0 && o.plan.any fun x => hit x.1
    | .scat =>
      recSpace c o.recA == 0 &&
        (cells 0 0 (recRows o.recA) (recCols o.recA)).any fun x => hit (recSpan o.recA x.1 x.2).1
    | _ => false)
/-- Does an operation of a core that was issued in frame `n` still hold the frame counter (R312)? Log entry 30 (DEDUCED). -/
def State.holdsFrame (s : State) (l : Launch) (n c : Nat) : Bool :=
  l.stepped && (List.range 7).any fun q => ((s.core c).opsOf q).any fun o => o.frame == n && s.writesStepped c o
/-- Does the side log of a core hold a write into a checked-stepped entry? -/
def Core.sideStepped (k : Core) : Bool :=
  k.side.any fun w => w.kind.ranges.any fun r => ((findEntry k.table r.1).map fun x => x.2.stepped).getD false
/-- Are the segments of a stepped launch closed and its writes to stepped entries performed, as they must be before the frame advances
(R312)? Log entry 31 (DEDUCED). -/
def State.closedAll (s : State) (l : Launch) : Bool :=
  !l.stepped || l.cores.all fun c =>
    let k := s.core c
    !k.mustClose && k.out.isEmpty && !k.sideStepped

/-! ### Slips -/

/-- The entries whose deadline is tick `t`, with their flat cores. -/
def Launch.due (l : Launch) (k : Kernel) (t : Nat) : List (Nat × Nat × TTEntry) :=
  (List.range k.tt.length).filterMap fun i =>
    if k.deadline i = t then (k.tt[i]?).bind fun e => (l.coreAt e.core).map fun c => (c, i, e) else none
/-- The entries that are not over at their deadline `t` (R285). -/
def State.overdue (s : State) (l : Launch) (k : Kernel) (t : Nat) : List (Nat × Nat × TTEntry) :=
  (l.due k t).filter fun x =>
    !s.entryDone l k l.frame x.2.1 || (t == k.frameTicks && s.holdsFrame l l.frame x.1)

/-- TGT of a slipping entry in the order log (R371). -/
def slipTgt (e : TTEntry) (t : Nat) : Nat := e.stage * 2 ^ 32 + t
/-- The entries due at tick `t` whose slips in the running frame the log still holds, in its order (R374). -/
def Launch.slipsLogged (l : Launch) (k : Kernel) (t : Nat) : List (Nat × Nat × TTEntry) :=
  l.replayLog.filterMap fun r =>
    if !r.2 && r.1.kind == 7 && r.1.frame % 2 ^ 32 == l.frame % 2 ^ 32 then
      (l.due k t).find? fun x => x.1 == r.1.src && slipTgt x.2.2 t == r.1.tgt
    else none
/-- The slip of one entry is counted and logged, or consumed from the log (R285, R374). -/
def State.slipOne (s : State) (id t : Nat) (x : Nat × Nat × TTEntry) : State :=
  s.chooseThen id 7 (slipTgt x.2.2 t) x.1 0 true fun s => s.onLaunch id fun l => { l with slips := l.slips + 1 }
/-- The slip record of a deadline, posted to the EQ of every core of the launch (R285, R238). -/
def State.postSlip (s : State) (l : Launch) (t source : Nat) : State :=
  l.cores.foldl
    (fun s c => s.postEventFor l.id c source (eventWord 4 0 0 0 l.frame) (BitVec.ofNat 64 (l.frame % 2 ^ 32 * 2 ^ 32 + t))) s
/-- A STEAL that waits in the window of an entry that slips is answered with nothing (R231, R288). -/
def State.endSteal (s : State) (id c : Nat) : State :=
  match (s.core c).wait with
  | .steal v => (s.onCore c fun k => { k with msgs := k.msgs.filter fun m => !m.steal }).answerNothing id v c
  | _ => s
/-- Every STEAL that waits in the windows of some entries is answered with nothing. -/
def State.endSteals (s : State) (l : Launch) (k : Kernel) (late : List (Nat × Nat × TTEntry)) : State :=
  let ticks := (late.filter fun x => x.2.2.window).map fun x => x.2.2.tick
  (k.tt.filter fun e => e.window && ticks.contains e.tick).foldl
    (fun s e => match l.coreAt e.core with
      | some c => s.endSteal l.id c
      | none => s) s
/-- The deadline `t` is met with entries overdue (R285); a replay takes from the log which of them count as slips (R374). -/
def State.slip (s : State) (l : Launch) (k : Kernel) (t : Nat) (late : List (Nat × Nat × TTEntry)) : State :=
  let sorted := sortOn (fun (x : Nat × Nat × TTEntry) => x.1)
  let charged := if l.replay then l.slipsLogged k t else sorted late
  let s := charged.foldl (fun s x => s.slipOne l.id t x) s
  let s := match sorted charged with
    | [] => s
    | x :: _ => s.postSlip l t x.1
  s.endSteals l k late

/-! ### The tick -/

/-- Does the frame counter of the launch run: started, no error pinned, no core halted (R286)? -/
def State.counts (s : State) (l : Launch) : Bool :=
  (l.state == .running || l.state == .halting) && l.frcOn && l.pinned == none && !(l.cores.any s.halted)
/-- The frame counter of a launch meets a global tick (R283, R285). -/
def State.frameTick (s : State) (l : Launch) : State :=
  match s.kernel? l with
  | none => s
  | some k =>
    let t := l.tick + 1
    let late := s.overdue l k t
    let s := if l.slipAt = some t then s else s.slip l k t late
    s.onLaunch l.id fun l =>
      let l := { l with ran := l.ran + 1 }
      if !late.isEmpty then { l with slipAt := some t }
      else if t < k.frameTicks then { l with tick := t, slipAt := none }
      else if l.frameDone then { l with frame := l.frame + 1, tick := 0, slipAt := none, frameDone := false }
      else l

/-- Is the launch's counter to start (R345)? -/
def State.startsCounter (s : State) (l : Launch) : Bool :=
  l.state == .running && l.pinned == none && !l.frcOn && decide (l.startTick ≤ s.gtc)
/-- Is the frame of a launch to be processed: its counter is about to leave it (R390)? Log entry 31 (DEDUCED). -/
def State.endsFrame (s : State) (l : Launch) : Bool :=
  match s.kernel? l with
  | none => false
  | some k =>
    s.counts l && !l.frameDone && l.tick + 1 == k.frameTicks && (s.overdue l k k.frameTicks).isEmpty && s.closedAll l

/-- The entry that a core is to start now, with its index and frame (R284): its release tick is reached, its last entry has ended and
closed its segment, and the counter does not stand for a slip (R285). Log entry 29 (DEDUCED). -/
def State.startable (s : State) (c : Nat) : Option (Nat × Nat × TTEntry) :=
  let k := s.core c
  match s.launchOf c with
  | none => none
  | some l =>
    match s.kernel? l with
    | none => none
    | some kn =>
      if k.run ≠ .waiting || k.halt ≠ .running || l.debugHalted || l.state ≠ .running || l.pinned ≠ none || !l.frcOn || l.slipAt.isSome ||
          k.mustClose then none
      else
        (kn.nextEntry k.ordinal k.entry k.entryFrame).bind fun (i, n) => (kn.tt[i]?).bind fun e =>
          if n < l.frame ∨ (n = l.frame ∧ e.tick ≤ l.tick) then some (i, n, e) else none

/-- The global tick advances (R283), once what is due at the tick reached has been done: counters started, entries released, frames
processed. Log entry 31 (DEDUCED). On-chip errors found by then come first (R438). -/
def execGlobalTick (s : State) : Out :=
  let s := s.takeFound
  if s.launches.any fun l => s.startsCounter l || s.endsFrame l || l.cores.any fun c => (s.startable c).isSome then .next s
  else
    let s := { s with gtc := s.gtc + 1 }
    .next (s.launches.foldl
      (fun s l => match s.launch? l.id with
        | some l => if s.counts l then s.frameTick l else s
        | none => s) s)

/-- The frame counter of a launch starts at frame 0, tick 0 (R345). -/
def execFrameCounterStart (launch : Nat) (s : State) : Out :=
  match s.launch? launch with
  | none => .next s
  | some l =>
    if s.startsCounter l then .next (s.onLaunch launch fun l => { l with frcOn := true, frame := 0, tick := 0 }) else .next s

/-- A core begins a timetable entry (R22, R284, R290): CORECOORD.STAGE is set, a new segment opened, the deque empty; results in flight
land as they would, and a TRAP or BRK beside the BEND before it is taken here (R125; log entry 65). -/
def Core.begin (k : Core) (i n : Nat) (e : TTEntry) : Core :=
  let arch :=
    { k.arch with
      pc := BitVec.ofNat 64 e.pc
      skip := 0
      till := none
      ahead := []
      waitX := 0
      waitA := 0
      loop := none
      turn := none
      loopOn := false
      trap := k.arch.trap.filter (·.post) }
  { k with
    arch := arch
    run := .running
    entry := some i
    entryFrame := n
    stage := e.stage
    blockEnded := false
    windowEnded := false
    seg := Segment.openAt arch
    mustClose := false
    closedFor := true
    rvPassed := false
    deque := []
    lastMark := false
    wait := .none
    deferred := none }

/-- A timetable entry starts (R284). -/
def execEntryStart (core : Nat) (s : State) : Out :=
  match s.startable core with
  | none => .next s
  | some (i, n, e) => .next (s.onCore core fun k => k.begin i n e)

/-- The frame's end: the home processes each region's samples (R390). -/
def execFrameEndProcessing (launch : Nat) (s : State) : Out :=
  match s.launch? launch with
  | none => .next s
  | some l => if s.endsFrame l then .next (s.processFrame launch) else .next s

end Sys2Proof.Machine
end

