-- ==== Sys2Proof/Machine/Contexts.lean ====
section
/-! DEFINITION. Sys2Proof/Machine/Contexts.lean: what system software does through the IOD's MMIO window (spec/19 R339, R348, R350, R351, spec/18
R335, spec/26 R435): contexts, ranks, slot tables, registrations, debug halts; HOST_EVENT_POST. -/

namespace Sys2Proof.Machine

/-- An answer of the MMIO window. -/
def State.reply (s : State) (a : Answer) : State := { s with answers := s.answers ++ [a] }
/-- A command is refused. Log entry 10 (DESIGN CHOICE). -/
def State.refuse (s : State) : State := s.reply (.refused 1)
/-- Do it if it may be done and the window is open (R441), with the answer. Log entry 10 (DESIGN CHOICE). -/
def State.command (s : State) (ok : Bool) (t : State) : State := if s.markhor.booted && ok then t.reply .ok else s.refuse
/-- Is the ASID that of a live context? -/
def State.isLive (s : State) (asid : Nat) : Bool := ((s.context? asid).map (·.live)).getD false

/-! ### Contexts -/

/-- A new context. -/
def Context.fresh (rank : Nat) : Context where
  live := true
  rank := rank
  area := none
  posts := []
  coreSets := []
  keys := []
  tombstone := false
  tearing := none

/-- May the ASID be given to a new context: none has it, and no teardown of it is still to be done (R339, R434)? -/
def State.asidFree (s : State) (asid : Nat) : Bool :=
  match s.context? asid with
  | none => true
  | some x => !x.live && x.tearing == none
/-- System software creates a context (R339); its ASID's tombstone goes (R434). -/
def execContextCreate (asid rank : Nat) (s : State) : Out :=
  .next (s.command (s.asidFree asid) (s.setContext asid (some (Context.fresh rank))))

/-- Does a launch of the context exist? -/
def State.hasLaunch (s : State) (asid : Nat) : Bool := s.launches.any fun l => l.asid == asid && l.state ≠ .ended
/-- What a context leaves when it is gone: no module, no fault request, no migration. Log entry 34 (DEDUCED). -/
def State.dropContext (s : State) (asid : Nat) : State :=
  { s with
    modules := s.modules.filter fun m => m.asid ≠ asid
    faults := s.faults.filter fun f => f.asid ≠ asid
    holdOffs := s.holdOffs.filter fun f => f.entry.asid ≠ asid
    migrations := s.migrations.filter fun m => m.asid ≠ asid }
/-- System software destroys a context (R339); with launches of it left it is torn down (R432). -/
def execContextDestroy (asid : Nat) (s : State) : Out :=
  .next (s.command (s.isLive asid)
    (if s.hasLaunch asid then s.tearDown asid causeDestroyed [] else (s.dropContext asid).setContext asid none))

/-- System software writes a context's rank (R339). -/
def execRankWrite (asid rank : Nat) (s : State) : Out :=
  .next (s.command (s.isLive asid) (s.onContext asid fun x => { x with rank := rank }))

/-! ### Slot tables (R350) -/

/-- Entries of a slot table. -/
def slotCount : Nat := 64
/-- The VALID and ASID bits of an entry. -/
def slotMask : W32 := 0x80000FFF
/-- The key of a written entry of a die. -/
def slotKey (die idx : Nat) : Nat := slotCount * die + idx
/-- The key of a port or copy engine of a die. -/
def portKey (die port : Nat) : Nat := 4 * port + die
/-- System software writes an entry of a die's slot table. -/
def execSlotTableWrite (die idx : Nat) (value : W32) (s : State) : Out :=
  .next (s.command true { s with slotPending := Sparse.set 0 s.slotPending (slotKey die idx) (value &&& slotMask) })

/-- At slot 0 the entries of a die written so far take effect. -/
def State.loadSlots (s : State) (die : Nat) : State :=
  (List.range slotCount).foldl
    (fun s i => { s with slotTables := Sparse.set 0 s.slotTables (slotKey die i) (Sparse.get 0 s.slotPending (slotKey die i)) }) s
/-- A port or engine decides once in each cycle of its die's fabric: the die's cycle is the same for all of them, and a new one begins when
the port has decided in this one. -/
def State.fabricCycle (s : State) (die port : Nat) : State :=
  let key := portKey die port
  let n := Sparse.get 0 s.slotCycle die
  if Sparse.get 0 s.slotUsed key = n then
    let s := if n % slotCount = 0 then s.loadSlots die else s
    { s with slotCycle := Sparse.set 0 s.slotCycle die (n + 1), slotUsed := Sparse.set 0 s.slotUsed key (n + 1) }
  else { s with slotUsed := Sparse.set 0 s.slotUsed key n }
/-- Can a context have requests at a copy engine or an HBM port: a granted launch that has not ended, or a migration? -/
def State.mayRequest (s : State) (asid : Nat) : Bool :=
  (s.launches.any fun l => l.asid == asid && l.grantNo ≠ 0 && l.state ≠ .ended) || s.migrations.any (·.asid == asid)
/-- The next waiting context behind the last one served, in ascending order, round robin. Log entry 8 (DESIGN CHOICE). -/
def roundRobin (last : Nat) (l : List Nat) : Option Nat :=
  let least := fun (l : List Nat) => l.foldl (fun (m : Option Nat) x => match m with
    | none => some x
    | some y => some (min x y)) none
  (least (l.filter (last < ·))).or (least l)
/-- One die-fabric cycle of a port or engine: a ready request of the slot's owner is served, else that of the next waiting context (R350).
Log entry 8 (DESIGN CHOICE); log entry 79 (DEDUCED). -/
def execDieFabricArbitration (die port : Nat) (ready : List Nat) (s : State) : Out :=
  let key := portKey die port
  let s := s.fabricCycle die port
  let t := Sparse.get 0 s.slotCycle die - 1
  let ready := ready.filter s.mayRequest
  let slot := Sparse.get 0 s.slotTables (slotKey die (t % slotCount))
  let owner := slot.toNat % 4096
  let served :=
    if slot.getLsbD 31 && ready.contains owner then some owner else roundRobin (Sparse.get 0 s.slotServed key) ready
  .next
    { s with
      slotServed := match served with
        | some x => Sparse.set 0 s.slotServed key x
        | none => s.slotServed }

/-! ### Rings (R348, R435) -/

/-- May a ring be registered: 16-byte aligned, of a power of two from 64 to 65,536 records? -/
def ringOk (base size : Nat) : Bool := base % 16 == 0 && (List.range 11).any fun i => size == 2 ^ (6 + i)
/-- A word of host memory. -/
def State.hostWord (s : State) (a : Nat) : Nat := leNat (memBytes s.host a 8) 8
/-- A ring as registered: the count of records written goes on from the word at WIDX. Log entry 33 (PRESUMED). -/
def State.newRing (s : State) (base size widx ridx : Nat) : Ring := ⟨base, size, widx, ridx, s.hostWord widx⟩
/-- Has the ring room for one more record? Log entry 33 (PRESUMED). -/
def State.ringRoom (s : State) (r : Ring) : Bool := (r.posted + 2 ^ 64 - s.hostWord r.ridx) % 2 ^ 64 ≠ r.size
/-- Write one record and then WIDX (R348). -/
def State.writeRecord (s : State) (r : Ring) (x : W64 × W64) : State :=
  let m := putMem s.host (r.base + 16 * (r.posted % r.size)) (bytesOf 8 x.1 ++ bytesOf 8 x.2)
  { s with host := putMem m r.widx (leBytes (r.posted + 1) 8) }
/-- The ring after a record. -/
def Ring.counted (r : Ring) : Ring := { r with posted := (r.posted + 1) % 2 ^ 64 }

/-- System events that wait are posted while there is room (R435). -/
def State.drainRing : Nat → State → State
  | 0, s => s
  | n + 1, s =>
    match s.ring, s.ringHeld with
    | some r, x :: rest =>
      if s.ringRoom r then State.drainRing n { s.writeRecord r x with ring := some r.counted, ringHeld := rest } else s
    | _, _ => s
/-- Post what waits for the system event ring. Log entry 27 (DEDUCED). -/
def State.postRing (s : State) : State := s.drainRing s.ringHeld.length

/-- System software registers a context's host event area (R348). -/
def execRegisterHostEventArea (asid base size widx ridx : Nat) (s : State) : Out :=
  .next (s.command (s.isLive asid && ringOk base size)
    (s.onContext asid fun x => { x with area := some (s.newRing base size widx ridx) }))
/-- System software registers the system event ring (R435). -/
def execRegisterSystemEventRing (base size widx ridx : Nat) (s : State) : Out :=
  .next (s.command (ringOk base size) ({ s with ring := some (s.newRing base size widx ridx) }.postRing))

/-- A record that waits is written to the context's host event area once there is room (R348); so are waiting system events (R435). -/
def execHostEventPost (asid : Nat) (s : State) : Out :=
  let s := s.postRing
  match s.context? asid with
  | none => .next s
  | some x =>
    match x.area, x.posts with
    | some r, p :: rest =>
      if x.live && s.ringRoom r then
        .next ((s.writeRecord r p).onContext asid fun x => { x with area := some r.counted, posts := rest })
      else .next s
    | _, _ => .next s

/-! ### Handles and keys -/

/-- System software registers a core-set handle (R339, R341): 1 to 288 cores. -/
def execRegisterCoreSetHandle (asid handle : Nat) (cores : List Nat) (s : State) : Out :=
  let l := allCores.filter fun c => cores.contains c
  .next (s.command (s.isLive asid && !l.isEmpty) (s.onContext asid fun x =>
    { x with coreSets := (x.coreSets.filter fun e => e.1 ≠ handle) ++ [(handle, l)] }))
/-- System software registers the public keys of a context (R335). -/
def execRegisterPublicKeys (asid : Nat) (keys : List (List Byte)) (s : State) : Out :=
  .next (s.command (s.isLive asid) (s.onContext asid fun x => { x with keys := keys }))

/-! ### Debug halt (R351) -/

/-- A parked operation enters arbitration again, with its remaining steps (R271); an MLAT takes no field unit (R181). -/
def Op.unpark (o : Op) : Op :=
  if o.state = .parked then { o with state := if o.code = .mlat then .bench else .claiming } else o
/-- The parked operations of a core go on. -/
def Core.unpark (k : Core) : Core := (List.range 7).foldl (fun k q => k.setOps q ((k.opsOf q).map Op.unpark)) k

/-- Does the launch hold cores on which it can be halted? -/
def Launch.debuggable (l : Launch) : Bool := l.state == .running || l.state == .halting
/-- A debugger halts a launch. -/
def execDebugHalt (launch : Nat) (s : State) : Out :=
  match s.launch? launch with
  | none => .next s.refuse
  | some l => .next (s.command l.debuggable (s.onLaunch launch fun l => { l with debugHalted := true }))
/-- A launch halted by a debugger goes on from its halt boundary. -/
def execDebugResume (launch : Nat) (s : State) : Out :=
  match s.launch? launch with
  | none => .next s.refuse
  | some l =>
    let t := s.onLaunch launch fun l => { l with debugHalted := false }
    .next (s.command l.debugHalted
      (if l.state = .running then (l.cores.foldl (fun s c => s.onCore c Core.unpark) t).arbitrateFor l.cores else t))

end Sys2Proof.Machine
end

