-- ==== Sys2Proof/Machine/Launches.lean ====
section
/-! DEFINITION. Sys2Proof/Machine/Launches.lean: the launch coordinator (spec/19 R340 to R349, spec/26 R433, R434, spec/21 R373 to R375, R381):
LAUNCH_MESSAGE, GRANT_DECISION, GRANT, CONTEXT_SAVE, RESUMPTION, LAUNCH_END, REPLAY_HOLD_TIMEOUT, END_LAUNCH_PINNED, TEARDOWN. -/

namespace Sys2Proof.Machine

/-! ### Memory of a launch, under the coordinator's identity -/

/-- What reading a range gives: its bytes, or nothing yet, or an address that cannot be read. -/
inductive RangeRead where
  | got (l : List Byte)
  | absent
  | bad
  deriving DecidableEq, Repr, Inhabited

/-- Read `n` bytes of a launch's memory from a virtual address upward (R374, R381, R342). -/
def State.readRange (s : State) (t : Sparse TEntry) (asid : Nat) : Nat → Nat → Nat → RangeRead × State
  | 0, _, _ => (.got [], s)
  | fuel + 1, va, n =>
    if n = 0 then (.got [], s)
    else
      let k := min n (512 - va % 512)
      match lookup t .read va with
      | .stray => (.bad, s)
      | .absent _ _ => (.absent, s)
      | .at _ _ p =>
        let (r, s) := s.readPlace asid p k
        if r.2 then (.bad, s)
        else match State.readRange s t asid fuel (va + k) (n - k) with
          | (.got l, s) => (.got (r.1 ++ l), s)
          | (x, s) => (x, s)
/-- Read a range. -/
def State.readVa (s : State) (t : Sparse TEntry) (asid va n : Nat) : RangeRead × State := s.readRange t asid (n / 512 + 2) va n
/-- Does writing a range meet a subpage that is not present? -/
def rangeAbsent (t : Sparse TEntry) (va n : Nat) : Bool :=
  (List.range (n / 512 + 2)).any fun i =>
    let a := if i = 0 then va else va / 512 * 512 + 512 * i
    decide (a < va + n) && (match lookup t .write a with
      | .absent _ _ => true
      | _ => false)
/-- Write bytes of a launch's memory from a virtual address upward; what no entry lets be written is left out. A write into a watched entry
is reported (R357) on behalf of a core of the launch, `by_`. -/
def State.writeRange (s : State) (t : Sparse TEntry) (asid launch by_ : Nat) : Nat → Nat → List Byte → State
  | 0, _, _ => s
  | fuel + 1, va, l =>
    if l.isEmpty then s
    else
      let k := 512 - va % 512
      let s := match lookup t .write va with
        | .at _ e p => (s.writePlace asid numCores launch p (l.take k)).report by_ e va (min k l.length)
        | _ => s
      State.writeRange s t asid launch by_ fuel (va + k) (l.drop k)
/-- Write a range. -/
def State.writeVa (s : State) (t : Sparse TEntry) (asid launch va : Nat) (l : List Byte) : State :=
  let by_ := ((s.cores.find? fun x => x.2.launch == some launch).map (·.1)).getD numCores
  s.writeRange t asid launch by_ (l.length / 512 + 2) va l

/-! ### Launch records (R340 to R342) -/

/-- Fields of a launch record. -/
structure LaunchRec where
  module : Nat
  kernel : Nat
  flags : Nat
  argptr : W64
  ttptr : Nat
  xlatptr : Nat
  seed : W64
  coreset : Nat
  rvg : Nat
  reserved : Nat
  kickoff : Nat
  larea : Nat
  deriving DecidableEq, Repr, Inhabited

/-- Read the fields of a launch record (R340). -/
def launchRec (w : List W64) : LaunchRec :=
  let g := fun (i : Nat) => (w[i]?).getD (0 : W64)
  { module := fld (g 0) 0 32
    kernel := fld (g 0) 32 16
    flags := fld (g 0) 48 16
    argptr := g 1
    ttptr := (g 2).toNat
    xlatptr := (g 3).toNat
    seed := g 4
    coreset := fld (g 5) 0 32
    rvg := fld (g 5) 32 16
    reserved := fld (g 5) 48 16
    kickoff := (g 6).toNat
    larea := (g 7).toNat }
/-- A flag of the record. -/
def LaunchRec.flag (r : LaunchRec) (i : Nat) : Bool := r.flags / 2 ^ i % 2 == 1

/-- Launch records that a mailbox holds (R339). -/
def mailboxDepth : Nat := 16
/-- Records accepted and not yet granted of a context (R339). -/
def State.mailbox (s : State) (asid : Nat) : Nat :=
  (s.launches.filter fun l => l.asid == asid && l.grantNo == 0 && (l.state == .waiting || l.state == .granting)).length
/-- The cores that receive an ordinal (R341): in doubles the even core of each pair. -/
def ordinals (doubles : Bool) (l : List Nat) : List Nat := if doubles then l.filter (· % 2 == 0) else l
/-- Does the set hold one core of a pair without the other? -/
def splitsPair (l : List Nat) : Bool := l.any fun c => !l.contains (if c % 2 = 0 then c + 1 else c - 1)

/-- Is a record malformed (R342, status 2; R442, R447)? `set` is the core set that its handle names. -/
def LaunchRec.malformed (r : LaunchRec) (m : Option Module) (set : Option (List Nat)) (disabled : List Nat) : Bool :=
  match m.bind fun m => m.kernels[r.kernel]? with
  | none => true
  | some k =>
    let n := set.map fun l => (ordinals (r.flag 3) l).length
    decide (16 ≤ r.flags) || r.reserved ≠ 0 || r.ttptr ≠ k.ttAddr || r.xlatptr ≠ k.tableAddr || (r.flag 1 && r.flag 2) ||
      ((r.flag 1 || r.flag 2) && r.larea == 0) || r.larea % 4096 ≠ 0 ||
      (r.flag 0 != k.table.any fun x => x.2.valid && x.2.stepped) ||
      (match n with
       | none => false
       | some n => decide (n < r.rvg) || (k.tt.any fun e => n ≤ e.core) ||
           (List.range n).any fun o => !(k.tt.any fun e => e.core == o)) ||
      (r.flag 3 && (set.map splitsPair).getD false) || (set.getD []).any disabled.contains
/-- The status of a record that has been read (R342). Log entry 59 (DEDUCED). -/
def State.recordStatus (s : State) (asid : Nat) (r : LaunchRec) : Nat :=
  let set := (s.context? asid).bind fun x => (x.coreSets.find? fun e => e.1 == r.coreset).map (·.2)
  let m := s.module? r.module
  if mailboxDepth ≤ s.mailbox asid then 4
  else if r.malformed m set s.markhor.disabled then 2
  else if set.isNone || (m.map (·.asid)) ≠ some asid then 1
  else 0

/-- The launch that an accepted record makes. -/
def State.newLaunch (s : State) (asid : Nat) (r : LaunchRec) (set : List Nat) : Launch where
  id := s.launchIds
  asid := asid
  module := r.module
  kernel := r.kernel
  stepped := r.flag 0
  record := r.flag 1
  replay := r.flag 2
  doubles := r.flag 3
  argptr := r.argptr
  seed := if r.seed = 0 then (((s.module? r.module).bind fun m => m.kernels[r.kernel]?).map (·.seed)).getD 0 else r.seed
  cores := ordinals (r.flag 3) set
  rvg := r.rvg
  kickoff := r.kickoff
  larea := r.larea
  state := .waiting
  debugHalted := false
  frcOn := false
  startTick := 0
  frame := 0
  tick := 0
  slipAt := none
  slips := 0
  kickLate := 0
  log := []
  logRoom := 0
  replayLog := []
  replayUsed := 0
  holds := []
  logFail := none
  streams := []
  samples := []
  cfgs := []
  sgBegs := []
  frameDone := false
  ran := 0
  pinned := none
  status := 0
  grantNo := 0
/-- A record arrives in a context's mailbox and is checked: its status, and the machine with it accepted (R342). -/
def State.submit (s : State) (asid : Nat) (w : List W64) : Nat × State :=
  let r := launchRec w
  let st := s.recordStatus asid r
  let set := (((s.context? asid).bind fun x => x.coreSets.find? fun e => e.1 == r.coreset).map (·.2)).getD []
  (st, if st = 0 then { s with launches := s.launches ++ [s.newLaunch asid r set], launchIds := s.launchIds + 1 } else s)

/-- A launch message of the host arrives (R343): the answer goes to the context's host event area. -/
def execLaunchMessage (asid window : Nat) (words : List W64) (s : State) : Out :=
  if !s.isLive asid then .next s
  else
    let (st, s) := s.submit asid words
    .next (s.postHost asid (eventWord 6 0 st 0 0) (BitVec.ofNat 64 window))

/-! ### Grants (R344) -/

/-- The rank of a launch's context. -/
def State.launchRank (s : State) (l : Launch) : Nat := ((s.context? l.asid).map (·.rank)).getD 0
/-- The launches that wait for a grant, by rank and then by arrival. -/
def State.waiters (s : State) : List Launch :=
  sortBy (fun a b => decide (s.launchRank b < s.launchRank a) || (s.launchRank a == s.launchRank b && decide (a.id < b.id)))
    (s.launches.filter fun l => (l.state == .waiting || l.state == .preempted) && l.pinned == none)
/-- The launches that hold a core or are to be granted it. -/
def State.holders (s : State) (c : Nat) : List Launch :=
  s.launches.filter fun l => (s.core c).launch == some l.id || (l.state == .granting && l.held.contains c)
/-- A holder is pre-empted whole (R346), or loses the grant that it waits for. -/
def State.preempt (s : State) (l : Launch) : State :=
  if l.state = .granting then s.onLaunch l.id fun l => { l with state := if l.grantNo = 0 then .waiting else .preempted }
  else if l.state = .running then
    l.cores.foldl (fun s c => s.onCore c fun k => { k with halt := .requested }) (s.onLaunch l.id fun l => { l with state := .halting })
  else s
/-- Decide on one launch: it is to be granted if each of its cores is free or held by lower ranks only and not needed by a launch of
higher rank that has been passed over; `needed` holds the cores of those with the ranks. -/
def State.decideOne (s : State) (needed : List (Nat × Nat)) (l : Launch) : List (Nat × Nat) × State :=
  let hs := l.held.flatMap s.holders
  let r := s.launchRank l
  if (needed.any fun x => l.held.contains x.1 && decide (r < x.2)) || hs.any fun h => r ≤ s.launchRank h then
    (needed ++ l.held.map fun c => (c, r), s)
  else
    let s := hs.foldl (fun s h => match s.launch? h.id with
      | some h => s.preempt h
      | none => s) s
    (needed, s.onLaunch l.id fun l => { l with state := .granting })
/-- The grant decision over every waiting launch. -/
def State.decideGrants (s : State) : State := (s.waiters.foldl (fun (b, s) l => s.decideOne b l) (([] : List (Nat × Nat)), s)).2

/-- The answer to a LAUNCH, to its issuer's EQ (R235, R238). -/
def State.answerLaunch (s : State) (m : LaunchMsg) (st : Nat) : State :=
  s.postEventFor m.launch m.core m.core (eventWord 6 0 st 0 0) m.addr
/-- Take up a LAUNCH (R235, R342): none while the subpage of its record is not present. A record that cannot be read, poisoned bytes of it
included, is answered with status 3 (log entry 85, DESIGN CHOICE). -/
def State.takeLaunch (s : State) (m : LaunchMsg) : Option State :=
  match s.launch? m.launch with
  | none => some s
  | some l =>
    match s.kernel? l with
    | none => some s
    | some k =>
      let a := m.addr.toNat
      if a % 64 ≠ 0 then some (s.answerLaunch m 3)
      else match s.readVa k.table l.asid a 64 with
        | (.bad, s) => some (s.answerLaunch m 3)
        | (.absent, _) => none
        | (.got b, s) =>
          let (st, s) := s.submit l.asid ((List.range 8).map fun i => wordOf ((b.drop (8 * i)).take 8))
          some (s.answerLaunch m st)
/-- Take up the LAUNCHes that can be, in order. -/
def State.takeLaunches (s : State) : List LaunchMsg → State
  | [] => s
  | m :: rest =>
    match s.takeLaunch m with
    | some t => State.takeLaunches { t with launchMsgs := t.launchMsgs.erase m } rest
    | none => State.takeLaunches s rest

/-- The coordinator takes up the records that cores have submitted, and makes its decision (R235, R344). -/
def execGrantDecision (s : State) : Out := .next ((s.takeLaunches s.launchMsgs).decideGrants)

/-! ### Grant (R345) -/

/-- The registers at grant (R15): `s1` and `s2` set, everything else at its reset value. -/
def grantedArch (l : Launch) (ordinal : Nat) : Arch := (Arch.reset.setS 1 l.argptr).setS 2 (BitVec.ofNat 64 ordinal)
/-- A core at grant (R15, R22, R249, R426): its table loaded. Log entry 7 (DESIGN CHOICE). -/
def grantedCore (l : Launch) (ordinal : Nat) (t : Sparse TEntry) : Core :=
  let a := grantedArch l ordinal
  let k : Core :=
    { Core.reset with
      arch := a
      seg := Segment.openAt a
      run := .waiting
      launch := some l.id
      ordinal := ordinal
      table := t }
  if l.doubles then { k with base := k.shadow } else k
/-- The follower of a pair at grant (R426): it has the leader's registers and its own scratchpad, and issues only what the leader has issued,
which SIGNATURE_COMPARE brings it. Log entry 39 (DESIGN CHOICE). -/
def follower (l : Launch) (ordinal : Nat) : Core :=
  { Core.reset with arch := grantedArch l ordinal, launch := some l.id, ordinal := ordinal }
/-- The table as a launch has it: step storage of its own for each checked-stepped entry (R341, R378). Log entry 38 (DESIGN CHOICE). -/
def stepTable (launch : Nat) (t : Sparse TEntry) : Sparse TEntry :=
  t.map fun x => if x.2.stepped then (x.1, { x.2 with smeta := (512 * launch + x.1) * 2 ^ 40 }) else x
/-- The step-start copy of every checked-stepped entry of a launch equals the current copy at its grant (R378). -/
def State.copySteps (s : State) (asid : Nat) (t : Sparse TEntry) : State :=
  (t.filter (·.2.stepped)).foldl
    (fun s x => (List.range (x.2.size / 128)).foldl (fun s i => s.stepStart asid x.2 (x.2.va + 128 * i)) s) s
/-- Set up the cores of a launch. -/
def State.setCores (s : State) (l : Launch) (t : Sparse TEntry) : State :=
  (l.cores.mapIdx fun i c => (i, c)).foldl
    (fun s (i, c) =>
      let s := s.setCore c (grantedCore l i t)
      if l.doubles then s.setCore (c + 1) (follower l i) else s) s

/-- Records that the log area has room for (R373): to the end of the entry that covers LAREA. -/
def logRoomOf (t : Sparse TEntry) (larea : Nat) : Nat :=
  match findEntry t larea with
  | none => 0
  | some (_, e) => (e.va + e.size - larea - 64) / 16
/-- The record of a log that stands in 16 bytes (R372). -/
def logRecOf (b : List Byte) : LogRec :=
  let w0 := wordOf (b.take 8)
  let w1 := wordOf ((b.drop 8).take 8)
  ⟨fld w0 60 4, fld w0 48 9, fld w0 0 48, fld w1 32 32, fld w1 0 32⟩
/-- The bytes of a record (R372). -/
def LogRec.bytes (r : LogRec) : List Byte :=
  bytesOf 8 (BitVec.ofNat 64 (r.kind % 16 * 2 ^ 60 + r.src % 2 ^ 9 * 2 ^ 48 + r.tgt % 2 ^ 48)) ++
    bytesOf 8 (BitVec.ofNat 64 (r.frame % 2 ^ 32 * 2 ^ 32 + r.aux % 2 ^ 32))
/-- Read the log that a launch replays (R374): none while its subpages are not present; an unreadable one is empty. -/
def State.readLog (s : State) (l : Launch) (t : Sparse TEntry) : Option (List LogRec) × State :=
  match s.readVa t l.asid l.larea 64 with
  | (.absent, s) => (none, s)
  | (.bad, s) => (some [], s)
  | (.got b, s) =>
    let n := min (leNat (b.drop 24) 8 / 16) (logRoomOf t l.larea)
    match s.readVa t l.asid (l.larea + 64) (16 * n) with
    | (.absent, s) => (none, s)
    | (.bad, s) => (some [], s)
    | (.got b, s) => (some ((List.range n).map fun i => logRecOf ((b.drop (16 * i)).take 16)), s)

/-- The launch at its grant (R345, R373, R383). -/
def Launch.granted (l : Launch) (s : State) (t : Sparse TEntry) (log : List LogRec) : Launch :=
  { l with
    state := .running
    grantNo := s.grants + 1
    startTick := if l.kickoff = 0 then s.gtc else max l.kickoff s.gtc
    kickLate := if l.kickoff = 0 then 0 else s.gtc - l.kickoff
    logRoom := logRoomOf t l.larea
    replayLog := log.map fun r => (r, false) }
/-- Are all cores of a launch free, and awake (R439)? -/
def State.coresFree (s : State) (l : Launch) : Bool :=
  l.held.all fun c => (s.core c).launch == none && (s.core c).retention.isEmpty

/-- A launch is granted (R345), once the coordinator has decided it and every core has been freed. -/
def execGrant (launch : Nat) (s : State) : Out :=
  match s.launch? launch with
  | none => .next s
  | some l =>
    match s.kernel? l with
    | none => .next s
    | some k =>
      if l.state ≠ .granting ∨ l.grantNo ≠ 0 ∨ !s.coresFree l then .next s
      else
        let t := stepTable l.id k.table
        let go := fun (s : State) (log : List LogRec) =>
          { ((s.copySteps l.asid t).onLaunch launch fun l => l.granted s t log).setCores l t with grants := s.grants + 1 }
        if l.replay then
          match s.readLog l k.table with
          | (none, _) => .next s
          | (some log, s) => .next (go s log)
        else .next (go s [])

/-! ### Saving and resuming (R347) -/

/-- A waiting STEAL is withdrawn: its request leaves the buffer it stands in, to be issued again on resumption (R231). -/
def State.withdrawSteal (s : State) (c : Nat) : State :=
  match (s.core c).wait with
  | .steal v => (s.onCore c fun k => { k with msgs := k.msgs.filter fun m => !m.steal }).onCore v fun k => k.dropThief c
  | _ => s
/-- A withdrawn STEAL issues again. -/
def Core.reissueSteal (k : Core) : Core :=
  match k.wait with
  | .steal v => { k with msgs := k.msgs ++ [⟨v, true, true, 0⟩] }
  | _ => k
/-- Have the operations of a core parked, or not started (R271)? -/
def Core.opsParked (k : Core) : Bool :=
  (List.range 7).all fun q => match k.headOp q with
    | none => true
    | some o => o.state == .parked || o.state == .unstarted
/-- The saved contexts of a launch leave its cores, a pair's follower with its leader. -/
def State.moveOut (s : State) (l : Launch) : State :=
  let s := l.held.foldl (fun s c => s.setCore (savedKey l.id c) (s.core c)) s
  l.held.foldl (fun s c => s.setCore c Core.reset) s
/-- All cores of a halting launch saved, it leaves them. -/
def State.endSave (s : State) (l : Launch) : State :=
  if l.cores.all fun c => (s.core c).halt == .saved then
    (s.moveOut l).onLaunch l.id fun l => { l with state := .preempted }
  else s

/-- Does no bank of the core, or of its follower, stand in retention mode, for whose end a save waits (R439)? -/
def State.banksAwake (s : State) (l : Launch) (c : Nat) : Bool :=
  (s.core c).retention.isEmpty && (!l.doubles || (s.core (c + 1)).retention.isEmpty)
/-- A halted core closes its segment and saves its context (R347). -/
def execContextSave (core : Nat) (s : State) : Out :=
  let k := s.core core
  match s.launchOf core with
  | none => .next s
  | some l =>
    if l.state ≠ .halting ∨ l.pinned ≠ none ∨ k.halt ≠ .requested ∨ !k.stands ∨ !k.opsParked ∨ !k.out.isEmpty ∨ !s.banksAwake l core then
      .next s
    else match (s.withdrawSteal core).closeSegment core true with
      | none => .next s
      | some t =>
        if !(t.core core).out.isEmpty || ((t.launch? l.id).bind (·.pinned)).isSome then .next t
        else .next ((t.onCore core fun k => { k with halt := .saved }).endSave l)

/-- Bring a saved context back to its core. -/
def State.moveIn (s : State) (l : Launch) (c : Nat) : State :=
  (s.setCore c (s.core (savedKey l.id c))).setCore (savedKey l.id c) Core.reset
/-- Restore one context on its core, with its follower's. -/
def State.restore (s : State) (l : Launch) (c : Nat) : State :=
  let s := (s.moveIn l c).onCore c fun k => { k.reissueSteal with halt := .running }
  let s := if l.debugHalted then s else s.onCore c Core.unpark
  if l.doubles then s.moveIn l (c + 1) else s
/-- A pre-empted launch that has been granted its cores again resumes on them (R344, R347). -/
def execResumption (launch : Nat) (s : State) : Out :=
  match s.launch? launch with
  | none => .next s
  | some l =>
    if l.state ≠ .granting ∨ l.grantNo = 0 ∨ !s.coresFree l then .next s
    else
      .next (((l.cores.foldl (fun s c => s.restore l c) s).onLaunch launch fun l => { l with state := .running }).arbitrateFor l.cores)

/-! ### The end (R349, R373, R381) -/

/-- The keys of a launch's contexts: its cores while it holds them, its saved contexts while it does not. -/
def State.keysOf (s : State) (l : Launch) : List Nat :=
  if l.cores.any fun c => (s.core c).launch == some l.id then l.cores else l.cores.map (savedKey l.id)
/-- The message of the result digest (R381): none while a subpage is not present, an error where a byte cannot be read. -/
def State.digestMessage (s : State) (l : Launch) (t : Sparse TEntry) : List OutRange → RangeRead × State
  | [] => (.got [], s)
  | o :: rest =>
    let head := leBytes o.va 8 ++ leBytes o.count 4 ++ leBytes o.elem 4
    let elems := (List.range o.count).foldl
      (fun (acc : RangeRead × State) i =>
        match acc with
        | (.got l', s) =>
          (match s.readVa t l.asid (o.va + i * o.stride) o.elem with
           | (.got b, s) => (.got (l' ++ b), s)
           | x => x)
        | x => x)
      (.got head, s)
    match elems with
    | (.got b, s) =>
      (match State.digestMessage s l t rest with
       | (.got r, s) => (.got (b ++ r), s)
       | x => x)
    | x => x
/-- LOGLEN (R349, R373 to R375). -/
def Launch.logLen (l : Launch) : Nat :=
  match l.logFail with
  | some n => n
  | none => if l.replay then 16 * l.replayUsed else 16 * l.log.length
/-- The launch-end record (R349). -/
def Launch.endRecord (l : Launch) (status : Nat) (digest : List Byte) : List Byte :=
  leBytes status 2 ++ leBytes 0 2 ++ leBytes (min l.slips (2 ^ 32 - 1)) 4 ++ leBytes l.kickLate 8 ++ leBytes l.frame 8 ++
    leBytes l.logLen 8 ++ digest
/-- Write the order log and the launch-end record, if there is a launch area. -/
def State.writeEnd (s : State) (l : Launch) (status : Nat) (digest : List Byte) : State :=
  match s.kernel? l with
  | none => s
  | some k =>
    if l.larea = 0 then s
    else (s.writeVa k.table l.asid l.id (l.larea + 64) (l.log.flatMap LogRec.bytes)).writeVa k.table l.asid l.id l.larea
      (l.endRecord status digest)
/-- Does the launch area wait for a subpage? Log entry 35 (DEDUCED). -/
def State.endAbsent (s : State) (l : Launch) : Bool :=
  match s.kernel? l with
  | none => false
  | some k => l.larea ≠ 0 && rangeAbsent k.table l.larea (64 + 16 * l.log.length)
/-- The launch has ended: its cores and contexts are free, what was on its way to them is gone. -/
def State.release (s : State) (l : Launch) (status : Nat) : State :=
  let s := ((s.keysOf l).foldl (fun s c => s.setCore c Core.reset) s)
  let s := (l.held ++ l.held.map (savedKey l.id)).foldl
    (fun s c => if (s.core c).launch = some l.id then s.setCore c Core.reset else s) s
  let s := (distinct (l.held.map clusterOf)).foldl (fun s cl => s.settleUnits cl) s
  { s.onLaunch l.id fun l => { l with state := .ended, status := status, streams := [], samples := [], cfgs := [], sgBegs := [] } with
    heldEvents := s.heldEvents.filter fun e => e.launch ≠ l.id
    transits := s.transits.filter fun e => e.launch ≠ l.id }

/-- Has a core done everything that its launch's end waits for (R232, R349)? -/
def Core.finished (k : Core) : Bool :=
  k.run == .ended && !k.mustClose && k.offs.isEmpty && k.out.isEmpty && k.side.isEmpty &&
    (List.range 7).all fun q => (k.opsOf q).isEmpty
/-- The digest as the record takes it, with the status (R381). Log entry 36 (DESIGN CHOICE). -/
def digestOf (r : RangeRead) : Nat × List Byte :=
  match r with
  | .got b => (0, bytesOfVals (shake256 (b.map (·.toNat)) 32))
  | _ => (5, List.replicate 32 0)

/-- A launch ends (R349): its last frame is processed, the digest computed, the log and the record written, the cores released. A replay
that has left a record of its log unconsumed diverges (R375). Log entry 35 (DEDUCED). Log entry 36 (DESIGN CHOICE). -/
def execLaunchEnd (launch : Nat) (s : State) : Out :=
  match s.launch? launch with
  | none => .next s
  | some l =>
    if l.state ≠ .running ∨ l.pinned ≠ none ∨ l.debugHalted ∨ !(l.cores.all fun c => (s.core c).finished) then .next s
    else match s.kernel? l with
      | none => .next s
      | some k =>
        match l.replayLog.findIdx? fun x => !x.2 with
        | some i => .next (s.diverge launch (16 * i) 0)
        | none =>
          let t := s.processFrame launch
          match t.digestMessage l k.table k.outs with
          | (.absent, _) => .next s
          | (r, t) =>
            if t.endAbsent l then .next s
            else
              let (st, d) := digestOf r
              let t := (t.writeEnd l st d).release l st
              .next (if st = 0 then t else (t.postSystem 1 l.asid 0 0).postRing)

/-- The first record of the log that a candidate has waited for through 2^20 ticks: its offset (R374, R375). Log entry 32 (DEDUCED). -/
def Launch.expired (l : Launch) : Option Nat :=
  let late := l.holds.filter fun h => decide (2 ^ 20 ≤ l.ran - h.since)
  (l.replayLog.findIdx? fun x => !x.2 && late.any fun h => x.1.sameKey h.kind h.tgt).map (16 * ·)
/-- A hold of a replay has lasted 2^20 ticks (R375). -/
def execReplayHoldTimeout (launch : Nat) (s : State) : Out :=
  match s.launch? launch with
  | none => .next s
  | some l =>
    match l.expired with
    | some off => if l.replay && l.state == .running && l.pinned == none then .next (s.diverge launch off 0) else .next s
    | none => .next s

/-! ### Ends by error (R433) and by teardown (R434) -/

/-- A core of a launch that is ended by an error (R433): commit buffer, undo buffer, checkpoint and operations are discarded; what has been
committed is still performed. Log entry 37 (DEDUCED). -/
def Core.discard (k : Core) : Core :=
  { k with
    run := .ended
    arch := { k.arch with accs := [], ahead := [], trap := none }
    seg := Segment.openAt k.arch
    mustClose := false
    offs := []
    ops := []
    msgs := []
    wait := .none
    deferred := none
    region := none
    waiters := [] }
/-- What is committed has been performed. -/
def State.drained (s : State) (l : Launch) : Bool :=
  (s.keysOf l).all fun c => (s.core c).out.isEmpty && (s.core c).side.isEmpty

/-- A launch with an error pinned to it is ended (R433): first its cores are halted and their buffers discarded; then, its side logs drained,
its cores are released, its record written with STATUS 5 and a system event posted. Log entry 37 (DEDUCED). -/
def execEndLaunchPinned (launch : Nat) (s : State) : Out :=
  match s.launch? launch with
  | none => .next s
  | some l =>
    match l.pinned with
    | none => .next s
    | some (cause, addr) =>
      if l.state = .ended ∨ l.state = .waiting then .next s
      else if l.state ≠ .ending then
        .next (((s.keysOf l).foldl (fun s c => s.onCore c Core.discard) s).onLaunch launch fun l => { l with state := .ending })
      else if !s.drained l || s.endAbsent l then .next s
      else
        .next ((((s.writeEnd l 5 (List.replicate 32 0)).release l 5).postSystem 1 l.asid cause addr).postRing)

/-- A launch of a torn-down address space is discarded without effect; its record is written with STATUS 6 (R434). -/
def State.kill (s : State) (l : Launch) : State :=
  let s := if l.grantNo = 0 then s else s.writeEnd l 6 (List.replicate 32 0)
  s.release l 6
/-- The requests of a context under way, and the windows of its sources, are discarded (R260, R434): those of every launch of it, ended or
pre-empted ones too. -/
def State.dropRequests (s : State) (asid : Nat) : State :=
  let of := fun (id : Nat) => s.launches.any fun l => l.id == id && l.asid == asid
  { s with
    windows := s.windows.filter fun w => !of w.launch
    hbm := { s.hbm with shadow := s.hbm.shadow.filter fun x => !of x.2.launch }
    resends := s.resends.filter fun r => !of r.launch
    launchMsgs := s.launchMsgs.filter fun m => !of m.launch }
/-- Quarantine a range (R436): a CSM line or an HBM sector. -/
def State.quarantine (s : State) (asid a : Nat) : State :=
  let h := { s.hbm with quarantined := s.hbm.quarantined ++ [(a, asid)] }
  (s.settleHbm (if a < hbmEnd then h.poison a s.gtc else h)).postSystem 3 asid 0 a

/-- Markhor tears an address space down (R434). Log entry 34 (DEDUCED). Log entry 35 (DEDUCED). -/
def execTeardown (asid : Nat) (s : State) : Out :=
  match s.context? asid with
  | none => .next s
  | some x =>
    match x.tearing with
    | none => .next s
    | some (cause, ranges) =>
      let s := (s.setContext asid (some { x with tombstone := true })).dropRequests asid
      let s := (s.launches.filter fun l => l.asid == asid && l.state ≠ .ended).foldl (fun s l => s.kill l) s
      let s := ranges.foldl (fun s a => s.quarantine asid a) s
      let s := (s.dropContext asid).setContext asid
        (some { Context.fresh 0 with live := false, tombstone := true })
      .next ((s.postSystem 2 asid cause 0).postRing)

end Sys2Proof.Machine
end

