-- ==== Sys2Proof/Machine/Migrate.lean ====
section
/-! DEFINITION. Sys2Proof/Machine/Migrate.lean: the migration controller (spec/20 R359 to R369): its commands, faults, migrations, hold-offs. -/

namespace Sys2Proof.Machine

/-! ### Subpages -/

/-- A subpage as a table names it: module, kernel, entry, number. -/
structure Sub where
  module : Nat
  kernel : Nat
  entry : Nat
  sub : Nat
  deriving DecidableEq, Repr, Inhabited

/-- The tables of an address space, each with its module and kernel. -/
def State.tablesOf (s : State) (asid : Nat) : List (Nat × Nat × Sparse TEntry) :=
  (s.modules.filter fun m => m.asid == asid).flatMap fun m => m.kernels.mapIdx fun i k => (m.handle, i, k.table)
/-- The entry of a subpage in its table. -/
def State.subEntry (s : State) (x : Sub) : Option TEntry :=
  s.tableEntry? x.module x.kernel x.entry
/-- The subpages that an address names, one for each table of the address space that covers it. -/
def State.subsAt (s : State) (asid va : Nat) : List Sub :=
  (s.tablesOf asid).filterMap fun t => (findEntry t.2.2 va).map fun x => ⟨t.1, t.2.1, x.1, x.2.subOf va⟩
/-- Is the entry the code entry of its kernel (R337)? -/
def State.isCode (s : State) (x : Sub) : Bool :=
  (((s.module? x.module).bind fun m => m.kernels[x.kernel]?).map fun k => k.codeEntry == x.entry).getD false
/-- The size of a subpage (R356). -/
def TEntry.subSize (e : TEntry) : Nat := e.size / 64

/-- Does the entry name device memory between two addresses? -/
def TEntry.meets (e : TEntry) (lo hi : Nat) : Bool := e.movable && decide (e.pa < hi) && decide (lo < e.pa + e.size)
/-- Device addresses widened to whole subpages of an entry that names some of them. -/
def TEntry.widen (e : TEntry) (r : Nat × Nat) : Nat × Nat :=
  if e.meets r.1 r.2 then
    (min r.1 (e.pa + (r.1 - e.pa) / e.subSize * e.subSize),
      max r.2 (e.pa + min e.size ((r.2 - e.pa + e.subSize - 1) / e.subSize * e.subSize)))
  else r
/-- Device addresses widened to whole subpages of every entry of an address space. -/
def State.widen (s : State) (asid : Nat) : Nat → Nat × Nat → Nat × Nat
  | 0, r => r
  | n + 1, r => State.widen s asid n ((s.tablesOf asid).foldl (fun r t => t.2.2.foldl (fun r x => x.2.widen r) r) r)
/-- The device addresses that move with a subpage: whole subpages of every entry of the address space that names them.
Log entry 42 (DEDUCED). -/
def State.spanOf (s : State) (asid : Nat) (e : TEntry) (sub : Nat) : Nat × Nat :=
  let lo := e.pa + e.subSize * sub
  s.widen asid (s.tablesOf asid).length (lo, lo + e.subSize)
/-- The subpages of an address space between two device addresses: what a migration changes in one, it changes in all.
Log entry 42 (DEDUCED). -/
def State.aliases (s : State) (asid lo hi : Nat) : List Sub :=
  (s.tablesOf asid).flatMap fun t => t.2.2.flatMap fun x =>
    if !x.2.meets lo hi then []
    else (List.range 64).filterMap fun i =>
      let a := x.2.pa + x.2.subSize * i
      if decide (lo ≤ a) && decide (a < hi) then some ⟨t.1, t.2.1, x.1, i⟩ else none

/-- Change an entry of a table. -/
def onEntry (idx : Nat) (f : TEntry → TEntry) (t : Sparse TEntry) : Sparse TEntry :=
  t.map fun x => if x.1 = idx then (x.1, f x.2) else x
/-- The contexts of cores whose tables hold an entry. -/
def State.keysWith (s : State) (x : Sub) : List Nat :=
  (s.cores.filter fun c => match s.launchOf c.1 with
    | some l => l.module == x.module && l.kernel == x.kernel
    | none => false).map (·.1)
/-- Change an entry in the table of its kernel. -/
def State.onTable (s : State) (x : Sub) (f : TEntry → TEntry) : State :=
  s.onModule x.module fun m =>
    { m with kernels := m.kernels.mapIdx fun i k => if i = x.kernel then { k with table := onEntry x.entry f k.table } else k }
/-- Change an entry in its kernel's table and in every copy (R365 step 4). -/
def State.onEverywhere (s : State) (x : Sub) (f : TEntry → TEntry) : State :=
  (s.keysWith x).foldl (fun s c => s.onCore c fun k => { k with table := onEntry x.entry f k.table }) (s.onTable x f)
/-- Change the subpages between two device addresses everywhere. Log entry 42 (DEDUCED). -/
def State.onSpan (s : State) (asid lo hi : Nat) (f : Nat → TEntry → TEntry) : State :=
  (s.aliases asid lo hi).foldl (fun s x => s.onEverywhere x (f x.sub)) s
/-- Do two names mean subpages that move together? -/
def State.sameSub (s : State) (asid : Nat) (a b : Sub) : Bool :=
  match s.subEntry a, s.subEntry b with
  | some e, some f => e.movable && f.movable && s.spanOf asid e a.sub == s.spanOf asid f b.sub
  | _, _ => false

/-- Set the state and PRESENT bit of a subpage (R355). -/
def TEntry.setSub (e : TEntry) (i st : Nat) (here : Bool) : TEntry :=
  let w := e.states.toNat
  { e with
    present := if here then e.present ||| BitVec.shiftLeft 1 i else e.present &&& ~~~(BitVec.shiftLeft 1 i)
    states := BitVec.ofNat 128 (w - w / 4 ^ i % 4 * 4 ^ i + st % 4 * 4 ^ i) }
/-- State codes (R355). -/
def stDev : Nat := 0
def stHost : Nat := 1
def stDup : Nat := 2
def stMig : Nat := 3

/-! ### Commands (R359) -/

/-- The subpages that a command names: `count` of them from an address upward. -/
def State.named (s : State) (asid : Nat) : Nat → Nat → List (List Sub)
  | 0, _ => []
  | n + 1, va =>
    let l := s.subsAt asid va
    let size := ((l.head?).bind s.subEntry).map TEntry.subSize
    l :: (match size with
      | some k => State.named s asid n (va + k)
      | none => [])
/-- One of the subpages of a list that move together. -/
def State.distinctRegions (s : State) (asid : Nat) : List Sub → List Sub
  | [] => []
  | x :: l => x :: (State.distinctRegions s asid l).filter fun y => !s.sameSub asid x y
/-- May the command be given on a subpage: of an entry that migrates, and of the code entry only MOVE-TO-DEVICE? -/
def State.mayMove (s : State) (kind : MigKind) (x : Sub) : Bool :=
  match s.subEntry x with
  | none => false
  | some e => e.movable && (kind == .toDevice || !s.isCode x)
/-- Queue a migration of a subpage (R359). -/
def State.queueMigration (s : State) (asid : Nat) (kind : MigKind) (hbase : Nat) (x : Sub) : State :=
  match s.subEntry x with
  | none => s
  | some e =>
    let r := s.spanOf asid e x.sub
    { s with migrations := s.migrations ++ [⟨asid, x.module, x.kernel, x.entry, x.sub, r.1, r.2, kind, .queued, [], hbase, 0⟩] }
/-- The host memory that a loaded module holds: that of its sections, and the host copies of its entries (R356, R434). -/
def Module.hostRanges (m : Module) : List (Nat × Nat) :=
  m.hostMem ++ m.kernels.flatMap fun k => k.table.filterMap fun x =>
    if x.2.movable && x.2.hbase ≠ 0 then some (x.2.hbase, x.2.size) else none
/-- Would a host copy of a subpage at a host base lie in memory of another context that is being torn down (R434)? -/
def State.givesAway (s : State) (asid hbase : Nat) (x : Sub) : Bool :=
  match s.subEntry x with
  | none => false
  | some e => s.modules.any fun m =>
      m.asid ≠ asid && ((s.context? m.asid).bind (·.tearing)).isSome &&
        m.hostRanges.any fun r => overlap r.1 r.2 (hbase + e.subSize * x.sub) e.subSize
/-- A command of system software (R359), refused as a whole where one of its subpages may not be moved so, or would get memory of a context
that is being torn down (R434). -/
def State.moveCommand (s : State) (asid va count : Nat) (kind : MigKind) (hbase : Nat) : State :=
  let l := s.named asid count va
  let takes := kind == .toHost || kind == .duplicate
  let ok := s.isLive asid && count ≠ 0 && l.length == count &&
    l.all fun x => !x.isEmpty && x.all fun y => s.mayMove kind y && !(takes && s.givesAway asid hbase y)
  s.command ok (l.foldl (fun s x => (s.distinctRegions asid x).foldl (fun s x => s.queueMigration asid kind hbase x) s) s)

/-- MOVE-TO-DEVICE (R359). -/
def execMoveToDevice (asid va count : Nat) (s : State) : Out := .next (s.moveCommand asid va count .toDevice 0)
/-- MOVE-TO-HOST (R359). -/
def execMoveToHost (asid va count hbase : Nat) (s : State) : Out := .next (s.moveCommand asid va count .toHost hbase)
/-- DUPLICATE (R359). -/
def execDuplicate (asid va count hbase : Nat) (s : State) : Out := .next (s.moveCommand asid va count .duplicate hbase)
/-- UNMAP (R359). -/
def execUnmap (asid va count : Nat) (s : State) : Out := .next (s.moveCommand asid va count .unmap 0)

/-! ### Faults (R360, R367, R368) -/

/-- The subpage of a fault request. -/
def FaultReq.at (f : FaultReq) : Sub := ⟨f.module, f.kernel, f.entry, f.sub⟩
/-- The subpage of a migration. -/
def Migration.at (m : Migration) : Sub := ⟨m.module, m.kernel, m.entry, m.sub⟩
/-- Is a migration of the subpage queued or under way? -/
def State.migrating (s : State) (asid : Nat) (x : Sub) : Bool := s.migrations.any fun m => m.asid == asid && s.sameSub asid m.at x
/-- The fault request of a side for a subpage. -/
def State.faultOf (s : State) (asid : Nat) (byHost : Bool) (x : Sub) : Option FaultReq :=
  s.faults.find? fun f => f.asid == asid && f.byHost == byHost && s.sameSub asid f.at x
/-- Is a request of a side for the subpage held off (R368)? -/
def State.heldOff (s : State) (asid : Nat) (byHost : Bool) (x : Sub) : Bool :=
  s.holdOffs.any fun h => h.entry.asid == asid && h.entry.byHost == byHost && s.sameSub asid h.entry.at x

/-- Add the launches that wait to a request. -/
def FaultReq.join (f : FaultReq) (w : List (Nat × Bool)) : FaultReq :=
  w.foldl
    (fun f x =>
      if f.waits.any fun y => y.1 == x.1 then
        { f with waits := f.waits.map fun y => if y.1 = x.1 then (y.1, y.2 && x.2) else y }
      else { f with waits := f.waits ++ [x] }) f
/-- A request joins the one for its subpage, or is a new one (R360). -/
def State.noteFault (s : State) (asid : Nat) (byHost write : Bool) (x : Sub) (w : List (Nat × Bool)) : State :=
  match s.faultOf asid byHost x with
  | some f => { s with faults := s.faults.map fun g => if g = f then g.join w else g }
  | none => { s with faults := s.faults ++ [⟨asid, x.module, x.kernel, x.entry, x.sub, byHost, write, w⟩] }
/-- A request during the hold-off joins the one that is held (R368). -/
def State.joinHeld (s : State) (asid : Nat) (byHost : Bool) (x : Sub) (w : List (Nat × Bool)) : State :=
  { s with holdOffs := s.holdOffs.map fun h =>
      if h.entry.asid = asid ∧ h.entry.byHost = byHost ∧ s.sameSub asid h.entry.at x then { h with entry := h.entry.join w } else h }
/-- The requests of both sides meet (R368): the side where the subpage resides is served, the other mapped for remote access, and its
request for a move held off, with no access that waits on it any more. -/
def State.decideFault (s : State) (asid : Nat) (x : Sub) (e : TEntry) (byHost write : Bool) : State :=
  let home := e.stateOf x.sub == stHost
  let loser := !home
  let mine : FaultReq := ⟨asid, x.module, x.kernel, x.entry, x.sub, byHost, write, []⟩
  let other := s.faultOf asid (!byHost) x
  let held := if byHost = loser then mine else other.getD mine
  let s := { s with
    faults := s.faults.filter fun f => !(f.asid == asid && s.sameSub asid f.at x)
    holdOffs := s.holdOffs ++ [HoldOff.mk { held with waits := [] }] }
  let r := s.spanOf asid e x.sub
  s.onSpan asid r.1 r.2 fun i f => f.setSub i (f.stateOf i) true
/-- A fault request of a side reaches the controller: one for a DUP subpage collapses it and meets no request of the other side (R368).
Log entry 41 (DEDUCED). -/
def State.takeFault (s : State) (asid : Nat) (byHost write : Bool) (x : Sub) (e : TEntry) (w : List (Nat × Bool)) : State :=
  if s.migrating asid x then s.noteFault asid byHost write x w
  else if e.stateOf x.sub = stDup then s.queueMigration asid (if byHost then .collapseHost else .collapseDevice) 0 x
  else if s.heldOff asid byHost x then s.joinHeld asid byHost x w
  else if (s.faultOf asid (!byHost) x).isSome then s.decideFault asid x e byHost write
  else
    let s := s.noteFault asid byHost write x w
    if s.isCode x && !byHost then s.queueMigration asid .toDevice 0 x else s

/-- Does a piece of a CPYN in the side log of a core touch an address, and does some other access of its own? -/
def Core.pieceAt (k : Core) (va : Nat) : Bool := k.side.any fun w => !w.own && w.kind.touches va 1
def Core.otherAt (k : Core) (va : Nat) : Bool :=
  (k.side.any fun w => w.own && w.kind.touches va 1) || k.offs.any fun r => r.kind.ranges.any fun x => overlap x.1 x.2 va 1
/-- An access of a core meets a subpage that is not present, or a write one that is duplicated (R360, R367): one request goes to the
controller. Log entry 40 (DESIGN CHOICE). -/
def execFaultRequest (core va : Nat) (write : Bool) (s : State) : Out :=
  match (s.contextKeys core).find? fun key => (s.core key).launch.isSome with
  | none => .next s
  | some key =>
    let k := s.core key
    match s.launchOf key, lookup k.table (if write then .write else .read) va with
    | some l, .absent i sub =>
      let x : Sub := ⟨l.module, l.kernel, i, sub⟩
      match s.subEntry x with
      | none => .next s
      | some e => .next (s.takeFault l.asid false write x e [(l.id, k.pieceAt va && !k.otherAt va)])
    | _, _ => .next s

/-- The host faults on a subpage, or writes a duplicated one (R367, R368). Log entry 40 (DESIGN CHOICE). -/
def execHostFaultRequest (asid va : Nat) (write : Bool) (s : State) : Out :=
  .next ((s.distinctRegions asid (s.subsAt asid va)).foldl
    (fun s x =>
      match s.subEntry x with
      | none => s
      | some e =>
        let st := e.stateOf x.sub
        if !e.movable || s.isCode x || (st == stDup && e.has x.sub && !write) || (st == stHost && e.has x.sub) then s
        else s.takeFault asid true write x e []) s)

/-- The hold-off ends (R368): the held request is one like any other, and may be granted from now on. -/
def execHoldOffExpiry (idx : Nat) (s : State) : Out :=
  match s.holdOffs[idx]? with
  | none => .next s
  | some h =>
    let s := { s with holdOffs := s.holdOffs.eraseIdx idx }
    match s.subEntry h.entry.at with
    | none => .next s
    | some _ => .next (s.noteFault h.entry.asid h.entry.byHost h.entry.write h.entry.at h.entry.waits)

/-- Is the entry a piece or the enqueue of a given copy? -/
def Write.ofCopy (w : Write) (issuer queue opSeq : Nat) : Bool :=
  match w.kind with
  | .pieceCpyn _ _ i q n => i == issuer && q == queue && n == opSeq
  | .enqueueCpyn _ i q n _ => i == issuer && q == queue && n == opSeq
  | _ => false
/-- The first piece of a CPYN in the side log of a core that touches a range. -/
def Core.pieceIn (k : Core) (va n : Nat) : Option (Nat × Write) :=
  (k.side.mapIdx fun i w => (i, w)).find? fun x => !x.2.own && x.2.kind.touches va n
/-- Discard what a CPYN has still to place: its pieces and its enqueue (R369). -/
def Core.dropCopy (k : Core) (q sn : Nat) : Core :=
  match k.headOp q with
  | some o => if o.code = .cpyn ∧ o.seq = sn then k.setHead q { o with dropped := true, spill := [] } else k
  | none => k
/-- Discard a piece that cannot be performed, the later pieces of its copy, placed or not, and the enqueue (R369). -/
def State.dropPiece (s : State) (key va n : Nat) (l : Launch) : State :=
  match (s.core key).pieceIn va n with
  | some (i, w) =>
    (match w.kind with
     | .pieceCpyn a _ issuer q sn =>
       let s := s.onCore key fun k => { k with side := k.side.take i ++ (k.side.drop i).filter fun x => !x.ofCopy issuer q sn }
       let s := s.onCore (if key < numCores then issuer else savedKey l.id issuer) fun k => k.dropCopy q sn
       s.postEventFor l.id issuer issuer (eventWord 3 0 0 q sn) (BitVec.ofNat 64 (max a va))
     | _ => s)
  | none => s
/-- Discard every copy whose pieces meet a subpage in the side logs of a launch. -/
def State.dropPieces (s : State) (l : Launch) (va n : Nat) : State :=
  (s.keysOf l).foldl (fun s key => (List.range sideDepth).foldl (fun s _ => s.dropPiece key va n l) s) s
/-- Discard the writes of the side logs of a launch that can never be performed on a subpage (R360, R433). Log entry 37 (DEDUCED). -/
def State.dropOwn (s : State) (l : Launch) (va n : Nat) : State :=
  (s.keysOf l).foldl (fun s key => s.onCore key fun k => { k with side := k.side.filter fun w => !(w.own && w.kind.touches va n) }) s
/-- A fault is unresolvable for a launch: its CPYN pieces are discarded, and any other access ends it (R360, R369). -/
def State.unresolvable (s : State) (e : TEntry) (sub : Nat) (w : Nat × Bool) : State :=
  match s.launch? w.1 with
  | none => s
  | some l =>
    let s := s.dropPieces l (e.va + e.subSize * sub) e.subSize
    if w.2 then s else (s.dropOwn l (e.va + e.subSize * sub) e.subSize).pin l.id causeUnresolvable 0
/-- System software declares a fault unresolvable (R360). -/
def execDeclareUnresolvable (asid va : Nat) (s : State) : Out :=
  let fs := s.faults.filter fun f => f.asid == asid && !f.byHost && (s.subsAt asid va).any fun x => s.sameSub asid f.at x
  let t := fs.foldl
    (fun s f => match s.subEntry f.at with
      | none => s
      | some e => f.waits.foldl (fun s w => s.unresolvable e f.sub w) s)
    { s with faults := s.faults.filter fun f => !fs.contains f }
  .next (s.command (!fs.isEmpty) t)

/-! ### Migration (R365 to R367) -/

/-- The name of a context, the same whether it is saved or stands on its core: a launch and a core. -/
def State.contextCode (s : State) (key : Nat) : Option Nat := (s.core key).launch.map fun id => savedKey id (flat key)
/-- Does the context of that name still exist? -/
def State.hasContext (s : State) (code : Nat) : Bool :=
  s.contextCode code == some code || s.contextCode (flat code) == some code
/-- Does an earlier migration of the subpage come first (R359), or a hold-off stand against this one (R368)? -/
def State.mustWait (s : State) (idx : Nat) (m : Migration) : Bool :=
  ((s.migrations.take idx).any fun x => x.asid == m.asid && decide (x.lo < m.hi) && decide (m.lo < x.hi)) ||
    (m.kind == .toHost && s.heldOff m.asid true m.at) || (m.kind == .toDevice && s.heldOff m.asid false m.at)
/-- Steps 1 and 2 (R365): the subpage is marked in the tables, and every copy is to be invalidated. -/
def State.beginMigration (s : State) (idx : Nat) (m : Migration) (e : TEntry) : State :=
  let l := s.aliases m.asid m.lo m.hi
  let waiting := distinct ((l.flatMap s.keysWith).filterMap s.contextCode)
  let s := l.foldl (fun s x => s.onTable x fun f => f.setSub x.sub stMig false) s
  { s with migrations :=
      s.migrations.set idx { m with phase := .invalidating, waiting := waiting, old := e.stateOf m.sub } }
/-- The state that a migration leaves. -/
def Migration.final (m : Migration) : Nat :=
  match m.kind with
  | .toDevice | .collapseDevice => stDev
  | .toHost | .collapseHost => stHost
  | .duplicate => stDup
  | .unmap => m.old
/-- Has the state a host copy (R356)? -/
def hostState (st : Nat) : Bool := st == stHost || st == stDup
/-- Does the `i`-th subpage of an entry move with a migration? -/
def Migration.moves (m : Migration) (e : TEntry) (i : Nat) : Bool :=
  decide (m.lo ≤ e.pa + e.subSize * i) && decide (e.pa + e.subSize * i < m.hi)
/-- Has a subpage of the entry that a migration does not move a host copy, one that is being moved included? -/
def State.hostElsewhere (s : State) (m : Migration) (e : TEntry) : Bool :=
  ((List.range 64).any fun i => !m.moves e i && hostState (e.stateOf i)) ||
    s.migrations.any fun x => x.asid == m.asid && x.lo ≠ m.lo && x.phase == .invalidating && hostState x.old && e.meets x.lo x.hi
/-- HBASE of an entry while a migration's bytes move (R365 step 4): a command's, where no other subpage of an entry that names them has a host
copy; else it lies as it does for the entry, `kept`, that has one. -/
def Migration.hostBase (m : Migration) (e : TEntry) (kept : Option TEntry) : Nat :=
  match kept with
  | some f => f.hbase + e.pa - f.pa
  | none => if (m.kind == .toHost || m.kind == .duplicate) && m.old == stDev then m.hbase else e.hbase
/-- Copy a subpage between its places, sector by sector (R365 step 3): an uncorrectable byte has no stated value (log entry 22). -/
def State.copySub (s : State) (asid : Nat) (toHost : Bool) (key : Nat) : Nat → Nat → Nat → State
  | 0, _, _ => s
  | n + 1, dev, host =>
    let s :=
      if toHost then
        let (r, s) := s.readPlace asid (.hbm dev key) 512
        let l := if r.2 then (List.range 512).map fun i => Config.freeByte s.choice (dev + i) else r.1
        { s with host := putMem s.host host l }
      else s.writePlace asid numCores 0 (.hbm dev key) (memBytes s.host host 512)
    State.copySub s asid toHost key n (dev + 512) (host + 512)
/-- Which way the bytes go, if they are copied at all. -/
def Migration.direction (m : Migration) : Option Bool :=
  match m.kind with
  | .toDevice => if m.old = stHost then some false else none
  | .toHost => if m.old = stDev then some true else none
  | .duplicate => if m.old = stHost then some false else if m.old = stDev then some true else none
  | _ => none
/-- Steps 3 to 5 (R365): the bytes are copied, every table shows the subpage in its new state, what waited goes on. -/
def State.endMigration (s : State) (idx : Nat) (m : Migration) (e : TEntry) : State :=
  let near := (s.tablesOf m.asid).flatMap fun t => (t.2.2.filter fun x => x.2.meets m.lo m.hi).map (·.2)
  let hb := m.hostBase e (near.find? (s.hostElsewhere m))
  let else_ := near.filter (s.hostElsewhere m)
  let s := match m.direction with
    | some toHost => s.copySub m.asid toHost e.key ((m.hi - m.lo) / 512) m.lo (hb + m.lo - e.pa)
    | none => s
  let s := s.onSpan m.asid m.lo m.hi fun i f =>
    { f.setSub i m.final (m.kind ≠ .unmap) with
      hbase := if hostState m.final || else_.any fun g => g.pa == f.pa && g.m == f.m then hb + f.pa - e.pa else 0 }
  { s with
    migrations := s.migrations.eraseIdx idx
    faults := if m.kind = .unmap then s.faults else s.faults.filter fun f => !(f.asid == m.asid && s.sameSub m.asid f.at m.at) }

/-- Has the move nothing to do: a code subpage that is in device memory stays there and present (R55, R356)? -/
def State.atHome (s : State) (m : Migration) (e : TEntry) : Bool :=
  s.isCode m.at && e.stateOf m.sub == stDev && e.has m.sub
/-- A migration goes on (R365): it begins, or, every invalidate acknowledged, it copies and ends. -/
def execMigration (idx : Nat) (s : State) : Out :=
  match s.migrations[idx]? with
  | none => .next s
  | some m =>
    match s.subEntry m.at with
    | none => .next { s with migrations := s.migrations.eraseIdx idx }
    | some e =>
      match m.phase with
      | .queued =>
        if s.mustWait idx m then .next s
        else if s.atHome m e then .next { s with migrations := s.migrations.eraseIdx idx }
        else .next (s.beginMigration idx m e)
      | .invalidating => if !(m.waiting.any s.hasContext) then .next (s.endMigration idx m e) else .next s

/-- Does a write that has left the core, translated, go to the subpage (R366)? -/
def Core.writesTo (k : Core) (e : TEntry) (sub : Nat) : Bool :=
  k.out.any fun w => w.kind.touches (e.va + e.subSize * sub) e.subSize
/-- The core's copy shows the subpage absent. -/
def Core.invalidate (k : Core) (i sub : Nat) : Core := { k with table := onEntry i (fun e => e.setSub sub stMig false) k.table }
/-- A lookup unit acknowledges an invalidate, once every write that has been translated to the subpage has been performed (R366). Log
entry 43 (DEDUCED). -/
def execInvalidate (core idx : Nat) (s : State) : Out :=
  match s.migrations[idx]? with
  | none => .next s
  | some m =>
    let due := fun key => ((s.contextCode key).map fun x => m.waiting.contains x).getD false
    match (s.contextKeys core).find? due with
    | some key =>
      let l := (s.aliases m.asid m.lo m.hi).filter fun x => (s.keysWith x).contains key
      let busy := l.any fun x => ((s.subEntry x).map fun f => (s.core key).writesTo f x.sub).getD false
      if busy then .next s else
      let s := s.onCore key fun k => l.foldl (fun k x => k.invalidate x.entry x.sub) k
      .next { s with migrations := s.migrations.set idx { m with waiting := m.waiting.filter fun x => some x ≠ s.contextCode key } }
    | none => .next s

end Sys2Proof.Machine
end

