-- ==== Sys2Proof/Machine/Modules.lean ====
section
/-! DEFINITION. Sys2Proof/Machine/Modules.lean: Hualmem modules (spec/18 R323 to R338, spec/22 R384 to R386): the checks of a load in their
order, relocation, placement; MODULE_LOAD, MODULE_UNLOAD, WEIGHT_BLOCK_ACCESS. -/

namespace Sys2Proof.Machine

/-! ### Sections -/

/-- A section table entry (R325). -/
structure Section where
  type : Nat
  link : Nat
  align : Nat
  offset : Nat
  size : Nat
  clean : Bool
  deriving DecidableEq, Repr, Inhabited

/-- Read a section table entry. -/
def readSection (f : List Byte) (o : Nat) : Section where
  type := rd f o 1
  link := rd f (o + 2) 2
  align := rd f (o + 4) 4
  offset := rd f (o + 8) 8
  size := rd f (o + 16) 8
  clean := zeros f (o + 1) 1 && zeros f (o + 24) 8
/-- The section table of a file (R324). -/
def sectionsOf (f : List Byte) : List Section :=
  (List.range (rd f 8 2)).map fun i => readSection f (rd f 16 8 + 32 * i)

/-- KERNELS and REGIONS (R324). -/
def kernelsOf (f : List Byte) : Nat := rd f 10 2
def regionsOf (f : List Byte) : Nat := rd f 12 2

/-- A file with its section table. -/
structure Hmo where
  file : List Byte
  secs : List Section
  kernels : Nat
  regions : Nat
  deriving DecidableEq, Repr, Inhabited

/-- Read a file's frame. -/
def hmoOf (f : List Byte) : Hmo := ⟨f, sectionsOf f, kernelsOf f, regionsOf f⟩
/-- The content of a section; a `.bss` is all zeros (R325). -/
def Hmo.content (h : Hmo) (x : Section) : List Byte :=
  if x.type = 7 then List.replicate x.size 0 else bytesAt h.file x.offset x.size
/-- The content of the section of a type and kernel number, empty if there is none. -/
def Hmo.part (h : Hmo) (type link : Nat) : List Byte :=
  ((h.secs.find? fun x => x.type == type && x.link == link).map h.content).getD []
/-- The content of a module section. -/
def Hmo.whole (h : Hmo) (type : Nat) : List Byte := h.part type 0xFFFF

/-! ### The checks (R336) -/

/-- Check 1. -/
def headerOk (f : List Byte) : Bool :=
  64 ≤ f.length && rd f 0 4 == 0x59_4F_4D_48 && rd f 4 2 == 1 && rd f 32 8 == f.length && zeros f 6 2 && zeros f 14 2 && zeros f 28 4 &&
    zeros f 40 24
/-- The `.sig` section, if it is present and last (R325, R334). -/
def Hmo.sig (h : Hmo) : Option Section :=
  match h.secs.getLast? with
  | none => none
  | some x => if x.type = 14 ∧ x.size = 176 ∧ x.offset + x.size = h.file.length then some x else none
/-- The digest of a file (R334). -/
def Hmo.digest (h : Hmo) (x : Section) : List Byte :=
  bytesOfVals (shake256 (valsOf (h.file.take x.offset)) 64)
/-- Check 2. -/
def Hmo.signed (h : Hmo) (keys : List (List Byte)) : Bool :=
  match h.sig with
  | none => false
  | some x =>
    let key := bytesAt h.file x.offset 57
    keys.contains key && ed448Verify key (h.digest x) (bytesAt h.file (x.offset + 57) 114)

/-- Is the number a power of two from 1 to 65,536? -/
def powerOk (n : Nat) : Bool := (List.range 17).any fun i => n == 2 ^ i
/-- Does a section lie where it may? -/
def Hmo.sectionOk (h : Hmo) (x : Section) : Bool :=
  1 ≤ x.type && x.type ≤ 14 && powerOk x.align &&
    (if x.type = 7 then x.offset == 0 else x.offset % x.align == 0 && x.offset + x.size ≤ h.file.length) &&
    (if x.type ≤ 4 || x.type == 10 then decide (x.link < h.kernels) else x.link == 0xFFFF)
/-- How often a section of a type occurs for a kernel. -/
def Hmo.occurs (h : Hmo) (type link : Nat) : Nat := (h.secs.filter fun x => x.type == type && x.link == link).length
/-- Does no section overlap a later one? -/
def apart : List Section → Bool
  | [] => true
  | x :: l => (l.all fun y => x.type == 7 || y.type == 7 || x.size == 0 || y.size == 0 || x.offset + x.size ≤ y.offset || y.offset + y.size ≤ x.offset) && apart l
/-- Check 3. -/
def Hmo.sectionsOk (h : Hmo) : Bool :=
  let tab := rd h.file 16 8
  1 ≤ h.secs.length && h.secs.length ≤ 1024 && 1 ≤ h.kernels && h.kernels ≤ 256 && h.regions ≤ 64 && tab % 8 == 0 &&
    tab + 32 * h.secs.length ≤ h.file.length && h.secs.all h.sectionOk && apart h.secs &&
    ((List.range h.kernels).all fun k =>
      [1, 2, 3, 4].all (fun t => h.occurs t k == 1) && h.occurs 10 k ≤ 1) &&
    [5, 6, 7, 8, 11, 13].all (fun t => h.occurs t 0xFFFF ≤ 1) && h.occurs 12 0xFFFF == 1 && h.occurs 14 0xFFFF == 1 &&
    h.occurs 9 0xFFFF == (if h.regions = 0 then 0 else 1)

/-- Do neighbours of a list satisfy a relation? -/
def chain {α : Type} (f : α → α → Bool) : List α → Bool
  | x :: y :: l => f x y && chain f (y :: l)
  | _ => true
/-- Is the byte a continuation byte of UTF-8? -/
def utf8Tail (b : Byte) : Bool := b.toNat / 64 == 2
/-- Are bytes well-formed UTF-8 (R331)? No overlong form, no surrogate, nothing above U+10FFFF. -/
def utf8Ok : List Byte → Bool
  | [] => true
  | a :: l =>
    let n := a.toNat
    if n < 0x80 then utf8Ok l
    else match l with
      | [] => false
      | b :: l =>
        let m := b.toNat
        if 0xC2 ≤ n ∧ n ≤ 0xDF then utf8Tail b && utf8Ok l
        else match l with
          | [] => false
          | c :: l =>
            if n / 16 = 0xE then
              utf8Tail b && utf8Tail c && (n ≠ 0xE0 || decide (0xA0 ≤ m)) && (n ≠ 0xED || decide (m < 0xA0)) && utf8Ok l
            else match l with
              | [] => false
              | d :: l =>
                decide (0xF0 ≤ n) && decide (n ≤ 0xF4) && utf8Tail b && utf8Tail c && utf8Tail d && (n ≠ 0xF0 || decide (0x90 ≤ m)) &&
                  (n ≠ 0xF4 || decide (m < 0x90)) && utf8Ok l
/-- The string area of `.sym` (R331). -/
def Hmo.strings (h : Hmo) : List Byte := (h.whole 12).drop (rd (h.whole 12) 4 4)
/-- The name at an offset of the string area. -/
def Hmo.name (h : Hmo) (n : Nat) : List Byte := (h.strings.drop n).takeWhile (· ≠ 0)
/-- Is there a NUL-terminated UTF-8 name at the offset (R331)? -/
def Hmo.nameOk (h : Hmo) (n : Nat) : Bool := (h.strings.drop n).contains 0 && utf8Ok (h.name n)
/-- `.tt` (R326). -/
def Hmo.ttOk (h : Hmo) (k : Nat) : Bool :=
  let t := h.part 3 k
  let f := rd t 4 4
  let code := rd t 20 4
  let es := recordsOf 16 (t.drop 32)
  32 ≤ t.length && t.length == 32 + 16 * rd t 16 4 && 1 ≤ rd t 16 4 && 1 ≤ f && h.nameOk (rd t 0 4) && zeros t 24 8 && code % 2 == 0 &&
    code == (h.part 1 k).length &&
    (es.all fun e => rd e 0 2 ≤ 287 && rd e 2 1 ≤ 15 && rd e 3 1 ≤ 1 && rd e 4 4 < f && rd e 8 8 % 2 == 0 && rd e 8 8 < code) &&
    chain (fun a b => rd a 0 2 < rd b 0 2 || (rd a 0 2 == rd b 0 2 && rd a 4 4 < rd b 4 4)) es
/-- `.dict` (R327). -/
def Hmo.dictOk (h : Hmo) (k : Nat) : Bool :=
  let n := (h.part 2 k).length
  n % 48 == 0 && n / 48 ≤ 65280
/-- The size of a template entry's region. -/
def xlatSize (e : List Byte) : Nat := 65536 * 2 ^ rd e 8 1
/-- Does a template entry target data, or host memory with the host attribute (R328)? -/
def Hmo.targetOk (h : Hmo) (e : List Byte) : Bool :=
  let t := rd e 12 2
  if t = 0xFFFF then (rd e 9 1).testBit 4
  else match h.secs[t]? with
    | none => false
    | some x => 5 ≤ x.type && x.type ≤ 7 && rd e 16 8 ≤ x.size
/-- `.xlat` (R328). -/
def Hmo.xlatOk (h : Hmo) (k : Nat) : Bool :=
  let l := h.part 4 k
  let es := recordsOf 32 l
  l.length % 32 == 0 && es.length ≤ 511 &&
    (es.all fun e => rd e 8 1 ≤ 20 && rd e 0 8 % xlatSize e == 0 && rd e 0 8 + xlatSize e ≤ 2 ^ 52 && rd e 9 1 < 64 && rd e 10 1 ≤ 15 &&
      zeros e 11 1 && zeros e 14 2 && zeros e 24 8 && h.targetOk e) &&
    es.all fun a => (es.filter fun b => rd a 0 8 < rd b 0 8 + xlatSize b && rd b 0 8 < rd a 0 8 + xlatSize a).length == 1
/-- `.output` (R100, R329). -/
def Hmo.outputOk (h : Hmo) (k : Nat) : Bool :=
  let l := h.part 10 k
  l.length % 24 == 0 && (recordsOf 24 l).all fun e => 1 ≤ rd e 12 4 && rd e 12 4 ≤ rd e 16 4 && zeros e 20 4
/-- Is a list of register numbers `n` registers below 56 and 0xFF behind them (R330)? -/
def regsOk (l : List Byte) (n : Nat) : Bool := (l.take n).all (fun b => decide (b.toNat < 56)) && (l.drop n).all (· == 0xFF)
/-- Does a dependency range lie in watched entries of a kernel (R384)? The bytes from `va` to `fin`, entry by entry. -/
def watched? (es : List (List Byte)) : Nat → Nat → Nat → Bool
  | 0, va, fin => decide (fin ≤ va)
  | n + 1, va, fin =>
    if fin ≤ va then true
    else match es.find? fun e => rd e 0 8 ≤ va && va < rd e 0 8 + xlatSize e with
      | none => false
      | some e => (rd e 9 1).testBit 5 && watched? es n (rd e 0 8 + xlatSize e) fin
/-- `.approx` (R330). -/
def Hmo.approxOk (h : Hmo) : Bool :=
  let l := h.whole 9
  l.length == 128 * h.regions &&
    ((recordsOf 128 l).mapIdx fun i e => (i, e)).all fun (i, e) =>
      let nin := rd e 1 1
      let nout := rd e 2 1
      let ndep := rd e 3 1
      let k := rd e 4 2
      let es := recordsOf 32 (h.part 4 k)
      rd e 0 1 == i && 1 ≤ nin && nin ≤ 16 && 1 ≤ nout && nout ≤ 8 && ndep ≤ 4 && decide (k < h.kernels) && zeros e 6 2 &&
        regsOk (bytesAt e 8 16) nin && regsOk (bytesAt e 24 8) nout && rd e 32 4 < (h.part 1 k).length &&
        rd e 36 4 < (h.part 1 k).length && h.nameOk (rd e 40 4) && zeros e 44 4 && zeros e (48 + 16 * ndep) (64 - 16 * ndep) &&
        zeros e 112 16 &&
        (List.range ndep).all fun j =>
          watched? es (es.length + 1) (rd e (48 + 16 * j) 8) (rd e (48 + 16 * j) 8 + rd e (56 + 16 * j) 8)
/-- `.sym` (R331): a symbol's bytes lie in its section. Log entry 69 (DEDUCED). -/
def Hmo.symOk (h : Hmo) : Bool :=
  let s := h.whole 12
  let n := rd s 0 4
  8 ≤ s.length && 8 + 24 * n ≤ rd s 4 4 && rd s 4 4 ≤ s.length && utf8Ok h.strings && h.strings.getLast?.all (· == 0) &&
    (recordsOf 24 (bytesAt s 8 (24 * n))).all fun e =>
      h.nameOk (rd e 0 4) && rd e 4 1 ≤ 4 && rd e 5 1 ≤ 1 &&
        (if rd e 4 1 = 3 then rd e 6 2 == 0xFFFF && rd e 8 8 < h.regions
         else match h.secs[rd e 6 2]? with
          | none => false
          | some x => decide (rd e 8 8 + rd e 16 8 ≤ x.size))
/-- The bits that a relocation kind writes: where a field begins, how wide it is (R333). -/
def relocWidth (kind : Nat) : Nat := if kind = 1 then 64 else if kind = 2 then 32 else if kind = 7 then 31 else 38
/-- The first bit of a relocation's place within its section: a syllable of a dictionary entry starts at bit 60 times its slot. -/
def relocBit (type : Nat) (r : List Byte) : Nat := 8 * rd r 8 4 + (if type = 2 then 60 * rd r 4 1 else 0)
/-- Is SLOT of a relocation right (R332): in code the slot number of the syllable word at its place (R57)? -/
def Hmo.slotOk (h : Hmo) (x : Section) (r : List Byte) : Bool :=
  let n := rd r 4 1
  if x.type = 1 then rd (h.content x) (rd r 8 4) 8 / 2 ^ 60 % 8 == n else if x.type = 2 then decide (n ≤ 5) else n == 0
/-- `.reloc` (R332): places lie in code and dictionary for syllables, in data or layout for words. -/
def Hmo.relocOk (h : Hmo) : Bool :=
  let l := h.whole 11
  l.length % 24 == 0 && (recordsOf 24 l).all fun r =>
    match h.secs[rd r 0 2]? with
    | none => false
    | some x =>
      let kind := rd r 2 1
      1 ≤ kind && kind ≤ 7 && 1 ≤ rd r 3 1 && rd r 3 1 ≤ 2 && h.slotOk x r && zeros r 5 1 &&
        decide (rd r 6 2 < h.kernels) && zeros r 12 4 && (if kind ≤ 2 then x.type == 5 || x.type == 6 || x.type == 8 else x.type ≤ 2) &&
        (x.type ≠ 2 || rd r 8 4 % 48 == 0) && relocBit x.type r + (if kind ≤ 2 then relocWidth kind else 60) ≤ 8 * x.size
/-- `.layout` (R209, R329): records of 64 bytes, aligned to 64, with nothing in the bits that must be zero. -/
def Hmo.layoutOk (h : Hmo) : Bool :=
  (h.secs.all fun x => x.type ≠ 8 || x.offset % 64 == 0) && (h.whole 8).length % 64 == 0 &&
    (recordsOf 64 (h.whole 8)).all fun e => !recDirty ((List.range 8).map fun i => BitVec.ofNat 64 (rd e (8 * i) 8))
/-- Check 4; the module's name and the reserved bytes of the section table are asked for here (log entry 69, DEDUCED). -/
def Hmo.recordsOk (h : Hmo) : Bool :=
  h.nameOk (rd h.file 24 4) && (h.secs.all (·.clean)) &&
    ((List.range h.kernels).all fun k => h.ttOk k && h.dictOk k && h.xlatOk k && h.outputOk k) && h.layoutOk &&
    h.approxOk && h.symOk && h.relocOk && (h.whole 13).length % 12 == 0 && zeros h.file (h.file.length - 5) 5

/-! ### Relocation (R332, R333) -/

/-- The bases of a kernel: of its code, and of its copy of the layout records. -/
def planBase (p : KernelPlan) (which : Nat) : Nat := p.va + (if which = 1 then p.codeOff else p.layoutOff)
/-- V of a relocation. -/
def relocValue (plan : List KernelPlan) (r : List Byte) : W64 :=
  BitVec.ofNat 64 (((plan[rd r 6 2]?).map fun p => planBase p (rd r 3 1)).getD 0) + BitVec.ofNat 64 (rd r 16 8)
/-- Does the value fit (R333)? -/
def relocFits (kind : Nat) (v : W64) : Bool :=
  let i := v.toInt
  match kind with
  | 2 => decide (v.toNat < 2 ^ 32)
  | 5 => decide (-(2 ^ 37) ≤ i) && decide (i < 2 ^ 37)
  | 6 => decide (v.toNat < 2 ^ 38)
  | 7 => decide (-(2 ^ 30) ≤ i) && decide (i < 2 ^ 30)
  | _ => true
/-- What is written. -/
def relocWritten (kind : Nat) (v : W64) : Nat := if kind = 4 then v.toNat / 2 ^ 38 else v.toNat % 2 ^ relocWidth kind
/-- Replace bits of a list of bytes. -/
def patchBits (l : List Byte) (bit width v : Nat) : List Byte :=
  let o := bit / 8
  let n := (bit % 8 + width + 7) / 8
  let old := rd l o n
  let new := old - old / 2 ^ (bit % 8) % 2 ^ width * 2 ^ (bit % 8) + v * 2 ^ (bit % 8)
  spliceBytes l o (leBytes new n)
/-- Check 5. -/
def Hmo.fits (h : Hmo) (plan : List KernelPlan) : Bool :=
  (recordsOf 24 (h.whole 11)).all fun r => relocFits (rd r 2 1) (relocValue plan r)
/-- The content of a section with its relocations applied. -/
def Hmo.relocated (h : Hmo) (plan : List KernelPlan) (idx : Nat) : List Byte :=
  match h.secs[idx]? with
  | none => []
  | some x =>
    (recordsOf 24 (h.whole 11)).foldl
      (fun l r =>
        if rd r 0 2 = idx then
          patchBits l (relocBit x.type r) (relocWidth (rd r 2 1)) (relocWritten (rd r 2 1) (relocValue plan r))
        else l)
      (h.content x)
/-- The relocated content of the section of a type and kernel. -/
def Hmo.placed (h : Hmo) (plan : List KernelPlan) (type link : Nat) : List Byte :=
  ((h.secs.findIdx? fun x => x.type == type && x.link == link).map (h.relocated plan)).getD []

/-! ### Placement (R337) -/

/-- What the code entry of a kernel holds: code, dictionary, layout records, each with its offset. -/
def Hmo.codeParts (h : Hmo) (plan : List KernelPlan) (k : Nat) (p : KernelPlan) : List (Nat × List Byte) :=
  [(p.codeOff, h.placed plan 1 k), (p.dictOff, h.placed plan 2 k), (p.layoutOff, h.placed plan 8 0xFFFF)]
/-- Do two parts keep apart? -/
def partsApart : List (Nat × List Byte) → Bool
  | [] => true
  | x :: l => (l.all fun y => x.1 + x.2.length ≤ y.1 || y.1 + y.2.length ≤ x.1) && partsApart l
/-- Is the place of a kernel's code entry one that the loader may choose? -/
def Hmo.kernelPlanOk (h : Hmo) (cap : Nat) (plan : List KernelPlan) (k : Nat) (p : KernelPlan) : Bool :=
  let size := 65536 * 2 ^ p.sizeM
  let parts := h.codeParts plan k p
  p.sizeM ≤ 20 && p.va % size == 0 && p.va + size ≤ 2 ^ 52 && p.pa % 65536 == 0 && p.pa + size ≤ cap &&
    (parts.all fun x => x.1 % 64 == 0 && x.1 + x.2.length ≤ size) && partsApart parts &&
    (recordsOf 32 (h.part 4 k)).all fun e => rd e 0 8 + xlatSize e ≤ p.va || p.va + size ≤ rd e 0 8
/-- The place of a template entry. -/
def planEntry (p : LoadPlan) (k i : Nat) : Option EntryPlan := p.entries.find? fun e => e.kernel == k && e.index == i
/-- The first and the last address of chip shared memory (R256). -/
def csmBase : Nat := 0xC000000000
def csmEnd : Nat := 0xC020000000
/-- The memory that a template entry names: 0 device, 1 CSM, 2 host (R328; log entry 86). -/
def xlatSpace (e : List Byte) : Nat := if (rd e 9 1).testBit 4 then 2 else if (rd e 9 1).testBit 3 then 1 else 0
/-- May the loader place a template entry there? `cap` is the end of device memory (R406, R424). -/
def entryPlanOk (cap : Nat) (e : List Byte) (p : EntryPlan) : Bool :=
  let size := xlatSize e
  match xlatSpace e with
  | 2 => true
  | 1 => p.pa % 65536 == 0 && csmBase ≤ p.pa && p.pa + size ≤ csmEnd
  | _ => p.pa % 65536 == 0 && p.pa + size ≤ cap
/-- A piece of memory that a load takes: which memory (0 device, 1 CSM, 2 host), its first byte and size, and for an entry that targets a
section, that section and the offset in it of the piece. -/
structure Extent where
  space : Nat
  base : Nat
  size : Nat
  origin : Option (Nat × Nat)
  deriving DecidableEq, Repr, Inhabited
/-- Do two pieces of one section hold bytes of it in common that one place can serve, pieces of device memory and CSM lying at 64 KiB? -/
def Extent.shares (a b : Extent) (x y : Nat) : Bool :=
  overlap x a.size y b.size && (a.space == 2 || x % 65536 == y % 65536)
/-- May two pieces stand together: they are of different memories, they hold bytes of one section in common and have them at one place
(R338), or they keep apart? Log entry 44 (DEDUCED). -/
def Extent.agrees (a b : Extent) : Bool :=
  a.space ≠ b.space || (match a.origin, b.origin with
    | some x, some y =>
      if x.1 = y.1 && a.shares b x.2 y.2 then a.base + y.2 == b.base + x.2 else !overlap a.base a.size b.base b.size
    | _, _ => !overlap a.base a.size b.base b.size)
/-- Do all pieces of a list stand together? -/
def agreeAll : List Extent → Bool
  | [] => true
  | a :: l => l.all a.agrees && agreeAll l
/-- The bytes of a weight block (R385). -/
def blockSize : Nat := 32768
/-- The memory that a load takes by its plan: template entries that target sections, code entries with their host copies, weight blocks. -/
def Hmo.extents (h : Hmo) (p : LoadPlan) : List Extent :=
  ((List.range h.kernels).flatMap fun k =>
    (((recordsOf 32 (h.part 4 k)).mapIdx fun i e => (i, e)).filterMap fun (i, e) =>
      if rd e 12 2 = 0xFFFF then none
      else (planEntry p k i).map fun x =>
        ⟨xlatSpace e, if xlatSpace e = 2 then x.hbase else x.pa, xlatSize e, some (rd e 12 2, rd e 16 8)⟩) ++
    ((p.kernels[k]?).map fun x =>
      let size := 65536 * 2 ^ x.sizeM
      ⟨0, x.pa, size, none⟩ :: if p.deferred then [⟨2, x.hbase, size, none⟩] else []).getD []) ++
  p.weights.map fun w => ⟨0, w, blockSize, none⟩
/-- The memory that a loaded module holds. -/
def Module.extents (m : Module) : List Extent :=
  (m.kernels.flatMap fun k => k.table.filterMap fun x =>
    if x.2.isHost then none else some ⟨if x.2.isCsm then 1 else 0, x.2.pa, x.2.size, none⟩) ++
  (m.hostRanges.map fun r => ⟨2, r.1, r.2, none⟩) ++ m.regions.map fun r => ⟨0, r.home, blockSize, none⟩
/-- Does a load keep off what loaded modules hold, and do its own pieces agree, each section having one place (R336, R338)?
Log entry 44 (DEDUCED). -/
def Hmo.roomFor (h : Hmo) (p : LoadPlan) (ms : List Module) : Bool :=
  let l := h.extents p
  agreeAll l && ms.all fun m => m.extents.all fun b => l.all fun a => { a with origin := none }.agrees b

/-- Check 6: is there room, and is every place one that may be had? `cap` is the end of device memory. Log entry 44 (DEDUCED). -/
def Hmo.planOk (h : Hmo) (cap : Nat) (p : LoadPlan) (ms : List Module) : Bool :=
  p.enough && h.roomFor p ms && p.kernels.length == h.kernels && p.weights.length == h.regions && (p.weights.all fun w => w % 128 == 0 && decide (w + blockSize ≤ cap)) &&
    (List.range h.kernels).all fun k =>
      ((p.kernels[k]?).map (h.kernelPlanOk cap p.kernels k)).getD false &&
        ((recordsOf 32 (h.part 4 k)).mapIdx fun i e => (i, e)).all fun (i, e) => ((planEntry p k i).map (entryPlanOk cap e)).getD false

/-- Every subpage present, and the states of an entry in HOST (R356). -/
def allPresent : BitVec 64 := BitVec.allOnes 64
def allHost : BitVec 128 := 0x55555555555555555555555555555555
/-- The table entry that a template entry gives (R355). -/
def tableEntry (e : List Byte) (p : EntryPlan) : TEntry :=
  let a := rd e 9 1
  let bit := fun i w => if a.testBit i then 2 ^ w else 0
  { va := rd e 0 8
    m := rd e 8 1
    valid := true
    pa := p.pa
    key := rd e 10 1
    attr := BitVec.ofNat 6 (bit 0 5 + bit 1 4 + bit 2 3 + bit 3 2 + bit 4 1 + bit 5 0)
    present := allPresent
    states := if a.testBit 4 then allHost else 0
    hbase := if a.testBit 4 then p.hbase else 0
    smeta := if a.testBit 2 then p.smeta else 0
    reservedBits := false }
/-- The subpages of a code entry that hold code and no dictionary or layout byte (R337). -/
def codeSubs (size : Nat) (parts : List (Nat × List Byte)) : BitVec 64 :=
  let sub := size / 64
  let hits := fun i (x : Nat × List Byte) => !x.2.isEmpty && decide (x.1 < sub * (i + 1)) && decide (sub * i < x.1 + x.2.length)
  BitVec.ofNat 64 ((List.range 64).foldl
    (fun n i =>
      match parts with
      | c :: rest => if hits i c && !rest.any (hits i) then n + 2 ^ i else n
      | [] => n) 0)
/-- The code entry of a kernel (R337, R356). -/
def codeTEntry (p : KernelPlan) (deferred : BitVec 64) : TEntry where
  va := p.va
  m := p.sizeM
  valid := true
  pa := p.pa
  key := 0
  attr := 0b100000
  present := ~~~deferred
  states := BitVec.ofNat 128 ((List.range 64).foldl (fun n i => if deferred.getLsbD i then n + 4 ^ i else n) 0)
  hbase := if deferred = 0 then 0 else p.hbase
  smeta := 0
  reservedBits := false

/-- The timetable of a kernel, its PCs made absolute (R326, R337). -/
def timetable (t : List Byte) (base : Nat) : List TTEntry :=
  (recordsOf 16 (t.drop 32)).map fun e => ⟨rd e 0 2, rd e 2 1, rd e 3 1 == 1, rd e 4 4, base + rd e 8 8⟩
/-- A kernel as it is built (R337). -/
def Hmo.kernel (h : Hmo) (p : LoadPlan) (k : Nat) (kp : KernelPlan) : Kernel :=
  let t := h.part 3 k
  let es := recordsOf 32 (h.part 4 k)
  let parts := h.codeParts p.kernels k kp
  let only := codeSubs (65536 * 2 ^ kp.sizeM) parts
  let table := es.mapIdx fun i e => (i, tableEntry e ((planEntry p k i).getD ⟨k, i, 0, 0, 0⟩))
  { frameTicks := rd t 4 4
    seed := BitVec.ofNat 64 (rd t 8 8)
    tt := timetable t (kp.va + kp.codeOff)
    ttAddr := kp.ttAddr
    table := table ++ [(es.length, codeTEntry kp (if p.deferred then only else 0))]
    tableAddr := kp.tableAddr
    dict := (recordsOf 48 (h.placed p.kernels 2 k)).map fun b => BitVec.ofNat 384 (rd b 0 48)
    outs := (recordsOf 24 (h.part 10 k)).map fun e => ⟨rd e 0 8, rd e 8 4, rd e 12 4, rd e 16 4⟩
    codeEntry := es.length }

/-- The weight block that R337 allocates (R386). -/
def freshBlock (region : Nat) : Memory :=
  let m := putMem [] 0 (leBytes region 8 ++ leBytes (1024 * 2 ^ 32 + 256 * 2 ^ 16 + 6) 8 ++ leBytes (0x3A800000 * 2 ^ 32) 8)
  putMem m 96 ((List.range 8).flatMap fun _ => leBytes 0x3B800000 4)
/-- A region as it is built (R330, R337). -/
def Hmo.region (p : LoadPlan) (i : Nat) (e : List Byte) : Region :=
  let k := rd e 4 2
  let base := ((p.kernels[k]?).map fun x => x.va + x.codeOff).getD 0
  { nin := rd e 1 1
    nout := rd e 2 1
    ins := valsOf (bytesAt e 8 (rd e 1 1))
    outs := valsOf (bytesAt e 24 (rd e 2 1))
    kernel := k
    beg := base + rd e 32 4
    fin := base + rd e 36 4
    deps := (List.range (rd e 3 1)).map fun j => (rd e (48 + 16 * j) 8, rd e (56 + 16 * j) 8)
    block := freshBlock i
    home := (p.weights[i]?).getD 0
    invAt := none }
/-- The module as it is built. -/
def Hmo.module (h : Hmo) (p : LoadPlan) (handle asid : Nat) : Module where
  handle := handle
  asid := asid
  name := h.name (rd h.file 24 4)
  kernels := p.kernels.mapIdx fun k kp => h.kernel p k kp
  regions := (recordsOf 128 (h.whole 9)).mapIdx (Hmo.region p)
  hostMem := (h.extents p).filterMap fun x => if x.space = 2 && x.origin.isSome then some (x.base, x.size) else none
  sym := h.whole 12
  line := h.whole 13
  sig := h.whole 14
  digest := (h.sig.map h.digest).getD []

/-- Write content into a region of memory, and zeros behind it, in pieces of 512 bytes. -/
def State.fill (s : State) (asid : Nat) (place : Nat → Place) (l : List Byte) : Nat → Nat → State
  | 0, _ => s
  | n + 1, off =>
    let piece := bytesAt l off 512
    let s := s.writePlace asid numCores 0 (place off) (piece ++ List.replicate (512 - piece.length) 0)
    State.fill s asid place l n (off + 512)
/-- Lay out the parts of a code entry. -/
def layParts (parts : List (Nat × List Byte)) : List Byte :=
  let fin := parts.foldl (fun n x => max n (x.1 + x.2.length)) 0
  parts.foldl (fun l x => spliceBytes l x.1 x.2) (List.replicate fin 0)
/-- Place the data of a kernel's template entries (R337). -/
def State.placeData (s : State) (h : Hmo) (p : LoadPlan) (asid k : Nat) (kn : Kernel) : State :=
  ((recordsOf 32 (h.part 4 k)).mapIdx fun i e => (i, e)).foldl
    (fun s (i, e) =>
      match rd e 12 2, kn.table.find? fun x => x.1 == i with
      | 0xFFFF, _ => s
      | t, some (_, te) =>
        s.fill asid (fun off => te.placeOf (te.va + off)) ((h.relocated p.kernels t).drop (rd e 16 8)) (te.size / 512) 0
      | _, none => s) s
/-- Place a kernel's code entry (R337): what is deferred stands at HBASE in host memory. -/
def State.placeCode (s : State) (h : Hmo) (p : LoadPlan) (asid k : Nat) (kn : Kernel) (kp : KernelPlan) : State :=
  match kn.table.find? fun x => x.1 == kn.codeEntry with
  | none => s
  | some (_, te) => s.fill asid (fun off => te.placeOf (te.va + off)) (layParts (h.codeParts p.kernels k kp)) (te.size / 512) 0

/-- The code of the first check that a module fails, 0 if none does (R336). -/
def loadCode (cap : Nat) (f : List Byte) (keys : List (List Byte)) (p : LoadPlan) (ms : List Module) : Nat :=
  let h := hmoOf f
  if !headerOk f then 1
  else if !h.signed keys then 2
  else if !h.sectionsOk then 3
  else if !h.recordsOk then 4
  else if !h.fits p.kernels then 5
  else if !h.planOk cap p ms then 6
  else 0
/-- System software loads a module from host memory (R335 to R337). -/
def execModuleLoad (asid addr size : Nat) (plan : LoadPlan) (s : State) : Out :=
  match s.context? asid with
  | none => .next s.refuse
  | some x =>
    if !x.live then .next s.refuse
    else
      let f := memBytes s.host addr size
      let code := loadCode s.hbm.capacity f x.keys plan s.modules
      if code ≠ 0 then .next (s.reply (.refused code))
      else
        let h := hmoOf f
        let handle := s.handles + 1
        let m := h.module plan handle asid
        let s := { s with modules := s.modules ++ [m], handles := handle }
        let s := (m.kernels.zip plan.kernels).foldl
          (fun (a : Nat × State) x => (a.1 + 1, (a.2.placeData h plan asid a.1 x.1).placeCode h plan asid a.1 x.1 x.2)) (0, s)
        .next (s.2.reply (.handle handle))

/-- Is a launch of the module in a mailbox or running (R338)? -/
def State.inUse (s : State) (handle : Nat) : Bool := s.launches.any fun l => l.module == handle && l.state ≠ .ended
/-- Is the module's context being torn down, its memory not to be given away before TEARDOWN_DONE (R434)? Log entry 34 (DEDUCED). -/
def State.tornDown (s : State) (handle : Nat) : Bool := (((s.module? handle).bind fun m => s.context? m.asid).bind (·.tearing)).isSome
/-- System software unloads a module (R338). -/
def execModuleUnload (handle : Nat) (s : State) : Out :=
  .next (s.command ((s.module? handle).isSome && !s.inUse handle && !s.tornDown handle)
    { s with
      modules := s.modules.filter fun m => m.handle ≠ handle
      faults := s.faults.filter fun f => f.module ≠ handle
      holdOffs := s.holdOffs.filter fun f => f.entry.module ≠ handle
      migrations := s.migrations.filter fun m => m.module ≠ handle })

/-! ### Weight blocks (R385, R386) -/

/-- Does a launch of the module run? -/
def State.running (s : State) (handle : Nat) : Bool :=
  s.launches.any fun l => l.module == handle && l.grantNo ≠ 0 && l.state ≠ .ended
/-- A word of the block, `old`, as a write of system software leaves it (R4, R386): the region number, COOLLEFT, the counters of W3 to W7
and reserved bits stay, states 5 to 7 are written as 4. GEN is written (R401; log entry 45). -/
def blockWord (region off old : Nat) (v : W64) : Nat :=
  let w := v.toNat
  if off = 0 then w / 2 ^ 32 * 2 ^ 32 + min (w / 2 ^ 8 % 8) 4 * 2 ^ 8 + region
  else if off = 8 then w / 2 ^ 32 * 2 ^ 32 + w / 2 ^ 16 % 2 ^ 13 * 2 ^ 16 + w % 2 ^ 5
  else if off = 0x10 then w / 2 ^ 32 * 2 ^ 32 + old % 2 ^ 32
  else if off < 0x40 || (decide (0x80 ≤ off) && decide (off < 0x100)) || decide (0x3800 ≤ off) then old
  else w
/-- System software reads or writes a word of a weight block, while no launch of its module runs (R385). Log entry 45 (DEDUCED). -/
def execWeightBlockAccess (module region offset : Nat) (write : Option W64) (s : State) : Out :=
  match (s.module? module).bind fun m => m.regions[region]? with
  | none => .next s.refuse
  | some x =>
    if s.running module ∨ offset % 8 ≠ 0 ∨ 32768 ≤ offset then .next s.refuse
    else match write with
      | none => .next (s.reply (.value (BitVec.ofNat 64 (x.word64 offset))))
      | some v =>
        .next ((s.onRegion module region fun x => x.setWord offset 8 (blockWord region offset (x.word64 offset) v)).reply .ok)

end Sys2Proof.Machine
end

