-- ==== Sys2Proof/Machine/Package.lean ====
section
/-! DEFINITION. Sys2Proof/Machine/Package.lean: steps of the stacked memory (spec/25 R411 to R424), quarantine and scrub (spec/26 R436), boot,
configuration and attestation (spec/27 R441 to R445). -/

namespace Sys2Proof.Machine

/-! ### Sectors (R414, R417) -/

/-- Cells take errors: positions from 0 in the sector, from 512 in its metadata block, and 1,024 on for each of the stacks that follow. -/
def Hbm.flipCells (h : Hbm) (stack q : Nat) (flips : List (Nat × Byte)) : Hbm :=
  flips.foldl
    (fun h x =>
      let st := (stack + x.1 / 1024) % numStacks
      let i := x.1 % 1024
      let a := if i < 512 then rawData q + i else rawMeta q + (i - 512) % 32
      h.putRaw st a [h.raw st a ^^^ x.2]) h
/-- Does the physical address lie in the usable capacity, and has boot made memory ready (R406, R424, R441)? -/
def State.hbmReady (s : State) (pa : Nat) : Bool := s.markhor.booted && decide (pa < s.hbm.capacity)
/-- What coming transfers will meet is given. -/
def Hbm.expect (h : Hbm) (bus : List BusFault) : Hbm := { h with bus := h.bus ++ bus }

/-- A sector is read (R414, R415), its cells and coming transfers meeting the errors given. -/
def execHbmSectorRead (pa key asid : Nat) (flips : List (Nat × Byte)) (bus : List BusFault) (s : State) : Out :=
  if !s.hbmReady pa then .next s
  else
    let sp := s.hbm.spot pa
    let (r, h) := ((s.hbm.flipCells sp.data sp.sector flips).expect bus).read pa (key % 16) ⟨asid, s.gtc⟩
    .next (match r with
      | .data l => s.settleHbm { h with returned := some l }
      | .poisoned => s.settleHbm { h with returned := none }
      | .integrity => (s.settleHbm { h with returned := none }).tear asid [pa / 512 * 512])

/-- Bytes of a sector are written on behalf of the host (R413, R417, R418). -/
def execHbmSectorWrite (pa key asid : Nat) (data : List Byte) (bus : List BusFault) (s : State) : Out :=
  if !s.hbmReady pa then .next s
  else
    let (ok, h) := (s.hbm.expect bus).write pa (key % 16) (data.take (512 - pa % 512)) ⟨numCores, 0, asid, s.gtc⟩
    let s := s.settleHbm h
    .next (if ok then s else s.tear asid [pa / 512 * 512])

/-- A delta is applied at its parity stack (R417, R420). -/
def execParityDelta (idx : Nat) (s : State) : Out := .next (s.settleHbm (s.hbm.applyDelta idx s.gtc))

/-- Markhor declares a stack lost, its base die failing the health check (R422). Log entry 46 (DEDUCED). -/
def execStackLost (stack : Nat) (s : State) : Out :=
  if s.hbm.lost.contains stack then .next s
  else .next (({ s with markhor := { s.markhor with stackHealth := s.markhor.stackHealth.set stack false } } : State).loseStack stack).postRing

/-! ### Re-striping (R424) -/

/-- Does a translation entry of some context map HBM at or above 600 GiB? -/
def State.mapsHigh (s : State) : Bool :=
  s.modules.any fun m => m.kernels.any fun k => k.table.any fun x =>
    x.2.valid && !x.2.isCsm && !x.2.isHost && decide (restripeEnd < x.2.pa + x.2.size)
/-- System software asks for 10 + 1 over the eleven surviving stacks. -/
def execRestripe (s : State) : Out :=
  .next (s.command (s.hbm.lost.length == 1 && s.hbm.cursor == none && !s.mapsHigh)
    { s with hbm := { s.hbm with cursor := some restripeEnd, layout := s.hbm.survivors } })
/-- The cursor moves down by one stripe, once no delta is under way. Log entry 47 (DEDUCED). -/
def execRestripeCursorAdvance (s : State) : Out :=
  if s.hbm.deltas.isEmpty then .next (s.settleHbm (s.hbm.moveStripe s.gtc)) else .next s

/-! ### Keys (R412), scrub (R436) -/

/-- Does a translation entry of a running launch carry the key id? -/
def State.keyInUse (s : State) (id : Nat) : Bool :=
  s.launches.any fun l => l.grantNo ≠ 0 && l.state ≠ .ended &&
    ((s.kernel? l).map fun k => k.table.any fun x => x.2.valid && x.2.key == id).getD false
/-- System software writes the keys of an id. -/
def execKeyWrite (id : Nat) (xts : BitVec 512) (mac : BitVec 256) (s : State) : Out :=
  .next (s.command (!s.keyInUse id)
    { s with hbm := { s.hbm with keyXts := Sparse.set 0 s.hbm.keyXts id xts, keyMac := Sparse.set 0 s.hbm.keyMac id mac } })

/-- Markhor writes the zero image over a quarantined range and reads it (R436): are two reads clean? -/
def State.scrubRange (s : State) (a : Nat) : Bool × State :=
  if a < hbmEnd then
    let (x, h) := (s.hbm.clear a s.gtc).scrubRead a s.gtc
    let (y, h) := h.scrubRead a s.gtc
    (x && y, s.settleHbm h)
  else
    let s := s.putCsm a (List.replicate 128 0)
    ((List.range 16).all fun i => !Sparse.get false s.csmMarks (a / 8 + i), s)
/-- Markhor scrubs a quarantined range and reads it twice: two clean reads end the quarantine, a failed one retires the range, as one does
whose cells do not hold what is written. Log entry 52 (DEDUCED). -/
def execScrub (idx : Nat) (failed : Bool) (s : State) : Out :=
  match s.hbm.quarantined[idx]? with
  | none => .next s
  | some (a, asid) =>
    let (clean, s) := s.scrubRange a
    let s := { s with hbm := { s.hbm with quarantined := s.hbm.quarantined.eraseIdx idx } }
    if clean && !failed then .next ((s.postSystem 4 asid 0 a).postRing)
    else
      let h := { s.hbm with retired := s.hbm.retired ++ [a] }
      let s := s.settleHbm (if a < hbmEnd then h.poison a s.gtc else h)
      let s := { s with markhor := s.markhor.writeBlock 4 (retiredBody h.retired) }
      .next ((s.postSystem 5 asid 0 a).postRing)

/-! ### Boot (R441 to R445) -/

/-- The identity's private key (R443): "AY9 identity" and the corrected seed. Log entry 11 (DESIGN CHOICE). -/
def identityKey (seed : BitVec 256) : List Byte :=
  let name := [0x41, 0x59, 0x39, 0x20, 0x69, 0x64, 0x65, 0x6E, 0x74, 0x69, 0x74, 0x79]
  bytesOfVals (shake256 (name ++ leVals seed.toNat 32) 57)
/-- Step 1. -/
def Markhor.firmwareOk (m : Markhor) : Bool := ed448Verify Config.vendorKey (digest64 m.firmware) m.firmwareSig
/-- Step 2: the identity key, if its public key is the certificate's. Log entry 11 (DESIGN CHOICE). Log entry 12 (DESIGN CHOICE). -/
def Markhor.identify (m : Markhor) : Markhor :=
  let key := identityKey (Config.pufSeed m.puf m.helper)
  { m with identity := if ed448Public key = m.certificate then some key else none }
/-- Is a block accepted (R442)? -/
def Markhor.accepts (m : Markhor) (b : CfgBlock) : Bool :=
  let sig := b.bytes.drop (24 + b.len)
  let by_ := fun key => ed448Verify key b.digest sig
  rd b.bytes 0 4 == 0x39594643 && zeros b.bytes 6 2 && zeros b.bytes 20 4 && b.bytes.length == 24 + b.len + 114 &&
    (by_ Config.vendorKey || (m.identity.map fun key => by_ (ed448Public key)).getD false)
/-- The accepted block of a kind with the highest SEQ. -/
def Markhor.block (m : Markhor) (kind : Nat) : Option CfgBlock :=
  (m.blocks.filter fun b => b.kind == kind && m.accepts b).foldl
    (fun acc b => match acc with
      | none => some b
      | some a => if a.seq < b.seq then some b else some a) none
/-- The number of islands, the watts of the package and the default budget of an island in milliwatts (R445). -/
def islands : Nat := 40
def packageWatts : Nat := 1500
def defaultBudget : Nat := 37500
/-- The island budgets that a body of kind 2 gives, in watts: two bytes for each island (log entry 23). -/
def wattsOf (b : List Byte) : List Nat := (List.range islands).map fun i => rd b (2 * i) 2
/-- The block of a kind that Markhor applies: a kind 2 block whose budgets add up to more than 1,500 W is refused (R445). -/
def Markhor.appliedBlock (m : Markhor) (kind : Nat) : Option CfgBlock :=
  (m.block kind).filter fun b => kind ≠ 2 || decide ((wattsOf b.body).foldl (· + ·) 0 ≤ packageWatts)
/-- Its body. -/
def Markhor.bodyOf (m : Markhor) (kind : Nat) : Option (List Byte) := (m.appliedBlock kind).map CfgBlock.body
/-- The digests of the applied blocks of kinds 1 to 4, zero where none applies (R444). -/
def Markhor.digests (m : Markhor) : List (List Byte) :=
  [1, 2, 3, 4].map fun k => ((m.appliedBlock k).map CfgBlock.digest).getD (List.replicate 64 0)
/-- The island budgets in milliwatts (R445). -/
def budgetsOf (body : Option (List Byte)) : List Nat :=
  (body.map fun b => (wattsOf b).map (1000 * ·)).getD (List.replicate islands defaultBudget)
/-- The disabled cores that a kind 1 block names: its first 288 bits (log entry 23). -/
def disabledOf (body : List Byte) : List Nat := allCores.filter fun c => (rd body 0 36).testBit c
/-- The FIELDMASK image of a cluster: 17 bits each behind the core mask (log entry 23). -/
def maskImage (body : List Byte) (cluster : Nat) : BitVec 17 := BitVec.ofNat 17 (rd body 36 77 / 2 ^ (17 * cluster))
/-- FIELDMASK of every cluster after boot. -/
def masksOf (body : Option (List Byte)) : Sparse (BitVec 17) :=
  match body with
  | none => []
  | some b => (List.range numClusters).foldl (fun m c => Sparse.set (BitVec.allOnes 17) m c (maskImage b c)) []
/-- Step 3. -/
def Markhor.configure (m : Markhor) : Markhor :=
  { m with
    applied := m.digests
    budgets := budgetsOf (m.bodyOf 2)
    disabled := ((m.bodyOf 1).map disabledOf).getD [] }
/-- Step 4: every raw byte is zero, the unhealthy stacks are lost, lane maps and retired ranges apply. -/
def Markhor.memory (m : Markhor) : Hbm :=
  { Hbm.reset with
    lost := (List.range numStacks).filter fun i => m.stackHealth[i]? == some false
    lanes := ((m.bodyOf 3).map lanesOfBody).getD []
    retired := ((m.bodyOf 4).map retiredOfBody).getD [] }
/-- What lives through a reset of the package: board flash, the PUF, the health of the stacks. -/
def Markhor.kept (m : Markhor) : Markhor :=
  { Markhor.reset with
    firmware := m.firmware
    firmwareSig := m.firmwareSig
    certificate := m.certificate
    helper := m.helper
    puf := m.puf
    blocks := m.blocks
    stackHealth := m.stackHealth }
/-- Retired ranges of HBM are poisoned again (R436). -/
def Hbm.retire (h : Hbm) : Hbm := (h.retired.filter (· < hbmEnd)).foldl (fun h a => h.poison a 0) h

/-- The first step of boot that has met what the Failure column of R441 names, boot going on after it: the identity absent, a block ignored,
a stack lost. Log entry 88 (DEDUCED). -/
def Markhor.firstFailure (m : Markhor) : Nat :=
  if m.identity = none then 2
  else if m.blocks.any (!m.accepts ·) || (m.block 2).isSome && (m.appliedBlock 2).isNone then 3
  else if m.stackHealth.contains false then 4
  else 0
/-- The package is reset and Markhor boots (R441): host memory, which is outside, stays. -/
def execPackageReset (s : State) : Out :=
  let m := s.markhor.kept
  let r := { State.reset with host := s.host, choice := s.choice }
  if !m.firmwareOk then .next { r with markhor := { m with failedStep := 1 } }
  else
    let m := m.identify.configure
    .next ((m.memory.lost.foldl (fun s _ => s.postSystem 6 0 0 0)
      { r with
        markhor := { m with booted := true, failedStep := m.firstFailure }
        hbm := m.memory.retire
        fieldmask := masksOf (m.bodyOf 1) }))

/-- An attestation report before its signature (R444). -/
def State.attest (s : State) (nonce : BitVec 256) : List Byte :=
  leBytes nonce.toNat 32 ++ digest64 s.markhor.firmware ++ s.markhor.applied.flatten ++ leBytes s.modules.length 4 ++
    s.modules.flatMap fun m => m.digest
/-- Markhor answers a nonce with a signed report, or refuses (R444). -/
def execAttestationRequest (nonce : BitVec 256) (s : State) : Out :=
  match s.markhor.identity with
  | none => .next s.refuse
  | some key =>
    let r := s.attest nonce
    .next (s.command true
      { s with markhor := { s.markhor with reports := s.markhor.reports ++ [r ++ ed448Sign key (digest64 r)] } })

end Sys2Proof.Machine
end

