-- ==== Sys2Proof/Machine/Dispatch.lean ====
section
/-! DEFINITION. Sys2Proof/Machine/Dispatch.lean: exec, one arm per constructor of Instr, each one direct call of that
instruction's meaning. -/

namespace Sys2Proof.Machine

/-- The meaning of an instruction. -/
def exec (i : Instr) (s : State) : Host.Outcome State Fault Refusal :=
  match i with
  | .add o => Sys2Proof.Machine.execAdd o s
  | .sub o => Sys2Proof.Machine.execSub o s
  | .mul o => Sys2Proof.Machine.execMul o s
  | .mulh o => Sys2Proof.Machine.execMulh o s
  | .mulhn o => Sys2Proof.Machine.execMulhn o s
  | .div o => Sys2Proof.Machine.execDiv o s
  | .divn o => Sys2Proof.Machine.execDivn o s
  | .rem o => Sys2Proof.Machine.execRem o s
  | .remn o => Sys2Proof.Machine.execRemn o s
  | .andS o => Sys2Proof.Machine.execAndS o s
  | .orS o => Sys2Proof.Machine.execOrS o s
  | .xorS o => Sys2Proof.Machine.execXorS o s
  | .andn o => Sys2Proof.Machine.execAndn o s
  | .shl o => Sys2Proof.Machine.execShl o s
  | .shr o => Sys2Proof.Machine.execShr o s
  | .sar o => Sys2Proof.Machine.execSar o s
  | .rotr o => Sys2Proof.Machine.execRotr o s
  | .minS o => Sys2Proof.Machine.execMinS o s
  | .maxS o => Sys2Proof.Machine.execMaxS o s
  | .minn o => Sys2Proof.Machine.execMinn o s
  | .maxn o => Sys2Proof.Machine.execMaxn o s
  | .clz o => Sys2Proof.Machine.execClz o s
  | .ctz o => Sys2Proof.Machine.execCtz o s
  | .popc o => Sys2Proof.Machine.execPopc o s
  | .sext o => Sys2Proof.Machine.execSext o s
  | .zext o => Sys2Proof.Machine.execZext o s
  | .bfx o => Sys2Proof.Machine.execBfx o s
  | .bfi o => Sys2Proof.Machine.execBfi o s
  | .sel o => Sys2Proof.Machine.execSel o s
  | .addi o => Sys2Proof.Machine.execAddi o s
  | .cmpi o => Sys2Proof.Machine.execCmpi o s
  | .movi o => Sys2Proof.Machine.execMovi o s
  | .movhi o => Sys2Proof.Machine.execMovhi o s
  | .cmp o => Sys2Proof.Machine.execCmp o s
  | .plog o => Sys2Proof.Machine.execPlog o s
  | .ptst o => Sys2Proof.Machine.execPtst o s
  | .fadds o => Sys2Proof.Machine.execFadds o s
  | .fmuls o => Sys2Proof.Machine.execFmuls o s
  | .fmas o => Sys2Proof.Machine.execFmas o s
  | .fcmps o => Sys2Proof.Machine.execFcmps o s
  | .fcvts o => Sys2Proof.Machine.execFcvts o s
  | .fmms o => Sys2Proof.Machine.execFmms o s
  | .bri o => Sys2Proof.Machine.execBri o s
  | .br o => Sys2Proof.Machine.execBr o s
  | .call o => Sys2Proof.Machine.execCall o s
  | .ret o => Sys2Proof.Machine.execRet o s
  | .trap o => Sys2Proof.Machine.execTrap o s
  | .eret o => Sys2Proof.Machine.execEret o s
  | .sysr o => Sys2Proof.Machine.execSysr o s
  | .sysw o => Sys2Proof.Machine.execSysw o s
  | .brk o => Sys2Proof.Machine.execBrk o s
  | .loopm o => Sys2Proof.Machine.execLoopm o s
  | .lbrk o => Sys2Proof.Machine.execLbrk o s
  | .spawn o => Sys2Proof.Machine.execSpawn o s
  | .susp o => Sys2Proof.Machine.execSusp o s
  | .steal o => Sys2Proof.Machine.execSteal o s
  | .launchMsg o => Sys2Proof.Machine.execLaunchMsg o s
  | .bend o => Sys2Proof.Machine.execBend o s
  | .qsend o => Sys2Proof.Machine.execQsend o s
  | .evpost o => Sys2Proof.Machine.execEvpost o s
  | .bstat o => Sys2Proof.Machine.execBstat o s
  | .sgbeg o => Sys2Proof.Machine.execSgbeg o s
  | .sgend o => Sys2Proof.Machine.execSgend o s
  | .sginv o => Sys2Proof.Machine.execSginv o s
  | .sgcfg o => Sys2Proof.Machine.execSgcfg o s
  | .hint n o => Sys2Proof.Machine.execHint n o s
  | .vadd o => Sys2Proof.Machine.execVadd o s
  | .vsub o => Sys2Proof.Machine.execVsub o s
  | .vmul o => Sys2Proof.Machine.execVmul o s
  | .vmulh o => Sys2Proof.Machine.execVmulh o s
  | .vmac o => Sys2Proof.Machine.execVmac o s
  | .vdot4 o => Sys2Proof.Machine.execVdot4 o s
  | .vdot2 o => Sys2Proof.Machine.execVdot2 o s
  | .vmin o => Sys2Proof.Machine.execVmin o s
  | .vmax o => Sys2Proof.Machine.execVmax o s
  | .vabs o => Sys2Proof.Machine.execVabs o s
  | .vshl o => Sys2Proof.Machine.execVshl o s
  | .vshr o => Sys2Proof.Machine.execVshr o s
  | .vsar o => Sys2Proof.Machine.execVsar o s
  | .vand o => Sys2Proof.Machine.execVand o s
  | .vor o => Sys2Proof.Machine.execVor o s
  | .vxor o => Sys2Proof.Machine.execVxor o s
  | .vsadd o => Sys2Proof.Machine.execVsadd o s
  | .vssub o => Sys2Proof.Machine.execVssub o s
  | .vrshr o => Sys2Proof.Machine.execVrshr o s
  | .vnarw o => Sys2Proof.Machine.execVnarw o s
  | .vwide o => Sys2Proof.Machine.execVwide o s
  | .vcmp o => Sys2Proof.Machine.execVcmp o s
  | .klog o => Sys2Proof.Machine.execKlog o s
  | .kpop o => Sys2Proof.Machine.execKpop o s
  | .kfst o => Sys2Proof.Machine.execKfst o s
  | .kset o => Sys2Proof.Machine.execKset o s
  | .vsel o => Sys2Proof.Machine.execVsel o s
  | .vfadd o => Sys2Proof.Machine.execVfadd o s
  | .vfsub o => Sys2Proof.Machine.execVfsub o s
  | .vfmul o => Sys2Proof.Machine.execVfmul o s
  | .vfma o => Sys2Proof.Machine.execVfma o s
  | .vfmin o => Sys2Proof.Machine.execVfmin o s
  | .vfmax o => Sys2Proof.Machine.execVfmax o s
  | .vfcmp o => Sys2Proof.Machine.execVfcmp o s
  | .vfsgn o => Sys2Proof.Machine.execVfsgn o s
  | .vfcls o => Sys2Proof.Machine.execVfcls o s
  | .vxdot o => Sys2Proof.Machine.execVxdot o s
  | .vxadd o => Sys2Proof.Machine.execVxadd o s
  | .vsum o => Sys2Proof.Machine.execVsum o s
  | .vscan o => Sys2Proof.Machine.execVscan o s
  | .vcvt o => Sys2Proof.Machine.execVcvt o s
  | .vcvt8 o => Sys2Proof.Machine.execVcvt8 o s
  | .vmxq o => Sys2Proof.Machine.execVmxq o s
  | .vmxdq o => Sys2Proof.Machine.execVmxdq o s
  | .vexp o => Sys2Proof.Machine.execVexp o s
  | .vpack o => Sys2Proof.Machine.execVpack o s
  | .vunpk o => Sys2Proof.Machine.execVunpk o s
  | .vperm o => Sys2Proof.Machine.execVperm o s
  | .vshuf o => Sys2Proof.Machine.execVshuf o s
  | .vslide o => Sys2Proof.Machine.execVslide o s
  | .vbcst o => Sys2Proof.Machine.execVbcst o s
  | .vextr o => Sys2Proof.Machine.execVextr o s
  | .vins o => Sys2Proof.Machine.execVins o s
  | .vmov o => Sys2Proof.Machine.execVmov o s
  | .vmovi o => Sys2Proof.Machine.execVmovi o s
  | .swr o => Sys2Proof.Machine.execSwr o s
  | .srd o => Sys2Proof.Machine.execSrd o s
  | .scnt o => Sys2Proof.Machine.execScnt o s
  | .aadd o => Sys2Proof.Machine.execAadd o s
  | .asub o => Sys2Proof.Machine.execAsub o s
  | .aaddi o => Sys2Proof.Machine.execAaddi o s
  | .ashl o => Sys2Proof.Machine.execAshl o s
  | .amul o => Sys2Proof.Machine.execAmul o s
  | .aand o => Sys2Proof.Machine.execAand o s
  | .amin o => Sys2Proof.Machine.execAmin o s
  | .acmp o => Sys2Proof.Machine.execAcmp o s
  | .amovi o => Sys2Proof.Machine.execAmovi o s
  | .ld o => Sys2Proof.Machine.execLd o s
  | .st o => Sys2Proof.Machine.execSt o s
  | .ldacq o => Sys2Proof.Machine.execLdacq o s
  | .strel o => Sys2Proof.Machine.execStrel o s
  | .vld o => Sys2Proof.Machine.execVld o s
  | .vlds o => Sys2Proof.Machine.execVlds o s
  | .vldx o => Sys2Proof.Machine.execVldx o s
  | .vst o => Sys2Proof.Machine.execVst o s
  | .vsts o => Sys2Proof.Machine.execVsts o s
  | .vstx o => Sys2Proof.Machine.execVstx o s
  | .feset o => Sys2Proof.Machine.execFeset o s
  | .fetst o => Sys2Proof.Machine.execFetst o s
  | .amo o => Sys2Proof.Machine.execAmo o s
  | .cas o => Sys2Proof.Machine.execCas o s
  | .red o => Sys2Proof.Machine.execRed o s
  | .vred o => Sys2Proof.Machine.execVred o s
  | .fence o => Sys2Proof.Machine.execFence o s
  | .qfence o => Sys2Proof.Machine.execQfence o s
  | .cpy o => Sys2Proof.Machine.execCpy o s
  | .cpyt o => Sys2Proof.Machine.execCpyt o s
  | .cpyn o => Sys2Proof.Machine.execCpyn o s
  | .cpym o => Sys2Proof.Machine.execCpym o s
  | .xlatq o => Sys2Proof.Machine.execXlatq o s
  | .mma o => Sys2Proof.Machine.execMma o s
  | .mlat o => Sys2Proof.Machine.execMlat o s
  | .mcfg o => Sys2Proof.Machine.execMcfg o s
  | .sfn o => Sys2Proof.Machine.execSfn o s
  | .gath o => Sys2Proof.Machine.execGath o s
  | .scat o => Sys2Proof.Machine.execScat o s
  | .streamPartIssue core side => Sys2Proof.Machine.execStreamPartIssue core side s
  | .stallCountExpiry core side => Sys2Proof.Machine.execStallCountExpiry core side s
  | .resultLands core side => Sys2Proof.Machine.execResultLands core side s
  | .offCoreLoadReturn core req => Sys2Proof.Machine.execOffCoreLoadReturn core req s
  | .scratchpadAccessPoint core => Sys2Proof.Machine.execScratchpadAccessPoint core s
  | .trapEntry core => Sys2Proof.Machine.execTrapEntry core s
  | .segmentClose core => Sys2Proof.Machine.execSegmentClose core s
  | .rendezvous core => Sys2Proof.Machine.execRendezvous core s
  | .sideLogReplay core idx => Sys2Proof.Machine.execSideLogReplay core idx s
  | .operationStart core queue => Sys2Proof.Machine.execOperationStart core queue s
  | .fieldArbitration cluster kind => Sys2Proof.Machine.execFieldArbitration cluster kind s
  | .stepBoundary core queue => Sys2Proof.Machine.execStepBoundary core queue s
  | .benchCycleSteal core side => Sys2Proof.Machine.execBenchCycleSteal core side s
  | .mmaClaim core queue => Sys2Proof.Machine.execMmaClaim core queue s
  | .mmaStep core queue => Sys2Proof.Machine.execMmaStep core queue s
  | .mmaWriteBack core queue => Sys2Proof.Machine.execMmaWriteBack core queue s
  | .mlatPerform core queue => Sys2Proof.Machine.execMlatPerform core queue s
  | .copyStep core queue => Sys2Proof.Machine.execCopyStep core queue s
  | .copyPerformed core queue => Sys2Proof.Machine.execCopyPerformed core queue s
  | .sfnStep core => Sys2Proof.Machine.execSfnStep core s
  | .gatherStep core => Sys2Proof.Machine.execGatherStep core s
  | .surrogateInvocation core => Sys2Proof.Machine.execSurrogateInvocation core s
  | .eventEntry core idx => Sys2Proof.Machine.execEventEntry core idx s
  | .messageArrival core => Sys2Proof.Machine.execMessageArrival core s
  | .stealAnswer core => Sys2Proof.Machine.execStealAnswer core s
  | .dequeTopDelivery idx => Sys2Proof.Machine.execDequeTopDelivery idx s
  | .remoteAtomicRequest core req => Sys2Proof.Machine.execRemoteAtomicRequest core req s
  | .requestResend core req => Sys2Proof.Machine.execRequestResend core req s
  | .globalTick => Sys2Proof.Machine.execGlobalTick s
  | .frameCounterStart launch => Sys2Proof.Machine.execFrameCounterStart launch s
  | .entryStart core => Sys2Proof.Machine.execEntryStart core s
  | .frameEndProcessing launch => Sys2Proof.Machine.execFrameEndProcessing launch s
  | .launchMessage asid window words => Sys2Proof.Machine.execLaunchMessage asid window words s
  | .grantDecision => Sys2Proof.Machine.execGrantDecision s
  | .grant launch => Sys2Proof.Machine.execGrant launch s
  | .contextSave core => Sys2Proof.Machine.execContextSave core s
  | .resumption launch => Sys2Proof.Machine.execResumption launch s
  | .launchEnd launch => Sys2Proof.Machine.execLaunchEnd launch s
  | .hostEventPost asid => Sys2Proof.Machine.execHostEventPost asid s
  | .contextCreate asid rank => Sys2Proof.Machine.execContextCreate asid rank s
  | .contextDestroy asid => Sys2Proof.Machine.execContextDestroy asid s
  | .rankWrite asid rank => Sys2Proof.Machine.execRankWrite asid rank s
  | .slotTableWrite die idx value => Sys2Proof.Machine.execSlotTableWrite die idx value s
  | .dieFabricArbitration die port ready => Sys2Proof.Machine.execDieFabricArbitration die port ready s
  | .debugHalt launch => Sys2Proof.Machine.execDebugHalt launch s
  | .debugResume launch => Sys2Proof.Machine.execDebugResume launch s
  | .moduleLoad asid addr size plan => Sys2Proof.Machine.execModuleLoad asid addr size plan s
  | .moduleUnload handle => Sys2Proof.Machine.execModuleUnload handle s
  | .registerHostEventArea asid base size widx ridx => Sys2Proof.Machine.execRegisterHostEventArea asid base size widx ridx s
  | .moveToDevice asid va count => Sys2Proof.Machine.execMoveToDevice asid va count s
  | .moveToHost asid va count hbase => Sys2Proof.Machine.execMoveToHost asid va count hbase s
  | .duplicate asid va count hbase => Sys2Proof.Machine.execDuplicate asid va count hbase s
  | .unmap asid va count => Sys2Proof.Machine.execUnmap asid va count s
  | .faultRequest core va write => Sys2Proof.Machine.execFaultRequest core va write s
  | .declareUnresolvable asid va => Sys2Proof.Machine.execDeclareUnresolvable asid va s
  | .migration idx => Sys2Proof.Machine.execMigration idx s
  | .invalidate core idx => Sys2Proof.Machine.execInvalidate core idx s
  | .holdOffExpiry idx => Sys2Proof.Machine.execHoldOffExpiry idx s
  | .replayHoldTimeout launch => Sys2Proof.Machine.execReplayHoldTimeout launch s
  | .hbmSectorRead pa key asid flips bus => Sys2Proof.Machine.execHbmSectorRead pa key asid flips bus s
  | .hbmSectorWrite pa key asid data bus => Sys2Proof.Machine.execHbmSectorWrite pa key asid data bus s
  | .parityDelta idx => Sys2Proof.Machine.execParityDelta idx s
  | .stackLost stack => Sys2Proof.Machine.execStackLost stack s
  | .restripe => Sys2Proof.Machine.execRestripe s
  | .restripeCursorAdvance => Sys2Proof.Machine.execRestripeCursorAdvance s
  | .keyWrite id xts mac => Sys2Proof.Machine.execKeyWrite id xts mac s
  | .signatureCompare leader mismatch => Sys2Proof.Machine.execSignatureCompare leader mismatch s
  | .resultSignatureCompare leader queue mismatch => Sys2Proof.Machine.execResultSignatureCompare leader queue mismatch s
  | .endLaunchPinned launch => Sys2Proof.Machine.execEndLaunchPinned launch s
  | .teardown asid => Sys2Proof.Machine.execTeardown asid s
  | .scrub idx failed => Sys2Proof.Machine.execScrub idx failed s
  | .fieldmaskRemove cluster mask => Sys2Proof.Machine.execFieldmaskRemove cluster mask s
  | .retentionEntry u => Sys2Proof.Machine.execRetentionEntry u s
  | .retentionExit u => Sys2Proof.Machine.execRetentionExit u s
  | .weightBlockAccess module region offset write => Sys2Proof.Machine.execWeightBlockAccess module region offset write s
  | .packageReset => Sys2Proof.Machine.execPackageReset s
  | .attestationRequest nonce => Sys2Proof.Machine.execAttestationRequest nonce s
  | .hostFaultRequest asid va write => Sys2Proof.Machine.execHostFaultRequest asid va write s
  | .registerSystemEventRing base size widx ridx => Sys2Proof.Machine.execRegisterSystemEventRing base size widx ridx s
  | .registerCoreSetHandle asid handle cores => Sys2Proof.Machine.execRegisterCoreSetHandle asid handle cores s
  | .registerPublicKeys asid keys => Sys2Proof.Machine.execRegisterPublicKeys asid keys s

end Sys2Proof.Machine
end

