-- ==== Sys2Proof/Machine/Step.lean ====
section
/-! DEFINITION. Sys2Proof/Machine/Step.lean: one step of the package, and the placing of one instruction where the next step
takes its own from. -/

namespace Sys2Proof.Machine

/-- A device step whose units the package has: what the agenda and a free choice may name. Log entry 5 (DESIGN CHOICE). -/
def deviceStep (i : Instr) : Bool := i.guard?.isNone && i.unitsOk

/-- One step (log entry 3): the next syllable of the part that is issuing; with no part issuing, the next step of the agenda, or
a free choice among the steps of the device (R448, R449). -/
def step (s : State) : Host.Outcome State Fault Refusal :=
  match s.latch with
  | w :: rest =>
    match decodeWord w with
    | .ok i => exec i (s.latchNext w rest)
    | .error _ => .next ((s.latchNext w rest).cancelPart ecIllegal (s.latchNext w rest).slotAddr)
  | [] =>
    match s.agenda with
    | e :: rest => if deviceStep e then exec e { s with agenda := rest, choice := s.choice + 1 } else .fault .noSuchUnit
    | [] =>
      if deviceStep (Config.nextStep s.choice) then exec (Config.nextStep s.choice) { s with choice := s.choice + 1 }
      else .fault .noSuchUnit

/-- Place the instruction of one syllable word where the next step takes its own from: core 0 is issuing a part whose one
remaining syllable it is (log entry 3). -/
def State.withFetchWord (s : State) (nbits w : Nat) : State :=
  { s with
    latch := [BitVec.ofNat 64 (leNat (leBytes (w % 2 ^ nbits) 8) 8)]
    part :=
      { s.part with
        core := 0
        pc := (s.core 0).arch.pc
        next := (s.core 0).arch.pc
        preds := (s.core 0).arch.p
        rb := (s.core 0).arch.rb
        loopOn := (s.core 0).arch.loopOn
        loop := (s.core 0).arch.loop
        redirected := false
        claimed := false
        trapped := false
        undecided := false
        before := s.core 0 } }

end Sys2Proof.Machine
end

