-- ==== Sys2Proof/Safety.lean ====
section
/-! DEFINITION. Sys2Proof/Safety.lean: the terms that the claims use: what counts as a safe step, when a slot instruction runs, what
its sources deliver, and the results that the spec's tables give. -/

namespace Sys2Proof.Safety

open Machine

/-- A state from which the package can make its next step. -/
def Steps (s : State) : Prop := ∃ t, step s = .next t

/-- The table of cores is in canonical form, so that it reads what has been written to it. -/
def CoresWf (s : State) : Prop := Sparse.wf Core.reset s.cores = true

/-- A launch is clean while no error is pinned to it (R432). -/
def Clean (s : State) (id : Nat) : Prop := ∀ l, s.launch? id = some l → l.pinned = none

/-! ### When a slot runs -/

/-- The instruction's guard reads true (R48). -/
def Guarded (i : Instr) (s : State) : Prop := ∃ g, i.guard? = some g ∧ guardHolds g s.part.preds = true
/-- The slot runs: its guard reads true, and none of its values is undefined or refused (R49, R77). -/
def Runs (i : Instr) (s : State) : Prop := Guarded i s ∧ s.slotDefect i = none
/-- The registers and queues of the core whose part is issuing. -/
def arch (s : State) : Arch := s.mine.arch

/-- A control or vector slot's s-type source delivers a value, and reading it leaves the registers and queues so. -/
def Reads1 (s : State) (n : BitVec 7) (x : W64) (a : Arch) : Prop := s.part.srcS n.toNat (arch s) = .ok (x, a)
/-- Two s-type sources, in order. -/
def Reads2 (s : State) (n m : BitVec 7) (x y : W64) (a : Arch) : Prop := ∃ b, Reads1 s n x b ∧ s.part.srcS m.toNat b = .ok (y, a)
/-- Three s-type sources, in order. -/
def Reads3 (s : State) (n m k : BitVec 7) (x y z : W64) (a : Arch) : Prop :=
  ∃ b, Reads2 s n m x y b ∧ s.part.srcS k.toNat b = .ok (z, a)

/-- A v-type source in elements of width `w`. -/
def ReadsV1 (s : State) (w : Nat) (n : BitVec 7) (x : VReg) (a : Arch) : Prop := s.part.srcV w n.toNat (arch s) = .ok (x, a)
/-- Two v-type sources, in order. -/
def ReadsV2 (s : State) (w v : Nat) (n m : BitVec 7) (x y : VReg) (a : Arch) : Prop :=
  ∃ b, ReadsV1 s w n x b ∧ s.part.srcV v m.toNat b = .ok (y, a)

/-- An a-type source of a memory slot. -/
def ReadsA1 (s : State) (n : BitVec 7) (x : W64) (k : Core) : Prop := s.mine.srcA n.toNat = .ok (x, k)
/-- Two a-type sources of a memory slot, in order. -/
def ReadsA2 (s : State) (n m : BitVec 7) (x y : W64) (k : Core) : Prop := ∃ j, ReadsA1 s n x j ∧ j.srcA m.toNat = .ok (y, k)

/-! ### Codes (R71 to R76) -/

/-- The codes that a class assigns, hints included. -/
def codeAssigned : SlotClass → Nat → Bool
  | .control, n =>
    (decide (0x010 ≤ n) && n ≤ 0x02C) || n == 0x030 || n == 0x031 || n == 0x038 || n == 0x039 ||
    (decide (0x040 ≤ n) && n ≤ 0x042) || (decide (0x050 ≤ n) && n ≤ 0x055) || (decide (0x060 ≤ n) && n ≤ 0x063) ||
    (decide (0x070 ≤ n) && n ≤ 0x076) || (decide (0x078 ≤ n) && n ≤ 0x07F) || (decide (0x080 ≤ n) && n ≤ 0x083) ||
    (decide (0x3C0 ≤ n) && n ≤ 0x3FF)
  | .vector, n =>
    (decide (0x010 ≤ n) && n ≤ 0x024) || (decide (0x030 ≤ n) && n ≤ 0x035) || (decide (0x040 ≤ n) && n ≤ 0x048) ||
    n == 0x050 || n == 0x051 || n == 0x058 || n == 0x059 || (decide (0x060 ≤ n) && n ≤ 0x066) ||
    (decide (0x070 ≤ n) && n ≤ 0x077) || (decide (0x080 ≤ n) && n ≤ 0x082)
  | .memory, n =>
    (decide (0x010 ≤ n) && n ≤ 0x018) || (decide (0x020 ≤ n) && n ≤ 0x029) || n == 0x030 || n == 0x031 ||
    (decide (0x038 ≤ n) && n ≤ 0x03B) || n == 0x040 || n == 0x041 || (decide (0x048 ≤ n) && n ≤ 0x04B) || n == 0x050 ||
    (decide (0x058 ≤ n) && n ≤ 0x05D)

/-! ### Scalar results -/

/-- The two-source integer instructions (R107, R108): operands, latency (R106) and the integer whose low 64 bits are the result. -/
def intOp : Instr → Option (A3 × Nat × (W64 → W64 → Int))
  | .add o => some (o, 1, fun x y => x.toInt + y.toInt)
  | .sub o => some (o, 1, fun x y => x.toInt - y.toInt)
  | .mul o => some (o, 3, fun x y => x.toInt * y.toInt)
  | .mulh o => some (o, 3, fun x y => x.toInt * y.toInt / 2 ^ 64)
  | .mulhn o => some (o, 3, fun x y => x.toNat * y.toNat / 2 ^ 64)
  | .div o => some (o, 18, fun x y => if y = 0 then -1 else x.toInt.tdiv y.toInt)
  | .divn o => some (o, 18, fun x y => if y = 0 then -1 else x.toNat / y.toNat)
  | .rem o => some (o, 18, fun x y => if y = 0 then x.toInt else x.toInt.tmod y.toInt)
  | .remn o => some (o, 18, fun x y => if y = 0 then x.toInt else x.toNat % y.toNat)
  | .minS o => some (o, 1, fun x y => min x.toInt y.toInt)
  | .maxS o => some (o, 1, fun x y => max x.toInt y.toInt)
  | .minn o => some (o, 1, fun x y => min x.toNat y.toNat)
  | .maxn o => some (o, 1, fun x y => max x.toNat y.toNat)
  | _ => none

/-- The bitwise instructions (R107): what each makes of two bits. -/
def bitOp : Instr → Option (A3 × (Bool → Bool → Bool))
  | .andS o => some (o, fun x y => x && y)
  | .orS o => some (o, fun x y => x || y)
  | .xorS o => some (o, fun x y => x != y)
  | .andn o => some (o, fun x y => x && !y)
  | _ => none

/-- The shifts (R109): the integer whose low 64 bits are the result of shifting by `n`. -/
def shiftOp : Instr → Option (A3 × (W64 → Nat → Int))
  | .shl o => some (o, fun x n => x.toNat * 2 ^ n)
  | .shr o => some (o, fun x n => x.toNat / 2 ^ n)
  | .sar o => some (o, fun x n => x.toInt / 2 ^ n)
  | .rotr o => some (o, fun x n => x.toNat / 2 ^ n + x.toNat * 2 ^ (64 - n))
  | _ => none

/-- The one-source integer instructions (R107, R110): the integer whose low 64 bits are the result, bits counted one by one. -/
def unaryOp : Instr → Option (A3 × (W64 → Int))
  | .clz o => some (o, fun x => ((List.range 64).countP fun i => x.toNat < 2 ^ i : Nat))
  | .ctz o => some (o, fun x => ((List.range 64).countP fun i => x.toNat % 2 ^ (i + 1) == 0 : Nat))
  | .popc o => some (o, fun x => ((List.range 64).countP fun i => x.getLsbD i : Nat))
  | .sext o => some (o, fun x => (x.toNat : Int).bmod (2 ^ (fld o.m 0 6 + 1)))
  | .zext o => some (o, fun x => (x.toNat % 2 ^ (fld o.m 0 6 + 1) : Nat))
  | .bfx o => some (o, fun x =>
      let v : Int := (x.toNat / 2 ^ fld o.m 0 6 % 2 ^ (fld o.m 6 6 + 1) : Nat)
      if fld o.m 12 1 = 1 then v.bmod (2 ^ (fld o.m 6 6 + 1)) else v)
  | _ => none

/-- The conditions of CMP, CMPI and ACMP (R114). -/
def Cond (c : Nat) (x y : W64) : Prop :=
  match c with
  | 0 => x = y
  | 1 => x ≠ y
  | 2 => x.toInt < y.toInt
  | 3 => y.toInt ≤ x.toInt
  | 4 => x.toInt ≤ y.toInt
  | 5 => y.toInt < x.toInt
  | 6 => x.toNat < y.toNat
  | 7 => y.toNat ≤ x.toNat
  | 8 => x.toNat ≤ y.toNat
  | 9 => y.toNat < x.toNat
  | 0xA => x &&& y ≠ 0
  | _ => x &&& y = 0

/-- The scalar FP32 instructions of two sources (R119, R121): latency and the result with its flags. -/
def fpOp : Instr → Option (A3 × Nat × (Nat → Nat → Nat × BitVec 5))
  | .fadds o => some (o, 4, if fld o.m 0 1 = 1 then fSub fp32 else fAdd fp32)
  | .fmuls o => some (o, 4, fMul fp32)
  | .fmms o => some (o, 2, fun x y => (fMinMax fp32 (fld o.m 0 1 == 1) x y, 0))
  | _ => none

/-! ### Vector results -/

/-- A vector slot delivers a vector of lanes of `w` bits: an active lane receives its result and raises its flags, another one 0 or what
D held (R134); it reaches D with the latency `lat`. -/
def DeliversLanes (i : Instr) (s : State) (d : BitVec 7) (w lat : Nat) (a : Arch) (active : Nat → Bool) (zero : Nat → Bool)
    (g : Nat → Nat × BitVec 5) : Prop :=
  ∃ (r : VReg) (fl : BitVec 5),
    (∀ j, j < 8192 / w →
      elem r.toNat w j = if active j then (g j).1 % 2 ^ w else if zero j then 0 else elem (s.part.oldV d.toNat a).toNat w j) ∧
    (∀ n, fl.getLsbD n = true ↔ ∃ j, j < 8192 / w ∧ active j = true ∧ (g j).2.getLsbD n = true) ∧
    ∀ b, s.part.dstV d.toNat r lat fl a = .ok b → exec i s = .next (s.withArch b)

/-- The same under the mask that the modifier names, with its Z (R133, R134). -/
def Delivers (i : Instr) (s : State) (o : A3) (w lat : Nat) (a : Arch) (g : Nat → Nat × BitVec 5) : Prop :=
  DeliversLanes i s o.d w lat a (maskBit (a.maskOf o.m)) (fun _ => zeroing o.m o.d.toNat) g

/-- Every lane is active. -/
def DeliversAll (i : Instr) (s : State) (d : BitVec 7) (w lat : Nat) (a : Arch) (g : Nat → Nat × BitVec 5) : Prop :=
  DeliversLanes i s d w lat a (fun _ => true) (fun _ => false) g

/-- The width of the modifier's elements, in bits (R132, R133). -/
def width (o : A3) : Nat := etWidth (fld o.m 0 4)
/-- The number of the modifier's elements. -/
def count (o : A3) : Nat := 8192 / width o
/-- An element as an integer, signed or not as the modifier's element type says (R132). -/
def val (o : A3) (x : Nat) : Int := toInt (width o) (etSigned (fld o.m 0 4)) x

/-- The element-wise integer instructions of two sources (R138): latency, and the integer whose low w bits are the result. -/
def vecOp : Instr → Option (A3 × Nat × (Nat → Int → Int → Int))
  | .vadd o => some (o, 2, fun _ x y => x + y)
  | .vsub o => some (o, 2, fun _ x y => x - y)
  | .vmul o => some (o, 3, fun _ x y => x * y)
  | .vmulh o => some (o, 3, fun w x y => x * y / 2 ^ w)
  | .vmin o => some (o, 2, fun _ x y => min x y)
  | .vmax o => some (o, 2, fun _ x y => max x y)
  | .vsadd o => some (o, 2, fun w x y => clampInt w (etSigned (fld o.m 0 4)) (x + y))
  | .vssub o => some (o, 2, fun w x y => clampInt w (etSigned (fld o.m 0 4)) (x - y))
  | _ => none

/-- The element-wise bitwise instructions (R138). -/
def vecBitOp : Instr → Option (A3 × (Bool → Bool → Bool))
  | .vand o => some (o, fun x y => x && y)
  | .vor o => some (o, fun x y => x || y)
  | .vxor o => some (o, fun x y => x != y)
  | _ => none

/-- The vector shifts (R139): the integer whose low w bits are the result of shifting an element by `n`. -/
def vecShiftOp : Instr → Option (A3 × (Nat → Nat → Int))
  | .vshl o => some (o, fun x n => x * 2 ^ n)
  | .vshr o => some (o, fun x n => x / 2 ^ n)
  | .vsar o => some (o, fun x n => toInt (width o) true x / 2 ^ n)
  | .vrshr o => some (o, fun x n => if n = 0 then x else (val o x + 2 ^ (n - 1)) / 2 ^ n)
  | _ => none

/-- The element-wise floating-point instructions of two sources (R146, R147): latency, and the result with its flags. -/
def vecFpOp : Instr → Option (A3 × Nat × (Fmt → Nat → Nat → Nat × BitVec 5))
  | .vfadd o => some (o, 4, fAdd)
  | .vfsub o => some (o, 4, fSub)
  | .vfmul o => some (o, 4, fMul)
  | .vfmin o => some (o, 2, fun f x y => (fMinMax f false x y, 0))
  | .vfmax o => some (o, 2, fun f x y => (fMinMax f true x y, 0))
  | _ => none

/-- The conditions of VCMP over two elements (R142). -/
def VCond (o : A3) (c x y : Nat) : Prop :=
  match c with
  | 0 => x = y
  | 1 => x ≠ y
  | 2 => val o x < val o y
  | 3 => val o y ≤ val o x
  | 4 => val o x ≤ val o y
  | 5 => val o y < val o x
  | 0xA => x &&& y ≠ 0
  | _ => x &&& y = 0

/-- The mask register that a vector comparison leaves (R142): the condition where its mask is set, 0 or what D held elsewhere, 0 from the
element count on. -/
def MaskOf (o : A3) (a : Arch) (holds : Nat → Prop) (r : KReg) : Prop :=
  ∀ j, j < 1024 → (r.getLsbD j = true ↔ j < count o ∧
    ((maskBit (a.maskOf o.m) j = true ∧ holds j) ∨
     (maskBit (a.maskOf o.m) j = false ∧ fld o.m 7 1 = 0 ∧ maskBit (a.getK o.d.toNat) j = true)))

/-- The fixed tree of VSUM (R152): the sum of the 2^n elements from element `j` on, an absent one passing the other, with the flags of
the additions. -/
def treeSum (et : Nat) (f : Nat → Option Nat) : Nat → Nat → Option Nat × BitVec 5
  | 0, j => (f j, 0)
  | n + 1, j => addNodes et (treeSum et f n j) (treeSum et f n (j + 2 ^ n))

/-- The running sum of VSCAN before element `j` (R153). -/
def scanBefore (et : Nat) (active : Nat → Bool) (x : Nat → Nat) : Nat → Option Nat
  | 0 => none
  | j + 1 =>
    if active j then
      match scanBefore et active x j with
      | none => some (x j)
      | some u => some (addElem et u (x j)).1
    else scanBefore et active x j

/-- What VSCAN delivers at an active element (R153). -/
def scanAt (et : Nat) (active : Nat → Bool) (x : Nat → Nat) (j : Nat) : Nat × BitVec 5 :=
  match scanBefore et active x j with
  | none => (x j, 0)
  | some u => addElem et u (x j)

/-! ### What else a slot changes -/

/-- From `s` to `t` only the issuing core's record, which becomes `k`, and the model's own record of the part change. -/
def OnlyCore (s t : State) (k : Core) : Prop :=
  t.core s.part.core = k ∧ (∀ c, c ≠ s.part.core → t.core c = s.core c) ∧ { t with cores := s.cores, part := s.part } = s

/-- The branches: target, link register if any, and the registers and queues as reading the target leaves them (R53, R123). -/
def Branch (i : Instr) (s : State) (target : W64) (link : Option (BitVec 7)) (a : Arch) : Prop :=
  match i with
  | .bri o => target = BitVec.ofInt 64 (s.part.pc.toNat + 2 * o.off.toInt) ∧ link = none ∧ a = arch s
  | .call o => target = BitVec.ofInt 64 (s.part.pc.toNat + 2 * o.off.toInt) ∧ link = some o.link ∧ a = arch s
  | .br o => Reads1 s o.s1 target a ∧ link = some o.d
  | .ret o => Reads1 s o.s1 target a ∧ link = none
  | _ => False

/-- The link is written, if there is one (R65): the registers and queues with the address of the next bundle on its way. -/
def Linked (s : State) (link : Option (BitVec 7)) (a b : Arch) : Prop :=
  match link with
  | none => b = a
  | some n => s.part.dstS n.toNat s.part.next 1 0 a = .ok b

/-- A core in which a scratchpad access of the part is pending: its access point is the end of the third stream cycle from its own
(R195), and it has the next place in program order. -/
def accessPending (s : State) (k : Core) (kind : AccKind) (released : Bool) : Core :=
  let a := k.arch.supersede kind.target
  { k with arch := { a with accSeq := a.accSeq + 1, accs := a.accs ++ [⟨kind, 3, s.part.bundle, a.accSeq, false, released⟩] } }

/-- A core that has kept what the release point in the slot being performed left (R293, R294). -/
def kept (s : State) (k : Core) (v : Option W64) : Core :=
  { k with seg := { k.seg with recorded := k.seg.recorded ++ [⟨s.part.bundle, s.part.slot, v, false, [], none⟩] } }

/-- A core that has sent a load or a returning atomic off core (R188); after a rewind the request carries what it has been answered, poisoned
or not (R294). -/
def requestSent (s : State) (k : Core) (kind : OffKind) (ch : Nat) (acq rel : Bool) (d : Dest) (old : Option Recorded) : Core :=
  let a := k.arch.supersede d.target
  { k with
    arch := { a with accSeq := a.accSeq + 1 }
    offId := k.offId + 1
    offs := k.offs ++ [⟨k.offId, kind, ch, acq, rel, d, a.accSeq, s.part.bundle, s.part.slot, old.bind (·.value), (old.map (·.poison)).getD false⟩] }

/-- A core that holds a write in its commit buffer (R197). -/
def writeHeld (s : State) (k : Core) (kind : WriteKind) (ch : Nat) : Core :=
  { k with
    arch := { k.arch with accSeq := k.arch.accSeq + 1 }
    offId := k.offId + 1
    seg := { k.seg with commit := k.seg.commit ++ [⟨k.offId, kind, ch, k.arch.accSeq, false, s.frameNow⟩] } }

/-- A core that has sent a write with release ordering at once (R199, R293), behind what the bundle's other slot has written to its channel or
its bytes (R197); a pair's waits until its cycle's signatures have compared equal (R428). -/
def writeSent (s : State) (k : Core) (kind : WriteKind) (ch : Nat) : Core :=
  kept s (((s.flushBundle { k with arch := { k.arch with accSeq := k.arch.accSeq + 1 }, offId := k.offId + 1 } ch kind.ranges false).send
    ⟨k.offId, kind, ch, k.arch.accSeq, true, s.frameNow⟩).gate s.part.bundle s.part.slot k.arch.accSeq) none

/-- The address of a scalar access: the sum of its two sources and the offset in units of the size (R194). -/
def scalarAddr (o : A3) (b x : W64) : W64 :=
  BitVec.ofInt 64 (b.toNat + x.toNat + ((fld o.m 0 7 : Nat) : Int).bmod (2 ^ 7) * 2 ^ fld o.m 12 2)
/-- Its size in bytes. -/
def scalarSize (o : A3) : Nat := 2 ^ fld o.m 12 2

/-- The width of an element in memory, in bytes (R200). -/
def memWidth (o : A3) (k : Core) (base : W64) : Nat := accWidth k.arch o.m base
/-- The number of elements of a vector access (R200). -/
def memCount (o : A3) : Nat := 8192 / etWidth (fld o.m 10 4)

/-- The element addresses of a vector access of class vld, vlds or vldx (vst, vsts, vstx alike), the base that is checked, and the core
after its sources are read (R200): base + index, base + i x stride, base + index vector x width. -/
def VecAddrs (i : Instr) (s : State) (o : A3) (contiguous : Bool) (base : W64) (addrs : List W64) (k : Core) : Prop :=
  match i with
  | .vld p | .vst p => p = o ∧ contiguous = true ∧ ∃ b x, ReadsA2 s o.s1 o.s2 b x k ∧ base = b + x ∧
      addrs = (List.range (memCount o)).map fun j => base + BitVec.ofNat 64 (j * memWidth o k base)
  | .vlds p | .vsts p => p = o ∧ contiguous = false ∧ ∃ x, ReadsA2 s o.s1 o.s2 base x k ∧
      addrs = (List.range (memCount o)).map fun j => base + BitVec.ofNat 64 (j * x.toNat)
  | .vldx p | .vstx p => p = o ∧ contiguous = false ∧ ∃ j l, ReadsA1 s o.s1 base j ∧
      j.vpops (vqOf o.s2.toNat) ((memCount o + 255) / 256) = .ok (l, k) ∧
      addrs = (List.range (memCount o)).map fun n =>
        base + BitVec.ofNat 64 (elem ((l[n / 256]?).getD 0).toNat 32 (n % 256) * memWidth o k base)
  | _ => False

/-- The address arithmetic of two sources (R190): latency and the integer whose low 64 bits are the result. -/
def addrOp : Instr → Option (A3 × Nat × (W64 → W64 → Int))
  | .aadd o => some (o, 1, fun x y => x.toNat + y.toNat)
  | .asub o => some (o, 1, fun x y => x.toNat - y.toNat)
  | .amul o => some (o, 3, fun x y => x.toNat * y.toNat)
  | .aand o => some (o, 1, fun x y => (x.toNat &&& y.toNat : Nat))
  | .amin o => some (o, 1, fun x y => min x.toNat y.toNat)
  | _ => none

/-- A result of fixed latency goes on its way to a destination of a memory slot (R189). -/
def sentTo (k : Core) (d : Dest) (v : W64) (lat : Nat) : Core := { k with arch := k.arch.fly .access (d.landing v) lat 0 }

/-! ### Engine commands and strands -/

/-- The engine commands: operation, queue (R172, R211, R218, R220) and operands. -/
def engineCmd : Instr → Option (OpCode × Nat × EN)
  | .mma o => some (.mma, fld o.em 4 1, o)
  | .mlat o => some (.mlat, fld o.em 4 1, o)
  | .mcfg o => some (.mcfg, fld o.em 4 1, o)
  | .cpy o => some (.cpy, 2 + fld o.em 4 1, o)
  | .cpyt o => some (.cpyt, 2 + fld o.em 4 1, o)
  | .cpyn o => some (.cpyn, 2 + fld o.em 4 1, o)
  | .cpym o => some (.cpym, 2 + fld o.em 4 1, o)
  | .sfn o => some (.sfn, 4, o)
  | .gath o => some (.gath, 5, o)
  | .scat o => some (.scat, 5, o)
  | _ => none

/-- What an engine command captures at issue (R170, R172, R211, R218, R220): three words and two layout records, with the core after
they are read. -/
def Captures (i : Instr) (s : State) (w1 w2 w3 : W64) (recA recB : List W64) (k : Core) : Prop :=
  match i with
  | .mma o => w2 = 0 ∧ ∃ j, ReadsA1 s o.o1 w1 j ∧ j.group o.o2.toNat = .ok recB ∧ j.srcA o.o3.toNat = .ok (w3, k) ∧
      if o.em.getLsbD 5 then k.group (24 - o.o2.toNat) = .ok recA else recA = []
  | .mlat o => w1 = 0 ∧ w2 = 0 ∧ recB = [] ∧ s.mine.group o.o1.toNat = .ok recA ∧ ReadsA1 s o.o2 w3 k
  | .mcfg o => w2 = 0 ∧ w3 = 0 ∧ recA = [] ∧ recB = [] ∧ ReadsA1 s o.o1 w1 k
  | .cpy o => w1 = 0 ∧ w2 = 0 ∧ w3 = 0 ∧ s.mine.group o.o1.toNat = .ok recB ∧ s.mine.group o.o2.toNat = .ok recA ∧ k = s.mine
  | .cpyt o | .cpyn o | .cpym o =>
      w1 = 0 ∧ w2 = 0 ∧ s.mine.group o.o1.toNat = .ok recB ∧ s.mine.group o.o2.toNat = .ok recA ∧ ReadsA1 s o.o3 w3 k
  | .sfn o => recA = [] ∧ recB = [] ∧ ∃ j, ReadsA2 s o.o1 o.o2 w1 w2 j ∧ j.srcA o.o3.toNat = .ok (w3, k)
  | .gath o | .scat o => w1 = 0 ∧ recB = [] ∧ s.mine.group o.o1.toNat = .ok recA ∧ ReadsA2 s o.o2 o.o3 w2 w3 k
  | _ => False

/-- The registers after a strand has been taken up (R15, R230): its arguments on their way to `s1` to `s7`, both streams at its PC,
outside any loop. -/
def strandAt (s : State) (a : Arch) (pc : W64) (args : List W64) : Arch :=
  { (List.range 7).foldl (fun b n => b.fly .execute (.s (n + 1) ((args[n]?).getD 0)) 1 0) a with
    pc := pc, skip := 0, till := none, loop := none, turn := none, loopOn := false, rb := s.part.rb, ahead := [] }

/-- The seven argument words that SPAWN and SUSP capture (R222, R229). -/
def argWords (s : State) (n : BitVec 7) : List W64 := (List.range 7).map fun i => s.part.before.arch.getS (rot s.part.rb (n.toNat + i))

/-- The slot is the only one of its bundle that redirects, and the execute stream has drained (R222, R452). -/
def Alone (s : State) : Prop :=
  s.part.claimed = false ∧ s.part.redirected = false ∧ s.part.undecided = false ∧ s.part.before.arch.inflX = []

/-- The segment of the core has kept the jump of the slot (R293). -/
def keptJump (s : State) (k : Core) (j : Option (W64 × List W64)) : Core :=
  { k with seg := { k.seg with recorded := k.seg.recorded ++ [⟨s.part.bundle, s.part.slot, none, false, [], j⟩] } }

/-! ### What a device step changes -/

/-- The tables of registers and queues are in canonical form, so that they read what has been written to them. -/
def ArchWf (a : Arch) : Prop :=
  Sparse.wf 0 a.s = true ∧ Sparse.wf 0 a.a = true ∧ Sparse.wf 0 a.v = true ∧ Sparse.wf 0 a.k = true ∧ Sparse.wf [] a.qs = true ∧
  Sparse.wf [] a.vqs = true

/-- One cycle of a stream has been counted (R58, R59, R195). -/
def cycled (a : Arch) : Side → Arch
  | .execute => { a with cycX := a.cycX + 1, inflX := a.inflX.map fun e => { e with left := e.left - 1 } }
  | .access =>
    { a with
      cycA := a.cycA + 1
      inflA := a.inflA.map fun e => { e with left := e.left - 1 }
      accs := a.accs.map fun e => { e with left := e.left - 1 } }

/-- Where the access stream stands behind a bundle: the bundle in sequence, or in a loop the next of the pass, the start of the next
pass, or the bundle behind the body (R54, R224, R282). -/
def behind (l : Option Loop) (next : W64) : W64 × Option Loop :=
  match l with
  | none => (next, none)
  | some x =>
    if x.pos + 1 < x.ii then (next, some { x with pos := x.pos + 1 })
    else if x.pass + 1 < x.limit + x.stages - 1 then (x.start, some { x with pass := x.pass + 1, pos := 0 })
    else (next, none)

/-- From `a` to `b` the poison mark of a register has become `x`, and no other mark has changed (R431, R438). -/
def Marked (a b : Arch) (f : RFile) (n : Nat) (x : Bool) : Prop :=
  ∀ g m, b.marked g m = if g = f ∧ m = n then x else a.marked g m
/-- From `a` to `b` an entry of a scalar queue that has been reserved receives its value, poisoned or not. -/
def Filled (a b : Arch) (q : Q) (id : Nat) (v : W64) (bad : Bool) : Prop :=
  (∀ r, b.q r = if r = q then (a.q q).map fun e => if e.id = id ∧ e.val = none then { e with val := some v, poison := bad } else e
    else a.q r) ∧ { b with qs := a.qs } = a
/-- From `a` to `b` an entry of a vector queue that has been reserved receives its vector, poisoned or not. -/
def VFilled (a b : Arch) (q : VQ) (id : Nat) (x : VReg) (bad : Bool) : Prop :=
  (∀ r, b.vq r = if r = q then (a.vq q).map fun e => if e.id = id ∧ e.val = none then { e with val := some x, poison := bad } else e
    else a.vq r) ∧ { b with vqs := a.vqs } = a

/-- A result has been written: its register, unless that discards writes (R6), with its poison mark taken away; its queue entry; its system
register. A poisoned one marks its destination (R431). -/
def Landed (a b : Arch) : Landing → Prop
  | .s n v => if n = 0 then b = a else
    (∀ m, b.getS m = if m = n then v else a.getS m) ∧ Marked a b .s n false ∧ { b with s := a.s, marks := a.marks } = a
  | .p n v => (∀ m, m < 16 → predBit b.p m = if m = n ∧ n ≠ 0 then v else predBit a.p m) ∧ { b with p := a.p } = a
  | .v n x => if n = 62 then b = a else
    (∀ m, b.getV m = if m = n then x else a.getV m) ∧ Marked a b .v n false ∧ { b with v := a.v, marks := a.marks } = a
  | .k n x => if n = 0 then b = a else
    (∀ m, b.getK m = if m = n then x else a.getK m) ∧ Marked a b .k n false ∧ { b with k := a.k, marks := a.marks } = a
  | .a n v => if n = 0 then b = a else
    (∀ m, b.getA m = if m = n then v else a.getA m) ∧ Marked a b .a n false ∧ { b with a := a.a, marks := a.marks } = a
  | .q q id v => Filled a b q id v false
  | .vq q id x => VFilled a b q id x false
  | .sys n v => b = a.writeSys n v
  | .bcol => b = { a with bcol := true }
  | .flagsOnly => b = a
  | .bad (.a n) => if n = 0 then b = a else Marked a b .a n true ∧ { b with marks := a.marks } = a
  | .bad (.q q id) => Filled a b q id 0 true
  | .bad (.vq q id) => VFilled a b q id 0 true
  | .bad _ => b = a

/-- A byte of chip shared memory. -/
def csmByte (s : State) (a : Nat) : Byte := Sparse.get 0 s.csm a
/-- A byte of a core's scratchpad. -/
def spmByte (k : Core) (a : Nat) : Byte := Sparse.get 0 k.scratch a
/-- From `s` to `t` the bytes from `pa` on become those of the list, and no other byte of chip shared memory changes. -/
def CsmPut (s t : State) (pa : Nat) (l : List Byte) : Prop :=
  ∀ a, csmByte t a = if pa ≤ a ∧ a < pa + l.length then (l[a - pa]?).getD 0 else csmByte s a
/-- The tables of a core's scratchpad are in canonical form. -/
def SpmWf (k : Core) : Prop := Memory.wf k.scratch = true ∧ Sparse.wf true k.full = true ∧ Sparse.wf false k.marks = true

/-- No MMA of the core waits to claim its tile, so that none does as lines fill (R254). -/
def NoClaim (s : State) (c : Nat) : Prop := ∀ q o, (s.core c).headOp q = some o → o.claims = false

/-- A pending scratchpad access is alone at its access point, in no bank in retention mode, with every line that it reads full, and no
operation waits for a line of the scratchpad, so that none is served ahead of its consuming, and no claim does (R195, R196, R254). -/
def AtAccessPoint (s : State) (c : Nat) (x : Acc) : Prop :=
  CoresWf s ∧ s.lively c = true ∧ (s.core c).arch.accGroup = [x] ∧ x.left = 0 ∧ (s.core c).arch.due .execute = false ∧
  (s.core c).retained (groupLines [x]) = false ∧
  (∀ l ∈ x.kind.readLines, (s.core c).isFull l = true) ∧ (∀ y ∈ (s.core c).waiters, y.2 < 2) ∧ (s.core c).caught = [] ∧
  NoClaim s c

/-- The state in which a device step's scratchpad writes are the latest ones (R255). -/
def landedOn (s : State) (l : List (Nat × Nat × Byte)) : State := { s with landed := l, landedAt := s.choice }
/-- Has the device step just before written a byte of a core's scratchpad (R255)? -/
def metJustBefore (s : State) (c a : Nat) : Prop := s.landedAt + 1 = s.choice ∧ ∃ b, (c, a, b) ∈ s.landed
/-- A byte that a device step has written holds the step's value, or that of the step just before, which had written it too (R255). -/
def LandedOver (s : State) (c a : Nat) (v w : Byte) : Prop := w = v ∨ (s.landedAt + 1 = s.choice ∧ (c, a, w) ∈ s.landed)
/-- The access has been taken off the pending ones, and nothing waits in the scratchpad any more. -/
def served (k : Core) (x : Acc) : Core :=
  { k with arch := { k.arch with accs := k.arch.accs.filter fun y => !([x].contains y) }, waiters := [], caught := [] }

/-- A destination that takes a 64-bit value: an access register, a queue, or nothing (R188). -/
def scalarDest : Dest → Prop
  | .p _ | .vq _ _ => False
  | _ => True

/-- An off-core access of a core meets chip shared memory at `pa`, in an entry that is neither stepped nor watched (R357, R358). -/
def AtCsm (s : State) (c : Nat) (need : Need) (va pa : Nat) : Prop :=
  ∃ i e, lookup (s.core c).table need va = .at i e (.csm pa) ∧ e.stepped = false ∧ e.watch = false

/-- An off-core access of a core meets host or stacked memory, in an entry that is neither stepped nor watched (R357, R358). -/
def AtFar (s : State) (c : Nat) (need : Need) (va : Nat) (p : Place) : Prop :=
  (∃ i e, lookup (s.core c).table need va = .at i e p ∧ e.stepped = false ∧ e.watch = false) ∧ ∀ pa, p ≠ .csm pa
/-- From `s` to `t` the bytes from `x` on become those of the list, and no other byte of host memory changes. -/
def HostPut (s t : State) (x : Nat) (l : List Byte) : Prop :=
  ∀ a, Sparse.get 0 t.host a = if x ≤ a ∧ a < x + l.length then (l[a - x]?).getD 0 else Sparse.get 0 s.host a
/-- From `u` to `t` no byte of any memory, no log and no context changes, and no core but `c`. -/
def SameMemories (u t : State) (c : Nat) : Prop :=
  t.csm = u.csm ∧ t.host = u.host ∧ t.hbm.dram = u.hbm.dram ∧ t.hbm.cache = u.hbm.cache ∧ t.hbm.logs = u.hbm.logs ∧
  t.contexts = u.contexts ∧ ∀ d, d ≠ c → t.core d = u.core d
/-- A request is among those that its target's window, or the shadow window of a lost target, keeps (R260, R419, R423). -/
def KeptFor (s t : State) (c id ch unit : Nat) (ack : Option W64) : Prop :=
  ∃ e ∈ t.keptRequests, e.req = id ∧ e.source = 8 * flat c + ch ∧ e.target = unit ∧
    e.tag = s.nextTag (8 * flat c + ch) unit % 65536 ∧ e.ack = ack

/-- The operations of a queue of a core: one at the head, the others behind it. -/
def AtHead (s : State) (c q : Nat) (o : Op) (rest : List Op) : Prop := Sparse.get [] (s.core c).ops q = o :: rest
/-- The core with another operation at the head of a queue. -/
def withHead (k : Core) (q : Nat) (o : Op) (rest : List Op) : Core := { k with ops := Sparse.set [] k.ops q (o :: rest) }

/-- A step of an operation has ended (R237, R266, R268). -/
def stepDone (p : Op) : Op :=
  { p with
    steps := p.steps + 1, next := p.next + 1, onField := p.state == .field
    fieldSteps := p.fieldSteps || p.state == .field, benchSteps := p.benchSteps || p.state == .bench
    stepEnded := true, cycles := 0, blocked := false, fetched := [] }

/-- From `s` to `t` the operation at the head of a queue completes (R180, R212, R237, R238): the core, otherwise `k`, drops it and keeps
its status, and its event record, if asked for, is posted; no other core changes; a field unit that was to be removed may go (R269). -/
def Completed (s t : State) (c q : Nat) (k : Core) (o : Op) (rest : List Op) : Prop :=
  let p := { o with state := .done, performed := true, marked := none }
  t.core c = { k with
    ops := Sparse.set [] k.ops q rest
    status := (k.status.filter fun x => decide (x.queue ≠ q) || decide (o.seq < x.seq + 256)) ++ [⟨q, o.seq, p.word, p.status true⟩] } ∧
  (∀ d, d ≠ c → t.core d = s.core d) ∧
  t.heldEvents = s.heldEvents ++ (match k.launch with
    | some id => if o.ev then [⟨flat c, flat c, id, eventWord 1 p.doneCode p.word.toNat q o.seq, o.eventPayload⟩] else []
    | none => []) ∧
  { t with
    cores := s.cores, heldEvents := s.heldEvents, fieldmask := s.fieldmask, pendingMask := s.pendingMask } = s

/-- The latch bytes of an MLAT's operation have been written, and no other byte of the latches (R181). -/
def LatchPut (a : Arch) (o : Op) (E S : Memory) : Prop :=
  (∀ m, Sparse.get 0 E m = match (o.snapE.filter fun x => o.latch * 32768 + x.1 == m).getLast? with
    | some x => x.2
    | none => Sparse.get 0 a.latchE m) ∧
  ∀ m, Sparse.get 0 S m = match (o.snapS.filter fun x => o.latch * 2048 + x.1 == m).getLast? with
    | some x => x.2
    | none => Sparse.get 0 a.latchS m
/-- The bytes of a result that was held have been written to their scratchpads (R429), the last one of an address, and no other. -/
def HeldPut (s t : State) (p : Puts) : Prop :=
  ∀ d a, match (p.filter fun x => x.1 == d + 1 && x.2.1 == a).getLast? with
    | some x => LandedOver s d a x.2.2 (spmByte (t.core d) a)
    | none => spmByte (t.core d) a = spmByte (s.core d) a

/-- What the checks of an operation give at its start, and its number of steps (R175, R212, R216, R218, R220, R264). -/
def startOf (s : State) (c q : Nat) (o : Op) : Option (Nat × Nat) :=
  match o.code with
  | .mma => some (matrixErr (s.core c) c q (s.coreSet c) o, o.blocks)
  | .cpy | .cpyt | .cpyn | .cpym => some (copyErr c (s.coreSet c) o, o.steps?.length)
  | .sfn => some (sfnErr o, (o.count + 1023) / 1024)
  | .gath | .scat => some (gatherErr c (s.coreSet c) o, (o.gcount + 1023) / 1024)
  | _ => none

/-- Reading the operands of its step has left at the head of the queue the operation itself, with what it has read noted (R178). -/
def HeadAfterReading (u : State) (c q : Nat) (o p : Op) (rest : List Op) : Prop :=
  CoresWf u ∧ Sparse.wf [] (u.core c).ops = true ∧ AtHead u c q p rest ∧ p = { o with fetched := p.fetched, blocked := p.blocked }

/-- One row of A and one column of B of a step of an MMA (R177 to R179). -/
def rowOf (k : Core) (c q : Nat) (o : Op) (ls : List (Nat × List Byte)) (i : Nat) : List Nat × Nat :=
  if o.at then recBlockOf ls c o.recA fun e => (64 * coordR o.o3 + i, coordK o.o3 + 32 * o.next + e)
  else o.latchBlock (lkbOf (k.cfgOf q)) o.next i
/-- One column of B. -/
def colOf (c : Nat) (o : Op) (ls : List (Nat × List Byte)) (j : Nat) : List Nat × Nat :=
  recBlockOf ls c o.recB fun e => (coordK o.o3 + 32 * o.next + e, 64 * coordC o.o3 + j)
/-- The lines of a C tile (R167). -/
def InTile (cb cstr l : Nat) : Prop := ∃ i, i < 64 ∧ (l = (cb + i * cstr) / 128 ∨ l = (cb + i * cstr) / 128 + 1)

/-- What a C tile's write-back leaves in its core's scratchpad (R180): the accumulators, every other byte as it was; the tile's lines full;
the words written whole good again. -/
def TilePut (s : State) (c q : Nat) (o : Op) (M : Memory) (F K : Sparse Bool) : Prop :=
  let cstr := cstrOf ((s.core c).cfgOf q)
  let whole := fun w => ∃ i, i < 64 ∧ o.o1.toNat + i * cstr ≤ 8 * w ∧ 8 * w + 8 ≤ o.o1.toNat + i * cstr + 256
  (∀ w, (whole w → Sparse.get false K w = false) ∧ (¬ whole w → Sparse.get false K w = Sparse.get false (s.core c).marks w)) ∧
  (∀ i j b, i < 64 → j < 64 → b < 4 → LandedOver s c (o.o1.toNat + i * cstr + 4 * j + b)
    (BitVec.ofNat 8 ((Sparse.get 0 o.acc (64 * i + j)).toNat / 2 ^ (8 * b))) (Sparse.get 0 M (o.o1.toNat + i * cstr + 4 * j + b))) ∧
  (∀ a, (∀ i, i < 64 → ¬ (o.o1.toNat + i * cstr ≤ a ∧ a < o.o1.toNat + i * cstr + 256)) → Sparse.get 0 M a = spmByte (s.core c) a) ∧
  ∀ l, Sparse.get true F l = true ↔ InTile o.o1.toNat cstr l ∨ (s.core c).isFull l = true
/-- A launch whose order-sensitive choices are neither logged nor forced (R371, R374). -/
def Free (s : State) (id : Nat) : Prop := ∀ l, s.launch? id = some l → l.record = false ∧ l.replay = false

/-- From `s` to `t` no core but `c` changes. -/
def OthersKeep (s t : State) (c : Nat) : Prop := ∀ d, d ≠ c → t.core d = s.core d
/-! ### Operand forms and whole-machine rules -/

/-- A register by its number under rotation base `rb` (R14). -/
def physical (rb n : Nat) : Nat := if 32 ≤ n ∧ n < 48 then 32 + (n - 32 + rb) % 16 else n
/-- The scalar queue that a pop port of the execute side names (R9). -/
def popPort : Nat → Option Q
  | 56 => some .lq0
  | 57 => some .lq1
  | 60 => some .ax
  | 61 => some .eq
  | 62 => some .mb
  | 63 => some .iq
  | _ => none
/-- The scalar queue that a push port of the execute side names (R9). -/
def pushPort : Nat → Option Q
  | 58 => some .sq
  | 59 => some .xa
  | _ => none

/-- What a core's instructions write when their results land, never at issue: register files, flags, bank formats, vector of the handler. -/
def files (k : Core) : Sparse W64 × Sparse W64 × BitVec 16 × Sparse VReg × Sparse KReg × BitVec 5 × W64 × Bool × Bool × Sparse Nat :=
  (k.arch.s, k.arch.a, k.arch.p, k.arch.v, k.arch.k, k.arch.fflags, k.arch.evec, k.arch.bcol, k.arch.sbchk, k.arch.bfmt)

/-- From `s` to `t` the part has been withdrawn: the core stands as before it, nothing else has changed, and nothing of the part is left
to be performed (R11). -/
def Withdrawn (s t : State) : Prop :=
  t.core s.part.core = s.part.before ∧ OthersKeep s t s.part.core ∧ t.latch = [] ∧ { t with cores := s.cores, latch := s.latch } = s

/-- Every table of the package's memories and cores is in canonical form. -/
def Canonical (s : State) : Prop :=
  CoresWf s ∧ Memory.wf s.csm = true ∧ Memory.wf s.host = true ∧ Memory.wf s.stepMeta = true ∧ Memory.wf s.hbm.dram = true

end Sys2Proof.Safety
end

