-- ==== Sys2Proof/Certificates/Slice0/Obligations.lean ====
section
/-! DEFINITION. Sys2Proof/Certificates/Slice0/Obligations.lean: the statements for the provers. -/

open Sys2Proof Sys2Proof.Machine Sys2Proof.Safety

/-! ### Encoding -/

/-- R48, R50, R71 to R76: for every well-formed slot instruction, with every value of every field, the syllable that the encoder makes
of it decodes, in the class it belongs to, to the instruction itself. -/
def Obligations.EncodedInstructionsDecode : Prop :=
  ∀ i : Instr, i.wellFormed = true → i.guard?.isSome = true → ∃ c y, encode i = some (c, y) ∧ decode c y = .ok i

/-- R48, R50: no two syllables of a class decode to one instruction, and every bit of a syllable is a field of it: what decodes is
encoded back to the same class and syllable. -/
def Obligations.DecodedSyllablesEncode : Prop :=
  ∀ (c : SlotClass) (y : Syllable) (i : Instr), decode c y = .ok i → encode i = some (c, y)

/-- R71: a syllable that is no empty slot is refused as unassigned exactly where the tables of R72, R73 and R75 and the hints of R76
leave its code out. -/
def Obligations.UnassignedCodesRefused : Prop :=
  ∀ (c : SlotClass) (y : Syllable), (guardOf y).ok = true → (decode c y = .error .unassigned ↔ codeAssigned c (opOf y) = false)

/-- R48, R50, R71 to R76: syllables that the spec writes out bit by bit in its worked encodings decode to the instructions they stand
for, or are refused as it says: of the control, the vector and the memory class, in the formats A3, AI, WI and EN, with guards. -/
def Obligations.WorkedWordsDecode : Prop :=
  decodeWord 0x0002010286000000 = .ok (.add ⟨⟨0, false⟩, 4, 5, 6, 0, 0⟩) ∧
  decodeWord 0x938201C408000000 = .ok (.add ⟨⟨3, true⟩, 7, 8, 8, 0, 0⟩) ∧
  decode .control 0x000630C217FFFFFB = .ok (.cmpi ⟨⟨0, false⟩, 67, 4, 0x17FFFFFB⟩) ∧
  decode .control 0x0C06028500000001 = .ok (.addi ⟨⟨12, false⟩, 10, 10, 1⟩) ∧
  decode .control 0x000EA00480000041 = .ok (.loopm ⟨⟨0, false⟩, 0, 9, 0, 0, 0x41⟩) ∧
  decode .control 0x000FEE9E00000000 = .ok (.bstat ⟨⟨0, false⟩, 58, 60, 0, 0, 0⟩) ∧
  decode .control 0x03780E0000000000 = .ok (.hint 0 ⟨⟨3, false⟩, 56, 0⟩) ∧
  decode .vector 0x0C0E4800BE940001 = .ok (.vslide ⟨⟨12, false⟩, 32, 1, 62, 74, 1⟩) ∧
  decode .vector 0x0D0280D0A3000001 = .ok (.vmac ⟨⟨13, false⟩, 3, 33, 35, 0, 1⟩) ∧
  decode .vector 0x000A028082060009 = .ok (.vxdot ⟨⟨0, false⟩, 10, 1, 2, 3, 9⟩) ∧
  decode .memory 0x0004100205017002 = .ok (.ld ⟨⟨0, false⟩, 64, 4, 5, 0, 0x17002⟩) ∧
  decode .memory 0x0E07400C1C0170C0 = .ok (.red ⟨⟨14, false⟩, 0, 24, 28, 0, 0x170C0⟩) ∧
  decode .memory 0x0C07100C030190C0 = .ok (.amo ⟨⟨12, false⟩, 64, 24, 3, 0, 0x190C0⟩) ∧
  decode .memory 0x000B00C2080B2148 = .ok (.mma ⟨⟨0, false⟩, 3, 4, 8, 5, 0x12148⟩) ∧
  decode .memory 0x0008200000000081 = .ok (.qfence ⟨⟨0, false⟩, 0, 0, 0, 0, 0x81⟩) ∧
  decode .control 0x0080000000000000 = .error .emptySlot ∧ decode .control 0x00F8000000000000 = .error .malformedEmpty ∧
  decode .control 0 = .error .unassigned ∧ decode .memory 0x0078000000000000 = .error .unassigned

/-! ### Steps -/

/-- With a syllable word to be performed that decodes to an instruction, the step is the instruction, performed in the slot that the
word names, at a state where the word has been taken off (log entry 3).
With no syllable left, the step is the next step of the agenda, or, with none, the free choice of Config, with the number of device
steps one up; a step that names no unit of the package stops (log entry 3). -/
def Obligations.StepRunsInstruction : Prop :=
  (∀ (s : State) (w : W64) (rest : List W64) (i : Instr), s.latch = w :: rest → decodeWord w = .ok i →
    step s = exec i { s with latch := rest, part := { s.part with slot := wordSlot w } }) ∧
  (∀ s : State, s.latch = [] →
    (∀ e rest, s.agenda = e :: rest → deviceStep e = true → step s = exec e { s with agenda := rest, choice := s.choice + 1 }) ∧
    (s.agenda = [] → step s =
      if deviceStep (Config.nextStep s.choice) then exec (Config.nextStep s.choice) { s with choice := s.choice + 1 }
      else .fault .noSuchUnit))

/-- Every step answers a next state, but for a step of the agenda, or a free choice, that names no step of the device; no step is
refused. -/
def Obligations.StepsAnswer : Prop :=
  ∀ s : State,
    (∃ t, step s = .next t) ∨
    (s.latch = [] ∧ step s = .fault .noSuchUnit ∧
      ((∃ e rest, s.agenda = e :: rest ∧ deviceStep e = false) ∨
       (s.agenda = [] ∧ deviceStep (Config.nextStep s.choice) = false)))

/-- R49: an instruction whose guard reads false has no effect, whatever its class. -/
def Obligations.FalseGuardDoesNothing : Prop :=
  ∀ (i : Instr) (g : Guard) (s : State), i.guard? = some g → guardHolds g s.part.preds = false → exec i s = .next s

/-- R77: under a true guard, an undefined modifier value or a refused operand cancels the part: the core stands as before the part,
with the trap of the cause asked for at the part's bundle, and nothing of the part is left to be performed.
The model's choices: log entry 4. -/
def Obligations.DefectsTrap : Prop :=
  ∀ (i : Instr) (s : State) (cause : Nat), CoresWf s → Guarded i s → s.slotDefect i = some cause →
    ∃ t, exec i s = .next t ∧ t.latch = [] ∧ (∀ c, c ≠ s.part.core → t.core c = s.core c) ∧
      t.core s.part.core =
        { s.part.before with arch := { s.part.before.arch with trap := some ⟨cause, s.slotAddr, s.part.pc, false⟩ } }

/-! ### Scalar instructions -/

/-- R106, R107, R108: the two-source integer instructions: whatever forms their sources and destination take, the low 64 bits of the
integer that R107 or R108 gives go to the destination with the latency of R106 and no flag; nothing else changes. -/
def Obligations.IntegerResults : Prop :=
  ∀ (i : Instr) (o : A3) (lat : Nat) (f : W64 → W64 → Int), intOp i = some (o, lat, f) →
    ∀ (s : State) (x y : W64) (a b : Arch), Runs i s → Reads2 s o.s1 o.s2 x y a →
      s.part.dstS o.d.toNat (BitVec.ofInt 64 (f x y)) lat 0 a = .ok b → exec i s = .next (s.withArch b)

/-- R107: AND, OR, XOR and ANDN work bit by bit.
R109: the shifts take their amount from SH, or with I = 0 from the low six bits of S2.
R107, R110: CLZ, CTZ, POPC, SEXT, ZEXT and BFX. -/
def Obligations.BitwiseShiftUnaryResults : Prop :=
  (∀ (i : Instr) (o : A3) (f : Bool → Bool → Bool), bitOp i = some (o, f) →
    ∀ (s : State) (x y r : W64) (a b : Arch), Runs i s → Reads2 s o.s1 o.s2 x y a →
      (∀ j : Nat, j < 64 → r.getLsbD j = f (x.getLsbD j) (y.getLsbD j)) →
      s.part.dstS o.d.toNat r 1 0 a = .ok b → exec i s = .next (s.withArch b)) ∧
  (∀ (i : Instr) (o : A3) (f : W64 → Nat → Int), shiftOp i = some (o, f) →
    ∀ (s : State) (x y : W64) (a b : Arch), Runs i s →
      (fld o.m 6 1 = 1 → Reads1 s o.s1 x a → s.part.dstS o.d.toNat (BitVec.ofInt 64 (f x (fld o.m 0 6))) 1 0 a = .ok b →
        exec i s = .next (s.withArch b)) ∧
      (fld o.m 6 1 = 0 → Reads2 s o.s1 o.s2 x y a → s.part.dstS o.d.toNat (BitVec.ofInt 64 (f x (y.toNat % 64))) 1 0 a = .ok b →
        exec i s = .next (s.withArch b))) ∧
  (∀ (i : Instr) (o : A3) (f : W64 → Int), unaryOp i = some (o, f) →
    ∀ (s : State) (x : W64) (a b : Arch), Runs i s → Reads1 s o.s1 x a →
      s.part.dstS o.d.toNat (BitVec.ofInt 64 (f x)) 1 0 a = .ok b → exec i s = .next (s.withArch b))

/-- R110 to R113: BFI replaces the bits of its field; SEL reads both sources and its predicate; ADDI and MOVI extend their immediate by
its sign; MOVHI keeps the low 38 bits of D. -/
def Obligations.InsertSelectImmediate : Prop :=
  (∀ (o : A3) (s : State) (x y r : W64) (a b : Arch), Runs (.bfi o) s → Reads2 s o.s1 o.s2 x y a →
    (∀ j : Nat, j < 64 → r.getLsbD j =
      if fld o.m 0 6 ≤ j ∧ j ≤ fld o.m 0 6 + fld o.m 6 6 then y.getLsbD (j - fld o.m 0 6) else x.getLsbD j) →
    s.part.dstS o.d.toNat r 1 0 a = .ok b → exec (.bfi o) s = .next (s.withArch b)) ∧
  (∀ (o : A3) (s : State) (x y : W64) (a b : Arch), Runs (.sel o) s → Reads2 s o.s1 o.s2 x y a →
    s.part.dstS o.d.toNat (if s.part.srcP o.s3.toNat then x else y) 1 0 a = .ok b → exec (.sel o) s = .next (s.withArch b)) ∧
  (∀ (o : AI) (s : State) (x : W64) (a b : Arch), Runs (.addi o) s → Reads1 s o.s1 x a →
    s.part.dstS o.d.toNat (BitVec.ofInt 64 (x.toInt + o.imm.toInt)) 1 0 a = .ok b → exec (.addi o) s = .next (s.withArch b)) ∧
  (∀ (o : WI) (s : State) (b : Arch), Runs (.movi o) s →
    s.part.dstS o.d.toNat (BitVec.ofInt 64 o.imm.toInt) 1 0 (arch s) = .ok b → exec (.movi o) s = .next (s.withArch b)) ∧
  (∀ (o : WI) (s : State) (x : W64) (a b : Arch), Runs (.movhi o) s → Reads1 s o.d x a →
    s.part.dstS o.d.toNat (BitVec.ofNat 64 (o.imm.toNat % 2 ^ 26 * 2 ^ 38 + x.toNat % 2 ^ 38)) 1 0 a = .ok b →
    exec (.movhi o) s = .next (s.withArch b))

/-- R114 to R117, R120: CMP, CMPI, PLOG, PTST and FCMPS send one predicate, whose value is their condition over the sources. -/
def Obligations.PredicateResults : Prop :=
  (∀ (o : A3) (s : State) (x y : W64) (a : Arch) (v : Bool), Runs (.cmp o) s → Reads2 s o.s1 o.s2 x y a →
    (v = true ↔ Cond (fld o.m 0 4) x y) →
    exec (.cmp o) s = .next (s.withArch (a.fly .execute (.p (o.d.toNat - 64) v) 1 0))) ∧
  (∀ (o : AI) (s : State) (x : W64) (a : Arch) (v : Bool), Runs (.cmpi o) s → Reads1 s o.s1 x a →
    (v = true ↔ Cond (fld o.imm 27 4) x (BitVec.ofInt 64 (((o.imm.toNat % 2 ^ 27 : Nat) : Int).bmod (2 ^ 27)))) →
    exec (.cmpi o) s = .next (s.withArch (a.fly .execute (.p (o.d.toNat - 64) v) 1 0))) ∧
  (∀ (o : A3) (s : State), Runs (.plog o) s →
    exec (.plog o) s = .next (s.withArch ((arch s).fly .execute
      (.p (o.d.toNat - 64) (o.m.getLsbD ((if s.part.srcP o.s1.toNat then 2 else 0) + if s.part.srcP o.s2.toNat then 1 else 0))) 1 0))) ∧
  (∀ (o : A3) (s : State) (x : W64) (a : Arch), Runs (.ptst o) s → Reads1 s o.s1 x a →
    exec (.ptst o) s = .next (s.withArch (a.fly .execute (.p (o.d.toNat - 64) (x.getLsbD (fld o.m 0 6))) 1 0))) ∧
  (∀ (o : A3) (s : State) (x y : W64) (a : Arch), Runs (.fcmps o) s → Reads2 s o.s1 o.s2 x y a →
    exec (.fcmps o) s = .next (s.withArch (a.fly .execute
      (.p (o.d.toNat - 64) (fCompare fp32 (fld o.m 0 3) (x.toNat % 2 ^ 32) (y.toNat % 2 ^ 32))) 2 0)))

/-- R118, R119, R121, R122: the scalar FP32 instructions work on the low 32 bits of their sources, deliver their result zero-extended,
or for a conversion to an integer sign- or zero-extended, and send their flags with it. -/
def Obligations.ScalarFloatResults : Prop :=
  (∀ (i : Instr) (o : A3) (lat : Nat) (f : Nat → Nat → Nat × BitVec 5), fpOp i = some (o, lat, f) →
    ∀ (s : State) (x y : W64) (a b : Arch), Runs i s → Reads2 s o.s1 o.s2 x y a →
      s.part.dstS o.d.toNat (BitVec.ofNat 64 (f (x.toNat % 2 ^ 32) (y.toNat % 2 ^ 32)).1) lat
        (f (x.toNat % 2 ^ 32) (y.toNat % 2 ^ 32)).2 a = .ok b → exec i s = .next (s.withArch b)) ∧
  (∀ (o : A3) (s : State) (x y z : W64) (a b : Arch) (r : Nat × BitVec 5), Runs (.fmas o) s → Reads3 s o.s1 o.s2 o.s3 x y z a →
    r = fFma fp32 (o.m.getLsbD 0) (o.m.getLsbD 1) (x.toNat % 2 ^ 32) (y.toNat % 2 ^ 32) (z.toNat % 2 ^ 32) →
    s.part.dstS o.d.toNat (BitVec.ofNat 64 r.1) 4 r.2 a = .ok b → exec (.fmas o) s = .next (s.withArch b)) ∧
  (∀ (o : A3) (s : State) (x : W64) (a b : Arch), Runs (.fcvts o) s → Reads1 s o.s1 x a →
    s.part.dstS o.d.toNat (fcvtsVal (fld o.m 2 4) (RMode.ofCode (fld o.m 0 2)) x).1 3
      (fcvtsVal (fld o.m 2 4) (RMode.ofCode (fld o.m 0 2)) x).2 a = .ok b → exec (.fcvts o) s = .next (s.withArch b))

/-! ### Vector instructions -/

/-- R132 to R135, R138: the element-wise integer instructions of two sources: the low w bits of the exact integer of each pair of
elements, under the mask, without a flag.
R138: VAND, VOR and VXOR work bit by bit; VABS gives the magnitude, the most negative value for itself.
R139: the vector shifts take their amount from SH, or with I = 0 from the low log2 w bits of each element of S2.
The model's choices: log entry 75. -/
def Obligations.VectorIntegerFamilyResults : Prop :=
  (∀ (i : Instr) (o : A3) (lat : Nat) (f : Nat → Int → Int → Int), vecOp i = some (o, lat, f) →
    ∀ (s : State) (x y : VReg) (a : Arch), Runs i s → ReadsV2 s (width o) (width o) o.s1 o.s2 x y a →
      Delivers i s o (width o) lat a fun j =>
        (ofInt (width o) (f (width o) (val o (elem x.toNat (width o) j)) (val o (elem y.toNat (width o) j))), 0)) ∧
  (∀ (i : Instr) (o : A3) (f : Bool → Bool → Bool), vecBitOp i = some (o, f) →
    ∀ (s : State) (x y : VReg) (a : Arch) (g : Nat → Nat), Runs i s → ReadsV2 s (width o) (width o) o.s1 o.s2 x y a →
      (∀ j n, n < width o → (g j).testBit n = f ((elem x.toNat (width o) j).testBit n) ((elem y.toNat (width o) j).testBit n)) →
      Delivers i s o (width o) 2 a fun j => (g j, 0)) ∧
  (∀ (o : A3) (s : State) (x : VReg) (a : Arch), Runs (.vabs o) s → ReadsV1 s (width o) o.s1 x a →
    Delivers (.vabs o) s o (width o) 2 a fun j => ((val o (elem x.toNat (width o) j)).natAbs, 0)) ∧
  (∀ (i : Instr) (o : A3) (f : Nat → Nat → Int), vecShiftOp i = some (o, f) →
    ∀ (s : State) (x y : VReg) (a : Arch), Runs i s →
      (fld o.m 16 1 = 1 → ReadsV1 s (width o) o.s1 x a →
        Delivers i s o (width o) 2 a fun j => (ofInt (width o) (f (elem x.toNat (width o) j) (fld o.m 8 5)), 0)) ∧
      (fld o.m 16 1 = 0 → ReadsV2 s (width o) (width o) o.s1 o.s2 x y a →
        Delivers i s o (width o) 2 a fun j =>
          (ofInt (width o) (f (elem x.toNat (width o) j) (elem y.toNat (width o) j % width o)), 0)))

/-- R140, R141: VMAC adds the product to D; VDOT4 and VDOT2 add the products of the lane's four or two pairs to its 32-bit lane of D;
VNARW takes the elements of S1 and then of S2 to half their width, clamped with SAT; VWIDE extends half of S1's elements.
The model's choices: log entry 74. -/
def Obligations.VectorAccumulateNarrowWiden : Prop :=
  (∀ (o : A3) (s : State) (x y : VReg) (a : Arch), Runs (.vmac o) s → ReadsV2 s (width o) (width o) o.s1 o.s2 x y a →
    Delivers (.vmac o) s o (width o) 3 a fun j =>
      (elem (s.part.oldV o.d.toNat (arch s)).toNat (width o) j + elem x.toNat (width o) j * elem y.toNat (width o) j, 0)) ∧
  (∀ (o : A3) (s : State) (x y : VReg) (a : Arch) (k : Nat) (i : Instr), (i = .vdot4 o ∧ k = 4 ∨ i = .vdot2 o ∧ k = 2) →
    Runs i s → ReadsV2 s (width o) (width o) o.s1 o.s2 x y a →
    Delivers i s o 32 3 a fun j =>
      (ofInt 32 ((elem (s.part.oldV o.d.toNat (arch s)).toNat 32 j : Int) +
        ((List.range k).map fun n =>
          val o (elem x.toNat (width o) (k * j + n)) * val o (elem y.toNat (width o) (k * j + n))).sum), 0)) ∧
  (∀ (o : A3) (s : State) (x y : VReg) (a : Arch), Runs (.vnarw o) s → ReadsV2 s (2 * width o) (2 * width o) o.s1 o.s2 x y a →
    Delivers (.vnarw o) s o (width o) 2 a fun j =>
      let v := if j < count o / 2 then elem x.toNat (2 * width o) j else elem y.toNat (2 * width o) (j - count o / 2)
      let n := toInt (2 * width o) (etSigned (fld o.m 0 4)) v
      (ofInt (width o) (if fld o.m 8 1 = 1 then clampInt (width o) (etSigned (fld o.m 0 4)) n else n), 0)) ∧
  (∀ (o : A3) (s : State) (x : VReg) (a : Arch), Runs (.vwide o) s → ReadsV1 s (width o / 2) o.s1 x a →
    Delivers (.vwide o) s o (width o) 2 a fun j =>
      (ofInt (width o) (toInt (width o / 2) (etSigned (fld o.m 0 4)) (elem x.toNat (width o / 2) (fld o.m 8 1 * count o + j))), 0))

/-- R142, R143, R147: VCMP and VFCMP write the bits of a mask register by their condition under the mask, 0 from the element count on;
KLOG takes every bit from its truth table; KSET sets the bits below its scalar and the element count.
R143, R144: KPOP counts the set bits below the element count, KFST gives the lowest of them or the element count, each in bytes 0 to
7 of D; VSEL takes each element from S1 or S2 as its mask says. -/
def Obligations.MaskResults : Prop :=
  (∀ (o : A3) (s : State) (x y : VReg) (a : Arch) (r : KReg), Runs (.vcmp o) s → ReadsV2 s (width o) (width o) o.s1 o.s2 x y a →
    MaskOf o a (fun j => VCond o (fld o.m 8 4) (elem x.toNat (width o) j) (elem y.toNat (width o) j)) r →
    exec (.vcmp o) s = .next (s.withArch (a.fly .execute (.k o.d.toNat r) 2 0))) ∧
  (∀ (o : A3) (s : State) (x y : VReg) (a : Arch) (r : KReg), Runs (.vfcmp o) s → ReadsV2 s (width o) (width o) o.s1 o.s2 x y a →
    MaskOf o a (fun j =>
      fCompare (etFmt (fld o.m 0 4)) (fld o.m 8 3) (elem x.toNat (width o) j) (elem y.toNat (width o) j) = true) r →
    exec (.vfcmp o) s = .next (s.withArch (a.fly .execute (.k o.d.toNat r) 2 0))) ∧
  (∀ (o : A3) (s : State) (r : KReg), Runs (.klog o) s →
    (∀ j, j < 1024 → r.getLsbD j = (fld o.m 8 4).testBit
      (2 * (((arch s).getK o.s1.toNat).getLsbD j).toNat + (((arch s).getK o.s2.toNat).getLsbD j).toNat)) →
    exec (.klog o) s = .next (s.withArch ((arch s).fly .execute (.k o.d.toNat r) 1 0))) ∧
  (∀ (o : A3) (s : State) (x : W64) (a : Arch) (r : KReg), Runs (.kset o) s → s.part.srcX o.s1.toNat (arch s) = .ok (x, a) →
    (∀ j, j < 1024 → (r.getLsbD j = true ↔ j < x.toNat ∧ j < count o)) →
    exec (.kset o) s = .next (s.withArch (a.fly .execute (.k o.d.toNat r) 1 0))) ∧
  (∀ (o : A3) (s : State) (b : Arch), Runs (.kpop o) s →
    s.part.dstV o.d.toNat (BitVec.ofNat 8192 ((List.range (count o)).countP fun j => maskBit ((arch s).getK o.s1.toNat) j)) 1 0
      (arch s) = .ok b → exec (.kpop o) s = .next (s.withArch b)) ∧
  (∀ (o : A3) (s : State) (b : Arch) (n : Nat), Runs (.kfst o) s →
    (∀ j, j < n → maskBit ((arch s).getK o.s1.toNat) j = false) →
    ((n < count o ∧ maskBit ((arch s).getK o.s1.toNat) n = true) ∨ n = count o) →
    s.part.dstV o.d.toNat (BitVec.ofNat 8192 n) 1 0 (arch s) = .ok b → exec (.kfst o) s = .next (s.withArch b)) ∧
  (∀ (o : A3) (s : State) (x y r : VReg) (a b : Arch), Runs (.vsel o) s → ReadsV2 s (width o) (width o) o.s1 o.s2 x y a →
    (∀ j, j < count o → elem r.toNat (width o) j = elem (if maskBit (a.maskOf o.m) j then x else y).toNat (width o) j) →
    s.part.dstV o.d.toNat r 2 0 a = .ok b → exec (.vsel o) s = .next (s.withArch b))

/-- R145 to R148: the element-wise floating-point instructions, under the mask, with their flags: VFADD, VFSUB, VFMUL, VFMIN, VFMAX;
VFMA with its two signs; VFSGN, which gives the magnitude of S1 the sign that OP names; VFCLS, which sets the bit of the class. -/
def Obligations.VectorFloatResults : Prop :=
  (∀ (i : Instr) (o : A3) (lat : Nat) (f : Fmt → Nat → Nat → Nat × BitVec 5), vecFpOp i = some (o, lat, f) →
    ∀ (s : State) (x y : VReg) (a : Arch), Runs i s → ReadsV2 s (width o) (width o) o.s1 o.s2 x y a →
      Delivers i s o (width o) lat a fun j =>
        f (etFmt (fld o.m 0 4)) (elem x.toNat (width o) j) (elem y.toNat (width o) j)) ∧
  (∀ (o : A3) (s : State) (x y z : VReg) (a b : Arch), Runs (.vfma o) s → ReadsV2 s (width o) (width o) o.s1 o.s2 x y a →
    s.part.srcV (width o) o.s3.toNat a = .ok (z, b) →
    Delivers (.vfma o) s o (width o) 4 b fun j =>
      fFma (etFmt (fld o.m 0 4)) (o.m.getLsbD 8) (o.m.getLsbD 9) (elem x.toNat (width o) j) (elem y.toNat (width o) j)
        (elem z.toNat (width o) j)) ∧
  (∀ (o : A3) (s : State) (x y : VReg) (a : Arch), Runs (.vfsgn o) s → ReadsV2 s (width o) (width o) o.s1 o.s2 x y a →
    Delivers (.vfsgn o) s o (width o) 2 a fun j =>
      let mag := elem x.toNat (width o) j % 2 ^ (width o - 1)
      let sx := (elem x.toNat (width o) j).testBit (width o - 1)
      let sy := (elem y.toNat (width o) j).testBit (width o - 1)
      (mag + (match fld o.m 8 2 with | 0 => sy | 1 => !sy | _ => sx != sy).toNat * 2 ^ (width o - 1), 0)) ∧
  (∀ (o : A3) (s : State) (x : VReg) (a : Arch), Runs (.vfcls o) s → ReadsV1 s (width o) o.s1 x a →
    Delivers (.vfcls o) s o (width o) 2 a fun j => (2 ^ fClass (etFmt (fld o.m 0 4)) (elem x.toNat (width o) j), 0))

/-- R150, R151: VXDOT puts the exact pair of each block into its half of D and keeps the other half; VXADD adds the pairs of S2 into one
group of 64 elements of S1 and passes the others whatever the mask. -/
def Obligations.ExactBlockResults : Prop :=
  (∀ (o : A3) (s : State) (x y z : VReg) (a b : Arch), Runs (.vxdot o) s → ReadsV2 s 64 64 o.s1 o.s2 x y a →
    (if isMx (fld o.m 0 4) then s.part.srcV 64 o.s3.toNat a = .ok (z, b) else z = 0 ∧ b = a) →
    DeliversLanes (.vxdot o) s o.d 128 5 b (fun j => j / 32 == fld o.m 8 1 && maskBit (b.maskOf o.m) j)
      (fun j => j / 32 == fld o.m 8 1 && zeroing o.m o.d.toNat) fun j =>
        vxdotBlock (fld o.m 0 4) (blockCodes (fld o.m 0 4) x.toNat (j % 32)) (blockCodes (fld o.m 0 4) y.toNat (j % 32))
          (if isMx (fld o.m 0 4) then elem z.toNat 8 (j % 32) else 127)
          (if isMx (fld o.m 0 4) then elem z.toNat 8 (32 + j % 32) else 127)) ∧
  (∀ (o : A3) (s : State) (x y : VReg) (a : Arch), Runs (.vxadd o) s → ReadsV2 s 32 64 o.s1 o.s2 x y a →
    DeliversLanes (.vxadd o) s o.d 32 4 a (fun j => j / 64 != fld o.m 8 2 || maskBit (a.maskOf o.m) j)
      (fun _ => zeroing o.m o.d.toNat) fun j =>
        if j / 64 = fld o.m 8 2 then vxaddElem (elem x.toNat 32 j) (elem y.toNat 128 (j % 64)) else (elem x.toNat 32 j, 0))

/-- R152, R153: VSUM sums the elements that its mask marks by the fixed tree, group by group; VSCAN rounds once per active element, in
ascending order. -/
def Obligations.ReductionResults : Prop :=
  (∀ (o : A3) (s : State) (x : VReg) (a : Arch), Runs (.vsum o) s → ReadsV1 s (width o) o.s1 x a →
    let t := fun g => treeSum (fld o.m 0 4)
      (fun j => if maskBit (a.maskOf o.m) j then some (elem x.toNat (width o) j) else none) (fld o.m 8 4) (g * 2 ^ fld o.m 8 4)
    ∃ (r : VReg) (fl : BitVec 5),
      (∀ g, g < count o → elem r.toNat (width o) g = if g < count o / 2 ^ fld o.m 8 4 then (t g).1.getD 0 % 2 ^ width o else 0) ∧
      (∀ n, fl.getLsbD n = true ↔ ∃ g, g < count o / 2 ^ fld o.m 8 4 ∧ (t g).2.getLsbD n = true) ∧
      ∀ b, s.part.dstV o.d.toNat r 6 fl a = .ok b → exec (.vsum o) s = .next (s.withArch b)) ∧
  (∀ (o : A3) (s : State) (x : VReg) (a : Arch), Runs (.vscan o) s → ReadsV1 s (width o) o.s1 x a →
    Delivers (.vscan o) s o (width o) 8 a (scanAt (fld o.m 0 4) (maskBit (a.maskOf o.m)) (elem x.toNat (width o))))

/-- R154, R155: VCVT converts the elements that its widths and H pair, the rest of D keeping what it held; VCVT8 converts to one part
of the bytes of D, or expands one part of the bytes of S1.
R156 to R158: VMXQ writes the element bytes, or the scale bytes, of the eight blocks that it quantises and keeps every other byte of
D; VMXDQ gives scale times element; VEXP expands 512 codes into one half of D.
The model's choices: log entries 15, 74. -/
def Obligations.ConversionBlockResults : Prop :=
  (∀ (o : A3) (s : State) (x : VReg) (a : Arch) (ws : Nat), Runs (.vcvt o) s → ws = etWidth (fld o.m 8 4) → ReadsV1 s ws o.s1 x a →
    (width o < ws →
      DeliversLanes (.vcvt o) s o.d (width o) 3 a
        (fun j => j / (8192 / ws) == fld o.m 14 1 && maskBit (a.maskOf o.m) (j - fld o.m 14 1 * (8192 / ws)))
        (fun j => j / (8192 / ws) == fld o.m 14 1 && zeroing o.m o.d.toNat) fun j =>
          convertElem (fld o.m 8 4) (fld o.m 0 4) (RMode.ofCode (fld o.m 12 2))
            (elem x.toNat ws (j - fld o.m 14 1 * (8192 / ws)))) ∧
    (ws ≤ width o →
      Delivers (.vcvt o) s o (width o) 3 a fun j =>
        convertElem (fld o.m 8 4) (fld o.m 0 4) (RMode.ofCode (fld o.m 12 2))
          (elem x.toNat ws ((if ws < width o then fld o.m 14 1 * count o else 0) + j)))) ∧
  (∀ (o : A3) (s : State) (x : VReg) (a : Arch), Runs (.vcvt8 o) s → fld o.m 8 1 = 1 → ReadsV1 s 64 o.s1 x a →
    Delivers (.vcvt8 o) s o (width o) 3 a fun j =>
      ((fConvert (if fld o.m 9 1 = 1 then e5m2 else e4m3) (etFmt (fld o.m 0 4)) .rne false
        (elem x.toNat 8 (fld o.m 13 2 * count o + j))).1, 0)) ∧
  (∀ (o : A3) (s : State) (x : VReg) (a : Arch), Runs (.vcvt8 o) s → fld o.m 8 1 = 0 → ReadsV1 s (width o) o.s1 x a →
    DeliversLanes (.vcvt8 o) s o.d 8 3 a
      (fun j => j / count o == fld o.m 13 2 && maskBit (a.maskOf o.m) (j - fld o.m 13 2 * count o))
      (fun j => j / count o == fld o.m 13 2 && zeroing o.m o.d.toNat) fun j =>
        fConvert (etFmt (fld o.m 0 4)) (if fld o.m 9 1 = 1 then e5m2 else e4m3) (RMode.ofCode (fld o.m 10 2)) (o.m.getLsbD 12)
          (elem x.toNat (width o) (j - fld o.m 13 2 * count o))) ∧
  (∀ (o : A3) (s : State) (x r : VReg) (a b : Arch), Runs (.vmxq o) s → ReadsV1 s 32 o.s1 x a → fld o.m 10 1 = 1 →
    (∀ j, j < 1024 → elem r.toNat 8 j =
      if j / 8 = fld o.m 11 4 then
        (quantise (9 + fld o.m 8 2) ((List.range 32).map fun n => fp32.decode (elem x.toNat 32 (32 * (j % 8) + n)))).1 % 2 ^ 8
      else elem (s.part.oldV o.d.toNat a).toNat 8 j) →
    s.part.dstV o.d.toNat r 5 0 a = .ok b → exec (.vmxq o) s = .next (s.withArch b)) ∧
  (∀ (o : A3) (s : State) (x r : VReg) (fl : BitVec 5) (a b : Arch), Runs (.vmxq o) s → ReadsV1 s 32 o.s1 x a → fld o.m 10 1 = 0 →
    let q := fun k => quantise (9 + fld o.m 8 2) ((List.range 32).map fun n => fp32.decode (elem x.toNat 32 (32 * k + n)))
    let w := if fld o.m 8 2 = 0 then 4 else 8
    let first := fld o.m 11 4 * 256
    (∀ j, j < 8192 / w → elem r.toNat w j =
      if first ≤ j ∧ j < first + 256 then ((q ((j - first) / 32)).2.1[j % 32]?).getD 0 % 2 ^ w
      else elem (s.part.oldV o.d.toNat a).toNat w j) →
    (∀ n, fl.getLsbD n = true ↔ ∃ k, k < 8 ∧ (q k).2.2.getLsbD n = true) →
    s.part.dstV o.d.toNat r 5 fl a = .ok b → exec (.vmxq o) s = .next (s.withArch b)) ∧
  (∀ (o : A3) (s : State) (x y : VReg) (a : Arch), Runs (.vmxdq o) s → ReadsV2 s 64 64 o.s1 o.s2 x y a →
    let w := if fld o.m 8 2 = 0 then 4 else 8
    Delivers (.vmxdq o) s o 32 3 a fun j =>
      roundVal fp32 .rne false (mxValue (9 + fld o.m 8 2) (elem y.toNat 8 (8 * fld o.m 13 4 + j / 32))
        (elem x.toNat w (fld o.m 10 3 * 256 + j)))) ∧
  (∀ (o : A3) (s : State) (x : VReg) (a : Arch), Runs (.vexp o) s → ReadsV1 s 64 o.s1 x a →
    DeliversLanes (.vexp o) s o.d 8 3 a
      (fun j => j / 512 == fld o.m 10 1 && maskBit (a.maskOf o.m) (j - 512 * fld o.m 10 1))
      (fun j => j / 512 == fld o.m 10 1 && zeroing o.m o.d.toNat) fun j =>
        (expandCode (fld o.m 8 2) (elem (x.toNat / 2 ^ (1024 * fld o.m 11 3)) (if fld o.m 8 2 = 0 then 4 else 6) (j % 512)), 0))

/-- R159, R160: VPACK takes the low nibbles of S1 and then S2; VUNPK expands one half of S1's nibbles; VPERM takes the element of S1 that
S2 names, for 8-bit types within the quarter; VSHUF zips halves, or takes the even or odd elements of S1 and then S2.
R161, R162: VSLIDE takes the elements of S1 and then S2 from n on, 0 past their end; VBCST repeats one element; VEXTR delivers one in
bytes 0 to 7; VINS replaces one, if its mask bit is set; VMOV and VMOVI. -/
def Obligations.PermuteMoveResults : Prop :=
  (∀ (o : A3) (s : State) (x y : VReg) (a : Arch), Runs (.vpack o) s → ReadsV2 s 64 64 o.s1 o.s2 x y a →
    Delivers (.vpack o) s o 8 3 a fun j =>
      let u := fun k => if k < 1024 then elem x.toNat 8 k else elem y.toNat 8 (k - 1024)
      (u (2 * j + 1) % 16 * 16 + u (2 * j) % 16, 0)) ∧
  (∀ (o : A3) (s : State) (x : VReg) (a : Arch), Runs (.vunpk o) s → ReadsV1 s 64 o.s1 x a →
    Delivers (.vunpk o) s o 8 3 a fun j =>
      let n := elem x.toNat 4 (1024 * fld o.m 8 1 + j)
      (if fld o.m 9 1 = 1 then ofInt 8 ((n : Int).bmod 16) else n, 0)) ∧
  (∀ (o : A3) (s : State) (x y : VReg) (a : Arch), Runs (.vperm o) s → ReadsV2 s (width o) (width o) o.s1 o.s2 x y a →
    Delivers (.vperm o) s o (width o) 3 a fun j =>
      (elem x.toNat (width o)
        (if width o = 8 then j / 256 * 256 + elem y.toNat 8 j else elem y.toNat (width o) j % count o), 0)) ∧
  (∀ (o : A3) (s : State) (x y : VReg) (a : Arch), Runs (.vshuf o) s → ReadsV2 s (width o) (width o) o.s1 o.s2 x y a →
    Delivers (.vshuf o) s o (width o) 3 a fun j =>
      let u := fun k => if k < count o then elem x.toNat (width o) k else elem y.toNat (width o) (k - count o)
      (match fld o.m 8 2 with
       | 0 => elem (if j % 2 = 0 then x else y).toNat (width o) (j / 2)
       | 1 => elem (if j % 2 = 0 then x else y).toNat (width o) (count o / 2 + j / 2)
       | 2 => u (2 * j)
       | _ => u (2 * j + 1), 0)) ∧
  (∀ (o : A3) (s : State) (x y : VReg) (n : W64) (a b : Arch), Runs (.vslide o) s → ReadsV2 s (width o) (width o) o.s1 o.s2 x y a →
    s.part.srcX o.s3.toNat a = .ok (n, b) →
    Delivers (.vslide o) s o (width o) 3 b fun j =>
      (if j + n.toNat < count o then elem x.toNat (width o) (j + n.toNat)
       else if j + n.toNat < 2 * count o then elem y.toNat (width o) (j + n.toNat - count o) else 0, 0)) ∧
  (∀ (o : A3) (s : State) (x : VReg) (n : W64) (a b : Arch), Runs (.vbcst o) s → ReadsV1 s (width o) o.s1 x a →
    s.part.srcX o.s2.toNat a = .ok (n, b) →
    Delivers (.vbcst o) s o (width o) 3 b fun _ => (elem x.toNat (width o) (n.toNat % count o), 0)) ∧
  (∀ (o : A3) (s : State) (x : VReg) (n : W64) (a b : Arch), Runs (.vextr o) s → ReadsV1 s (width o) o.s1 x a →
    s.part.srcX o.s2.toNat a = .ok (n, b) →
    DeliversLanes (.vextr o) s o.d 8192 3 b (maskBit (b.maskOf o.m)) (fun _ => zeroing o.m o.d.toNat) fun _ =>
      (ofInt 64 (val o (elem x.toNat (width o) (n.toNat % count o))), 0)) ∧
  (∀ (o : A3) (s : State) (v n : W64) (a b : Arch), Runs (.vins o) s → s.part.srcX o.s1.toNat (arch s) = .ok (v, a) →
    s.part.srcX o.s2.toNat a = .ok (n, b) →
    DeliversLanes (.vins o) s o.d (width o) 3 b
      (fun j => j == n.toNat % count o && maskBit (b.maskOf o.m) j)
      (fun j => j == n.toNat % count o && fld o.m 7 1 == 1) fun _ => (v.toNat, 0)) ∧
  (∀ (o : A3) (s : State) (x : VReg) (a : Arch), Runs (.vmov o) s → ReadsV1 s (width o) o.s1 x a →
    Delivers (.vmov o) s o (width o) 2 a fun j => (elem x.toNat (width o) j, 0)) ∧
  (∀ (o : WI) (s : State) (r : VReg) (b : Arch), Runs (.vmovi o) s →
    (∀ j, j < 8192 / etWidth (fld o.imm 34 4) → elem r.toNat (etWidth (fld o.imm 34 4)) j =
      fld o.imm 0 32 % 2 ^ etWidth (fld o.imm 34 4)) →
    s.part.dstV o.d.toNat r 2 0 (arch s) = .ok b → exec (.vmovi o) s = .next (s.withArch b))

/-! ### Control -/

/-- R53, R65, R66, R123, R124, R452: BRI, BR, CALL and RET send both streams to their target, ending any loop, and CALL and BR write the
address of the next bundle in sequence to their link register; behind an instruction of the other slot that is still undecided the
branch is put off; behind a branch taken already it is suppressed, with the link unwritten, and STATUS.BCOL is set.
The model's choices: log entry 53. -/
def Obligations.TakenBranches : Prop :=
  ∀ (i : Instr) (s : State) (target : W64) (link : Option (BitVec 7)) (a b : Arch), CoresWf s → Runs i s →
    Branch i s target link a →
    (s.part.redirected = true → ∃ t, exec i s = .next t ∧
      OnlyCore s t { s.mine with arch := a.fly .execute .bcol 1 0 }) ∧
    (s.part.redirected = false →
      Linked s link a b →
      (s.part.undecided = false → ∃ t, exec i s = .next t ∧ t.part = { s.part with claimed := true, redirected := true } ∧
        OnlyCore s t { s.mine with arch :=
          { b with pc := target, skip := 0, till := none, loop := none, turn := none, loopOn := false, rb := s.part.rb, ahead := [] } }) ∧
      (s.part.undecided = true → ∃ t, exec i s = .next t ∧
        OnlyCore s t { s.mine with arch := a, deferred := some ⟨target, 0, none, none, false, false, s.part.rb,
          link.map fun n => (n.toNat, s.part.next)⟩ }))

/-- R19, R62, R125, R126, R454: TRAP and BRK leave their trap due behind the other slots of their bundle, the lower slot's alone; with no
handler running, once both streams stand at the bundle that would issue next, with nothing to be skipped before it, the trap saves that
bundle's address in EPC, its cause in ECAUSE and its code in EADDR, sets STATUS.EXC, holds the pipeline and the sequencer, and goes on at
EVEC.
R58, R62, R126, R128, R226, R290: ERET waits until both streams have drained; then it clears STATUS.EXC, asks for the close of the
segment, and branches to EPC: the held results go on their way again ahead of those in flight, and the interrupted loop, with its
RB, goes on; with no handler running it is a branch that leaves any loop.
The model's choices: log entries 14 and 65. -/
def Obligations.TrapsTaken : Prop :=
  (∀ (i : Instr) (o : A3) (cause : Nat) (s : State), (i = .trap o ∧ cause = 8 ∨ i = .brk o ∧ cause = 9) → CoresWf s → Runs i s →
    (s.part.trapped = true → exec i s = .next s) ∧
    (s.part.trapped = false → ∃ t, exec i s = .next t ∧ t.part = { s.part with trapped := true } ∧ OnlyCore s t
      { s.mine with arch := { arch s with trap := some ⟨cause, BitVec.ofNat 64 (o.m.toNat % 2 ^ 16), 0, true⟩ } })) ∧
  (∀ (s : State) (c cause : Nat) (code : W64), CoresWf s → s.mayTrap c = true → (s.core c).arch.trap = some ⟨cause, code, 0, true⟩ →
    (s.core c).arch.accs = [] → (s.core c).arch.exc = false → (s.core c).arch.turn = none →
    let k := s.core c
    exec (.trapEntry c) s = .next (s.setCore c
      { k with
        mustClose := true, closedFor := false, rvPassed := false
        arch := { k.arch with
          epc := k.arch.pc, ecause := cause, eaddr := code, exc := true
          held := some ⟨k.arch.rb, k.arch.inflX, k.arch.inflA, k.arch.cycX, k.arch.cycA, k.arch.waitX, k.arch.waitA,
            k.arch.loop, k.arch.loopOn⟩
          inflX := [], inflA := [], waitX := 0, waitA := 0, loop := none, loopOn := false
          pc := k.arch.evec, skip := 0, till := none, ahead := [], trap := none } })) ∧
  (∀ (o : A3) (s : State), CoresWf s → Runs (.eret o) s →
    (¬ (s.part.before.arch.inflX = [] ∧ s.part.before.arch.inflA = [] ∧ s.part.before.arch.accs = []) →
      exec (.eret o) s = .next s.withdraw) ∧
    (s.part.before.arch.inflX = [] → s.part.before.arch.inflA = [] → s.part.before.arch.accs = [] →
      s.part.redirected = false → s.part.undecided = false →
      (∀ h : Held, s.mine.arch.exc = true → s.mine.arch.held = some h → ∃ t, exec (.eret o) s = .next t ∧ OnlyCore s t
        { s.mine with
          mustClose := true, closedFor := false, rvPassed := false
          arch := { s.mine.arch with
            exc := false, held := none, inflX := h.inflX ++ s.mine.arch.inflX, inflA := h.inflA ++ s.mine.arch.inflA
            cycX := h.cycX, cycA := h.cycA, waitX := h.waitX, waitA := h.waitA
            loop := h.loop, turn := none, loopOn := h.loopOn, rb := h.rb
            pc := s.mine.arch.epc, skip := 0, till := none, ahead := [] } }) ∧
      (s.mine.arch.exc = false → ∃ t, exec (.eret o) s = .next t ∧ OnlyCore s t
        { s.mine with
          mustClose := true, closedFor := false, rvPassed := false
          arch := { s.mine.arch with
            loop := none, turn := none, loopOn := false, rb := s.part.rb
            pc := s.mine.arch.epc, skip := 0, till := none, ahead := [] } })))

/-- R16 to R25, R129, R130, R351: SYSR delivers the value of its register at issue with latency 2: STATUS, EPC to FFLAGS, CORECOORD, SEED, FRC, GTC, RANK,
SBCHK, PAIRMODE, FIELDMASK, QUIET, 0 only while a debugger has halted the core with a transfer in flight, and the bank formats; SYSW writes
its register at the end of the stream cycle, the read-only ones keeping what they hold; a reserved bank format code traps before
issue (R24, R453).
The model's choices: log entry 63. -/
def Obligations.SystemRegisterAccess : Prop :=
  (∀ (o : AI) (s : State) (b : Arch), Runs (.sysr o) s →
    s.part.dstS o.d.toNat (s.readSys o.imm.toNat) 2 0 (arch s) = .ok b → exec (.sysr o) s = .next (s.withArch b)) ∧
  (∀ (s : State),
    s.readSys 0 = BitVec.ofNat 64
      (s.part.rb % 16 * 512 + s.part.loopOn.toNat * 256 + (arch s).bcol.toNat * 128 + s.part.before.arch.exc.toNat * 64) ∧
    s.readSys 1 = (arch s).epc ∧ s.readSys 2 = BitVec.ofNat 64 ((arch s).ecause % 256) ∧ s.readSys 3 = (arch s).eaddr ∧
    s.readSys 4 = (arch s).evec ∧ s.readSys 5 = BitVec.ofNat 64 (arch s).fflags.toNat ∧ s.readSys 9 = BitVec.ofNat 64 s.gtc ∧
    s.readSys 0xB = BitVec.ofNat 64 (arch s).sbchk.toNat ∧
    (let c := s.part.core
     s.readSys 6 = BitVec.ofNat 64 (c * 2 ^ 16 + s.mine.stage % 16 * 2 ^ 12 + c / 72 * 2 ^ 8 + c / 8 % 9 * 2 ^ 4 + c % 8)) ∧
    (∀ l x, s.launchOf s.part.core = some l → s.context? l.asid = some x → s.readSys 0xA = BitVec.ofNat 64 (x.rank % 8)) ∧
    s.readSys 0xD = BitVec.ofNat 64 (s.maskOf (s.part.core / 8)).toNat ∧
    ((∀ l, s.launchOf s.part.core = some l → l.debugHalted = false) → s.readSys 0xE = 1) ∧
    (∀ l, s.launchOf s.part.core = some l → l.debugHalted = true → s.halted s.part.core = true →
      s.readSys 0xE = BitVec.ofNat 64 s.mine.landed.toNat) ∧
    (∀ n, n < 16 → s.readSys (0x10 + n) = BitVec.ofNat 64 (Sparse.get 0 (arch s).bfmt n % 16)) ∧
    (∀ l, s.launchOf s.part.core = some l → s.readSys 7 = l.seed ∧
      s.readSys 8 = BitVec.ofNat 64 (l.frame % 2 ^ 32 * 2 ^ 32 + l.tick % 2 ^ 32) ∧ s.readSys 0xC = BitVec.ofNat 64 l.doubles.toNat)) ∧
  (∀ (o : AI) (s : State) (x : W64) (a : Arch), CoresWf s → Runs (.sysw o) s → Reads1 s o.s1 x a →
    (0x10 ≤ o.imm.toNat ∧ 0xD ≤ x.toNat % 16 → exec (.sysw o) s = .next ((s.withArch a).cancelPart 2 x)) ∧
    (¬ (0x10 ≤ o.imm.toNat ∧ 0xD ≤ x.toNat % 16) →
      ∃ t, exec (.sysw o) s = .next t ∧ OnlyCore s t
        { s.mine with arch := a.flySys s.part.before.arch.inflX.length (.sys o.imm.toNat x) })) ∧
  (∀ (a : Arch) (v : W64),
    (a.land (.sys 0 v)).bcol = (a.bcol && !v.getLsbD 7) ∧ (a.land (.sys 1 v)).epc = v ∧
    (a.land (.sys 2 v)).ecause = v.toNat % 256 ∧ (a.land (.sys 3 v)).eaddr = v ∧
    (a.land (.sys 4 v)).evec = v &&& ~~~1 ∧ (a.land (.sys 5 v)).fflags = v.setWidth 5 ∧
    (a.land (.sys 0xB v)).sbchk = v.getLsbD 0 ∧
    (Sparse.wf 0 a.bfmt = true → ∀ n, n < 16 → ∀ m, Sparse.get 0 (a.land (.sys (0x10 + n) v)).bfmt m =
      if m = n then v.toNat % 16 else Sparse.get 0 a.bfmt m) ∧
    (∀ n, n ∈ [6, 7, 8, 9, 0xA, 0xC, 0xD, 0xE] → a.land (.sys n v) = a))

/-- R76, R223 to R225: LOOPM sets RB to 0 and starts its loop at the next bundle with the stage predicates of pass 0, or with a trip count of 0
skips the body; LBRK with NOW passes over the rest of the pass and ends the loop, without NOW it lowers the limit to the pass that it
stands in; where a pass has ended RB comes down by one modulo 16, and the next pass brings its stage predicates, or the loop has ended;
HINT has no effect. -/
def Obligations.LoopControl : Prop :=
  (∀ (o : A3) (s : State) (t : W64) (a : Arch), CoresWf s → Runs (.loopm o) s → Reads1 s o.s1 t a →
    s.part.redirected = false → s.part.undecided = false →
    ∃ u, exec (.loopm o) s = .next u ∧ OnlyCore s u
      { s.mine with arch :=
        { a with
          pc := s.part.next, till := none, rb := 0, ahead := [], turn := none
          skip := if t = 0 then fld o.m 0 6 + 1 else 0
          loop := if t = 0 then none else some ⟨s.part.next, fld o.m 0 6 + 1, fld o.m 6 2 + 1, t.toNat, 0, 0⟩
          loopOn := t != 0
          p := if t = 0 then a.p else Loop.stagePreds ⟨s.part.next, fld o.m 0 6 + 1, fld o.m 6 2 + 1, t.toNat, 0, 0⟩ a.p } }) ∧
  (∀ (o : A3) (s : State) (l : Loop), CoresWf s → Runs (.lbrk o) s → s.part.loop = some l → fld o.m 0 1 = 1 →
    s.part.redirected = false → s.part.undecided = false →
    ∃ u, exec (.lbrk o) s = .next u ∧ OnlyCore s u
      { s.mine with arch :=
        { arch s with
          pc := s.part.next, skip := l.ii - 1 - l.pos, till := none, loop := none, turn := none, loopOn := false, rb := s.part.rb, ahead := [] } }) ∧
  (∀ (o : A3) (s : State) (l m : Loop), CoresWf s → Runs (.lbrk o) s → s.part.loop = some l → fld o.m 0 1 = 0 →
    (arch s).loop = some m →
    ∃ u, exec (.lbrk o) s = .next u ∧ ∃ b, OnlyCore s u { s.mine with arch := b } ∧
      (m.pos ≠ 0 ∨ m.pass < min m.limit (l.pass + 1) + m.stages - 1 →
        b = { arch s with
          loop := some { m with limit := min m.limit (l.pass + 1) }
          turn := (arch s).turn.map fun n => { n with limit := min n.limit (l.pass + 1) } }) ∧
      (m.pos = 0 ∧ min m.limit (l.pass + 1) + m.stages - 1 ≤ m.pass →
        b = { arch s with
          loop := none, pc := s.part.next
          turn := (arch s).turn.map fun n => { n with limit := min n.limit (l.pass + 1) } })) ∧
  (∀ (a : Arch) (n : Loop), a.turn = some n →
    a.turned.rb = (a.rb + 15) % 16 ∧
    (∀ j, j < 4 → n.pass + 1 < n.limit + n.stages - 1 →
      predBit a.turned.p (12 + j) = (decide (j < n.stages) && decide (j ≤ n.pass + 1) && decide (n.pass + 1 - j < n.limit))) ∧
    (n.limit + n.stages - 1 ≤ n.pass + 1 → a.turned.loopOn = false ∧ a.turned.p = a.p)) ∧
  (∀ (n : BitVec 6) (o : WI) (s : State), Runs (.hint n o) s → exec (.hint n o) s = .next s)

/-- R163 to R165: in a launch that neither records nor replays, SWR appends the active elements of S1, ascending, as one run, and waits
while the run does not fit; SRD removes the oldest 256 records, or with DRAIN as many as there are, and delivers them in order with 0
behind them; SCNT delivers the number of records. -/
def Obligations.ConditionalStreams : Prop :=
  (∀ (o : A3) (s : State) (x : VReg) (a : Arch) (l : Launch) (run : List W32), CoresWf s → Runs (.swr o) s →
    ReadsV1 s 32 o.s1 x a → s.recorded? = none → s.launchOf s.part.core = some l → l.record = false → l.replay = false →
    run = ((List.range 256).filter fun j => maskBit ((arch s).maskOf o.m) j).map (fun j => BitVec.ofNat 32 (elem x.toNat 32 j)) →
    (4096 < (l.stream (streamKey s.part.core o.m)).length + run.length → run ≠ [] → exec (.swr o) s = .next s.withdraw) ∧
    ((l.stream (streamKey s.part.core o.m)).length + run.length ≤ 4096 → run ≠ [] → ∃ t, exec (.swr o) s = .next t ∧
      t.launches = s.launches.map (fun m => if m.id = l.id then
        { m with streams := Sparse.set [] m.streams (streamKey s.part.core o.m) (l.stream (streamKey s.part.core o.m) ++ run) }
        else m) ∧
      (t.core s.part.core).arch = a) ∧
    (run = [] → exec (.swr o) s = .next (s.withArch a))) ∧
  (∀ (o : A3) (s : State) (l : Launch) (old : List W32) (n : Nat) (r : VReg) (b : Arch), CoresWf s → Runs (.srd o) s →
    s.recorded? = none → s.launchOf s.part.core = some l → l.record = false → l.replay = false →
    old = l.stream (streamKey s.part.core o.m) → n = min old.length 256 →
    (∀ j, j < 256 → elem r.toNat 32 j = if j < n then ((old[j]?).getD 0).toNat else 0) →
    (fld o.m 12 1 = 0 ∧ old.length < 256 → exec (.srd o) s = .next s.withdraw) ∧
    (¬ (fld o.m 12 1 = 0 ∧ old.length < 256) → s.part.dstV o.d.toNat r 3 0 (arch s) = .ok b →
      ∃ t, exec (.srd o) s = .next t ∧ (t.core s.part.core).arch = b ∧
        t.launches = s.launches.map fun m => if m.id = l.id then
          { m with streams := Sparse.set [] m.streams (streamKey s.part.core o.m) (old.drop n) } else m)) ∧
  (∀ (o : A3) (s : State) (l : Launch) (b : Arch), Runs (.scnt o) s → s.launchOf s.part.core = some l →
    s.part.dstV o.d.toNat (BitVec.ofNat 8192 (l.stream (streamKey s.part.core o.m)).length) 2 0 (arch s) = .ok b →
    exec (.scnt o) s = .next (s.withArch b))

/-! ### Memory slots -/

/-- R109, R114, R187, R190, R191, R217: the address instructions compute modulo 2^64 and send their result to an access register, a
queue or, for ACMP, an access-side predicate; XLATQ delivers what the table holds for its address, 0 where no entry covers it. -/
def Obligations.AddressResults : Prop :=
  (∀ (i : Instr) (o : A3) (lat : Nat) (f : W64 → W64 → Int), addrOp i = some (o, lat, f) →
    ∀ (s : State) (x y : W64) (k k' : Core) (d : Dest), Runs i s → ReadsA2 s o.s1 o.s2 x y k → k.dest o.d.toNat = .ok (d, k') →
      exec i s = .next (s.putMine (sentTo k' d (BitVec.ofInt 64 (f x y)) lat))) ∧
  (∀ (o : A3) (s : State) (x y : W64) (k k' : Core) (d : Dest) (n : Nat), Runs (.ashl o) s →
    (if fld o.m 6 1 = 1 then ReadsA1 s o.s1 x k ∧ n = fld o.m 0 6 else ReadsA2 s o.s1 o.s2 x y k ∧ n = y.toNat % 64) →
    k.dest o.d.toNat = .ok (d, k') →
    exec (.ashl o) s = .next (s.putMine (sentTo k' d (BitVec.ofNat 64 (x.toNat * 2 ^ n)) 1))) ∧
  (∀ (o : A3) (s : State) (x y : W64) (k : Core) (v : Bool), Runs (.acmp o) s → ReadsA2 s o.s1 o.s2 x y k →
    (v = true ↔ Cond (fld o.m 0 4) x y) →
    exec (.acmp o) s = .next (s.putMine { k with arch := k.arch.fly .access (.p (o.d.toNat - 32) v) 1 0 })) ∧
  (∀ (o : AI) (s : State) (x : W64) (k k' : Core) (d : Dest), Runs (.aaddi o) s → ReadsA1 s o.s1 x k →
    k.dest o.d.toNat = .ok (d, k') →
    exec (.aaddi o) s = .next (s.putMine (sentTo k' d (BitVec.ofInt 64 (x.toNat + o.imm.toInt)) 1))) ∧
  (∀ (o : WI) (s : State) (k' : Core) (d : Dest), Runs (.amovi o) s → s.mine.dest o.d.toNat = .ok (d, k') →
    exec (.amovi o) s = .next (s.putMine (sentTo k' d (BitVec.ofNat 64 o.imm.toNat) 1))) ∧
  (∀ (o : A3) (s : State) (x : W64) (k k' : Core) (d : Dest), Runs (.xlatq o) s → ReadsA1 s o.s1 x k →
    k.dest o.d.toNat = .ok (d, k') →
    (findEntry k'.table x.toNat = none → exec (.xlatq o) s = .next (s.putMine (sentTo k' d 0 3))) ∧
    (∀ n e, findEntry k'.table x.toNat = some (n, e) → n < 512 → e.key < 16 →
      exec (.xlatq o) s = .next (s.putMine (sentTo k' d (BitVec.ofNat 64 (2 ^ 63 + (e.has (e.subOf x.toNat)).toNat * 2 ^ 62 + n * 2 ^ 53 +
        e.stateOf (e.subOf x.toNat) * 2 ^ 51 + e.attr.toNat * 2 ^ 45 + e.key * 2 ^ 41)) 3))))

/-- R192 to R195, R199 to R202, R252: LD and LDACQ of the scratchpad trap if they are misaligned or end beyond it, FETST of an offset beyond it, and
VLD, VLDS and VLDX at the first breach of their checks; else the access is pending, with its access point at the end of the third stream
cycle, and LDACQ bars later accesses until it has returned.
The model's choice: log entry 90. -/
def Obligations.ScratchpadLoadsPend : Prop :=
  (∀ (i : Instr) (o : A3) (acq : Bool) (s : State) (b x : W64) (k k' : Core) (d : Dest),
    (i = .ld o ∧ acq = false ∨ i = .ldacq o ∧ acq = true) → Runs i s → ReadsA2 s o.s1 o.s2 b x k → fld o.m 16 1 = 0 →
    (¬ ((scalarAddr o b x).toNat % scalarSize o = 0 ∧ (scalarAddr o b x).toNat + scalarSize o ≤ 2097152) →
      exec i s = .next (s.cancelPart 6 (scalarAddr o b x))) ∧
    ((scalarAddr o b x).toNat % scalarSize o = 0 ∧ (scalarAddr o b x).toNat + scalarSize o ≤ 2097152 → s.loadsFree = true →
      k.dest o.d.toNat = .ok (d, k') →
      let p := accessPending s k' (.ld (scalarAddr o b x).toNat (fld o.m 12 2) (fld o.m 11 1 == 1) (fld o.m 10 1 == 1) d) false
      exec i s = .next (s.putMine (if acq then
        { p with arch := { p.arch with fences := p.arch.fences ++ [⟨k'.arch.accSeq + 1, true, false, false, false⟩] } } else p)))) ∧
  (∀ (o : A3) (s : State) (x : W64) (k : Core), Runs (.fetst o) s → ReadsA1 s o.s1 x k →
    (2097152 ≤ x.toNat → exec (.fetst o) s = .next (s.cancelPart 6 x)) ∧
    (x.toNat < 2097152 → s.loadsFree = true →
      exec (.fetst o) s = .next (s.putMine (accessPending s k (.fetst (x.toNat / 128) (.p (o.d.toNat - 32))) false)))) ∧
  (∀ (i : Instr) (o : A3) (s : State) (c : Bool) (base : W64) (addrs : List W64) (k k' : Core) (d : Dest),
    (i = .vld o ∨ i = .vlds o ∨ i = .vldx o) → Runs i s → VecAddrs i s o c base addrs k → fld o.m 16 1 = 0 →
    (∀ y, vecBreach k.arch (fld o.m 10 4) (memWidth o k base) base c addrs = some y → exec i s = .next (s.cancelPart 6 y)) ∧
    (vecBreach k.arch (fld o.m 10 4) (memWidth o k base) base c addrs = none → s.loadsFree = true →
      k.destVQ o.d.toNat = .ok (d, k') →
      exec i s = .next (s.putMine (accessPending s k' (.vld (fld o.m 10 4) (addrs.map (·.toNat))
        (addrs.map fun y => Sparse.get 0 k.arch.bfmt (y.toNat / 131072 % 16)) (fld o.m 9 1 == 1) d) false))))

/-- R192 to R196, R200 to R202, R252, R291, R300: the stores and fills of the scratchpad: one that breaks its checks traps, as FESET does for
a line offset or count outside the scratchpad; else it is pending; one that is a release point waits until every access before its
bundle has performed, and is kept, so that a rewind does not make it again.
The model's choices: log entries 24, 55 and 90. -/
def Obligations.ScratchpadStoresPend : Prop :=
  (∀ (i : Instr) (s : State) (k : Core) (kind : AccKind) (released : Bool), Runs i s → s.writesFree = true → s.recorded? = none →
    ((∃ o b x v j, (i = .st o ∧ released = (fld o.m 10 1 == 1) ∨ i = .strel o ∧ released = true) ∧
        ReadsA2 s o.s1 o.s2 b x j ∧ j.srcSd o.s3.toNat = .ok (v, k) ∧ fld o.m 16 1 = 0 ∧
        (scalarAddr o b x).toNat % scalarSize o = 0 ∧ (scalarAddr o b x).toNat + scalarSize o ≤ 2097152 ∧
        kind = .st (scalarAddr o b x).toNat (fld o.m 12 2) v (fld o.m 10 1 == 1)) ∨
     (∃ o c base addrs j x a, (i = .vst o ∨ i = .vsts o ∨ i = .vstx o) ∧ released = (fld o.m 9 1 == 1 && c) ∧
        VecAddrs i s o c base addrs j ∧ j.arch.vpop (vqOf o.s3.toNat) = .ok (x, a) ∧ k = { j with arch := a } ∧ fld o.m 16 1 = 0 ∧
        vecBreach k.arch (fld o.m 10 4) (memWidth o k base) base c addrs = none ∧
        kind = .vst (fld o.m 10 4) (addrs.map (·.toNat))
          (addrs.map fun y => Sparse.get 0 k.arch.bfmt (y.toNat / 131072 % 16)) x (fld o.m 9 1 == 1)) ∨
     (∃ o x n, i = .feset o ∧ released = (fld o.m 0 1 == 1) ∧ ReadsA2 s o.s1 o.s2 x n k ∧ x.toNat % 128 = 0 ∧ 1 ≤ n.toNat ∧
        n.toNat ≤ 16384 ∧ x.toNat + 128 * n.toNat ≤ 2097152 ∧ kind = .feset (x.toNat / 128) n.toNat (fld o.m 0 1 == 1))) →
    let performed := s.part.before.offs = [] ∧ s.part.before.out = [] ∧ ∀ w ∈ s.part.before.side, w.own = false
    (released = false → exec i s = .next (s.putMine (accessPending s k kind false))) ∧
    (released = true → performed → exec i s = .next (s.putMine (kept s (accessPending s k kind true) none))) ∧
    (released = true → ¬ performed → exec i s = .next s.withdraw)) ∧
  (∀ (i : Instr) (o : A3) (s : State) (b x v : W64) (j k : Core), (i = .st o ∨ i = .strel o) → Runs i s → ReadsA2 s o.s1 o.s2 b x j →
    j.srcSd o.s3.toNat = .ok (v, k) → fld o.m 16 1 = 0 →
    ¬ ((scalarAddr o b x).toNat % scalarSize o = 0 ∧ (scalarAddr o b x).toNat + scalarSize o ≤ 2097152) →
    exec i s = .next (s.cancelPart 6 (scalarAddr o b x))) ∧
  (∀ (i : Instr) (o : A3) (s : State) (c : Bool) (base y : W64) (addrs : List W64) (j : Core) (x : VReg) (a : Arch),
    (i = .vst o ∨ i = .vsts o ∨ i = .vstx o) → Runs i s → VecAddrs i s o c base addrs j →
    j.arch.vpop (vqOf o.s3.toNat) = .ok (x, a) → fld o.m 16 1 = 0 →
    vecBreach a (fld o.m 10 4) (memWidth o { j with arch := a } base) base c addrs = some y → exec i s = .next (s.cancelPart 6 y)) ∧
  (∀ (o : A3) (s : State) (x n : W64) (k : Core), Runs (.feset o) s → ReadsA2 s o.s1 o.s2 x n k →
    ¬ (x.toNat % 128 = 0 ∧ 1 ≤ n.toNat ∧ n.toNat ≤ 16384 ∧ x.toNat + 128 * n.toNat ≤ 2097152) →
    exec (.feset o) s = .next (s.cancelPart 6 x))

/-- R188, R192, R194, R197 to R201, R361, R362: the off-core loads are sent, in program order, once no fence or LDACQ bars them, to subpages
present or absent; the off-core stores go into the commit buffer, those with release ordering out at once; a scalar access that is
misaligned traps, as does a contiguous vector access off its 128 bytes or one with an element off its width. Writes of the bundle's
other slot that must come first leave with the access, which waits for room in the side log; with none of those nothing else does.
The model's choices: log entry 68. -/
def Obligations.OffCoreAccesses : Prop :=
  (∀ (i : Instr) (o : A3) (acq : Bool) (s : State) (b x : W64) (k k' : Core) (d : Dest),
    (i = .ld o ∧ acq = false ∨ i = .ldacq o ∧ acq = true) → Runs i s → ReadsA2 s o.s1 o.s2 b x k → fld o.m 16 1 = 1 →
    ((scalarAddr o b x).toNat % scalarSize o ≠ 0 → exec i s = .next (s.cancelPart 6 (scalarAddr o b x))) ∧
    ((scalarAddr o b x).toNat % scalarSize o = 0 → lookup k.table .read (scalarAddr o b x).toNat ≠ .stray →
      s.loadsFree = true → k.dest o.d.toNat = .ok (d, k') →
      let f := s.flushBundle k' (fld o.m 14 2) [((scalarAddr o b x).toNat, scalarSize o)] true
      (f.side.length ≤ 256 → exec i s = .next (s.putMine (requestSent s f
        (.ld (scalarAddr o b x).toNat (fld o.m 12 2) (fld o.m 11 1 == 1)) (fld o.m 14 2) acq false d none))) ∧
      (256 < f.side.length → exec i s = .next s.withdraw))) ∧
  (∀ (i : Instr) (o : A3) (s : State) (c : Bool) (base : W64) (addrs : List W64) (k k' : Core) (d : Dest),
    (i = .vld o ∨ i = .vlds o ∨ i = .vldx o) → Runs i s → VecAddrs i s o c base addrs k → fld o.m 16 1 = 1 →
    (c = true → base.toNat % 128 = 0) → (∀ y ∈ addrs, y.toNat % memWidth o k base = 0) →
    (∀ y ∈ addrs, lookup k.table .read y.toNat ≠ .stray) → s.loadsFree = true → k.destVQ o.d.toNat = .ok (d, k') →
    let f := s.flushBundle k' (fld o.m 14 2) (addrs.map fun y => (y.toNat, memWidth o k base)) true
    (f.side.length ≤ 256 → exec i s = .next (s.putMine (requestSent s f
      (.vld (fld o.m 10 4) (addrs.map (·.toNat))) (fld o.m 14 2) false false d none))) ∧
    (256 < f.side.length → exec i s = .next s.withdraw)) ∧
  (∀ (i : Instr) (o : A3) (s : State) (c : Bool) (base : W64) (addrs : List W64) (k : Core),
    (i = .vld o ∨ i = .vlds o ∨ i = .vldx o ∨
      (i = .vst o ∨ i = .vsts o ∨ i = .vstx o) ∧ ∃ x a, k.arch.vpop (vqOf o.s3.toNat) = .ok (x, a)) →
    Runs i s → VecAddrs i s o c base addrs k → fld o.m 16 1 = 1 →
    (c = true → base.toNat % 128 ≠ 0 → exec i s = .next (s.cancelPart 6 base)) ∧
    (∀ y, (c = true → base.toNat % 128 = 0) → (addrs.find? fun x => decide (x.toNat % memWidth o k base ≠ 0)) = some y →
      exec i s = .next (s.cancelPart 6 y))) ∧
  (∀ (i : Instr) (o : A3) (s : State) (b x v : W64) (j k : Core), (i = .st o ∨ i = .strel o) → Runs i s → ReadsA2 s o.s1 o.s2 b x j →
    j.srcSd o.s3.toNat = .ok (v, k) → fld o.m 16 1 = 1 → (scalarAddr o b x).toNat % scalarSize o ≠ 0 →
    exec i s = .next (s.cancelPart 6 (scalarAddr o b x))) ∧
  (∀ (i : Instr) (o : A3) (rel : Bool) (s t : State) (b x v : W64) (j k : Core),
    (i = .st o ∧ rel = false ∨ i = .strel o ∧ rel = true) → Runs i s → ReadsA2 s o.s1 o.s2 b x j →
    j.srcSd o.s3.toNat = .ok (v, k) → fld o.m 16 1 = 1 → (scalarAddr o b x).toNat % scalarSize o = 0 →
    lookup k.table .write (scalarAddr o b x).toNat ≠ .stray → s.writesFree = true → s.recorded? = none →
    s.checkStepped [((scalarAddr o b x).toNat, scalarSize o)] = .ok t →
    let w := WriteKind.store [((scalarAddr o b x).toNat, leBytes v.toNat (scalarSize o))]
    (rel = false → exec i s = .next (t.putMine (writeHeld s k w (fld o.m 14 2)))) ∧
    (rel = true → (writeSent s k w (fld o.m 14 2)).side.length ≤ 256 →
      exec i s = .next (t.putMine (writeSent s k w (fld o.m 14 2)))) ∧
    (rel = true → 256 < (writeSent s k w (fld o.m 14 2)).side.length → exec i s = .next s.withdraw)) ∧
  (∀ (i : Instr) (o : A3) (s t : State) (c : Bool) (base : W64) (addrs : List W64) (j k : Core) (x : VReg) (a : Arch),
    (i = .vst o ∨ i = .vsts o ∨ i = .vstx o) → Runs i s → VecAddrs i s o c base addrs j →
    j.arch.vpop (vqOf o.s3.toNat) = .ok (x, a) → k = { j with arch := a } → fld o.m 16 1 = 1 →
    (c = true → base.toNat % 128 = 0) → (∀ y ∈ addrs, y.toNat % memWidth o k base = 0) →
    (∀ y ∈ addrs, lookup k.table .write y.toNat ≠ .stray) → s.writesFree = true → s.recorded? = none →
    s.checkStepped (addrs.map fun y => (y.toNat, memWidth o k base)) = .ok t →
    exec i s = .next (t.putMine (writeHeld s k (.store ((List.range addrs.length).map fun n =>
      (((addrs[n]?).getD 0).toNat, leBytes (elem x.toNat (8 * memWidth o k base) n) (memWidth o k base)))) (fld o.m 14 2)))) ∧
  (∀ (s : State) (k : Core) (ch : Nat) (ranges : List (Nat × Nat)) (load : Bool),
    (∀ w ∈ k.seg.commit, w.seq < s.part.before.arch.accSeq) → s.flushBundle k ch ranges load = k)

/-- R188, R203 to R206, R291, R294, R361, R363: AMO and CAS are sent as requests whose answer goes to D, after a rewind with the answer they
had before; RED and VRED go into the commit buffer, a RED with release ordering out at once, if the side log has room; a pair's leave the core
once the signatures of their cycle have compared equal (R428).
The model's choices: log entries 48, 68 and 78. -/
def Obligations.AtomicsIssue : Prop :=
  (∀ (o : A3) (s t : State) (x v c : W64) (j k k' : Core) (d : Dest) (i : Instr) (n : Nat) (kind : OffKind),
    (i = .amo o ∧ ReadsA2 s o.s1 o.s2 x v k ∧ n = (if fld o.m 13 4 = 11 ∨ fld o.m 13 4 = 12 then 64 else 2 ^ fld o.m 11 2) ∧
        kind = .amo (fld o.m 13 4) (fld o.m 11 2) x.toNat v ∨
     i = .cas o ∧ ReadsA2 s o.s1 o.s2 x c j ∧ j.srcA o.s3.toNat = .ok (v, k) ∧ n = 2 ^ fld o.m 11 2 ∧
        kind = .cas (fld o.m 11 2) x.toNat c v) → Runs i s →
    (x.toNat % n ≠ 0 → exec i s = .next (s.cancelPart 6 x)) ∧
    (x.toNat % n = 0 → lookup k.table .both x.toNat ≠ .stray → s.writesFree = true →
      s.checkStepped [(x.toNat, n)] = .ok t → k.dest o.d.toNat = .ok (d, k') →
      let f := s.flushBundle k' (fld o.m 9 2) [(x.toNat, n)] false
      (f.side.length ≤ 256 → exec i s = .next (t.putMine ((requestSent s f kind (fld o.m 9 2)
        (fld o.m 4 1 == 1) (fld o.m 5 1 == 1) d s.recorded?).gate s.part.bundle s.part.slot f.arch.accSeq))) ∧
      (256 < f.side.length → exec i s = .next s.withdraw))) ∧
  (∀ (o : A3) (s t : State) (x v : W64) (k : Core) (n : Nat), Runs (.red o) s → ReadsA2 s o.s1 o.s2 x v k →
    n = (if fld o.m 13 4 = 11 ∨ fld o.m 13 4 = 12 then 64 else 2 ^ fld o.m 11 2) →
    (x.toNat % n ≠ 0 → exec (.red o) s = .next (s.cancelPart 6 x)) ∧
    (x.toNat % n = 0 → lookup k.table .write x.toNat ≠ .stray → s.writesFree = true → s.recorded? = none →
      s.checkStepped [(x.toNat, n)] = .ok t →
      let w := WriteKind.red (fld o.m 13 4) (fld o.m 11 2) x.toNat v
      (fld o.m 5 1 = 0 → exec (.red o) s = .next (t.putMine (writeHeld s k w (fld o.m 9 2)))) ∧
      (fld o.m 5 1 = 1 → (writeSent s k w (fld o.m 9 2)).side.length ≤ 256 →
        exec (.red o) s = .next (t.putMine (writeSent s k w (fld o.m 9 2)))) ∧
      (fld o.m 5 1 = 1 → 256 < (writeSent s k w (fld o.m 9 2)).side.length → exec (.red o) s = .next s.withdraw))) ∧
  (∀ (o : A3) (s t : State) (x : W64) (y : VReg) (j k : Core) (a : Arch), Runs (.vred o) s → ReadsA1 s o.s1 x j →
    j.arch.vpop (vqOf o.s2.toNat) = .ok (y, a) → k = { j with arch := a } →
    let lines := (List.range 8).map fun n => (x + BitVec.ofNat 64 (128 * n)).toNat
    (x.toNat % 128 ≠ 0 → exec (.vred o) s = .next (s.cancelPart 6 x)) ∧
    (x.toNat % 128 = 0 → (∀ y ∈ lines, lookup j.table .write y ≠ .stray) →
      s.writesFree = true → s.recorded? = none → s.checkStepped (lines.map fun y => (y, 128)) = .ok t →
      exec (.vred o) s = .next (t.putMine
        (writeHeld s k (.vred (fld o.m 13 4) (fld o.m 9 4) x.toNat (leBytes y.toNat 1024)) (fld o.m 7 2)))))

/-- R207, R208: FENCE sets a fence at its place in program order, with what its kind waits for; QFENCE joins the queues it names, and
with W waits until their operations have performed. -/
def Obligations.FencesIssue : Prop :=
  (∀ (o : A3) (s : State), Runs (.fence o) s →
    exec (.fence o) s = .next (s.putMine { s.mine with arch := { s.mine.arch with
      accSeq := s.mine.arch.accSeq + 1
      fences := s.mine.arch.fences ++ [match fld o.m 3 2 with
        | 0 => ⟨s.mine.arch.accSeq, true, false, false, false⟩
        | 1 => ⟨s.mine.arch.accSeq, false, true, false, false⟩
        | 2 => ⟨s.mine.arch.accSeq, true, true, true, false⟩
        | _ => ⟨s.mine.arch.accSeq, true, true, true, true⟩] } })) ∧
  (∀ (o : A3) (s : State), Runs (.qfence o) s →
    (fld o.m 7 1 = 1 ∧ (∃ q, q < 7 ∧ o.m.getLsbD q = true ∧ Sparse.get [] s.part.before.ops q ≠ []) →
      exec (.qfence o) s = .next s.withdraw) ∧
    (¬ (fld o.m 7 1 = 1 ∧ ∃ q, q < 7 ∧ o.m.getLsbD q = true ∧ Sparse.get [] s.part.before.ops q ≠ []) →
      ∃ k, exec (.qfence o) s = .next (s.putMine k) ∧ { k with qfence := s.mine.qfence } = s.mine ∧
        ∀ q r n, (q, r, n) ∈ k.qfence ↔
          if q < 7 ∧ r < 7 ∧ o.m.getLsbD q = true ∧ o.m.getLsbD r = true then n = Sparse.get 0 s.mine.opCount r
          else (q, r, n) ∈ s.mine.qfence))

/-! ### Engine commands, strands, messages -/

/-- R170, R172, R208, R211, R218, R220, R236, R264, R294: an engine command captures its operands and appends one unstarted operation to
its queue, numbered one up, after every operation of the queues joined to it, and delivers the tag with latency 1; with the queue full
it waits; after a rewind the recorded tag alone is delivered.
The model's choices: log entry 55. -/
def Obligations.EngineCommandsAppend : Prop :=
  ∀ (i : Instr) (code : OpCode) (q : Nat) (o : EN) (s : State) (w1 w2 w3 : W64) (recA recB : List W64) (k k' : Core) (d : Dest),
    engineCmd i = some (code, q, o) → Runs i s → Captures i s w1 w2 w3 recA recB k → s.writesFree = true →
    k.dest o.tag.toNat = .ok (d, k') →
    (∀ r, s.recorded? = some r → exec i s = .next (s.putMine (sentTo k' d (r.value.getD 0) 1))) ∧
    (s.recorded? = none → (if q = 6 then 1 else 8) ≤ (Sparse.get [] k'.ops q).length → exec i s = .next s.withdraw) ∧
    (s.recorded? = none → (Sparse.get [] k'.ops q).length < 8 →
      let n := Sparse.get 0 k'.opCount q + 1
      let tag := BitVec.ofNat 64 (2 ^ 40 + q * 2 ^ 37 + n % 2 ^ 32)
      ∃ p : Op, p.code = code ∧ p.queue = q ∧ p.seq = n ∧ p.em = o.em ∧ p.o1 = w1 ∧ p.o2 = w2 ∧ p.o3 = w3 ∧ p.recA = recA ∧
        p.recB = recB ∧ p.state = .unstarted ∧ p.steps = 0 ∧ p.performed = false ∧ p.frame = s.frameNow ∧ p.bundle = s.part.bundle ∧
        p.after = (k'.qfence.filter fun x => x.1 == q).map (fun x => x.2) ∧
        exec i s = .next (s.putMine (kept s (sentTo
          { k' with ops := Sparse.set [] k'.ops q (Sparse.get [] k'.ops q ++ [p]), opCount := Sparse.set 0 k'.opCount q n } d tag 1)
          (some tag))))

/-- R227 to R229, R231: SPAWN refuses a PC that is odd or too high; without a waiting steal request and with PL = 0 it pushes its
record at the bottom of its own deque; the oldest waiting request is answered with the record; D receives the spawn index.
R222, R230, R232, R452: SUSP puts its record at the top of the deque, with FIN none, and the strand at the bottom is taken up;
BEND with records left does the same as a finishing SUSP, and else ends the entry; with an empty deque a finishing SUSP falls through;
behind another redirecting instruction of the bundle each of them is suppressed whole.
The model's choices: log entries 53 and 61. -/
def Obligations.SpawnAndStrandEnds : Prop :=
  (∀ (o : A3) (s : State) (x : W64) (a : Arch), CoresWf s → Runs (.spawn o) s → Reads1 s o.s1 x a →
    (x.toNat % 2 = 1 ∨ 2 ^ 52 ≤ x.toNat → exec (.spawn o) s = .next ((s.withArch a).cancelPart 6 x)) ∧
    (x.toNat % 2 = 0 → x.toNat < 2 ^ 52 → ∀ (l : Launch) (b : Arch), s.recorded? = none → s.launchOf s.part.core = some l →
      l.replay = false → l.record = false →
      let index := BitVec.ofNat 64 (s.mine.ordinal * 2 ^ 32 + s.mine.spawned)
      let r : Record := ⟨BitVec.ofNat 8 (o.m.toNat % 2 ^ 8), x, argWords s o.s2, s.mine.spawned⟩
      s.part.dstS o.d.toNat index 1 0 a = .ok b →
      ((a.q .mb).filterMap (·.thief) = [] → fld o.m 8 1 = 0 →
        s.mine.deque.length < 4096 →
        ∃ t, exec (.spawn o) s = .next t ∧ OnlyCore s t
          (kept s { s.mine with arch := b, deque := s.mine.deque ++ [r], spawned := s.mine.spawned + 1 } (some index))) ∧
      (∀ thief rest, (a.q .mb).filterMap (·.thief) = thief :: rest → thief ≠ s.part.core →
        ∃ t, exec (.spawn o) s = .next t ∧ (t.core thief) = { s.core thief with wait := .answered (some r) } ∧
          (t.core s.part.core).spawned = s.mine.spawned + 1 ∧ (t.core s.part.core).deque = s.mine.deque))) ∧
  (∀ (i : Instr) (o : A3) (s : State), (i = .susp o ∨ i = .bend o ∨ i = .steal o) → Runs i s → s.part.before.arch.inflX = [] →
    s.part.claimed = true → exec i s = .next s.collide) ∧
  (∀ (o : A3) (s : State) (x : W64) (a : Arch) (r : Record) (rest : List Record), CoresWf s → Runs (.susp o) s → Alone s →
    Reads1 s o.s1 x a → s.recorded? = none →
    (fld o.m 8 1 = 1 ∧ s.mine.deque = rest ++ [r] ∨
     fld o.m 8 1 = 0 ∧ x.toNat % 2 = 0 ∧ x.toNat < 2 ^ 52 ∧
       (⟨BitVec.ofNat 8 (o.m.toNat % 2 ^ 8), x, argWords s o.s2, 0⟩ : Record) :: s.mine.deque = rest ++ [r]) →
    ∃ t, exec (.susp o) s = .next t ∧
      OnlyCore s t (keptJump s { s.mine with arch := strandAt s a r.pc r.args, deque := rest } (some (r.pc, r.args)))) ∧
  (∀ (o : A3) (s : State) (x : W64) (a : Arch), CoresWf s → Runs (.susp o) s → Alone s → Reads1 s o.s1 x a → s.recorded? = none →
    fld o.m 8 1 = 1 → s.mine.deque = [] →
    ∃ t, exec (.susp o) s = .next t ∧ OnlyCore s t (kept s { s.mine with arch := a } none)) ∧
  (∀ (o : A3) (s : State) (r : Record) (rest : List Record), CoresWf s → Runs (.bend o) s → Alone s → s.recorded? = none →
    s.mine.deque = rest ++ [r] →
    ∃ t, exec (.bend o) s = .next t ∧ OnlyCore s t (keptJump s
      { s.mine with arch := strandAt s (arch s) r.pc r.args, deque := rest, lastMark := s.mine.lastMark || fld o.m 0 1 == 1 }
      (some (r.pc, r.args)))) ∧
  (∀ (o : A3) (s : State), CoresWf s → Runs (.bend o) s → Alone s → s.recorded? = none → s.mine.deque = [] →
    (∀ t ∈ s.transits, t.target = s.part.core → s.inWindow s.part.core t = false) → s.mine.region = none → s.mine.thieves = [] →
    let last := s.mine.lastMark || fld o.m 0 1 == 1
    ∃ t w, exec (.bend o) s = .next t ∧ OnlyCore s t (kept s
      { s.mine with
        arch := { arch s with loop := none, turn := none, loopOn := false }, run := if last then .ended else .waiting
        blockEnded := true, windowEnded := w, lastMark := false, mustClose := true, closedFor := false
        rvPassed := false }
      (some (BitVec.ofNat 64 last.toNat))))

/-- R231, R233, R235: STEAL sends its request to the core that S1 names in the window and waits; one that names no core of the window,
or its own, falls through; LAUNCH hands its record's address to the coordinator; QSEND puts its word into the outgoing buffer, waits
while that is full, and reports a target that names no core of the launch.
R234, R237, R238, R300, R348: EVPOST waits until every access before its bundle has performed, then posts a record to the core that
S1 names, its own among them, or with HOST to the host event area of its context, and reports a target outside the launch; BSTAT delivers
the status of the tag's operation at issue with latency 2, or its completion word: 0 for no tag and for an operation that has not been
appended, what has been kept of a performed one among the last 256 of its queue, and only that it has performed of an older one.
The model's choices: log entry 26. -/
def Obligations.MessagesEventsStatus : Prop :=
  (∀ (o : A3) (s : State) (x : W64) (a : Arch) (v : Nat) (l : Launch), CoresWf s → Runs (.steal o) s → Alone s → Reads1 s o.s1 x a →
    s.recorded? = none → s.launchOf s.part.core = some l → l.replay = false →
    ((s.windowOf s.part.core)[x.toNat]? = none ∨ (s.windowOf s.part.core)[x.toNat]? = some s.part.core →
      ∃ t, exec (.steal o) s = .next t ∧ OnlyCore s t (kept s { s.mine with arch := a } none)) ∧
    ((s.windowOf s.part.core)[x.toNat]? = some v → v ≠ s.part.core → s.endedWindow s.part.core v = false → s.mine.msgs.length < 8 →
      ∃ t, exec (.steal o) s = .next t ∧ t.part.undecided = true ∧ OnlyCore s t (kept s
        { s.mine with arch := a, msgs := s.mine.msgs ++ [⟨v, true, true, 0⟩], wait := .steal v } (some (BitVec.allOnes 64))))) ∧
  (∀ (o : A3) (s : State) (x : W64) (a : Arch) (l : Launch), CoresWf s → Runs (.launchMsg o) s → Reads1 s o.s1 x a →
    s.recorded? = none → s.launchOf s.part.core = some l →
    ∃ t, exec (.launchMsg o) s = .next t ∧ t.launchMsgs = s.launchMsgs ++ [⟨s.part.core, l.id, x⟩] ∧
      OnlyCore s { t with launchMsgs := s.launchMsgs } (kept s { s.mine with arch := a } none)) ∧
  (∀ (o : A3) (s : State) (x v : W64) (a : Arch) (l : Launch) (c : Nat), CoresWf s → Runs (.qsend o) s → Reads2 s o.s1 o.s2 x v a →
    s.recorded? = none → s.part.quiet = true → s.launchOf s.part.core = some l → l.cores[x.toNat]? = some c →
    (8 ≤ s.mine.msgs.length → exec (.qsend o) s = .next s.withdraw) ∧
    (s.mine.msgs.length < 8 → ∃ t, exec (.qsend o) s = .next t ∧ OnlyCore s t (kept s
      { s.mine with arch := a, msgs := s.mine.msgs ++ [⟨c, fld o.m 0 1 == 1, false, v⟩] } none))) ∧
  (∀ (o : A3) (s : State) (x v : W64) (a : Arch) (l : Launch), CoresWf s → Runs (.qsend o) s → Reads2 s o.s1 o.s2 x v a →
    s.recorded? = none → s.part.quiet = true → s.launchOf s.part.core = some l → l.cores[x.toNat]? = none →
    s.mine.launch = some l.id →
    ∃ t, exec (.qsend o) s = .next t ∧ t.heldEvents = s.heldEvents ++ [⟨flat s.part.core, flat s.part.core, l.id,
      BitVec.ofNat 64 (7 * 2 ^ 60 + x.toNat % 2 ^ 16 * 2 ^ 40), v⟩]) ∧
  (∀ (o : A3) (s : State) (x v : W64) (a : Arch), Runs (.evpost o) s → Reads2 s o.s1 o.s2 x v a → s.recorded? = none →
    s.part.quiet = false → exec (.evpost o) s = .next s.withdraw) ∧
  (∀ (o : A3) (s : State) (x v : W64) (a : Arch) (l : Launch), CoresWf s → Runs (.evpost o) s → Reads2 s o.s1 o.s2 x v a →
    s.recorded? = none → s.part.quiet = true → s.launchOf s.part.core = some l →
    let w := BitVec.ofNat 64 (5 * 2 ^ 60 + o.m.toNat % 2 ^ 16 * 2 ^ 40 + s.part.core % 2 ^ 32)
    (∀ c id, fld o.m 16 1 = 0 → l.cores[x.toNat]? = some c → (s.core c).launch = some id →
      ∃ t, exec (.evpost o) s = .next t ∧ t.heldEvents = s.heldEvents ++ [⟨flat c, flat s.part.core, id, w, v⟩] ∧
        OnlyCore s { t with heldEvents := s.heldEvents } (kept s { s.mine with arch := a } none)) ∧
    (fld o.m 16 1 = 0 → l.cores[x.toNat]? = none → s.mine.launch = some l.id →
      ∃ t, exec (.evpost o) s = .next t ∧ t.heldEvents = s.heldEvents ++ [⟨flat s.part.core, flat s.part.core, l.id,
        BitVec.ofNat 64 (7 * 2 ^ 60 + x.toNat % 2 ^ 16 * 2 ^ 40 + 1), v⟩]) ∧
    (∀ y, fld o.m 16 1 = 1 → s.context? l.asid = some y →
      ∃ t, exec (.evpost o) s = .next t ∧
        t.contexts = Sparse.set none s.contexts l.asid (some { y with posts := y.posts ++ [(w, v)] }))) ∧
  (∀ (o : A3) (s : State) (x : W64) (a b : Arch), CoresWf s → Runs (.bstat o) s → Reads1 s o.s1 x a →
    x.getLsbD 40 = false ∨ x.toNat / 2 ^ 37 % 8 = 7 ∨
      (let n := Sparse.get 0 s.mine.opCount (x.toNat / 2 ^ 37 % 8)
       n < 2 ^ 32 ∧ (x.toNat % 2 ^ 32 = 0 ∨ n < x.toNat % 2 ^ 32)) → s.part.dstS o.d.toNat 0 2 0 a = .ok b →
    exec (.bstat o) s = .next (s.withArch b)) ∧
  (∀ (o : A3) (s : State) (x : W64) (a b : Arch) (p : Op) (q : Nat), CoresWf s → Runs (.bstat o) s → Reads1 s o.s1 x a →
    x.getLsbD 40 = true → q = x.toNat / 2 ^ 37 % 8 → q ≠ 7 → (Sparse.get [] s.mine.ops q).find? (fun y => y.seq == p.seq) = some p →
    p.seq = x.toNat % 2 ^ 32 → 1 ≤ p.seq → p.seq ≤ Sparse.get 0 s.mine.opCount q → Sparse.get 0 s.mine.opCount q < 2 ^ 32 →
    s.part.dstS o.d.toNat (if fld o.m 0 1 = 1 then 0 else p.status false) 2 0 a = .ok b →
    exec (.bstat o) s = .next (s.withArch b)) ∧
  (∀ (o : A3) (s : State) (x : W64) (a b : Arch) (q seq : Nat), CoresWf s → Runs (.bstat o) s → Reads1 s o.s1 x a →
    x.getLsbD 40 = true → q = x.toNat / 2 ^ 37 % 8 → q ≠ 7 → seq = x.toNat % 2 ^ 32 → 1 ≤ seq → seq ≤ Sparse.get 0 s.mine.opCount q →
    Sparse.get 0 s.mine.opCount q < 2 ^ 32 → (∀ p ∈ Sparse.get [] s.mine.ops q, p.seq ≠ seq) →
    (∀ y, Sparse.get 0 s.mine.opCount q < seq + 256 → (s.mine.status.find? fun z => z.queue == q && z.seq == seq) = some y →
      s.part.dstS o.d.toNat (if fld o.m 0 1 = 1 then y.word.setWidth 64 else y.low) 2 0 a = .ok b →
      exec (.bstat o) s = .next (s.withArch b)) ∧
    (seq + 256 ≤ Sparse.get 0 s.mine.opCount q →
      s.part.dstS o.d.toNat (if fld o.m 0 1 = 1 then 0 else 2 ^ 24) 2 0 a = .ok b → exec (.bstat o) s = .next (s.withArch b)))

/-! ### Surrogate regions -/

/-- R239 to R243, R383, R389, R393, R394: SGBEG in a region that is not FITTED opens it, with its inputs captured, and goes on; in a
FITTED region an invocation that is not sampled is queued and waited for; SGEND closes the open region and keeps its sample for the
frame's end; SGINV makes the region INVALID and posts its record; SGCFG delivers whether its value lies within the field's limits and,
if it does, sends the request to the region's home.
The model's choices: log entries 18 and 54. -/
def Obligations.SurrogateSlots : Prop :=
  (∀ (o : A3) (s : State) (l : Launch) (x : Region), CoresWf s → Runs (.sgbeg o) s → Alone s → s.recorded? = none →
    s.regionFor s.part.core (fld o.m 0 6) = some (l, x) → s.mine.region = none → s.holds l = true → s.mine.arch.marks = [] →
    let index := BitVec.ofNat 64 (s.mine.ordinal * 2 ^ 32 + Sparse.get 0 s.mine.sgCount (fld o.m 0 6))
    let ins := x.ins.map fun n => (arch s).getV (rot s.part.rb n)
    let counted := Sparse.set 0 s.mine.sgCount (fld o.m 0 6) (Sparse.get 0 s.mine.sgCount (fld o.m 0 6) + 1)
    (x.state ≠ 2 → ∃ t, exec (.sgbeg o) s = .next t ∧ t.core s.part.core = kept s
      { s.mine with sgCount := counted, region := some ⟨fld o.m 0 6, index, l.frame, x.state, ins, none⟩ } none ∧
      t.launches = s.launches.map fun m => if m.id = l.id then
        { m with sgBegs := m.sgBegs ++ [(fld o.m 0 6, l.frame, s.part.core, index.toNat)] } else m) ∧
    (x.state = 2 → Sparse.get [] s.mine.ops 6 ≠ [] → exec (.sgbeg o) s = .next s.withdraw) ∧
    (x.state = 2 → Sparse.get [] s.mine.ops 6 = [] → x.sampled l.seed index = false →
      ∃ t, exec (.sgbeg o) s = .next t ∧ t.part.undecided = true ∧
        (t.core s.part.core).wait = .invocation (fld o.m 0 6) s.part.next ∧ (t.core s.part.core).sgCount = counted ∧
        ∃ p, Sparse.get [] (t.core s.part.core).ops 6 = [p] ∧ p.code = .surrogate ∧ p.o2 = index ∧ p.snapE = bytesOfVecs ins)) ∧
  (∀ (o : A3) (s : State) (l : Launch) (x : Region) (r : OpenRegion), CoresWf s → Runs (.sgend o) s → s.recorded? = none →
    s.part.before.arch.inflX = [] → s.regionFor s.part.core (fld o.m 0 6) = some (l, x) → s.mine.region = some r →
    r.region = fld o.m 0 6 → l.replay = false → r.state ≤ 1 → x.state ≠ 4 → s.mine.arch.marks = [] →
    ∃ t, exec (.sgend o) s = .next t ∧ t.core s.part.core = kept s { s.mine with region := none } none ∧
      t.launches = s.launches.map fun m => if m.id = l.id then
        { m with samples := m.samples ++ [⟨r.region, r.index.toNat, r.frame, false, s.part.core, lanesOf r.inputs,
          lanesOf (x.outs.map fun n => (arch s).getV (rot s.part.rb n)), []⟩] } else m) ∧
  (∀ (o : A3) (s : State) (l : Launch) (x : Region), CoresWf s → Runs (.sginv o) s → s.recorded? = none →
    s.regionFor s.part.core (fld o.m 0 6) = some (l, x) →
    ∃ t, exec (.sginv o) s = .next t ∧
      (∀ id, s.mine.launch = some id → t.heldEvents = s.heldEvents ++ [⟨flat s.part.core, flat s.part.core, id,
        eventWord 8 0 (4 * 256 + fld o.m 0 6) 0 (s.mine.nextIndex (fld o.m 0 6)).toNat, s.mine.nextIndex (fld o.m 0 6)⟩]) ∧
      (x.state ≠ 4 → t.modules = s.modules.map fun m => if m.handle = l.module then
        { m with regions := m.regions.mapIdx fun n y => if n = fld o.m 0 6 then
          { y.invalid with invAt := some (l.id, l.frame) } else y } else m) ∧
      (x.state = 4 → t.modules = s.modules)) ∧
  (∀ (o : A3) (s : State) (l : Launch) (x : Region) (v : W64) (a : Arch), CoresWf s → Runs (.sgcfg o) s → s.recorded? = none →
    Reads1 s o.s1 v a → s.regionFor s.part.core (fld o.m 0 6) = some (l, x) → s.holds l = true →
    let ok := cfgOk (fld o.m 6 4) (fld o.m 10 3) x.nout v
    ∃ t, exec (.sgcfg o) s = .next t ∧
      t.core s.part.core = kept s { s.mine with arch := a.fly .execute (.p (o.d.toNat - 64) ok) 1 0 } none ∧
      t.launches = if ok then s.launches.map fun m => if m.id = l.id then
        { m with cfgs := m.cfgs ++ [⟨fld o.m 0 6, fld o.m 6 4, fld o.m 10 3, v.setWidth 32, s.mine.ordinal, m.cfgs.length⟩] } else m
        else s.launches)

/-! ### The device: streams -/

/-- R11, R54, R58, R224, R278 to R282: where nothing holds the access stream back and every slot of the part can be performed, its part
of the bundle at its address issues: the slots are to be performed in order, a stream cycle is counted, the bundle waits for its execute
part and the stream stands behind it, with WAIT to count; the execute stream then issues its part of the oldest waiting bundle, after what
the end of the pass before it brings, and behind the last bundle of a pass the pass is to turn.
The model's choices: log entry 4. -/
def Obligations.StreamsIssue : Prop :=
  (∀ (s u v : State) (c : Nat) (k : Core) (a : Arch) (l : Launch) (b : Bundle) (next : W64) (preds : BitVec 16), CoresWf s →
    k = s.core c → a = k.arch → preds = a.turned.predsBehind a.ahead a.loop →
    s.launchOf c = some l → s.canIssue c = true → k.wait = .none → k.mustClose = false → k.rewindFlag = false → s.haltAsked c = false →
    a.trap = none → k.conflicts = [] → a.waitA = 0 → a.settled .access = true → a.ahead.length < 64 → a.blocked = false →
    k.holdsAccess = false → a.skip = 0 → a.till = none → a.pc.getLsbD 0 = false →
    s.fetch c l.asid (s.dictOf c) a.pc = (.bundle b next, u) → u.cores = s.cores →
    b.needsBoth a.turned (u.regionCount c) = false → k.benchTurn .access b preds = false →
    (u.setupAccess c b next preds).tryPart b .access = .ok v → k.overfills (v.core c) = false →
    ∃ t, exec (.streamPartIssue c .access) s = .next t ∧ t.latch = (b.order .access).map b.word ∧
      t.part = { Part.idle with
        core := c, pc := a.pc, next := next, bundle := a.issued, side := .access, preds := preds, rb := a.rb
        loopOn := a.loop.isSome, loop := a.loop, slot := 4, slotAt := b.slotAt, before := k } ∧
      t.core c = ({ k with
        closedFor := false, rvPassed := false, unchecked := if u.doubled c then k.unchecked ++ [k.shadow] else k.unchecked
        arch := { cycled a .access with
          pc := (behind a.loop next).1, loop := (behind a.loop next).2, issued := a.issued + 1, waitA := b.wait
          ahead := a.ahead ++ [⟨b, a.pc, next, a.loop, preds, 0⟩], fences := a.fences.filter fun f => !u.fenceDone c f }
        } : Core).countBench .access b preds ∧
      (∀ d, d ≠ c → t.core d = s.core d) ∧ { t with cores := u.cores, part := u.part, latch := u.latch } = u) ∧
  (∀ (s v : State) (c : Nat) (k : Core) (a : Arch) (h : Ahead) (rest : List Ahead) (preds : BitVec 16), CoresWf s → k = s.core c →
    a = k.arch → a.ahead = h :: rest → s.canIssue c = true → k.wait = .none → k.mustClose = false → k.rewindFlag = false → a.waitX = 0 →
    a.settled .execute = true → preds = (a.turned.p &&& ~~~0x0F00) ||| (h.preds &&& 0x0F00) →
    k.benchTurn .execute h.bundle preds = false → a.drain? (h.bundle.lives preds [0, 1, 2, 3]) = none →
    (s.setupExecute c h rest).tryPart h.bundle .execute = .ok v →
    let arch : Arch := { cycled a .execute with
      ahead := rest, waitX := h.bundle.wait, p := a.turned.p, rb := a.turned.rb, loopOn := a.turned.loopOn
      turn := h.loop.filter fun x => x.pos + 1 == x.ii }
    ∃ t, exec (.streamPartIssue c .execute) s = .next t ∧ t.latch = (h.bundle.order .execute).map h.bundle.word ∧
      t.part = { Part.idle with
        core := c, pc := h.pc, next := h.next, bundle := a.issued - a.ahead.length, side := .execute, preds := preds, rb := a.turned.rb
        loopOn := h.loop.isSome, loop := h.loop, slotAt := h.bundle.slotAt, before := k } ∧
      t.core c = ({ k with
        unchecked := if s.doubled c then k.unchecked ++ [k.shadow] else k.unchecked
        arch := if h.flags = 0 then arch else arch.fly .execute .flagsOnly 1 h.flags } : Core).countBench .execute h.bundle preds ∧
      (∀ d, d ≠ c → t.core d = s.core d) ∧ { t with cores := s.cores, part := s.part, latch := s.latch } = s)

/-- R6, R21, R58, R59, R61, R361: a WAIT cycle counts a cycle of its stream, which the bench may use, but not while a held load stalls the
access stream; a result that is due is written, its flags ORed into FFLAGS. Where a pop stalls both streams for a queue entry in flight, that
entry is filled, its flags waiting for their cycle: the model's choice, log entry 19.
R181, R272: the benched operations of a stream have the cycles that it leaves, and one after seven without, in turn by ascending queue
code; an MLAT borrows none. -/
def Obligations.ResultsLand : Prop :=
  (∀ (s : State) (c : Nat) (side : Side), s.canIssue c = true → (s.core c).arch.wait side ≠ 0 → (s.core c).arch.settled side = true →
    (side = .access → (s.core c).holdsAccess = false) →
    let k := s.core c
    let n := if s.doubled c then k.unchecked ++ [k.shadow] else k.unchecked
    exec (.stallCountExpiry c side) s = .next (s.setCore c (Core.benchCycle (match side with
      | .execute => { k with arch := { cycled k.arch .execute with waitX := k.arch.waitX - 1 }, unchecked := n }
      | .access => { k with arch := { cycled k.arch .access with waitA := k.arch.waitA - 1 }, unchecked := n }) side))) ∧
  (∀ (s : State) (c : Nat) (side : Side) (x z : List InFlight) (e : InFlight), s.lively c = true → ArchWf (s.core c).arch →
    (s.core c).arch.infl side = x ++ e :: z → (∀ y ∈ x, y.left ≠ 0) → e.left = 0 →
    ∃ b, Landed ((s.core c).arch.setInfl side (x ++ z)) b e.what ∧
      exec (.resultLands c side) s = .next (s.setCore c { s.core c with arch := { b with fflags := b.fflags ||| e.flags } })) ∧
  (∀ (s : State) (c : Nat) (side : Side), CoresWf s → (∀ e ∈ (s.core c).arch.infl side, e.left ≠ 0) → s.queueStall c = false →
    exec (.resultLands c side) s = .next s) ∧
  (∀ (s : State) (c : Nat) (side : Side) (x z : List InFlight) (e : InFlight), s.lively c = true → ArchWf (s.core c).arch →
    s.queueStall c = true → (∀ y ∈ (s.core c).arch.infl side, y.left ≠ 0) → (s.core c).arch.infl side = x ++ e :: z →
    e.what.entry?.isSome = true → (∀ y ∈ x, y.what.entry?.isSome = true → e.left < y.left) →
    (∀ y ∈ z, y.what.entry?.isSome = true → e.left ≤ y.left) →
    ∃ b, Landed ((s.core c).arch.setInfl side (x ++ { e with what := .flagsOnly } :: z)) b e.what ∧
      exec (.resultLands c side) s = .next (s.setCore c { s.core c with arch := b })) ∧
  (∀ (s : State) (c : Nat) (side : Side), (s.core c).benched side = true →
    7 ≤ (s.core c).benchIdle side ∨ s.standsStill c side = true →
    exec (.benchCycleSteal c side) s = .next (s.setCore c ((s.core c).benchCycle side))) ∧
  (∀ (s : State) (c : Nat) (side : Side), (s.core c).benched side = false ∨
    (s.core c).benchIdle side < 7 ∧ s.standsStill c side = false → exec (.benchCycleSteal c side) s = .next s) ∧
  (∀ (k : Core) (side : Side) (q : Nat), q ∈ k.benchQueues side ↔ q < 7 ∧ (side = .access ↔ q = 2 ∨ q = 3) ∧
    ∃ o rest, Sparse.get [] k.ops q = o :: rest ∧ o.state = .bench ∧ o.code ≠ .mlat) ∧
  (∀ (k : Core) (side : Side) (q : Nat) (o : Op) (rest : List Op), q ∈ k.benchQueues side → Sparse.get [] k.ops q = o :: rest →
    (k.benchLast side < q ∧ (∀ r ∈ k.benchQueues side, r ≤ k.benchLast side ∨ q ≤ r) ∨
      ∀ r ∈ k.benchQueues side, r ≤ k.benchLast side ∧ q ≤ r) →
    k.benchCycle side =
      ({ k with ops := Sparse.set [] k.ops q ({ o with cycles := o.cycles + 1 } :: rest) } : Core).setBench side 0 q)

/-- R195, R196, R202, R251, R254: at their access point the scratchpad reads deliver, four cycles on, the bytes of their address,
extended or converted, and a consuming one clears the full bits of its lines; a store puts its value, converted to the bank's format,
and a fill sets the full bits; no other byte and no other full bit changes; while a line that is read is empty the access waits.
R431, R438: a load that touches an uncorrectable word delivers a marked value, and the close of the segment will find it; a word is
good again once it has been written whole.
R255: a byte that the device step just before has written too keeps the one value or the other (log entry 84).
The model's choices: log entries 19, 71 and 84. -/
def Obligations.ScratchpadAccessesPerform : Prop :=
  (∀ (s : State) (c : Nat) (x : Acc) (l : Nat), s.lively c = true → (s.core c).arch.accGroup = [x] → x.left = 0 →
    (s.core c).arch.due .execute = false → (s.core c).retained (groupLines [x]) = false → l ∈ x.kind.readLines → (s.core c).isFull l = false → (s.core c).caught = [] →
    ∃ w, exec (.scratchpadAccessPoint c) s = .next (s.setCore c { s.core c with waiters := w }) ∧
      (l, if x.kind.consumes then 1 else 0) ∈ w) ∧
  (∀ (s : State) (c : Nat) (x : Acc), (s.core c).arch.accGroup = [x] → x.left ≠ 0 → s.stallAwaits c [x] = false →
    exec (.scratchpadAccessPoint c) s = .next s) ∧
  (∀ (s : State) (c : Nat) (x : Acc) (w : Landing), SpmWf (s.core c) → AtAccessPoint s c x →
    (∃ addr sz sx d, x.kind = .ld addr sz sx x.kind.consumes d ∧ (s.core c).spoiled addr (2 ^ sz) = false ∧
      w = d.landing (let v := leNat (memBytes (s.core c).scratch addr (2 ^ sz)) (2 ^ sz)
        if sx then BitVec.ofInt 64 ((v : Int).bmod (2 ^ (8 * 2 ^ sz))) else BitVec.ofNat 64 v)) ∨
    (∃ line d, x.kind = .fetst line d ∧ w = d.landing (if (s.core c).isFull line then 1 else 0)) →
    ∃ k, exec (.scratchpadAccessPoint c) s = .next (landedOn (s.setCore c k) []) ∧
      k.arch.inflA = (s.core c).arch.inflA ++ [⟨w, 0, 4, x.stale⟩] ∧
      (∀ l, k.isFull l = if x.kind.consumes = true ∧ l ∈ x.kind.readLines then false else (s.core c).isFull l) ∧
      k.seg.bad = (s.core c).seg.bad ∧
      { k with full := (s.core c).full, seg := (s.core c).seg, arch := { k.arch with inflA := (s.core c).arch.inflA } } =
        served (s.core c) x) ∧
  (∀ (s : State) (c : Nat) (x : Acc) (addr sz : Nat) (sx cons : Bool) (d : Dest), AtAccessPoint s c x → x.kind = .ld addr sz sx cons d →
    (s.core c).spoiled addr (2 ^ sz) = true →
    ∃ k, exec (.scratchpadAccessPoint c) s = .next (landedOn (s.setCore c k) []) ∧
      k.arch.inflA = (s.core c).arch.inflA ++ [⟨.bad d, 0, 4, x.stale⟩] ∧ k.seg.bad = true) ∧
  (∀ (s : State) (c : Nat) (x : Acc) (et : Nat) (addrs fmts : List Nat) (cons : Bool) (q : VQ) (id : Nat), SpmWf (s.core c) →
    AtAccessPoint s c x → x.kind = .vld et addrs fmts cons (.vq q id) → addrs.length = fmts.length →
    addrs.length = 8192 / etWidth et → etWidth et ≠ 0 → (s.core c).marks = [] →
    ∃ k r, exec (.scratchpadAccessPoint c) s = .next (landedOn (s.setCore c k) []) ∧
      k.arch.inflA = (s.core c).arch.inflA ++ [⟨.vq q id r, 0, 4, x.stale⟩] ∧
      (∀ j a f : Nat, addrs[j]? = some a → fmts[j]? = some f → elem r.toNat (etWidth et) j =
        (loadConv f et (leNat (memBytes (s.core c).scratch a (bankWidth f et)) (bankWidth f et))).1 % 2 ^ etWidth et) ∧
      (∀ l, k.isFull l = if cons = true ∧ l ∈ x.kind.readLines then false else (s.core c).isFull l) ∧
      k.scratch = (s.core c).scratch) ∧
  (∀ (s : State) (c : Nat) (x : Acc) (addr sz : Nat) (v : W64) (fill : Bool), SpmWf (s.core c) → AtAccessPoint s c x →
    x.kind = .st addr sz v fill →
    let put := fun (a : Nat) =>
      if addr ≤ a ∧ a < addr + 2 ^ sz then BitVec.ofNat 8 (v.toNat / 2 ^ (8 * (a - addr))) else spmByte (s.core c) a
    ∃ k l, exec (.scratchpadAccessPoint c) s = .next (landedOn (s.setCore c k) l) ∧
      (∀ a, ¬ metJustBefore s c a → spmByte k a = put a) ∧
      (∀ a, spmByte k a = put a ∨ ∃ b, (c, a, b) ∈ s.landed ∧ addr ≤ a ∧ a < addr + 2 ^ sz ∧ spmByte k a = b) ∧
      l = (List.range (2 ^ sz)).map (fun i => (c, addr + i, spmByte k (addr + i))) ∧
      (∀ l, k.isFull l = if fill = true ∧ l ∈ linesOf addr (2 ^ sz) then true else (s.core c).isFull l) ∧
      (∀ w, Sparse.get false k.marks w =
        (Sparse.get false (s.core c).marks w && !(decide (addr ≤ 8 * w) && decide (8 * w + 8 ≤ addr + 2 ^ sz)))) ∧
      { k with scratch := (s.core c).scratch, full := (s.core c).full, marks := (s.core c).marks, seg := (s.core c).seg } =
        served (s.core c) x) ∧
  (∀ (s : State) (c : Nat) (x : Acc) (et : Nat) (addrs fmts : List Nat) (v : VReg) (fill : Bool), SpmWf (s.core c) →
    AtAccessPoint s c x → x.kind = .vst et addrs fmts v fill → addrs.length = fmts.length →
    ∃ k l, exec (.scratchpadAccessPoint c) s = .next (landedOn (s.setCore c k) l) ∧
      (∀ j a f n : Nat, addrs[j]? = some a → fmts[j]? = some f → n < bankWidth f et → ¬ metJustBefore s c (a + n) →
        (∀ m b g : Nat, j < m → addrs[m]? = some b → fmts[m]? = some g → ¬ (b ≤ a + n ∧ a + n < b + bankWidth g et)) →
        spmByte k (a + n) = BitVec.ofNat 8 ((storeConv f et (elem v.toNat (etWidth et) j)).1 / 2 ^ (8 * n))) ∧
      (∀ y : Nat, (∀ j a f : Nat, addrs[j]? = some a → fmts[j]? = some f → ¬ (a ≤ y ∧ y < a + bankWidth f et)) →
        spmByte k y = spmByte (s.core c) y) ∧
      (∀ l, k.isFull l = if fill = true ∧ l ∈ x.kind.writeLines then true else (s.core c).isFull l)) ∧
  (∀ (s : State) (c : Nat) (x : Acc) (line n : Nat) (full : Bool), SpmWf (s.core c) → AtAccessPoint s c x →
    x.kind = .feset line n full →
    ∃ k, exec (.scratchpadAccessPoint c) s = .next (landedOn (s.setCore c k) []) ∧
      (∀ l, k.isFull l = if line ≤ l ∧ l < line + n then full else (s.core c).isFull l) ∧
      { k with full := (s.core c).full, seg := (s.core c).seg } = served (s.core c) x)

/-- R78, R126, R19, R311: a trap that has been asked for is taken once both streams stand at its boundary with nothing left to land: EPC, ECAUSE, EADDR
and EXC are written, the pipeline and the sequencer are held, the streams go on at EVEC, and the segment is to close; with a handler already
running the launch gets an error pinned to it. A conflict of the core's operations closes the segment first and then traps with ECAUSE 7.
The model's choice: log entry 20. -/
def Obligations.TrapEntryTakes : Prop :=
  let taken := fun (k : Core) (cause : Nat) (addr epc : W64) =>
    let a := k.arch.turned
    ({ k with
      mustClose := true, closedFor := false, rvPassed := false
      arch := { a with
        epc := epc, ecause := cause, eaddr := addr, exc := true
        held := some ⟨a.rb, a.inflX, a.inflA, a.cycX, a.cycA, a.waitX, a.waitA, a.loop, a.loopOn⟩
        inflX := [], inflA := [], waitX := 0, waitA := 0, loop := none, loopOn := false
        pc := a.evec, skip := 0, till := none, ahead := [], trap := none } } : Core)
  ∀ (s : State) (c : Nat), CoresWf s →
    let k := s.core c
    let a := k.arch
    let ready := s.canIssue c = true ∧ k.wait = .none ∧ k.mustClose = false ∧ a.ahead = [] ∧ a.waitX = 0 ∧
      a.settled .execute = true ∧ a.settled .access = true ∧ a.skip = 0 ∧ a.till = none ∧ a.accs = []
    (∀ r, a.trap = some r → ready → a.exc = false →
      exec (.trapEntry c) s = .next (s.setCore c (taken k r.cause r.addr (if r.post then a.pc else r.epc)))) ∧
    (∀ r, a.trap = some r → ready → a.exc = true → exec (.trapEntry c) s = .next (s.pinCore c 3)) ∧
    (∀ v rest, a.trap = none → k.conflicts = v :: rest → ready → a.exc = false →
      (k.closedFor = false → exec (.trapEntry c) s =
        .next (s.setCore c { k with mustClose := true, closedFor := false, rvPassed := false })) ∧
      (k.closedFor = true → exec (.trapEntry c) s = .next (s.setCore c (taken { k with conflicts := rest } 7 v a.pc)))) ∧
    (¬ ready → exec (.trapEntry c) s = .next s)

/-- R290 to R295, R299, R427, R428: a close waits for the loads, atomics, signatures and scratchpad accesses before it; without an error it lets
the commit buffer leave, in order and line by line; once those writes have been performed the segment ends and a new checkpoint is taken,
the results in flight keeping their stream cycles. One with an error rewinds: the registers of the checkpoint come back, the scratchpad is as it was, nothing of the
commit buffer leaves, the rewind flag goes up; the third error in one segment is pinned to the launch; a core passes a rendezvous while no
partner has its flag up; a mismatch of a pair's signatures is an error of the segment.
The model's choices: log entries 25 and 39. -/
def Obligations.SegmentsClose : Prop :=
  let closing := fun (s : State) (c : Nat) =>
    s.lively c = true ∧ s.halted c = false ∧ (s.core c).mustClose = true ∧ (s.core c).offs = [] ∧ (s.core c).unchecked = []
  let boundary := fun (s : State) (c : Nat) =>
    (s.core c).arch.ahead = [] ∧ (s.core c).arch.waitX = 0 ∧ (s.core c).arch.waitA = 0
  (∀ (s : State) (c : Nat), closing s c → boundary s c → (s.core c).seg.leaving = false → (s.core c).seg.bad = false →
    (s.core c).seg.errorAt = none → (s.core c).arch.accs = [] → (s.core c).side = [] →
    let k := s.core c
    let leaves := fun (w : Write) => w.kind.split.map fun x => (x, w.ch, w.seq, w.rel, w.frame)
    (∀ w ∈ k.seg.commit, ∀ x ∈ w.kind.split, ∀ r ∈ x.ranges, ∀ i n, lookup k.table .write r.1 ≠ .absent i n) →
    (k.out ≠ [] ∨ k.seg.commit.flatMap leaves ≠ []) →
    ∃ t, exec (.segmentClose c) s = .next (s.setCore c t) ∧
      t.out.map (fun w => (w.kind, w.ch, w.seq, w.rel, w.frame)) =
        k.out.map (fun w => (w.kind, w.ch, w.seq, w.rel, w.frame)) ++ k.seg.commit.flatMap leaves ∧
      { t with out := k.out, offId := k.offId } = { k with seg := { k.seg with commit := [], leaving := true } }) ∧
  (∀ (s : State) (c : Nat), closing s c → boundary s c → (s.core c).out = [] → (s.core c).wait = .none →
    ((s.core c).seg.leaving = true ∨ (s.core c).seg.bad = false ∧ (s.core c).seg.errorAt = none ∧ (s.core c).seg.commit = [] ∧
      (s.core c).arch.accs = [] ∧ (s.core c).side = []) →
    let k := s.core c
    exec (.segmentClose c) s = .next (s.setCore c { k with
      seg := { Segment.openAt k.arch with
        closedFor := true, deferred := k.deferred, errorAt := k.seg.errorAt, bad := k.seg.bad
        recorded := k.seg.recorded.filter fun r => decide (k.arch.issued ≤ r.bundle) }
      mustClose := false, closedFor := true })) ∧
  (∀ (s : State) (c : Nat), SpmWf (s.core c) → closing s c → (s.core c).seg.leaving = false → (s.core c).undecided false = false →
    ((s.core c).seg.errorAt ≠ none ∨ (s.core c).seg.bad = true ∧ boundary s c) →
    (2 ≤ (s.core c).seg.rewinds → exec (.segmentClose c) s = .next (s.pinCore c 1)) ∧
    ((s.core c).seg.rewinds < 2 → (s.core c).seg.wait = .none →
      let k := s.core c
      let p := k.seg.checkpoint
      ∃ t, exec (.segmentClose c) s = .next (s.setCore c t) ∧ t.seg.commit = [] ∧ t.seg.undo = [] ∧ t.seg.rewinds = k.seg.rewinds + 1 ∧
        t.seg.errorAt = none ∧ t.seg.bad = false ∧ t.seg.checkpoint = p ∧ t.rewindFlag = true ∧
        t.rewindTo = k.seg.errorAt.getD k.arch.issued ∧ t.mustClose = false ∧ t.wait = .none ∧
        t.arch.s = p.s ∧ t.arch.a = p.a ∧ t.arch.v = p.v ∧ t.arch.k = p.k ∧ t.arch.p = p.p ∧ t.arch.pc = p.pc ∧ t.arch.rb = p.rb ∧
        t.arch.inflX = p.inflX ∧ t.arch.inflA = p.inflA ∧ t.arch.fflags = p.fflags ∧ t.arch.bfmt = p.bfmt ∧ t.arch.marks = p.marks ∧
        t.arch.latchE = k.arch.latchE ∧ t.arch.latchS = k.arch.latchS ∧ t.out = k.out ∧ t.side = k.side ∧
        (∀ a, spmByte t a = match k.seg.undo.find? (fun u => match u with | .byte x _ => x == a | _ => false) with
          | some (.byte _ old) => old
          | _ => spmByte k a) ∧
        (∀ l, t.isFull l = match k.seg.undo.find? (fun u => match u with | .full x _ => x == l | _ => false) with
          | some (.full _ old) => old
          | _ => k.isFull l))) ∧
  (∀ (s : State) (c : Nat) (l : Launch) (b : Bundle) (next : W64), s.launchOf c = some l → s.canIssue c = true →
    (s.core c).poised = true → (s.core c).mustClose = false → (∀ d ∈ s.group c, (s.core d).rewindFlag = false) →
    (s.fetch c l.asid (s.dictOf c) (s.core c).arch.pc).1 = .bundle b next → (b.seg = 2 ∨ 2 ≤ b.seg ∧ (s.core c).closedFor = true) →
    exec (.rendezvous c) s = .next (s.setCore c { s.core c with rvPassed := true })) ∧
  (∀ (s : State) (c fault : Nat) (l : Launch) (x : Shadow) (rest : List Shadow), CoresWf s → s.launchOf c = some l → l.doubles = true →
    (s.core c).unchecked = x :: rest →
    let y := (rest.head?).getD (s.core c).shadow
    (crc32 (effects x y) = crc32 (disturb (effects x y) fault) → ∃ t, exec (.signatureCompare c fault) s = .next t ∧
      (t.core c).unchecked = rest ∧ (t.core c).arch = (s.core c).arch ∧ (t.core c).seg = (s.core c).seg ∧
      (t.core (c + 1)).arch = y.arch ∧ ∀ d, d ≠ c → d ≠ c + 1 → t.core d = s.core d) ∧
    (crc32 (effects x y) ≠ crc32 (disturb (effects x y) fault) → ∃ t, exec (.signatureCompare c fault) s = .next t ∧
      (t.core c).unchecked = [] ∧ (t.core c).mustClose = true ∧ (t.core c).seg.errorAt = some (s.core c).arch.issued ∧
      (∀ w ∈ (t.core c).out, (s.core c).compared w.seq = true) ∧ ∀ d, d ≠ c → t.core d = s.core d))

/-- R188, R197, R199, R204 to R206, R257, R259, R260, R364, R419, R423, R431: a load that its order allows reads its bytes, its own earlier stores forwarded, and
fills its destination, or marks it if a byte is poisoned; an answered atomic likewise; an atomic, a reduction and a store act once on the
bytes at their place, in chip shared, stacked or host memory, and on no other; each operation has the result that the rules give, for every
element of a VRED too; a request is noted in its target's window with its tag; an unacknowledged request may be sent again,
and a second copy of an applied one is answered out of the window; an entry of the side log is performed as its access would have been.
The model's choices: log entries 48, 49, 70, 71 and 78. -/
def Obligations.OffCorePerforms : Prop :=
  (∀ (s u : State) (c req : Nat) (r : OffReq) (va sz : Nat) (sx : Bool) (b : List Byte), r.kind = .ld va sz sx →
    scalarDest r.dest → (s.core c).offs.find? (fun x => x.id == req) = some r → (s.core c).inOrder r.seq r.ch r.kind.ranges true = true →
    s.loadBytes c r.seq va (2 ^ sz) = some ((b, false), u) → ArchWf (u.core c).arch →
    ∃ a, Landed (u.core c).arch a (r.dest.landing (if sx then signExt (2 ^ sz) (wordOf b) else wordOf b)) ∧
      exec (.offCoreLoadReturn c req) s = .next (u.setCore c
        { u.core c with arch := a, offs := (u.core c).offs.filter fun x => x.id ≠ req })) ∧
  (∀ (s u : State) (c req n : Nat) (r : OffReq) (va sz : Nat) (sx : Bool) (b : List Byte), r.kind = .ld va sz sx →
    r.dest = .a n → n ≠ 0 → (s.core c).offs.find? (fun x => x.id == req) = some r →
    (s.core c).inOrder r.seq r.ch r.kind.ranges true = true → s.loadBytes c r.seq va (2 ^ sz) = some ((b, true), u) → CoresWf u →
    ∃ t, exec (.offCoreLoadReturn c req) s = .next t ∧ (t.core c).arch.marked .a n = true ∧ (t.core c).seg.bad = true ∧
      (t.core c).offs = (u.core c).offs.filter (fun x => x.id ≠ req) ∧ OthersKeep u t c) ∧
  (∀ (s u : State) (c req : Nat) (r : OffReq) (et : Nat) (addrs l : List Nat) (q : VQ) (id : Nat), r.kind = .vld et addrs →
    r.dest = .vq q id → (s.core c).offs.find? (fun x => x.id == req) = some r →
    (s.core c).inOrder r.seq r.ch r.kind.ranges true = true →
    s.loadElems c r.seq (etWidth et / 8) addrs = some ((l, false), u) → ArchWf (u.core c).arch →
    ∃ a, Landed (u.core c).arch a (.vq q id (BitVec.ofNat 8192 (packElems (etWidth et) l))) ∧
      exec (.offCoreLoadReturn c req) s = .next (u.setCore c
        { u.core c with arch := a, offs := (u.core c).offs.filter fun x => x.id ≠ req })) ∧
  (∀ (s : State) (c seq va n : Nat) (l : Launch) (pa : Nat), s.launchOf c = some l → AtCsm s c .read va pa →
    (s.core c).collapsing va = false → s.csmBad pa n = false →
    s.loadBytes c seq va n = some (((List.range n).map fun i =>
      ((s.core c).forwarded seq (va + i)).getD (csmByte s (pa + i)), false), s)) ∧
  (∀ (s : State) (c req : Nat) (r : OffReq) (v : W64), (∀ va sz sx, r.kind ≠ .ld va sz sx) → (∀ et l, r.kind ≠ .vld et l) →
    (s.core c).offs.find? (fun x => x.id == req) = some r → r.answer = some v → r.poison = false → scalarDest r.dest → ArchWf (s.core c).arch →
    (∀ y ∈ (s.core c).seg.recorded, ¬ (y.bundle = r.bundle ∧ y.slot = r.slot)) →
    ∃ a, Landed (s.core c).arch a (r.dest.landing v) ∧ exec (.offCoreLoadReturn c req) s = .next (s.setCore c
      { s.core c with
        arch := a, offs := (s.core c).offs.filter fun x => x.id ≠ req
        seg := { (s.core c).seg with recorded := (s.core c).seg.recorded ++ [⟨r.bundle, r.slot, some v, false, [], none⟩] } })) ∧
  (∀ (s : State) (c req : Nat) (r : OffReq) (l : Launch) (va pa n : Nat) (new : List Byte) (answer : W64), CoresWf s →
    Memory.wf s.csm = true → (s.core c).offs.find? (fun x => x.id == req && x.answer.isNone) = some r →
    (s.core c).readyAtomic r = true → s.launchOf c = some l → l.record = false → l.replay = false → AtCsm s c .both va pa →
    s.csmBad pa n = false → s.spanFull c r.ch (pa / 128 % 256) = false →
    (∃ op sz v, r.kind = .amo op sz va v ∧ n = atomicBytes op sz ∧ (new, answer) = atomicDo op sz (memBytes s.csm pa n) v ∨
      ∃ sz cmp w, r.kind = .cas sz va cmp w ∧ sz ≤ 3 ∧ n = 2 ^ sz ∧ answer = BitVec.ofNat 64 (leNat (memBytes s.csm pa n) n) ∧
        new = if leNat (memBytes s.csm pa n) n = cmp.toNat % 2 ^ (8 * n) then leBytes w.toNat n else memBytes s.csm pa n) →
    ∃ t, exec (.remoteAtomicRequest c req) s = .next t ∧ CsmPut s t pa new ∧
      (t.core c).offs = (s.core c).offs.map (fun x => if x.id = r.id then { x with answer := some answer, poison := false } else x) ∧
      (∃ e : WindowEntry, t.windows.getLast? = some e ∧ e.req = r.id ∧ e.source = 8 * flat c + r.ch ∧ e.target = pa / 128 % 256 ∧
        e.tag = s.nextTag (8 * flat c + r.ch) (pa / 128 % 256) % 65536 ∧ e.ack = some answer) ∧
      (∀ d, d ≠ c → t.core d = s.core d) ∧
      { t with
        csm := s.csm, csmMarks := s.csmMarks, cores := s.cores, windows := s.windows, tags := s.tags, resends := s.resends } = s) ∧
  (∀ (s : State) (c req : Nat) (w : Write) (l : Launch) (va pa : Nat) (new : List Byte), CoresWf s → Memory.wf s.csm = true →
    (s.core c).offs.find? (fun x => x.id == req && x.answer.isNone) = none →
    (s.core c).out.find? (fun x => x.id == req) = some w → (s.core c).ready w = true → s.launchOf c = some l →
    l.record = false → l.replay = false → AtCsm s c .write va pa →
    (w.kind = .store [(va, new)] ∨ ∃ op sz v, w.kind = .red op sz va v ∧ s.csmBad pa (atomicBytes op sz) = false ∧
      s.spanFull c w.ch (pa / 128 % 256) = false ∧
      new = (atomicDo op sz (memBytes s.csm pa (atomicBytes op sz)) v).1 ∨
      ∃ op et b, w.kind = .vred op et va b ∧ s.csmBad pa 128 = false ∧ s.spanFull c w.ch (pa / 128 % 256) = false ∧
        new = vredLine op et (memBytes s.csm pa 128) b) →
    ∃ t, exec (.remoteAtomicRequest c req) s = .next t ∧ CsmPut s t pa new ∧
      (t.core c).out = (s.core c).out.filter (fun x => x.id ≠ req) ∧ (∀ d, d ≠ c → t.core d = s.core d) ∧
      (t.windows = s.windows ∨ w.kind.isRed = true) ∧
      { t with
        csm := s.csm, csmMarks := s.csmMarks, cores := s.cores, windows := s.windows, tags := s.tags, resends := s.resends } = s) ∧
  (∀ (s : State) (c req n : Nat) (r : OffReq) (l : Launch) (va : Nat) (p : Place) (new : List Byte) (answer : W64), CoresWf s →
    Memory.wf s.host = true → (s.core c).offs.find? (fun x => x.id == req && x.answer.isNone) = some r →
    (s.core c).readyAtomic r = true → s.launchOf c = some l → l.record = false → l.replay = false → AtFar s c .both va p →
    (s.readPlace l.asid p n).1.2 = false → s.spanFull c r.ch (s.hbm.unitOf p) = false →
    let old := (s.readPlace l.asid p n).1.1
    (∃ op sz v, r.kind = .amo op sz va v ∧ n = atomicBytes op sz ∧ (new, answer) = atomicDo op sz old v ∨
      ∃ sz cmp w, r.kind = .cas sz va cmp w ∧ sz ≤ 3 ∧ n = 2 ^ sz ∧ answer = BitVec.ofNat 64 (leNat old n) ∧
        new = if leNat old n = cmp.toNat % 2 ^ (8 * n) then leBytes w.toNat n else old) →
    ∃ t, exec (.remoteAtomicRequest c req) s = .next t ∧
      SameMemories ((s.readPlace l.asid p n).2.writePlace l.asid (flat c) l.id p new) t c ∧
      (∀ x, p = .host x → HostPut s t x new) ∧ KeptFor s t c r.id r.ch (s.hbm.unitOf p) (some answer) ∧
      (t.core c).offs = (s.core c).offs.map (fun x => if x.id = r.id then { x with answer := some answer, poison := false } else x)) ∧
  (∀ (s u : State) (c req : Nat) (w : Write) (l : Launch) (va : Nat) (p : Place) (new : List Byte), CoresWf s → Memory.wf s.host = true →
    (s.core c).offs.find? (fun x => x.id == req && x.answer.isNone) = none →
    (s.core c).out.find? (fun x => x.id == req) = some w → (s.core c).ready w = true → s.launchOf c = some l →
    l.record = false → l.replay = false → AtFar s c .write va p →
    (w.kind = .store [(va, new)] ∧ u = s ∨
      s.spanFull c w.ch (s.hbm.unitOf p) = false ∧
        ((∃ op sz v, w.kind = .red op sz va v ∧ u = (s.readPlace l.asid p (atomicBytes op sz)).2 ∧
          new = (atomicDo op sz (s.readPlace l.asid p (atomicBytes op sz)).1.1 v).1) ∨
        ∃ op et b, w.kind = .vred op et va b ∧ u = (s.readPlace l.asid p 128).2 ∧
          new = vredLine op et (s.readPlace l.asid p 128).1.1 b)) →
    ∃ t, exec (.remoteAtomicRequest c req) s = .next t ∧ SameMemories (u.writePlace l.asid (flat c) l.id p new) t c ∧
      (∀ x, p = .host x → HostPut s t x new) ∧ (w.kind.isRed = true → KeptFor s t c w.id w.ch (s.hbm.unitOf p) none) ∧
      (t.core c).out = (s.core c).out.filter (fun x => x.id ≠ req)) ∧
  (∀ (op sz : Nat) (old : List Byte) (v : W64), sz = 2 ∨ sz = 3 → old.length = 2 ^ sz →
    let w := 8 * 2 ^ sz
    let x := BitVec.ofNat w (leNat old (2 ^ sz))
    let u := v.setWidth w
    ∃ r : BitVec w, (op ≤ 8 → atomicDo op sz old v = (leBytes r.toNat (2 ^ sz), BitVec.ofNat 64 x.toNat)) ∧
      (op = 0 → r = x + u) ∧ (op = 1 → r = x &&& u) ∧ (op = 2 → r = x ||| u) ∧ (op = 3 → r = x ^^^ u) ∧
      (op = 4 → r = if u.slt x then u else x) ∧ (op = 5 → r = if x.slt u then u else x) ∧
      (op = 6 → r = if u.ult x then u else x) ∧ (op = 7 → r = if x.ult u then u else x) ∧ (op = 8 → r = u)) ∧
  (∀ (old : List Byte) (v : W64), old.length = 4 →
    atomicDo 9 2 old v = (leBytes (fAdd fp32 (leNat old 4) (v.toNat % 2 ^ 32)).1 4, BitVec.ofNat 64 (leNat old 4))) ∧
  (∀ (old : List Byte) (v : W64), old.length = 2 →
    atomicDo 10 1 old v = (leBytes (fAdd bf16 (leNat old 2) (v.toNat % 2 ^ 16)).1 2, BitVec.ofNat 64 (leNat old 2))) ∧
  (∀ (sz : Nat) (old : List Byte) (v : W64), old.length = 64 →
    (atomicDo 11 sz old v = (leBytes (cellAdd (leNat old 64) (v.toNat % 2 ^ 32)) 64, 0)) ∧
    atomicDo 12 sz old v = (if v.getLsbD 0 then List.replicate 64 0 else old, BitVec.ofNat 64 (cellRead (leNat old 64)))) ∧
  (∀ (cell v : Nat), cell < 2 ^ 512 →
    (fp32.decode v = .nan → cellAdd cell v = cell ||| 2 ^ 388) ∧
    (∀ b, fp32.decode v = .inf b → cellAdd cell v = cell ||| 2 ^ (if b then 390 else 389)) ∧
    (∀ b m e, fp32.decode v = .fin b m e → cellAdd cell v / 2 ^ 384 = cell / 2 ^ 384 ∧
      ((cellAdd cell v % 2 ^ 384 : Nat) : Int) = ((cell % 2 ^ 384 : Nat) + (fp32.decode v).atExp (-149)) % 2 ^ 384)) ∧
  (∀ (op et i : Nat) (old new : List Byte), old.length = 128 → new.length = 128 → etWidth et ∈ [8, 16, 32] → i < 1024 / etWidth et →
    let w := etWidth et
    let x := BitVec.ofNat w (elem (leNat old 128) w i)
    let u := BitVec.ofNat w (elem (leNat new 128) w i)
    let r := BitVec.ofNat w (elem (leNat (vredLine op et old new) 128) w i)
    (op = 0 → r = x + u) ∧ (op = 1 → r = x &&& u) ∧ (op = 2 → r = x ||| u) ∧ (op = 3 → r = x ^^^ u) ∧
    (op = 4 → r = if u.slt x then u else x) ∧ (op = 5 → r = if x.slt u then u else x) ∧
    (op = 6 → r = if u.ult x then u else x) ∧ (op = 7 → r = if x.ult u then u else x) ∧
    (op = 9 → et = 8 → r = BitVec.ofNat w (fAdd fp32 x.toNat u.toNat).1) ∧
    (op = 10 → w = 16 → r = BitVec.ofNat w (fAdd bf16 x.toNat u.toNat).1)) ∧
  (∀ (s : State) (c req : Nat), s.sentOn c req = true →
    exec (.requestResend c req) s = .next { s with resends := s.resends ++ [⟨((s.core c).launch).getD 0, c, req, none⟩] }) ∧
  (∀ (s : State) (c req : Nat) (x : Nat × Nat × Nat × Nat), s.requests c = [x] → x.1 = req → s.resends = [] → s.sentOn c req = true) ∧
  (∀ (s : State) (c req : Nat) (w : WindowEntry), s.sentOn c req = false → s.windowed c req = some w → s.mayLack w = true →
    exec (.requestResend c req) s = .next
      { s with resends := s.resends ++ [⟨((s.core c).launch).getD 0, c, req, some (w.source, w.target, w.tag)⟩] }) ∧
  (∀ (s : State) (c req : Nat) (r : Resend) (w : WindowEntry), (∀ x ∈ (s.core c).offs, x.id = req → x.answer ≠ none) →
    (∀ x ∈ (s.core c).out, x.id ≠ req) → s.resends.find? (fun r => r.core == c && r.req == req && r.sent.isSome) = some r →
    s.keptRequests.find? (fun w => r.sent == some (w.source, w.target, w.tag)) = some w → (s.core c).launch = some w.launch →
    exec (.remoteAtomicRequest c req) s = .next { s.setCore c { s.core c with
      offs := (s.core c).offs.map fun x => if x.id = w.req then { x with answer := w.ack.or x.answer } else x } with
      resends := s.resends.erase r }) ∧
  (∀ (s : State) (c idx key i : Nat) (w : Write) (l : Launch) (x : Context) (va pa : Nat) (new : List Byte), CoresWf s →
    Memory.wf s.csm = true → (s.sideEntries c)[idx]? = some (key, i) → (s.core key).side[i]? = some w →
    w.kind = .store [(va, new)] → (∀ y ∈ (s.core key).side.take i, y.ch ≠ w.ch) → s.launchOf key = some l →
    s.context? l.asid = some x → x.tombstone = false →
    ({ s.core key with side := (s.core key).side.eraseIdx i } : Core).ready w = true → AtCsm s key .write va pa →
    ∃ t, exec (.sideLogReplay c idx) s = .next t ∧ CsmPut s t pa new ∧ (t.core key).side = (s.core key).side.eraseIdx i ∧
      (∀ d, d ≠ key → t.core d = s.core d) ∧ { t with csm := s.csm, csmMarks := s.csmMarks, cores := s.cores } = s)

/-! ### The device: engine operations -/

/-- R169, R175, R181, R183, R212, R216, R218, R220, R265, R388: an operation that may start and passes its checks waits for its binding with
its number of steps; one that fails completes at once with its code; MCFG sets the configuration; MLAT starts on its bench; the arbitration
of that cycle follows in the same step (R267).
The model's choices: log entries 28 and 56. -/
def Obligations.OperationsStart : Prop :=
  (∀ (s : State) (c q : Nat) (o : Op) (rest : List Op) (err n : Nat), CoresWf s → AtHead s c q o rest → s.mayStart c o = true →
    startOf s c q o = some (err, n) →
    (err = 0 → n ≠ 0 → exec (.operationStart c q) s =
      .next ((s.setCore c (withHead (s.core c) q { o with state := .claiming, total := n } rest)).arbitration (clusterOf c) (queueKind q))) ∧
    (err = 0 → n = 0 → ∃ t, exec (.operationStart c q) s = .next (t.arbitration (clusterOf c) (queueKind q)) ∧ Completed s t c q (s.core c) { o with benchSteps := false } rest) ∧
    (err ≠ 0 → ∃ t, exec (.operationStart c q) s = .next (t.arbitration (clusterOf c) (queueKind q)) ∧ Completed s t c q (s.core c)
      { o with err := err, flags := 0, onField := false, benchSteps := false, fieldSteps := false } rest)) ∧
  (∀ (s : State) (c q : Nat) (o : Op) (rest : List Op), CoresWf s → AtHead s c q o rest → s.mayStart c o = true → o.code = .mcfg →
    let ok := o.o1.toNat / 2 ^ 48 = 0 ∧ o.o1.toNat / 2 ^ 5 % 2 ^ 27 = 0 ∧ (let w := o.o1.toNat / 2 ^ 32 % 2 ^ 16
      w = 0 ∨ w % 128 = 0 ∧ 256 ≤ w ∧ w ≤ 32768)
    (ok → ∃ t, exec (.operationStart c q) s = .next (t.arbitration (clusterOf c) (queueKind q)) ∧ Completed s t c q
      { s.core c with mxcfg := Sparse.set 0 (s.core c).mxcfg q o.o1 } { o with steps := 1, benchSteps := true } rest) ∧
    (¬ ok → ∃ t, exec (.operationStart c q) s = .next (t.arbitration (clusterOf c) (queueKind q)) ∧ Completed s t c q (s.core c)
      { o with err := 5, flags := 0, onField := false, benchSteps := false, fieldSteps := false } rest)) ∧
  (∀ (s : State) (c q : Nat) (o : Op) (rest : List Op), CoresWf s → AtHead s c q o rest → s.mayStart c o = true → o.code = .mlat →
    matrixErr (s.core c) c q (s.coreSet c) o = 0 →
    exec (.operationStart c q) s =
      .next ((s.setCore c (withHead (s.core c) q { o with state := .bench, total := 1 } rest)).arbitration (clusterOf c) (queueKind q))) ∧
  (∀ (s : State) (c q : Nat) (o : Op) (rest : List Op), CoresWf s → Sparse.wf [] (s.core c).ops = true → AtHead s c q o rest →
    s.mayStart c o = true → o.code = .surrogate → exec (.operationStart c q) s =
      .next ((s.setCore c (withHead (s.core c) q { o with state := .claiming, total := 1 } rest)).arbitration (clusterOf c) (queueKind q)))

/-- R23, R186, R266 to R271, R439: a candidate takes the lowest free enabled unit, a benched one by migrating; with none free it marks an
operation of a lower rank, or goes to its bench; at a step boundary, or before a step that still waits for its operands or its claim, a
migration ends, a halt parks the operation, a marked one moves to its bench, another goes on; staged operands do not move with it, and it
waits on no line; the arbitration of the cycle follows in the same step; a removed unit goes at once or when its operation has left it; idle banks and overhead stores enter
retention mode and leave it.
The model's choices: log entries 10 and 60. -/
def Obligations.OperationsBind : Prop :=
  (∀ (s : State) (cl : Nat) (kind : UnitKind) (c q : Nat) (o : Op) (rest : List Op), AtHead s c q o rest →
    (s.kindHeads cl kind).filter (fun x => x.2.2.candidate && s.engines x.1) = [(c, q, o)] →
    (∀ x ∈ s.kindHeads cl kind, x.2.2.marked ≠ some (c, q)) →
    (∀ u, s.freeUnit cl kind = some u →
      ((s.maskOf cl).getLsbD ((kindBits kind).1 + u) = true ∧ s.unitHeld cl kind u = false ∧
        ∀ v, v < u → (s.maskOf cl).getLsbD ((kindBits kind).1 + v) = true →
          (s.pendingOf cl).getLsbD ((kindBits kind).1 + v) = true ∨ s.unitHeld cl kind v = true) ∧
      exec (.fieldArbitration cl kind) s = .next (s.setCore c (withHead (s.core c) q
        (if o.state = .bench then
          { o with
            state := .migrating, toField := true, unit := u, everField := true, promo := o.promo + 1, stepEnded := false
            fetched := [], idxLines := [] }
        else { o with state := .field, unit := u, everField := true }) rest))) ∧
    (s.freeUnit cl kind = none → o.state = .bench →
      exec (.fieldArbitration cl kind) s = .next (s.setCore c (withHead (s.core c) q { o with stepEnded := false } rest))) ∧
    (s.freeUnit cl kind = none → o.state = .claiming →
      (s.victim cl kind c q = none →
        exec (.fieldArbitration cl kind) s = .next (s.setCore c (withHead (s.core c) q { o with state := .bench } rest))) ∧
      (∀ vc vq p more, s.victim cl kind c q = some (vc, vq, none) → AtHead s vc vq p more →
        exec (.fieldArbitration cl kind) s =
          .next (s.setCore vc (withHead (s.core vc) vq { p with marked := some (c, q) } more))))) ∧
  (∀ (s : State) (c q : Nat) (o : Op) (rest : List Op), CoresWf s → Sparse.wf [] (s.core c).ops = true → s.lively c = true →
    AtHead s c q o rest →
    let here := (o.stepEnded = true ∨ o.blocked = true ∨ o.code = .mma ∧ o.claimed = false) ∧ o.performed = false ∧ o.next < o.total
    let after := fun (t : State) => t.arbitration (clusterOf c) (queueKind q)
    let going := o.marked ≠ none ∨ (s.pendingOf (clusterOf c)).getLsbD ((kindBits (queueKind q)).1 + o.unit) = true
    (o.state = .migrating → exec (.stepBoundary c q) s = .next (after (s.setCore c (withHead (s.core c) q
      { o with state := if o.toField then .field else .bench, stepEnded := false } rest)))) ∧
    (o.state = .field → here → s.haltAsked c = false → ¬ going → exec (.stepBoundary c q) s =
      .next (after (s.setCore c (withHead (s.core c) q { o with stepEnded := false } rest)))) ∧
    (o.state = .field → here → s.haltAsked c = false → going → ∃ t, exec (.stepBoundary c q) s = .next (after t) ∧
      AtHead t c q
        { o with state := .migrating, toField := false, demo := o.demo + 1, marked := none, fetched := [], idxLines := [] } rest ∧
      (∀ d, { t.core d with ops := (s.core d).ops, waiters := (s.core d).waiters } = s.core d) ∧ (∀ d, d ≠ c → (t.core d).ops = (s.core d).ops) ∧
      (∀ d x, x ∈ (t.core d).waiters ↔ x ∈ (s.core d).waiters ∧ ¬ (d ∈ o.sources c ∧ x.2 = readerOp c q))) ∧
    ((o.state = .claiming ∨ (o.state = .field ∨ o.state = .bench) ∧ here) → s.haltAsked c = true →
      ∃ t, exec (.stepBoundary c q) s = .next (after t) ∧ (Sparse.get [] (t.core c).ops q).head? =
        some { o with state := .parked, marked := none, blocked := false, stepEnded := false, fetched := [], idxLines := [] })) ∧
  (∀ (s : State) (cl i : Nat) (m : BitVec 17), s.markhor.booted = true → i < 17 →
    Sparse.wf (BitVec.allOnes 17) s.fieldmask = true → Sparse.wf 0 s.pendingMask = true →
    let asked := (s.pendingOf cl).getLsbD i || (m.getLsbD i && (s.maskOf cl).getLsbD i)
    let held := s.unitHeld cl (unitOfBit i).1 (unitOfBit i).2
    ∃ t, exec (.fieldmaskRemove cl m) s = .next t ∧
      (t.maskOf cl).getLsbD i = ((s.maskOf cl).getLsbD i && !(asked && !held)) ∧ (t.pendingOf cl).getLsbD i = (asked && held) ∧
      { t with fieldmask := s.fieldmask, pendingMask := s.pendingMask } = s) ∧
  (∀ (s : State) (c b : Nat), s.bankBusy c b = false → ((s.core c).run ≠ .running ∨ s.halted c = true ∨ (s.core c).halt = .saved) →
    exec (.retentionEntry (.bank c b)) s =
      .next (s.setCore c { s.core c with retention := Sparse.set false (s.core c).retention b true })) ∧
  (∀ (s : State) (c b : Nat), exec (.retentionExit (.bank c b)) s =
    .next (s.setCore c { s.core c with retention := Sparse.set false (s.core c).retention b false })) ∧
  (∀ (s : State) (cl a : Nat), s.unitHeld cl .matrix a = false →
    exec (.retentionEntry (.overhead cl a)) s = .next { s with overhead := Sparse.set false s.overhead (8 * cl + a) true }) ∧
  (∀ (s : State) (cl a : Nat),
    exec (.retentionExit (.overhead cl a)) s = .next { s with overhead := Sparse.set false s.overhead (8 * cl + a) false })

/-- R167, R168, R176 to R182, R184, R432, R438: an MMA claims its tile of C, its lines empty, with the accumulators that it finds, or zeros; each step
adds to every cell the block of its row of A and its column of B; at the end the tile is written back, its lines full, and the
operation completes; an MLAT writes the blocks of its rows and their scales into its latch and completes. An uncorrectable word in what a
claim reads ends the launch; what is written whole is good again.
The model's choices: log entries 71 and 76. -/
def Obligations.MatrixOperations : Prop :=
  (∀ (s : State) (c q : Nat) (o : Op) (rest : List Op), CoresWf s → SpmWf (s.core c) → AtHead s c q o rest → o.code = .mma →
    o.claimed = false → (o.state = .claiming ∨ o.state = .field ∨ o.state = .bench) → s.engines c = true →
    (s.core c).claimWaits q o = false → (s.core c).retained ((s.core c).clinesOf q o) = false →
    (o.em.getLsbD 2 = true ∨ (∀ l ∈ (s.core c).clinesOf q o, (s.core c).isFull l = true) ∧
      (s.core c).othersWait (readerOp c q) ((s.core c).clinesOf q o) = false) →
    let cstr := cstrOf ((s.core c).cfgOf q)
    ((s.core c).claimSpoiled q o = true → exec (.mmaClaim c q) s = .next (s.pinCore c 9)) ∧
    ((s.core c).claimSpoiled q o = false → ∃ F C E S, exec (.mmaClaim c q) s = .next (s.setCore c (withHead { s.core c with full := F } q
        { o with claimed := true, blocked := false, acc := C, base := C, snapE := E, snapS := S } rest)) ∧
      (∀ l, (InTile o.o1.toNat cstr l → Sparse.get true F l = false) ∧
        (¬ InTile o.o1.toNat cstr l → Sparse.get true F l = (s.core c).isFull l)) ∧
      (∀ i j, i < 64 → j < 64 → Sparse.get 0 C (64 * i + j) = if o.em.getLsbD 2 then 0
        else BitVec.ofNat 32 (leNat (memBytes (s.core c).scratch (o.o1.toNat + i * cstr + 4 * j) 4) 4)) ∧
      (o.em.getLsbD 5 = false → ∀ n, n < 32768 → Sparse.get 0 E n = Sparse.get 0 (s.core c).arch.latchE (fld o.em 6 2 * 32768 + n)) ∧
      (o.em.getLsbD 5 = false → ∀ n, n < 2048 → Sparse.get 0 S n = Sparse.get 0 (s.core c).arch.latchS (fld o.em 6 2 * 2048 + n)))) ∧
  (∀ (s u : State) (c q : Nat) (o p : Op) (rest more : List Op) (ls : List (Nat × List Byte)), AtHead s c q o rest → o.code = .mma →
    o.claimed = true → o.atStep = true → o.next < o.total → s.lively c = true → s.arrayAsleep c o = false → Sparse.wf 0 o.acc = true →
    s.operands c q o (recKeys c o.recB (o.cellsB o.next) ++ (if o.at then recKeys c o.recA (o.cellsA o.next) else [])) = (some ls, u) →
    HeadAfterReading u c q o p more →
    let cell := fun i j => mmaCell o.fmt (Sparse.get 0 o.acc (64 * i + j)).toNat (rowOf (s.core c) c q o ls i) (colOf c o ls j)
    ∃ A fl, exec (.mmaStep c q) s =
        .next (u.setCore c (withHead (u.core c) q (stepDone { p with acc := A, flags := fl }) more)) ∧
      (∀ i j, i < 64 → j < 64 → Sparse.get 0 A (64 * i + j) = BitVec.ofNat 32 (cell i j).1) ∧
      (∀ n, fl.getLsbD n = true ↔ o.flags.getLsbD n = true ∨ ∃ i j, i < 64 ∧ j < 64 ∧ (cell i j).2.getLsbD n = true)) ∧
  (∀ (s : State) (c q : Nat) (o : Op) (rest : List Op), CoresWf s → SpmWf (s.core c) → AtHead s c q o rest → o.code = .mma →
    o.claimed = true → o.performed = false → o.total ≤ o.next → s.lively c = true →
    (s.core c).retained ((s.core c).clinesOf q o) = false → s.doubled c = false → (s.core c).waiters = [] → NoClaim s c →
    256 ≤ cstrOf ((s.core c).cfgOf q) →
    ∃ t M F K l, exec (.mmaWriteBack c q) s = .next t ∧ TilePut s c q o M F K ∧
      Completed (landedOn s l) t c q { s.core c with scratch := M, full := F, marks := K } o rest) ∧
  (∀ (s u : State) (c q : Nat) (o p : Op) (rest more : List Op) (ls : List (Nat × List Byte)), AtHead s c q o rest → o.code = .mlat →
    o.state = .bench → o.performed = false → s.lively c = true → s.doubled c = false → u.doubled c = false →
    s.operands c q o (recKeys c o.recA ((List.range o.blocks).flatMap o.cellsA)) = (some ls, u) → HeadAfterReading u c q o p more →
    Sparse.wf 0 (u.core c).arch.latchE = true → Sparse.wf 0 (u.core c).arch.latchS = true →
    let lkb := lkbOf ((s.core c).cfgOf q)
    let bb := blockBytes o.fmt
    let blk := fun i b => recBlockOf ls c o.recA fun e => (64 * coordR o.o3 + i, coordK o.o3 + 32 * b + e)
    (lkb + o.blocks) * bb ≤ 512 →
    ∃ t E S L e sc, exec (.mlatPerform c q) s = .next t ∧
      Completed u t c q { u.core c with arch := { (u.core c).arch with latchE := E, latchS := S, latchMarks := L } }
        (stepDone { o with snapE := e, snapS := sc }) more ∧
      (∀ w, w < 16384 → (w ∈ L ↔ w ∈ (u.core c).arch.latchMarks ∧ ¬ ∀ n, n < 8 → ∃ i b, i < 64 ∧ b < o.blocks ∧
        o.latch * 32768 + 512 * i + (lkb + b) * bb ≤ 8 * w + n ∧ 8 * w + n < o.latch * 32768 + 512 * i + (lkb + b + 1) * bb)) ∧
      (∀ w, 16384 + w ∈ L ↔ 16384 + w ∈ (u.core c).arch.latchMarks ∧ ¬ (isMx o.fmt = true ∧ ∀ n, n < 8 → ∃ i b, i < 64 ∧ b < o.blocks ∧
        8 * w + n = o.latch * 2048 + 32 * i + lkb + b)) ∧
      (∀ i b n, i < 64 → b < o.blocks → n < bb → Sparse.get 0 E (o.latch * 32768 + 512 * i + (lkb + b) * bb + n) =
        BitVec.ofNat 8 (packElems (fmtBits o.fmt) (blk i b).1 / 2 ^ (8 * n))) ∧
      (isMx o.fmt = true → lkb + o.blocks ≤ 32 → ∀ i b, i < 64 → b < o.blocks → Sparse.get 0 S (o.latch * 2048 + 32 * i + lkb + b) =
        BitVec.ofNat 8 (blk i b).2))

/-- R212, R214, R218, R219, R220, R240, R254, R388, R429: a copy's step writes its bytes, converted, to every target and to nothing else; the
last byte landed, the copy completes, and a CPYN first posts its enqueue to its target; an SFN step writes its 1,024 results; a GATH
step writes its rows, zeros for an index past the table, a SCAT step the table's; a surrogate invocation delivers its outputs and the
streams go on behind the region; with matching result signatures an operation of a pair is written back, with a mismatch it is made
again, and the third ends the launch.
The model's choices: log entries 21, 57 and 71. -/
def Obligations.OtherOperations : Prop :=
  (∀ (s u : State) (c q : Nat) (o p : Op) (rest more : List Op) (ls : List (Nat × List Byte)) (now : List (Nat × ByteSrc)),
    AtHead s c q o rest → (o.code = .cpy ∨ o.code = .cpyt ∨ o.code = .cpyn ∨ o.code = .cpym) → o.atStep = true → o.next < o.total →
    s.lively c = true → o.steps?[o.next]? = some now → o.spill = [] →
    s.operands c q o (now.flatMap fun x => o.byteKeys c x.2) = (some ls, u) → HeadAfterReading u c q o p more → u.doubled c = false →
    (∀ sp ∈ o.targets c, sp ≠ 0 ∧ Memory.wf (u.core (sp - 1)).scratch = true ∧ (u.core (sp - 1)).waiters = []) →
    let byte := fun (x : Nat × ByteSrc) => BitVec.ofNat 8 (o.dstByte ls c u.choice x.1 x.2).1
    u.hurdle c o ((o.targets c).flatMap fun sp => now.map fun x => (sp, x.1, byte x)) = .none →
    ∃ t, exec (.copyStep c q) s = .next t ∧
      (∀ d a, if d + 1 ∈ o.targets c then
          match (now.filter fun x => x.1 == a).getLast? with
          | some x => LandedOver u d a (byte x) (spmByte (t.core d) a)
          | none => spmByte (t.core d) a = spmByte (u.core d) a
        else spmByte (t.core d) a = spmByte (u.core d) a) ∧
      (∃ fl, (Sparse.get [] (t.core c).ops q).head? = some (stepDone { p with flags := fl, held := [], own := [] }))) ∧
  (∀ (s : State) (c q : Nat) (o : Op) (rest : List Op), CoresWf s → AtHead s c q o rest →
    (o.code = .cpy ∨ o.code = .cpyt ∨ o.code = .cpyn ∨ o.code = .cpym) → (o.state = .field ∨ o.state = .bench) → o.performed = false →
    o.total ≤ o.next → s.lively c = true → s.doubled c = false →
    (o.code ≠ .cpyn → ∃ t, exec (.copyPerformed c q) s = .next t ∧ Completed s t c q (s.core c) o rest) ∧
    (o.code = .cpyn → o.dropped = true → ∃ t, exec (.copyPerformed c q) s = .next t ∧ Completed s t c q (s.core c) o rest) ∧
    (∀ id, o.code = .cpyn → o.dropped = false → o.spill = [] → o.remains = false → (s.core (recTcore o.recB)).launch = some id →
      ∃ t, exec (.copyPerformed c q) s = .next t ∧
        Completed { s with heldEvents := s.heldEvents ++ [⟨flat (recTcore o.recB), flat c, id, eventWord 2 0 c q o.seq, o.o3⟩] }
          t c q (s.core c) o rest)) ∧
  (∀ (s u : State) (c : Nat) (o p : Op) (rest more : List Op) (ls : List (Nat × List Byte)), AtHead s c 4 o rest → o.code = .sfn →
    o.atStep = true → s.lively c = true → u.doubled c = false → Memory.wf (u.core c).scratch = true → (u.core c).waiters = [] →
    let first := 1024 * o.next
    let n := min 1024 (o.count - first)
    let lines : Nat → List Nat := fun a => (linesOf (a + 4 * first) (4 * n)).map fun l => (c + 1) * 2 ^ 64 + l
    s.operands c 4 o (lines o.o2.toNat ++ (if o.func = 0 then lines o.yAt else [])) = (some ls, u) → HeadAfterReading u c 4 o p more →
    let res := fun j => sfnOf o.func (lineNat ls (c + 1) (o.o2.toNat + 4 * (first + j)) 4) (lineNat ls (c + 1) (o.yAt + 4 * (first + j)) 4)
    (∀ l ∈ linesOf (o.o1.toNat + 4 * first) (4 * n), (u.core c).retained [l] = false) →
    ∃ t, exec (.sfnStep c) s = .next t ∧
      (∀ j b, j < n → b < 4 → LandedOver u c (o.o1.toNat + 4 * (first + j) + b) (BitVec.ofNat 8 ((res j).1 / 2 ^ (8 * b)))
        (spmByte (t.core c) (o.o1.toNat + 4 * (first + j) + b))) ∧
      (∀ a, ¬ (o.o1.toNat + 4 * first ≤ a ∧ a < o.o1.toNat + 4 * first + 4 * n) → spmByte (t.core c) a = spmByte (u.core c) a) ∧
      (∀ d, d ≠ c → (t.core d).scratch = (u.core d).scratch)) ∧
  (∀ (s u v : State) (c : Nat) (o p : Op) (rest more : List Op) (ls ms : List (Nat × List Byte)), AtHead s c 5 o rest →
    o.code = .gath → 8 ≤ fmtBits (recFmt o.recA) → o.atStep = true → s.lively c = true → v.doubled c = false →
    Memory.wf (v.core c).scratch = true → (v.core c).waiters = [] →
    let first := 1024 * o.next
    let n := min 1024 (o.gcount - first)
    let space := recSpace c o.recA
    let index : Nat → Nat := fun j => lineNat ls (c + 1) (o.o3.toNat + 4 * (first + j)) 4
    s.operands c 5 { o with fetched := o.fetched ++ o.idxLines } ((linesOf (o.o3.toNat + 4 * first) (4 * n)).map fun l => (c + 1) * 2 ^ 64 + l) = (some ls, u) →
    u.operands c 5 { o with fetched := ls } (((List.range n).filter fun j => index j < recRows o.recA).flatMap fun j =>
      (distinct ((o.rowAddrs (index j)).map (· / 128))).map fun l => space * 2 ^ 64 + l) = (some ms, v) →
    HeadAfterReading v c 5 o p more →
    v.hurdle c o ((List.range n).flatMap fun j =>
      (if index j < recRows o.recA then (o.rowAddrs (index j)).map fun a => BitVec.ofNat 8 (lineByte ms space a)
       else List.replicate o.rowLen 0).mapIdx fun b x => (c + 1, o.gp + (first + j) * o.rowLen + b, x)) = .none →
    ∃ t, exec (.gatherStep c) s = .next t ∧
      (∀ j b, j < n → b < o.rowLen → LandedOver v c (o.gp + (first + j) * o.rowLen + b)
        (if index j < recRows o.recA then BitVec.ofNat 8 (lineByte ms space (((o.rowAddrs (index j))[b]?).getD 0)) else 0)
        (spmByte (t.core c) (o.gp + (first + j) * o.rowLen + b))) ∧
      (∀ a, ¬ (o.gp + first * o.rowLen ≤ a ∧ a < o.gp + (first + n) * o.rowLen) → spmByte (t.core c) a = spmByte (v.core c) a)) ∧
  (∀ (s u v : State) (c t : Nat) (o p : Op) (rest more : List Op) (ls ms : List (Nat × List Byte)), AtHead s c 5 o rest →
    o.code = .scat → o.atStep = true → s.lively c = true → v.doubled c = false → recSpace c o.recA = t + 1 →
    Memory.wf (v.core t).scratch = true → (v.core t).waiters = [] →
    let first := 1024 * o.next
    let n := min 1024 (o.gcount - first)
    let index : Nat → Nat := fun j => lineNat ls (c + 1) (o.o3.toNat + 4 * (first + j)) 4
    let good := (List.range n).filter fun j => index j < recRows o.recA
    let from_ := fun j b => BitVec.ofNat 8 (lineByte ms (c + 1) (o.gp + (first + j) * o.rowLen + b))
    let puts := good.flatMap fun j => (o.rowAddrs (index j)).mapIdx fun b a => (t + 1, a, from_ j b)
    s.operands c 5 { o with fetched := o.fetched ++ o.idxLines }
      ((linesOf (o.o3.toNat + 4 * first) (4 * n)).map fun l => (c + 1) * 2 ^ 64 + l) = (some ls, u) →
    u.operands c 5 { o with fetched := ls } (good.flatMap fun j =>
      (linesOf (o.gp + (first + j) * o.rowLen) o.rowLen).map fun l => (c + 1) * 2 ^ 64 + l) = (some ms, v) →
    HeadAfterReading v c 5 o p more → v.hurdle c o puts = .none →
    ∃ x, exec (.gatherStep c) s = .next x ∧
      (∀ a, match (puts.filter fun y => y.2.1 == a).getLast? with
        | some y => LandedOver v t a y.2.2 (spmByte (x.core t) a)
        | none => spmByte (x.core t) a = spmByte (v.core t) a)) ∧
  (∀ (s : State) (c : Nat) (o : Op) (rest : List Op) (l : Launch) (x : Region) (next : W64), CoresWf s → Sparse.wf [] (s.core c).ops = true →
    AtHead s c 6 o rest → o.atStep = true → s.lively c = true → s.doubled c = false → s.regionFor c o.o1.toNat = some (l, x) →
    (s.core c).wait = .invocation o.o1.toNat next → (s.core c).deferred = none →
    ∃ t, exec (.surrogateInvocation c) s = .next t ∧ (t.core c).wait = .none ∧ (t.core c).arch.pc = next ∧
      (t.core c).arch.till = some (BitVec.ofNat 64 x.fin) ∧ Sparse.get [] (t.core c).ops 6 = rest ∧
      (t.core c).arch.inflX.map (fun e => (e.what, e.flags, e.left)) = (s.core c).arch.inflX.map (fun e => (e.what, e.flags, e.left)) ++
        (x.outs.zip (invoke (netOf o.snapS x.nin x.nout) x.nout (vecsOfBytes o.snapE x.nin))).map
          fun y => (.v (rot (s.core c).arch.rb y.1) y.2, 0, 0)) ∧
  (∀ (s : State) (c q fault : Nat) (o : Op) (rest : List Op), AtHead s c q o rest → o.performed = true → o.released = false →
    s.lively c = true → crc32 (s.resultBytes c q o) ≠ crc32 (disturb (s.resultBytes c q o) fault) →
    (o.mismatches < 2 → exec (.resultSignatureCompare c q fault) s = .next (s.setCore c (withHead (s.core c) q { o with
      mismatches := o.mismatches + 1, performed := false, next := 0, acc := o.base, flags := 0, err := 0, sticky9 := false
      held := [], own := [], spill := [], remains := false, dropped := false, idxLines := [], unfilled := [], fetched := []
      stepEnded := false, blocked := false } rest))) ∧
    (2 ≤ o.mismatches → exec (.resultSignatureCompare c q fault) s = .next (s.pinCore c 2))) ∧
  (∀ (s : State) (c q fault : Nat) (o : Op) (rest : List Op), CoresWf s → AtHead s c q o rest → o.performed = true → o.released = false →
    s.lively c = true → crc32 (s.resultBytes c q o) = crc32 (disturb (s.resultBytes c q o) fault) →
    ∃ t, exec (.resultSignatureCompare c q fault) s = .next t ∧
      (o.code = .mlat → Sparse.wf 0 (s.core c).arch.latchE = true → Sparse.wf 0 (s.core c).arch.latchS = true →
        ∃ E S L, LatchPut (s.core c).arch o E S ∧
          Completed s t c q { s.core c with arch := { (s.core c).arch with latchE := E, latchS := S, latchMarks := L } } o rest) ∧
      (o.code = .mma → SpmWf (s.core c) → (s.core c).waiters = [] → NoClaim s c →
        256 ≤ cstrOf ((s.core c).cfgOf q) → ∃ M F K l, TilePut s c q o M F K ∧
          Completed (landedOn s l) t c q { s.core c with scratch := M, full := F, marks := K } o rest) ∧
      ((o.code = .cpy ∨ o.code = .cpyt ∨ o.code = .cpym ∨ o.code = .sfn ∨ o.code = .gath ∨ o.code = .scat) →
        s.hurdle c o o.held = .none → (s.core c).waiters = [] →
        (∀ x ∈ o.held, x.1 ≠ 0 ∧ Memory.wf (s.core (x.1 - 1)).scratch = true ∧ (s.core (x.1 - 1)).waiters = []) →
        ∃ u, HeldPut s u o.held ∧ Completed u t c q (u.core c) o rest))

/-! ### The device: arrivals, frames -/

/-- R13, R229 to R233: a held event record enters the EQ of its core, both words together, while there is room; a message and a steal
request enter their target's queue in order; a stealer goes on with the record it has got, or falls through; a placed record arrives at
the top of its deque in the window that it was spawned in, or comes back to its sender where its core takes no further entry; a full deque is
an error pinned to the launch.
The model's choices: log entries 61, 82 and 83. -/
def Obligations.ArrivalsEnter : Prop :=
  (∀ (s : State) (c idx : Nat) (e : HeldEvent), CoresWf s → Sparse.wf [] (s.core c).arch.qs = true →
    (s.nextEvents c)[idx]? = some e → ((s.core c).arch.q .eq).length + 2 ≤ 128 → e.sensitive = false ∨ Free s e.launch →
    ∃ t x z, exec (.eventEntry c idx) s = .next t ∧ s.heldEvents = x ++ e :: z ∧ e ∉ x ∧ t.heldEvents = x ++ z ∧
      (t.core c).arch.q .eq = (s.core c).arch.q .eq ++
        [⟨(s.core c).arch.qid, some e.w0, none, false⟩, ⟨(s.core c).arch.qid + 1, some e.w1, none, false⟩] ∧
      OthersKeep s t c ∧ { t with cores := s.cores, heldEvents := s.heldEvents } = s) ∧
  (∀ (s : State) (c idx : Nat) (e : HeldEvent), (s.nextEvents c)[idx]? = some e → 128 < ((s.core c).arch.q .eq).length + 2 →
    exec (.eventEntry c idx) s = .next s) ∧
  (∀ (s : State) (c id : Nat) (m : Message), CoresWf s → Sparse.wf [] (s.core m.target).arch.qs = true → s.nextMessage c = some m →
    (s.core c).launch = some id → s.present c id = true → s.present m.target id = true → Free s id →
    (m.steal = true → s.endedWindow c m.target = false) →
    let q := if m.toMb || m.steal then Q.mb else Q.iq
    ∃ t, exec (.messageArrival c) s = .next t ∧
      (t.core m.target).arch.q q = (s.core m.target).arch.q q ++ [⟨(s.core m.target).arch.qid,
        if m.steal then none else some m.value, if m.steal then some c else none, false⟩] ∧
      (∃ x z, (s.core c).msgs = x ++ m :: z ∧ m ∉ x ∧ (t.core c).msgs = x ++ z) ∧
      (∀ d, d ≠ c → d ≠ m.target → t.core d = s.core d) ∧ { t with cores := s.cores } = s) ∧
  (∀ (s : State) (c id : Nat) (m : Message), CoresWf s → s.nextMessage c = some m → (s.core c).launch = some id →
    s.present c id = true → s.present m.target id = true → Free s id → m.steal = true → s.endedWindow c m.target = true →
    ∃ t, exec (.messageArrival c) s = .next t ∧ (t.core c).wait = .answered none) ∧
  (∀ (s : State) (c : Nat) (l : Launch), CoresWf s → s.launchOf c = some l → s.lively c = true → (s.core c).deferred = none →
    ((s.core c).wait = .answered none → ∃ r, exec (.stealAnswer c) s = .next (s.setCore c
      { s.core c with wait := .none, seg := { (s.core c).seg with recorded := r } })) ∧
    (∀ x, (s.core c).wait = .answered (some x) → ∃ r, exec (.stealAnswer c) s = .next (s.setCore c { s.core c with
      wait := .none, seg := { (s.core c).seg with recorded := r }
      arch := { (List.range 7).foldl (fun b n => b.fly .execute (.s (n + 1) ((x.args[n]?).getD 0)) 1 0) (s.core c).arch with
        pc := x.pc, skip := 0, till := none, loop := none, turn := none, loopOn := false, ahead := [] } }))) ∧
  (∀ (s : State) (c v : Nat) (l : Launch), CoresWf s → s.launchOf c = some l → s.lively c = true → (s.core c).wait = .steal v →
    l.replay = false → l.record = false → s.endedWindow c v = true →
    ∃ t, exec (.stealAnswer c) s = .next t ∧ (t.core c).wait = .answered none) ∧
  (∀ (s : State) (idx : Nat) (x : Transit), CoresWf s → s.transits[idx]? = some x →
    (∀ y ∈ s.transits.take idx, ¬ (y.target = x.target ∧ y.sender = x.sender)) → s.present x.target x.launch = true → Free s x.launch →
    (s.inWindow x.target x = false → (s.core x.target).run ≠ .ended → exec (.dequeTopDelivery idx) s = .next s) ∧
    ((s.core x.target).run = .ended → (s.core x.sender).run = .running → s.inWindow x.sender x = true →
      (s.core x.sender).deque.length < 4096 → ∃ t, exec (.dequeTopDelivery idx) s = .next t ∧
        t.core x.sender = { s.core x.sender with deque := x.record :: (s.core x.sender).deque } ∧ t.transits = s.transits.eraseIdx idx ∧
        OthersKeep s t x.sender) ∧
    ((s.core x.target).run = .running → s.inWindow x.target x = true → (s.core x.target).deque.length < 4096 →
      ∃ t, exec (.dequeTopDelivery idx) s = .next t ∧
        t.core x.target = { s.core x.target with deque := x.record :: (s.core x.target).deque } ∧ t.transits = s.transits.eraseIdx idx ∧
        OthersKeep s t x.target ∧ { t with cores := s.cores, transits := s.transits } = s) ∧
    ((s.core x.target).run = .running → s.inWindow x.target x = true → 4096 ≤ (s.core x.target).deque.length →
      exec (.dequeTopDelivery idx) s = .next (s.pin x.launch 0xD x.sender)))

/-- R283 to R286, R345, R390, R431, R437, R438: the tick advances once nothing is due at the tick reached, and takes every counting frame
counter with it, to the next frame behind a processed one; a deadline with entries overdue is a slip for each, and the counter stands; a
counter starts at frame 0, tick 0; a timetable entry starts at its PC with a new segment, an empty deque and a drained pipeline of bundles.
On-chip errors found by a tick come before it: one in a register marks it, and a part that reads it meets a poisoned value; one in the
scratchpad marks its word; one in best-effort data is counted, and a log record with it is gone.
The model's choices: log entries 29, 30, 31, 65 and 71. -/
def Obligations.FramesAdvance : Prop :=
  (∀ s : State, exec .globalTick s = exec .globalTick { s.upsets s.found with found := [] }) ∧
  (∀ (s : State) (c n : Nat), CoresWf s → c < 288 → n < 64 → n ≠ 0 →
    let t := s.upsets [.scalar c n]
    (∀ f m, (t.core c).arch.marked f m = (decide (f = .s ∧ m = n) || (s.core c).arch.marked f m)) ∧ OthersKeep s t c ∧
      { (t.core c).arch with marks := (s.core c).arch.marks } = (s.core c).arch ∧ { t with cores := s.cores } = s) ∧
  (∀ (s : State) (b : Bundle) (side : Side) (i : Nat) (x : Instr) (r : RFile × Nat), i ∈ b.order side → b.live s.part.preds i = some x →
    r ∈ readsOf s.part.rb x → (arch s).marked r.1 r.2 = true → s.tryPart b side = .poison) ∧
  (∀ (s : State) (c a : Nat), CoresWf s → SpmWf (s.core c) → c < 288 → a < 2097152 →
    let t := s.upsets [.scratchpad c a]
    (∀ w, Sparse.get false (t.core c).marks w = (w == a / 8 || Sparse.get false (s.core c).marks w)) ∧ OthersKeep s t c ∧
      { t.core c with marks := (s.core c).marks } = s.core c ∧ { t with cores := s.cores } = s) ∧
  (∀ (s : State) (unit : Nat), Sparse.wf 0 s.errors = true → unit < 336 →
    let t := s.upsets [.telemetry unit]
    (∀ v, Sparse.get 0 t.errors v = Sparse.get 0 s.errors v + (if v = unit then 1 else 0)) ∧ { t with errors := s.errors } = s) ∧
  (∀ (s : State) (stack i : Nat) (transfer : Bool), Sparse.wf 0 s.errors = true → stack < 12 →
    let t := s.upsets [.logRecord stack transfer i]
    let mine := fun (m : MemLog) => m.stack == stack && m.transfer == transfer
    t.hbm.logs.filter mine = (s.hbm.logs.filter mine).eraseIdx i ∧
      t.hbm.logs.filter (fun m => !mine m) = s.hbm.logs.filter (fun m => !mine m) ∧
      Sparse.get 0 t.errors (324 + stack) = Sparse.get 0 s.errors (324 + stack) + 1) ∧
  (∀ s : State, s.found = [] → (∃ l ∈ s.launches, s.startsCounter l = true ∨ s.endsFrame l = true ∨ ∃ c ∈ l.cores, (s.startable c).isSome = true) →
    exec .globalTick s = .next { s with found := Config.found s.choice }) ∧
  (∀ s : State, s.found = [] → (∀ l ∈ s.launches, s.startsCounter l = false ∧ s.endsFrame l = false ∧ ∀ c ∈ l.cores, (s.startable c).isSome = false) →
    ((∀ l ∈ s.launches, s.counts l = false ∧ s.launch? l.id = some l) → exec .globalTick s =
      .next { s with gtc := s.gtc + 1, found := Config.found s.choice }) ∧
    (∀ l k, s.launches = [l] → s.counts l = true → s.kernel? l = some k → l.record = false → l.replay = false →
      let late := s.overdue l k (l.tick + 1)
      (late = [] → l.tick + 1 < k.frameTicks → exec .globalTick s = .next { s with
        gtc := s.gtc + 1, found := Config.found s.choice, launches := [{ l with ran := l.ran + 1, tick := l.tick + 1, slipAt := none }] }) ∧
      (late = [] → l.tick + 1 = k.frameTicks → l.frameDone = true → exec .globalTick s = .next { s with
        gtc := s.gtc + 1
        found := Config.found s.choice
        launches := [{ l with ran := l.ran + 1, frame := l.frame + 1, tick := 0, slipAt := none, frameDone := false }] }) ∧
      (late ≠ [] → l.slipAt ≠ some (l.tick + 1) → ∃ t, exec .globalTick s = .next t ∧ t.gtc = s.gtc + 1 ∧
        t.launches = [{ l with ran := l.ran + 1, slipAt := some (l.tick + 1), slips := l.slips + late.length }]))) ∧
  (∀ (s : State) (id : Nat) (l : Launch), s.launch? id = some l → l.state = .running → l.pinned = none → l.frcOn = false →
    l.startTick ≤ s.gtc → exec (.frameCounterStart id) s =
      .next { s with launches := s.launches.map fun m => if m.id = id then { m with frcOn := true, frame := 0, tick := 0 } else m }) ∧
  (∀ (s : State) (c i n : Nat) (e : TTEntry), s.startable c = some (i, n, e) →
    let k := s.core c
    let a := { k.arch with
      pc := BitVec.ofNat 64 e.pc, skip := 0, till := none, ahead := [], waitX := 0, waitA := 0, loop := none, turn := none
      loopOn := false, trap := k.arch.trap.filter fun r => r.post }
    exec (.entryStart c) s = .next (s.setCore c { k with
      arch := a, run := .running, entry := some i, entryFrame := n, stage := e.stage, blockEnded := false, windowEnded := false
      seg := Segment.openAt a, mustClose := false, closedFor := true, rvPassed := false, deque := [], lastMark := false
      wait := .none, deferred := none })) ∧
  (∀ (s : State) (id : Nat) (l : Launch) (m : Module) (x : Region), s.launch? id = some l → s.endsFrame l = true → s.holds l = true →
    s.modules = [m] → m.handle = l.module → m.regions = [x] → l.cfgs = [] → l.samples = [] →
    let begs := l.sgBegs.filter fun b => b.1 == 0
    let left := x.word64 0x10 % 2 ^ 32
    (x.state = 4 → begs ≠ [] → x.invAt ≠ some (l.id, l.frame) → ∃ t, exec (.frameEndProcessing id) s = .next t ∧
      t.modules = [{ m with regions := [x.setState 0] }] ∧
      t.launches = s.launches.map fun y => if y.id = id then { y with samples := [], cfgs := [], sgBegs := [], frameDone := true } else y) ∧
    (x.state = 3 → begs.length < left → ∃ t, exec (.frameEndProcessing id) s = .next t ∧
      t.modules = [{ m with regions := [x.setField 0x10 0 32 (left - begs.length)] }] ∧
      t.launches = s.launches.map fun y => if y.id = id then { y with samples := [], cfgs := [], sgBegs := [], frameDone := true } else y) ∧
    (x.state = 3 → left ≤ begs.length → begs ≠ [] → ∃ t, exec (.frameEndProcessing id) s = .next t ∧
      t.modules = [{ m with regions := [((x.setField 0x10 0 32 0).setState 1).clearWindow] }] ∧
      t.launches = s.launches.map fun y => if y.id = id then { y with samples := [], cfgs := [], sgBegs := [], frameDone := true } else y)) ∧
  (∀ (s : State) (id : Nat) (l : Launch), s.launch? id = some l → s.endsFrame l = true → s.holds l = false →
    exec (.frameEndProcessing id) s = .next { s with launches := s.launches.map fun y =>
      if y.id = id then { y with samples := [], cfgs := [], sgBegs := [], frameDone := true } else y })

/-- R335, R339, R348, R350, R351, R435, R441: until the package has booted a command of system software is refused; then contexts are
created, destroyed and ranked, slot tables, event areas, core-set handles and keys registered, launches halted and resumed by a
debugger; a waiting record goes into its host event area and WIDX counts it.
The model's choices: log entries 8, 10, 33 and 34. -/
def Obligations.ContextCommands : Prop :=
  (∀ (s : State) (i : Instr), s.markhor.booted = false →
    ((∃ a r, i = .contextCreate a r) ∨ (∃ a, i = .contextDestroy a) ∨ (∃ a r, i = .rankWrite a r) ∨ (∃ d n v, i = .slotTableWrite d n v) ∨
      (∃ a b c d e, i = .registerHostEventArea a b c d e) ∨ (∃ b c d e, i = .registerSystemEventRing b c d e) ∨
      (∃ a h c, i = .registerCoreSetHandle a h c) ∨ (∃ a k, i = .registerPublicKeys a k) ∨ (∃ l, i = .debugHalt l) ∨
      (∃ l, i = .debugResume l)) → exec i s = .next { s with answers := s.answers ++ [.refused 1] }) ∧
  (∀ (s : State) (asid rank : Nat), s.markhor.booted = true → s.asidFree asid = true →
    exec (.contextCreate asid rank) s = .next { s with
      contexts := Sparse.set none s.contexts asid (some ⟨true, rank, none, [], [], [], false, none⟩), answers := s.answers ++ [.ok] }) ∧
  (∀ (s : State) (asid : Nat) (x : Context), s.markhor.booted = true → s.context? asid = some x → x.live = true →
    (s.hasLaunch asid = false → ∃ t, exec (.contextDestroy asid) s = .next t ∧
      t.contexts = Sparse.set none s.contexts asid none ∧ t.modules = s.modules.filter (fun m => m.asid ≠ asid) ∧
      t.answers = s.answers ++ [.ok] ∧ t.cores = s.cores) ∧
    (s.hasLaunch asid = true → x.tearing = none → exec (.contextDestroy asid) s = .next { s with
      contexts := Sparse.set none s.contexts asid (some { x with tearing := some (0xC, []) }), answers := s.answers ++ [.ok] }) ∧
    (∀ r, exec (.rankWrite asid r) s = .next { s with
      contexts := Sparse.set none s.contexts asid (some { x with rank := r }), answers := s.answers ++ [.ok] }) ∧
    (∀ base size widx ridx, base % 16 = 0 → (∃ i, i < 11 ∧ size = 2 ^ (6 + i)) →
      exec (.registerHostEventArea asid base size widx ridx) s = .next { s with
        contexts := Sparse.set none s.contexts asid
          (some { x with area := some ⟨base, size, widx, ridx, leNat (memBytes s.host widx 8) 8⟩ })
        answers := s.answers ++ [.ok] }) ∧
    (∀ h cores, (∃ c, c < 288 ∧ c ∈ cores) → exec (.registerCoreSetHandle asid h cores) s = .next { s with
      contexts := Sparse.set none s.contexts asid (some { x with
        coreSets := (x.coreSets.filter fun e => e.1 ≠ h) ++ [(h, (List.range 288).filter fun c => cores.contains c)] })
      answers := s.answers ++ [.ok] }) ∧
    (∀ keys, exec (.registerPublicKeys asid keys) s = .next { s with
      contexts := Sparse.set none s.contexts asid (some { x with keys := keys }), answers := s.answers ++ [.ok] })) ∧
  (∀ (s : State) (base size widx ridx : Nat), s.markhor.booted = true → base % 16 = 0 → (∃ i, i < 11 ∧ size = 2 ^ (6 + i)) →
    s.ringHeld = [] → exec (.registerSystemEventRing base size widx ridx) s = .next { s with
      ring := some ⟨base, size, widx, ridx, leNat (memBytes s.host widx 8) 8⟩, answers := s.answers ++ [.ok] }) ∧
  (∀ (s : State) (die idx : Nat) (v : W32), s.markhor.booted = true → exec (.slotTableWrite die idx v) s = .next { s with
    slotPending := Sparse.set 0 s.slotPending (64 * die + idx) (v &&& 0x80000FFF), answers := s.answers ++ [.ok] }) ∧
  (∀ (s : State) (die port : Nat) (ready : List Nat), Sparse.wf 0 s.slotCycle = true → Sparse.wf 0 s.slotTables = true →
    let key := 4 * port + die
    let n := Sparse.get 0 s.slotCycle die
    let begins := Sparse.get 0 s.slotUsed key = n
    let cycle := if begins then n else n - 1
    let slot := Sparse.get 0 s.slotTables (64 * die + cycle % 64)
    let asks := fun a => a ∈ ready ∧ s.mayRequest a = true
    let served := fun (x : Nat) => exec (.dieFabricArbitration die port ready) s = .next { s with
      slotCycle := if begins then Sparse.set 0 s.slotCycle die (n + 1) else s.slotCycle
      slotUsed := Sparse.set 0 s.slotUsed key (if begins then n + 1 else n), slotServed := Sparse.set 0 s.slotServed key x }
    (¬ begins ∨ n % 64 ≠ 0 →
      (slot.getLsbD 31 = true → asks (slot.toNat % 4096) → served (slot.toNat % 4096)) ∧
      (∀ x, (slot.getLsbD 31 = false ∨ ¬ asks (slot.toNat % 4096)) → asks x →
        (let last := Sparse.get 0 s.slotServed key
         last < x ∧ (∀ y, asks y → last < y → x ≤ y) ∨ (∀ y, asks y → y ≤ last ∧ x ≤ y)) → served x)) ∧
    (begins → n % 64 = 0 → ∃ t, exec (.dieFabricArbitration die port ready) s = .next t ∧
      ∀ i, i < 64 → Sparse.get 0 t.slotTables (64 * die + i) = Sparse.get 0 s.slotPending (64 * die + i))) ∧
  (∀ (s : State) (id : Nat) (l : Launch), s.markhor.booted = true → s.launch? id = some l →
    (l.state = .running ∨ l.state = .halting → exec (.debugHalt id) s = .next { s with
      launches := s.launches.map fun m => if m.id = id then { m with debugHalted := true } else m
      answers := s.answers ++ [.ok] }) ∧
    (l.debugHalted = true → l.cores = [] ∨ l.state ≠ .running → exec (.debugResume id) s = .next { s with
      launches := s.launches.map fun m => if m.id = id then { m with debugHalted := false } else m
      answers := s.answers ++ [.ok] }) ∧
    (∀ c q, CoresWf s → l.debugHalted = true → l.cores = [c] → l.state = .running → q < 7 → Sparse.wf [] (s.core c).ops = true →
      ∃ t : State, exec (.debugResume id) s = .next (t.arbitrateFor [c]) ∧
        Sparse.get [] (t.core c).ops q = (Sparse.get [] (s.core c).ops q).map fun o =>
          if o.state = .parked then { o with state := if o.code = .mlat then .bench else .claiming } else o)) ∧
  (∀ (s : State) (asid : Nat) (x : Context) (r : Ring) (p : W64 × W64) (rest : List (W64 × W64)), Memory.wf s.host = true →
    s.ringHeld = [] → s.context? asid = some x → x.live = true → x.area = some r → x.posts = p :: rest →
    (r.posted + 2 ^ 64 - leNat (memBytes s.host r.ridx 8) 8) % 2 ^ 64 ≠ r.size →
    let at_ := r.base + 16 * (r.posted % r.size)
    ∃ t, exec (.hostEventPost asid) s = .next t ∧
      t.contexts = Sparse.set none s.contexts asid
        (some { x with area := some { r with posted := (r.posted + 1) % 2 ^ 64 }, posts := rest }) ∧
      (∀ a, Sparse.get 0 t.host a =
        if r.widx ≤ a ∧ a < r.widx + 8 then BitVec.ofNat 8 ((r.posted + 1) / 2 ^ (8 * (a - r.widx)))
        else if at_ ≤ a ∧ a < at_ + 8 then BitVec.ofNat 8 (p.1.toNat / 2 ^ (8 * (a - at_)))
        else if at_ + 8 ≤ a ∧ a < at_ + 16 then BitVec.ofNat 8 (p.2.toNat / 2 ^ (8 * (a - at_ - 8)))
        else Sparse.get 0 s.host a) ∧
      { t with contexts := s.contexts, host := s.host } = s)

/-! ### The device: launches -/

/-- R15, R22, R340 to R347, R383: a launch message is answered with the status of its record, and an accepted record makes a waiting
launch; the grant decision goes to a launch whose cores are free or held by lower ranks, which are asked to halt; at its grant a launch
runs on its cores, each at its reset state but for the table, `s1` and `s2`; a halted core saves its context, and a pre-empted launch
resumes with it.
The model's choices: log entries 6, 38, 39 and 59. -/
def Obligations.LaunchesGranted : Prop :=
  (∀ (s : State) (asid window : Nat) (w0 w1 w2 w3 w4 w5 w6 w7 : W64) (x : Context), s.context? asid = some x → x.live = true →
    let words := [w0, w1, w2, w3, w4, w5, w6, w7]
    let st := s.recordStatus asid (launchRec words)
    let answered := Sparse.set none s.contexts asid (some { x with
      posts := x.posts ++ [(BitVec.ofNat 64 (6 * 2 ^ 60 + st % 65536 * 2 ^ 40), BitVec.ofNat 64 window)] })
    (st ≠ 0 → exec (.launchMessage asid window words) s = .next { s with contexts := answered }) ∧
    (st = 0 → ∃ l : Launch, exec (.launchMessage asid window words) s = .next { s with
        contexts := answered, launches := s.launches ++ [l], launchIds := s.launchIds + 1 } ∧
      l.id = s.launchIds ∧ l.asid = asid ∧ l.module = w0.toNat % 2 ^ 32 ∧ l.kernel = w0.toNat / 2 ^ 32 % 2 ^ 16 ∧
      l.stepped = w0.getLsbD 48 ∧ l.record = w0.getLsbD 49 ∧ l.replay = w0.getLsbD 50 ∧ l.doubles = w0.getLsbD 51 ∧ l.argptr = w1 ∧
      (w4 ≠ 0 → l.seed = w4) ∧ l.rvg = w5.toNat / 2 ^ 32 % 2 ^ 16 ∧ l.kickoff = w6.toNat ∧ l.larea = w7.toNat ∧ l.state = .waiting ∧
      l.grantNo = 0 ∧ l.pinned = none)) ∧
  (∀ (s : State) (l : Launch), CoresWf s → s.launchMsgs = [] → s.waiters = [l] →
    (l.held.flatMap s.holders = [] → exec .grantDecision s = .next { s with
      launches := s.launches.map fun m => if m.id = l.id then { m with state := .granting } else m }) ∧
    (∀ h ∈ l.held.flatMap s.holders, s.launchRank l ≤ s.launchRank h → exec .grantDecision s = .next s) ∧
    (∀ h, l.held.flatMap s.holders ≠ [] → (∀ g ∈ l.held.flatMap s.holders, g = h) → s.launchRank h < s.launchRank l →
      s.launch? h.id = some h → h.state = .running →
      ∃ t, exec .grantDecision s = .next t ∧
        t.launches = (s.launches.map fun m => if m.id = h.id then { m with state := .halting } else m).map
          (fun m => if m.id = l.id then { m with state := .granting } else m) ∧
        ∀ c, t.core c = if c ∈ h.cores then { s.core c with halt := .requested } else s.core c)) ∧
  (∀ (s : State) (id : Nat) (l : Launch) (k : Kernel), CoresWf s → s.launch? id = some l → s.kernel? l = some k → l.state = .granting →
    l.grantNo = 0 → (∀ c ∈ l.held, (s.core c).launch = none ∧ (s.core c).retention = []) → l.replay = false → l.doubles = false → l.cores.Nodup →
    ∃ t, exec (.grant id) s = .next t ∧ t.grants = s.grants + 1 ∧
      (∃ m, t.launch? id = some m ∧ m.state = .running ∧ m.grantNo = s.grants + 1 ∧
        m.startTick = (if l.kickoff = 0 then s.gtc else max l.kickoff s.gtc) ∧
        m.kickLate = (if l.kickoff = 0 then 0 else s.gtc - l.kickoff) ∧ m.cores = l.cores) ∧
      (∀ i c, l.cores[i]? = some c →
        (t.core c).launch = some l.id ∧ (t.core c).ordinal = i ∧ (t.core c).run = .waiting ∧ (t.core c).table = stepTable l.id k.table ∧
        (∀ n, (t.core c).arch.getS n = if n = 1 then l.argptr else if n = 2 then BitVec.ofNat 64 i else 0) ∧
        (t.core c).seg = Segment.openAt (t.core c).arch ∧
        { t.core c with
          arch := { (t.core c).arch with s := [] }, seg := Core.reset.seg, launch := none, ordinal := 0, run := .free, table := [] } =
          Core.reset) ∧
      (∀ c, c ∉ l.cores → t.core c = s.core c)) ∧
  (∀ (s : State) (c : Nat) (l : Launch), CoresWf s → s.launchOf c = some l → l.state = .halting → l.pinned = none →
    (s.core c).halt = .requested → (s.core c).stands = true → (s.core c).opsParked = true → (s.core c).out = [] →
    (∀ v, (s.core c).wait ≠ .steal v) → (s.core c).offs = [] → (s.core c).unchecked = [] → (s.core c).seg.errorAt = none →
    (s.core c).seg.bad = false → (s.core c).seg.commit = [] → (s.core c).arch.accs = [] → (s.core c).side.length ≤ 256 →
    s.banksAwake l c = true →
    let a := (s.core c).arch
    let k := { s.core c with
      seg := { Segment.openAt a with
        closedFor := a.ahead.isEmpty, wait := (s.core c).wait, deferred := (s.core c).deferred
        recorded := (s.core c).seg.recorded.filter fun r =>
          decide (a.issued ≤ r.bundle + a.ahead.length) || (decide ((s.core c).wait ≠ .none) && r.isOpen) }
      mustClose := false, closedFor := a.ahead.isEmpty, halt := .saved }
    ((∃ d ∈ l.cores, d ≠ c ∧ (s.core d).halt ≠ .saved) → exec (.contextSave c) s = .next (s.setCore c k)) ∧
    (l.cores = [c] → l.doubles = false → ∃ t, exec (.contextSave c) s = .next t ∧ t.core (numCores * (l.id + 1) + c) = k ∧
      t.core c = Core.reset ∧ (∀ d, d ≠ c → d ≠ numCores * (l.id + 1) + c → t.core d = s.core d) ∧
      t.launches = s.launches.map fun m => if m.id = l.id then { m with state := .preempted } else m)) ∧
  (∀ (s : State) (id c : Nat) (l : Launch), CoresWf s → s.launch? id = some l → l.state = .granting → l.grantNo ≠ 0 →
    (s.core c).launch = none → (s.core c).retention = [] → l.cores = [c] → l.doubles = false →
    let key := numCores * (l.id + 1) + c
    (∀ v, (s.core key).wait ≠ .steal v) →
    ∃ t : State, exec (.resumption id) s = .next (t.arbitrateFor [c]) ∧ (t.core c).halt = .running ∧
      { t.core c with ops := (s.core key).ops, halt := (s.core key).halt } = s.core key ∧ t.core key = Core.reset ∧
      t.launches = s.launches.map fun m => if m.id = id then { m with state := .running } else m)

/-- R349, R373, R375, R381, R432 to R436: a launch whose cores have finished ends: its record with status, slips, frames and the digest of
its outputs is written, its cores and their contexts are free again; a replay that is held for 2^20 ticks diverges; a launch with an
error pinned to it drops what is not committed, then is released with STATUS 5 and a system event; the teardown of an address space
ends its launches with STATUS 6 and leaves a tombstone.
The model's choices: log entries 27, 32, 34, 35 and 37. -/
def Obligations.LaunchesEnd : Prop :=
  (∀ (s u : State) (id : Nat) (l : Launch) (k : Kernel) (b : List Byte), CoresWf u → Memory.wf u.csm = true → s.launch? id = some l →
    l.state = .running → l.pinned = none → l.debugHalted = false → (∀ c ∈ l.cores, (s.core c).finished = true) →
    s.kernel? l = some k → u.kernel? l = some k → (∀ x ∈ l.replayLog, x.2 = true) →
    (s.processFrame id).digestMessage l k.table k.outs = (.got b, u) → l.log = [] →
    (∀ c ∈ l.cores, (u.core c).launch = some l.id) →
    let digest := bytesOfVals (shake256 (b.map (·.toNat)) 32)
    let record := leBytes 0 2 ++ leBytes 0 2 ++ leBytes (min l.slips (2 ^ 32 - 1)) 4 ++ leBytes l.kickLate 8 ++ leBytes l.frame 8 ++
      leBytes l.logLen 8 ++ digest
    (l.larea = 0 → ∃ t, exec (.launchEnd id) s = .next t ∧ t.csm = u.csm ∧ ∀ c ∈ l.cores, t.core c = Core.reset) ∧
    (∀ pa i e, l.larea ≠ 0 → l.larea % 512 = 0 → lookup k.table .write l.larea = .at i e (.csm pa) → digest.length = 32 →
      ∃ t, exec (.launchEnd id) s = .next t ∧ CsmPut u t pa record ∧ ∀ c ∈ l.cores, t.core c = Core.reset)) ∧
  (∀ (s : State) (id : Nat) (l : Launch), s.launch? id = some l →
    let late := fun (r : LogRec) => ∃ h ∈ l.holds, 2 ^ 20 ≤ l.ran - h.since ∧ r.kind = h.kind ∧ r.tgt = h.tgt
    (∀ i r, l.replay = true → l.state = .running → l.pinned = none → l.replayLog[i]? = some (r, false) → late r →
      (∀ j x, j < i → l.replayLog[j]? = some x → x.2 = true ∨ ¬ late x.1) →
      ∃ t, exec (.replayHoldTimeout id) s = .next t ∧ t.launches = s.launches.map (fun m => if m.id = id then
          { m with logFail := m.logFail.or (some (16 * i)), pinned := m.pinned.or (some (6, 0)) } else m) ∧
        { t with launches := s.launches } = s) ∧
    ((∀ h ∈ l.holds, l.ran - h.since < 2 ^ 20) → exec (.replayHoldTimeout id) s = .next s)) ∧
  (∀ (s : State) (id c cause addr : Nat) (l : Launch), CoresWf s → s.launch? id = some l → l.pinned = some (cause, addr) →
    l.cores = [c] → (s.core c).launch = some l.id → l.doubles = false →
    (l.state = .running ∨ l.state = .halting → ∃ t, exec (.endLaunchPinned id) s = .next t ∧
      (t.core c).run = .ended ∧ (t.core c).seg.commit = [] ∧ (t.core c).seg.undo = [] ∧ (t.core c).ops = [] ∧ (t.core c).offs = [] ∧
      (t.core c).out = (s.core c).out ∧ (t.core c).side = (s.core c).side ∧ (t.core c).scratch = (s.core c).scratch ∧
      t.launches = s.launches.map fun m => if m.id = id then { m with state := .ending } else m) ∧
    (l.state = .ending → (s.core c).out = [] → (s.core c).side = [] → l.larea = 0 → s.ring = none →
      ∃ t, exec (.endLaunchPinned id) s = .next t ∧ t.core c = Core.reset ∧
        (∃ m, t.launch? id = some m ∧ m.state = .ended ∧ m.status = 5) ∧
        t.ringHeld = s.ringHeld ++
          [(BitVec.ofNat 64 (2 ^ 60 + l.asid % 4096 * 2 ^ 48 + cause % 256 * 2 ^ 40), BitVec.ofNat 64 addr)])) ∧
  (∀ (s : State) (asid cause : Nat) (x : Context), s.context? asid = some x → x.tearing = some (cause, []) → s.ring = none →
    Sparse.wf none s.contexts = true →
    ((∀ l ∈ s.launches, l.asid = asid → l.state = .ended) → ∃ t, exec (.teardown asid) s = .next t ∧
      t.context? asid = some ⟨false, 0, none, [], [], [], true, none⟩ ∧ t.modules = s.modules.filter (fun m => m.asid ≠ asid) ∧
      t.ringHeld = s.ringHeld ++ [(BitVec.ofNat 64 (2 * 2 ^ 60 + asid % 4096 * 2 ^ 48 + cause % 256 * 2 ^ 40), 0)] ∧
      t.cores = s.cores ∧ t.csm = s.csm) ∧
    (∀ l, s.launches = [l] → l.asid = asid → l.state ≠ .ended → l.grantNo = 0 → ∃ t m, exec (.teardown asid) s = .next t ∧
      t.launches = [m] ∧ m.id = l.id ∧ m.state = .ended ∧ m.status = 6))

/-! ### The device: migration, stacked memory, modules, the package -/

/-- R355, R359, R360, R365 to R368: a move command queues a migration for each subpage that it names; a fault makes one request, on a code
entry its migration, and on a duplicated subpage its collapse; where it meets the other side's request the subpage is shown present and
the loser's request held off; a migration marks its subpage absent in the tables, has every core's copy invalidated once the writes
that have been translated to it are performed, and, every invalidate acknowledged, leaves the subpage in its new state; a hold-off ends; a
fault that is declared unresolvable ends its launch.
The model's choices: log entries 10, 40, 41, 42 and 43. -/
def Obligations.SubpagesMove : Prop :=
  (∀ (s : State) (asid va count hbase : Nat) (l : List Sub) (i : Instr) (kind : MigKind) (hb : Nat),
    (i = .moveToDevice asid va count ∧ kind = .toDevice ∧ hb = 0 ∨ i = .moveToHost asid va count hbase ∧ kind = .toHost ∧ hb = hbase ∨
      i = .duplicate asid va count hbase ∧ kind = .duplicate ∧ hb = hbase ∨ i = .unmap asid va count ∧ kind = .unmap ∧ hb = 0) →
    s.named asid count va = l.map (fun x => [x]) → count ≠ 0 →
    let gives := fun x => (kind = .toHost ∨ kind = .duplicate) ∧ s.givesAway asid hb x = true
    let span := fun (x : Sub) => ((s.subEntry x).map fun e => s.spanOf asid e x.sub).getD (0, 0)
    (s.markhor.booted = true → s.isLive asid = true → l.length = count → (∀ x ∈ l, s.mayMove kind x = true ∧ ¬ gives x) →
      exec i s = .next { s with
        migrations := s.migrations ++
          l.map (fun x => ⟨asid, x.module, x.kernel, x.entry, x.sub, (span x).1, (span x).2, kind, .queued, [], hb, 0⟩)
        answers := s.answers ++ [.ok] }) ∧
    (s.markhor.booted = false ∨ s.isLive asid = false ∨ l.length ≠ count ∨ (∃ x ∈ l, s.mayMove kind x = false ∨ gives x) →
      exec i s = .next { s with answers := s.answers ++ [.refused 1] })) ∧
  (∀ (s : State) (c va i sub : Nat) (write : Bool) (l : Launch) (e : TEntry), s.launchOf c = some l →
    lookup (s.core c).table (if write then .write else .read) va = .absent i sub →
    s.subEntry ⟨l.module, l.kernel, i, sub⟩ = some e → s.heldOff l.asid false ⟨l.module, l.kernel, i, sub⟩ = false →
    s.migrating l.asid ⟨l.module, l.kernel, i, sub⟩ = false →
    let x : Sub := ⟨l.module, l.kernel, i, sub⟩
    let piece := (s.core c).pieceAt va && !(s.core c).otherAt va
    let noted := s.faults ++ [⟨l.asid, l.module, l.kernel, i, sub, false, write, [(l.id, piece)]⟩]
    let r := s.spanOf l.asid e sub
    let queued := fun kind => s.migrations ++ [⟨l.asid, l.module, l.kernel, i, sub, r.1, r.2, kind, .queued, [], 0, 0⟩]
    (e.stateOf sub = 2 → exec (.faultRequest c va write) s = .next { s with migrations := queued .collapseDevice }) ∧
    (e.stateOf sub ≠ 2 → s.faultOf l.asid true x = none → s.faultOf l.asid false x = none → s.isCode x = false →
      exec (.faultRequest c va write) s = .next { s with faults := noted }) ∧
    (e.stateOf sub ≠ 2 → s.faultOf l.asid true x = none → s.faultOf l.asid false x = none → s.isCode x = true →
      exec (.faultRequest c va write) s = .next { s with faults := noted, migrations := queued .toDevice }) ∧
    (∀ g, e.stateOf sub ≠ 2 → s.faultOf l.asid true x = some g → sub < 64 → ∃ t, exec (.faultRequest c va write) s = .next t ∧
      t.faults = s.faults.filter (fun f => !(f.asid == l.asid && s.sameSub l.asid f.at x)) ∧
      t.holdOffs = s.holdOffs ++ [⟨if e.stateOf sub = 1 then ⟨l.asid, l.module, l.kernel, i, sub, false, write, []⟩
        else { g with waits := [] }⟩] ∧
      ∀ y ∈ s.aliases l.asid r.1 r.2, ∀ f, t.subEntry y = some f → f.has y.sub = true)) ∧
  (∀ (s : State) (asid va : Nat) (write : Bool) (x : Sub) (e : TEntry), s.subsAt asid va = [x] → s.subEntry x = some e →
    e.movable = true → s.isCode x = false → ¬ (e.stateOf x.sub = 1 ∧ e.has x.sub = true) →
    e.stateOf x.sub ≠ 2 → s.heldOff asid true x = false → s.migrating asid x = false →
    s.faultOf asid false x = none → s.faultOf asid true x = none →
    exec (.hostFaultRequest asid va write) s = .next { s with
      faults := s.faults ++ [⟨asid, x.module, x.kernel, x.entry, x.sub, true, write, []⟩] }) ∧
  (∀ (s : State) (idx : Nat) (h : HoldOff) (e : TEntry), s.holdOffs[idx]? = some h → s.subEntry h.entry.at = some e →
    s.faultOf h.entry.asid h.entry.byHost h.entry.at = none →
    exec (.holdOffExpiry idx) s = .next { s with holdOffs := s.holdOffs.eraseIdx idx, faults := s.faults ++ [h.entry] }) ∧
  (∀ (s : State) (asid va id : Nat) (f : FaultReq) (l : Launch) (e : TEntry), s.markhor.booted = true →
    (s.faults.filter fun g => g.asid == asid && !g.byHost && (s.subsAt asid va).any fun x => s.sameSub asid g.at x) = [f] →
    s.subEntry f.at = some e → f.waits = [(id, false)] → s.launch? id = some l → l.pinned = none →
    ∃ t m, exec (.declareUnresolvable asid va) s = .next t ∧ t.launch? id = some m ∧ m.pinned = some (5, 0) ∧
      t.faults = s.faults.filter (fun g => g ≠ f) ∧ t.answers = s.answers ++ [.ok]) ∧
  (∀ (s : State) (idx : Nat) (m : Migration) (e : TEntry), s.migrations[idx]? = some m → s.subEntry m.at = some e →
    let near := (s.tablesOf m.asid).flatMap fun t => (t.2.2.filter fun x => x.2.meets m.lo m.hi).map (·.2)
    (m.phase = .queued → s.mustWait idx m = false → s.atHome m e = true →
      exec (.migration idx) s = .next { s with migrations := s.migrations.eraseIdx idx }) ∧
    (m.phase = .queued → s.mustWait idx m = false → s.atHome m e = false → ∃ t w, exec (.migration idx) s = .next t ∧
      t.migrations = s.migrations.set idx { m with phase := .invalidating, waiting := w, old := e.stateOf m.sub } ∧
      (∀ x ∈ s.aliases m.asid m.lo m.hi, ∀ f, t.subEntry x = some f → f.stateOf x.sub = 3 ∧ f.has x.sub = false) ∧
      { t with migrations := s.migrations, modules := s.modules } = s) ∧
    (m.phase = .queued → s.mustWait idx m = true → exec (.migration idx) s = .next s) ∧
    (m.phase = .invalidating → (∀ x ∈ m.waiting, s.hasContext x = false) → m.direction = none → ∃ t, exec (.migration idx) s = .next t ∧
      t.migrations = s.migrations.eraseIdx idx ∧
      (∀ x ∈ s.aliases m.asid m.lo m.hi, ∀ f, t.subEntry x = some f →
        f.stateOf x.sub = m.final % 4 ∧ f.has x.sub = decide (m.kind ≠ .unmap) ∧
        (near.filter (s.hostElsewhere m) = [] → m.final ≠ 1 → m.final ≠ 2 → f.hbase = 0)) ∧
      t.csm = s.csm ∧ t.host = s.host ∧ t.hbm = s.hbm) ∧
    (∀ toHost, m.phase = .invalidating → (∀ x ∈ m.waiting, s.hasContext x = false) → m.direction = some toHost → Memory.wf s.host = true →
      let n := (m.hi - m.lo) / 512
      let host := m.hostBase e (near.find? (s.hostElsewhere m)) + m.lo - e.pa
      ∃ (t : State) (u : Nat → State), exec (.migration idx) s = .next t ∧ u 0 = s ∧ t.hbm = (u n).hbm ∧ t.csm = s.csm ∧
        let got := fun i => (u i).readPlace m.asid (.hbm (m.lo + 512 * i) e.key) 512
        (toHost = false → t.host = s.host ∧ ∀ i, i < n → u (i + 1) =
          (u i).writePlace m.asid numCores 0 (.hbm (m.lo + 512 * i) e.key) (memBytes s.host (host + 512 * i) 512)) ∧
        (toHost = true → (∀ i, i < n → ∃ l, u (i + 1) = { (got i).2 with host := putMem (got i).2.host (host + 512 * i) l } ∧
            ((got i).1.2 = false → l = (got i).1.1) ∧ ((got i).1.2 = true → l.length = 512)) ∧
          ((∀ i, i < n → (got i).1.1.length = 512) → (∀ i b, i < n → b < 512 → (got i).1.2 = false → Sparse.get 0 t.host (host + 512 * i + b) = ((got i).1.1[b]?).getD 0) ∧
            ∀ a, ¬ (host ≤ a ∧ a < host + 512 * n) → Sparse.get 0 t.host a = Sparse.get 0 s.host a)))) ∧
  (∀ (s : State) (c idx code : Nat) (m : Migration) (e : TEntry), CoresWf s → s.migrations[idx]? = some m → s.subEntry m.at = some e →
    s.contextCode c = some code → code ∈ m.waiting →
    let mine := fun x => x ∈ s.aliases m.asid m.lo m.hi ∧ c ∈ s.keysWith x
    let busy := ∃ x f, mine x ∧ s.subEntry x = some f ∧ (s.core c).writesTo f x.sub = true
    (busy → exec (.invalidate c idx) s = .next s) ∧
    (¬ busy → ∃ t, exec (.invalidate c idx) s = .next t ∧
      t.migrations = s.migrations.set idx { m with waiting := m.waiting.filter fun x => x ≠ code } ∧
      (∀ x, mine x → ∀ y ∈ (t.core c).table, y.1 = x.entry → y.2.stateOf x.sub = 3 ∧ y.2.has x.sub = false) ∧
      { t.core c with table := (s.core c).table } = s.core c ∧ OthersKeep s t c))

/-- R410, R411, R413, R414, R417 to R419, R420, R423, R425, R436: the image of a sector is what its controller finds, corrected, written
back and logged, or what the other images of its row give, repaired unless its unit is lost; a poisoned or barred one, or a key or tag
that does not match, gives a reader nothing, and the latter tears its context down; else the bytes stored come back, decrypted under
their key; a miss in the check-bit cache brings the metadata area in. A write stores its bytes merged into the sector and sends the delta of
the images to the parity stack; under another key than the sector's it stores nothing; over a poisoned or lost image a whole sector is
written anew, a part leaves it poisoned, and the parity is recomputed. A delta is applied with its request, and dropped where
its parity unit is lost.
The model's choices: log entries 10, 16, 46, 52, 72 and 87. -/
def Obligations.StackedMemory : Prop :=
  (∀ (s : State) (h : Hbm), h.lanes = s.hbm.lanes → h.failed = s.hbm.failed → s.settleHbm h = { s with hbm := h }) ∧
  (∀ (s : State) (pa key asid : Nat) (flips : List (Nat × Byte)) (bus : List BusFault), s.hbmReady pa = true →
    let w : Asker := ⟨asid, s.gtc⟩
    let sp := s.hbm.spot pa
    let f := (s.hbm.flipCells sp.data sp.sector flips).expect bus
    let g := (f.touch sp.data sp.sector w).transfer sp.data sp.sector (rawData sp.sector) w
    let sound := f.gone sp.data sp.sector = false ∧ g.gone sp.data sp.sector = false
    (∀ x, sound → rsDecode (g.word sp.data sp.sector) = some (x, 0) → f.image sp w = (some (x.drop 10), g)) ∧
    (∀ x n, sound → rsDecode (g.word sp.data sp.sector) = some (x, n) → n ≠ 0 → f.image sp w =
      (some (x.drop 10), (g.putImage sp.data sp.sector (x.drop 10) w).logArray 1 sp.data sp.sector n w)) ∧
    (∀ img h, sound → rsDecode (g.word sp.data sp.sector) = none → g.reconstruct sp w = (some img, h) → h.gone sp.data sp.sector = false →
      f.image sp w = (some img, (h.putImage sp.data sp.sector img w).logArray 2 sp.data sp.sector 0 ⟨0, s.gtc⟩)) ∧
    (∀ img h, f.gone sp.data sp.sector = true → f.reconstruct sp w = (some img, h) → h.gone sp.data sp.sector = true →
      f.image sp w = (some img, h)) ∧
    (∀ h, (sound ∧ rsDecode (g.word sp.data sp.sector) = none ∧ g.reconstruct sp w = (none, h) ∨
        f.gone sp.data sp.sector = true ∧ f.reconstruct sp w = (none, h)) → f.image sp w = (none, h.logArray 3 sp.data sp.sector 0 w)) ∧
    let read := exec (.hbmSectorRead pa key asid flips bus) s
    (∀ h, f.image sp w = (none, h) → read = .next (s.settleHbm { h with returned := none })) ∧
    (∀ img h, f.image sp w = (some img, h) →
      (imgPoison img = true ∨ h.barred (pa / 512 * 512) = true → read = .next (s.settleHbm { h with returned := none })) ∧
      (imgPoison img = false → h.barred (pa / 512 * 512) = false → imgKey img = 0 →
        read = .next (s.settleHbm { h with returned := some (imgData img) })) ∧
      (imgPoison img = false → h.barred (pa / 512 * 512) = false → imgKey img ≠ 0 → imgKey img = key % 16 →
        h.tagOf (imgKey img) pa (imgMisc img) (imgData img) = imgTag img →
        read = .next (s.settleHbm { h with returned := some (h.crypt true (imgKey img) pa (imgData img)) })) ∧
      (imgPoison img = false → h.barred (pa / 512 * 512) = false → imgKey img ≠ 0 →
        imgKey img ≠ key % 16 ∨ h.tagOf (imgKey img) pa (imgMisc img) (imgData img) ≠ imgTag img →
        read = .next ((s.settleHbm { h.logArray 4 sp.data sp.sector 0 w with returned := none }).tear asid [pa / 512 * 512]))) ∧
    (flips = [] → bus = [] → s.hbm.bus = [] → s.hbm.gone sp.data sp.sector = false → s.hbm.line? sp.data (groupOf sp.sector) = none →
      (s.hbm.cache.filter fun l => l.stack == sp.data && l.group % 32 == channelOf sp.sector).length < 128 →
      (∃ x, rsDecode ((s.hbm.touch sp.data sp.sector w).word sp.data sp.sector) = some (x, 0)) →
      (f.image sp w).2.cache = s.hbm.cache ++ [⟨sp.data, groupOf sp.sector, s.hbm.area sp.data (groupOf sp.sector), false⟩])) ∧
  (∀ (s : State) (pa key asid : Nat) (flips : List (Nat × Byte)) (data : List Byte) (bus : List BusFault), s.hbmReady pa = false →
    exec (.hbmSectorRead pa key asid flips bus) s = .next s ∧ exec (.hbmSectorWrite pa key asid data bus) s = .next s) ∧
  (∀ (s : State) (pa key asid : Nat) (data : List Byte) (bus : List BusFault), s.hbmReady pa = true →
    let w : Asker := ⟨asid, s.gtc⟩
    let sp := s.hbm.spot pa
    let bytes := data.take (512 - pa % 512)
    let whole := bytes.length = 512 ∧ s.hbm.barred (pa / 512 * 512) = false
    let write := exec (.hbmSectorWrite pa key asid data bus) s
    (∀ old h, (s.hbm.expect bus).image sp w = (some old, h) → imgPoison old = false → h.barred (pa / 512 * 512) = false →
      (imgKey old ≠ 0 → imgKey old ≠ key % 16 →
        write = .next ((s.settleHbm (h.logArray 4 sp.data sp.sector 0 w)).tear asid [pa / 512 * 512])) ∧
      (imgKey old = 0 ∨ imgKey old = key % 16 →
        let new := h.makeImage (key % 16) pa (spliceBytes (h.crypt true (imgKey old) pa (imgData old)) (pa % 512) bytes)
        write = .next (s.settleHbm (h.replaceImage pa sp old new ⟨288, 0, w⟩)) ∧
        (h.gone sp.data sp.sector = false → h.gone sp.parity sp.sector = false → h.bus = [] →
          (h.replaceImage pa sp old new ⟨288, 0, w⟩).deltas =
            h.deltas ++ [⟨pa / 512 * 512, sp.parity, sp.sector, sp.data, imgXor old new, 288, 0, asid, none⟩]) ∧
        (h.gone sp.data sp.sector = false → h.bus = [] → (h.line? sp.data (groupOf sp.sector)).isSome = true → Memory.wf h.dram = true → key % 16 = 0 → bytes.length = 512 → ∀ j, j < 512 →
          (h.replaceImage pa sp old new ⟨288, 0, w⟩).raw sp.data (rawData sp.sector + j) = (bytes[j]?).getD 0))) ∧
    (∀ img h, (s.hbm.expect bus).image sp w = (img, h) → (∀ old, img = some old → imgPoison old = true ∨ h.barred (pa / 512 * 512) = true) →
      (whole → write = .next (s.settleHbm ((h.putIn sp.data sp.sector (h.makeImage (key % 16) pa bytes) w).recompute sp
        (some (h.makeImage (key % 16) pa bytes)) w))) ∧
      (¬ whole → write = .next (s.settleHbm (((h.putIn sp.data sp.sector imgLost w).logArray 5 sp.data sp.sector 0 w).recompute sp
        (some imgLost) w))))) ∧
  (∀ (s : State) (idx : Nat) (d : Delta), s.hbm.deltas[idx]? = some d →
    let w : Asker := ⟨d.asid, s.gtc⟩
    (∀ p h, s.hbm.seek d.stack d.sector w = (some p, h) → exec (.parityDelta idx) s = .next (s.settleHbm
      (({ h with deltas := h.deltas.eraseIdx idx }.putIn d.stack d.sector (imgXor p d.diff) w).noteShadow d.stack d.request))) ∧
    (s.hbm.gone d.stack d.sector = true →
      exec (.parityDelta idx) s = .next { s with hbm := { s.hbm with deltas := s.hbm.deltas.eraseIdx idx } }))

/-- R412, R420, R422, R424, R436: a lost stack is reported, its deltas and windows are gone, its launches without durable writes end and
the host's are listed; 10 + 1 is accepted over eleven surviving stacks, whose layout it keeps, while nothing maps 600 GiB or more, and
refused otherwise; the cursor moves down by a stripe once no delta is under way; the scrub of a quarantined range writes zeros and,
with two clean reads, ends the quarantine, else it retires the range, with its event; the keys of an id that no running launch
uses are written, and read back as zero.
The model's choices: log entries 10, 16, 46, 47 and 52. -/
def Obligations.StacksMaintained : Prop :=
  (∀ (s : State) (stack : Nat),
    let health := { s.markhor with stackHealth := s.markhor.stackHealth.set stack false }
    let event := s.ringHeld ++ [(BitVec.ofNat 64 (6 * 2 ^ 60), 0)]
    let windows := s.windows.filter fun w => w.target ≠ 256 + stack
    (stack ∉ s.hbm.lost → (∀ d ∈ s.hbm.deltas, d.data ≠ stack) → s.ring = none → exec (.stackLost stack) s = .next { s with
      hbm := { s.hbm with lost := s.hbm.lost ++ [stack], deltas := s.hbm.deltas.filter fun d => d.stack ≠ stack }
      markhor := health, windows := windows, ringHeld := event }) ∧
    (∀ d l, stack ∉ s.hbm.lost → s.hbm.deltas = [d] → d.data = stack → d.core < 288 → s.launch? d.launch = some l → l.pinned = none →
      s.ring = none → ∃ t m, exec (.stackLost stack) s = .next t ∧ t.launch? d.launch = some m ∧ m.pinned = some (7, d.core) ∧
        t.hbm = { s.hbm with lost := s.hbm.lost ++ [stack], deltas := [] }) ∧
    (∀ d, stack ∉ s.hbm.lost → s.hbm.deltas = [d] → d.data = stack → 288 ≤ d.core → s.ring = none →
      exec (.stackLost stack) s = .next { s with
        hbm := { s.hbm with lost := s.hbm.lost ++ [stack], deltas := [], listed := s.hbm.listed ++ [d.pa] }
        markhor := health, windows := windows, ringHeld := event }) ∧
    (stack ∈ s.hbm.lost → exec (.stackLost stack) s = .next s)) ∧
  (∀ s : State,
    let ok := s.hbm.lost.length = 1 ∧ s.hbm.cursor = none ∧ s.mapsHigh = false
    (s.markhor.booted = true → ok → exec .restripe s = .next { s with
      hbm := { s.hbm with cursor := some (600 * 2 ^ 30), layout := (List.range 12).filter fun i => !s.hbm.lost.contains i }
      answers := s.answers ++ [.ok] }) ∧
    (s.markhor.booted = false ∨ ¬ ok → exec .restripe s = .next { s with answers := s.answers ++ [.refused 1] })) ∧
  (∀ s : State,
    (∀ c, s.hbm.deltas = [] → s.hbm.bus = [] → s.hbm.cursor = some c → c ≠ 0 →
      ∃ t, exec .restripeCursorAdvance s = .next t ∧ t.hbm.cursor = some (c - 20480) ∧ t.hbm.layout = s.hbm.layout ∧
        { t with hbm := s.hbm } = s) ∧
    (s.hbm.deltas ≠ [] ∨ s.hbm.cursor = none ∨ s.hbm.cursor = some 0 → exec .restripeCursorAdvance s = .next s)) ∧
  (∀ (s : State) (idx : Nat),
    (∀ a asid, s.hbm.quarantined[idx]? = some (a, asid) → hbmEnd ≤ a → a % 128 = 0 → s.ring = none → Memory.wf s.csm = true →
      Sparse.wf false s.csmMarks = true →
      (∃ t, exec (.scrub idx false) s = .next t ∧ CsmPut s t a (List.replicate 128 0) ∧
        t.hbm = { s.hbm with quarantined := s.hbm.quarantined.eraseIdx idx } ∧
        t.ringHeld = s.ringHeld ++ [(BitVec.ofNat 64 (4 * 2 ^ 60 + asid % 4096 * 2 ^ 48), BitVec.ofNat 64 a)]) ∧
      (∃ t, exec (.scrub idx true) s = .next t ∧ CsmPut s t a (List.replicate 128 0) ∧
        t.hbm = { s.hbm with quarantined := s.hbm.quarantined.eraseIdx idx, retired := s.hbm.retired ++ [a] } ∧
        t.ringHeld = s.ringHeld ++ [(BitVec.ofNat 64 (5 * 2 ^ 60 + asid % 4096 * 2 ^ 48), BitVec.ofNat 64 a)])) ∧
    (∀ a asid failed, s.hbm.quarantined[idx]? = some (a, asid) → a < hbmEnd →
      let x := (s.hbm.clear a s.gtc).scrubRead a s.gtc
      let y := x.2.scrubRead a s.gtc
      ∃ t, exec (.scrub idx failed) s = .next t ∧ t.hbm.quarantined = s.hbm.quarantined.eraseIdx idx ∧
        t.hbm.retired = s.hbm.retired ++ (if x.1 = true ∧ y.1 = true ∧ failed = false then [] else [a]) ∧ t.csm = s.csm) ∧
    (∀ failed, s.hbm.quarantined.length ≤ idx → exec (.scrub idx failed) s = .next s)) ∧
  (∀ (s : State) (id : Nat) (xts : BitVec 512) (mac : BitVec 256),
    (s.markhor.booted = true → s.keyInUse id = false → exec (.keyWrite id xts mac) s = .next { s with
      hbm := { s.hbm with keyXts := Sparse.set 0 s.hbm.keyXts id xts, keyMac := Sparse.set 0 s.hbm.keyMac id mac }
      answers := s.answers ++ [.ok] }) ∧
    (s.markhor.booted = false ∨ s.keyInUse id = true →
      exec (.keyWrite id xts mac) s = .next { s with answers := s.answers ++ [.refused 1] }) ∧
    (∀ t, exec (.keyWrite id xts mac) s = .next t → t.hbm.keyWindow id = (0, 0)))

/-- R335 to R338, R385, R386, R441, R444, R445: a load is refused with the number of the first check that fails, else the module stands under a
new handle; an unused module is unloaded; system software reads and writes the words of a weight block, its fields that are not
writable keeping what they hold, while no launch of its module runs; a package whose firmware verifies boots, with host memory as it was, and
without a budget block its islands have 37.5 W each; a report is signed with the identity's key, or refused.
The model's choices: log entries 6, 10, 11, 44 and 45. -/
def Obligations.ModulesAndPackage : Prop :=
  (∀ (s : State) (asid addr size : Nat) (plan : LoadPlan) (x : Context), s.context? asid = some x → x.live = true →
    let f := memBytes s.host addr size
    let h := hmoOf f
    let checks := [headerOk f, h.signed x.keys, h.sectionsOk, h.recordsOk, h.fits plan.kernels, h.planOk s.hbm.capacity plan s.modules]
    match checks.findIdx? (fun b => !b) with
    | some n => exec (.moduleLoad asid addr size plan) s = .next { s with answers := s.answers ++ [.refused (n + 1)] }
    | none => ∃ t m, exec (.moduleLoad asid addr size plan) s = .next t ∧ t.modules = s.modules ++ [m] ∧
      m.handle = s.handles + 1 ∧ m.asid = asid ∧ m.kernels.length = rd f 10 2 ∧ m.regions.length = rd f 12 2 ∧
      t.handles = s.handles + 1 ∧ t.answers = s.answers ++ [.handle (s.handles + 1)] ∧ t.cores = s.cores) ∧
  (∀ (s : State) (handle : Nat) (m : Module), s.module? handle = some m → s.markhor.booted = true → s.inUse handle = false →
    (∀ x, s.context? m.asid = some x → x.tearing = none) →
    ∃ t, exec (.moduleUnload handle) s = .next t ∧ t.modules = s.modules.filter (fun m => m.handle ≠ handle) ∧
      t.answers = s.answers ++ [.ok] ∧ t.cores = s.cores ∧ t.csm = s.csm ∧ t.hbm = s.hbm ∧ t.host = s.host) ∧
  (∀ (s : State) (handle : Nat) (m : Module), s.module? handle = some m →
    s.inUse handle = true ∨ (∃ x, s.context? m.asid = some x ∧ x.tearing ≠ none) →
    exec (.moduleUnload handle) s = .next { s with answers := s.answers ++ [.refused 1] }) ∧
  (∀ (s : State) (handle r off : Nat) (m : Module) (x : Region), s.module? handle = some m → m.regions[r]? = some x → off % 8 = 0 →
    off < 32768 →
    (s.running handle = true → ∀ w, exec (.weightBlockAccess handle r off w) s = .next { s with answers := s.answers ++ [.refused 1] }) ∧
    (s.running handle = false → exec (.weightBlockAccess handle r off none) s =
      .next { s with answers := s.answers ++ [.value (BitVec.ofNat 64 (leNat (memBytes x.block off 8) 8))] }) ∧
    (s.running handle = false → Memory.wf x.block = true → ∀ v : W64,
      let w := v.toNat
      let old := leNat (memBytes x.block off 8) 8
      let kept := 0x18 ≤ off ∧ off < 0x40 ∨ 0x80 ≤ off ∧ off < 0x100 ∨ 0x3800 ≤ off
      let high := w / 2 ^ 32 * 2 ^ 32
      let new := if off = 0 then high + min (w / 2 ^ 8 % 8) 4 * 2 ^ 8 + r
        else if off = 8 then high + w / 2 ^ 16 % 2 ^ 13 * 2 ^ 16 + w % 2 ^ 5
        else if off = 0x10 then high + old % 2 ^ 32
        else if kept then old else w
      ∃ t m' x', exec (.weightBlockAccess handle r off (some v)) s = .next t ∧ t.module? handle = some m' ∧ m'.regions[r]? = some x' ∧
        (∀ a, Sparse.get 0 x'.block a = if off ≤ a ∧ a < off + 8 then BitVec.ofNat 8 (new / 2 ^ (8 * (a - off)))
          else Sparse.get 0 x.block a) ∧
        { t with modules := s.modules } = { s with answers := s.answers ++ [.ok] })) ∧
  (∀ s : State, ∃ t, exec .packageReset s = .next t ∧
    if ed448Verify Config.vendorKey (digest64 s.markhor.firmware) s.markhor.firmwareSig then
      t.markhor.booted = true ∧ t.markhor.firmware = s.markhor.firmware ∧ t.markhor.blocks = s.markhor.blocks ∧
      t.hbm.lost = (List.range 12).filter (fun i => s.markhor.stackHealth[i]? == some false) ∧
      ((∀ b ∈ s.markhor.blocks, b.kind ≠ 2) → t.markhor.budgets = List.replicate 40 37500) ∧
      { t with markhor := Markhor.reset, hbm := Hbm.reset, fieldmask := [], ringHeld := [] } =
        { State.reset with host := s.host, choice := s.choice }
    else t.markhor.booted = false ∧ t.markhor.failedStep = 1 ∧ t.markhor.budgets = List.replicate 40 37500 ∧
      { t with markhor := Markhor.reset } = { State.reset with host := s.host, choice := s.choice }) ∧
  (∀ (s : State) (nonce : BitVec 256),
    (s.markhor.identity = none → exec (.attestationRequest nonce) s = .next { s with answers := s.answers ++ [.refused 1] }) ∧
    (∀ key, s.markhor.identity = some key → s.markhor.booted = true →
      let r := leBytes nonce.toNat 32 ++ digest64 s.markhor.firmware ++ s.markhor.applied.flatten ++ leBytes s.modules.length 4 ++
        s.modules.flatMap fun m => m.digest
      exec (.attestationRequest nonce) s = .next { s with
        markhor := { s.markhor with reports := s.markhor.reports ++ [r ++ ed448Sign key (digest64 r)] }
        answers := s.answers ++ [.ok] }))

/-! ### Operand forms, and rules over all instructions -/

/-- R6, R9, R11, R14, R103, R131, R135, R187: a source that is a register reads it under the rotation base, `s0` 0, `a0` 0 and `v62` 0; a pop
port delivers and removes the oldest entry, and stalls on an empty queue; an upper v-type number broadcasts a scalar; a register destination
is sent the result by its physical number, a push port a reserved entry, or it stalls on a full queue. -/
def Obligations.OperandForms : Prop :=
  (∀ (s : State) (n : BitVec 7), n.toNat < 56 →
    Reads1 s n (if n = 0 then 0 else Sparse.get 0 (arch s).s (physical s.part.rb n.toNat)) (arch s)) ∧
  (∀ (s : State) (n : BitVec 7) (q : Q), popPort n.toNat = some q →
    (∀ id x rest, (arch s).q q = ⟨id, some x, none, false⟩ :: rest → Reads1 s n x ((arch s).setQ q rest)) ∧
    ((arch s).q q = [] → s.part.srcS n.toNat (arch s) = .stall)) ∧
  (∀ (s : State) (w : Nat) (n : BitVec 7), 64 ≤ n.toNat → n.toNat < 120 → 0 < w → 8192 % w = 0 →
    ∃ x, ReadsV1 s w n x (arch s) ∧ ∀ j, j < 8192 / w → elem x.toNat w j =
      (if n.toNat = 64 then 0 else (Sparse.get 0 (arch s).s (physical s.part.rb (n.toNat - 64))).toNat) % 2 ^ w) ∧
  (∀ (s : State) (w : Nat) (n : BitVec 7), n.toNat < 56 ∨ n.toNat = 62 →
    ReadsV1 s w n (if n.toNat = 62 then 0 else Sparse.get 0 (arch s).v (physical s.part.rb n.toNat)) (arch s)) ∧
  (∀ (s : State) (n : BitVec 7), n.toNat < 28 → s.mine.offs = [] → s.mine.arch.marks = [] →
    ReadsA1 s n (if n = 0 then 0 else Sparse.get 0 s.mine.arch.a n.toNat) s.mine) ∧
  (∀ (s : State) (id : Nat) (x : W64) (rest : List QEntry), s.mine.arch.q .xa = ⟨id, some x, none, false⟩ :: rest →
    ReadsA1 s 28 x { s.mine with arch := s.mine.arch.setQ .xa rest }) ∧
  (∀ (p : Part) (n lat : Nat) (v : W64) (fl : BitVec 5) (a : Arch), n < 58 →
    p.dstS n v lat fl a = .ok (a.fly .execute (.s (physical p.rb n) v) lat fl)) ∧
  (∀ (p : Part) (n lat : Nat) (v : W64) (fl : BitVec 5) (a : Arch) (q : Q), pushPort n = some q →
    ((a.q q).length < q.depth → p.dstS n v lat fl a =
      .ok (({ a.setQ q (a.q q ++ [⟨a.qid, none, none, false⟩]) with qid := a.qid + 1 } : Arch).fly .execute (.q q a.qid v) lat fl)) ∧
    (q.depth ≤ (a.q q).length → p.dstS n v lat fl a = .stall))

/-- R11: a slot instruction whose body has to wait, whichever it is, is withdrawn with its whole part: no pop or push of it, and no other
effect, takes place. A two-source integer instruction waits where a source cannot be popped or the queue of its result has no room, a
two-source address instruction likewise, and an element-wise integer vector instruction.
The model's choices: log entry 4. -/
def Obligations.StallsWithdraw : Prop :=
  (∀ (i : Instr) (s : State), CoresWf s → Runs i s → slotBody i s = .stall → ∃ t, exec i s = .next t ∧ Withdrawn s t) ∧
  (∀ (i : Instr) (o : A3) (lat : Nat) (f : W64 → W64 → Int), intOp i = some (o, lat, f) → ∀ (s : State), CoresWf s → Runs i s →
    (s.part.srcS o.s1.toNat (arch s) = .stall ∨
      (∃ x a, Reads1 s o.s1 x a ∧ s.part.srcS o.s2.toNat a = .stall) ∨
      (∃ x y a q, Reads2 s o.s1 o.s2 x y a ∧ pushPort o.d.toNat = some q ∧ q.depth ≤ (a.q q).length)) →
    ∃ t, exec i s = .next t ∧ Withdrawn s t) ∧
  (∀ (i : Instr) (o : A3) (lat : Nat) (f : W64 → W64 → Int), addrOp i = some (o, lat, f) → ∀ (s : State), CoresWf s → Runs i s →
    (s.mine.srcA o.s1.toNat = .stall ∨ (∃ x k, ReadsA1 s o.s1 x k ∧ k.srcA o.s2.toNat = .stall) ∨
      (∃ x y k, ReadsA2 s o.s1 o.s2 x y k ∧ k.dest o.d.toNat = .stall)) →
    ∃ t, exec i s = .next t ∧ Withdrawn s t) ∧
  (∀ (i : Instr) (o : A3) (lat : Nat) (f : Nat → Int → Int → Int), vecOp i = some (o, lat, f) → ∀ (s : State), CoresWf s → Runs i s →
    (s.part.srcV (width o) o.s1.toNat (arch s) = .stall ∨
      (∃ x a, ReadsV1 s (width o) o.s1 x a ∧ s.part.srcV (width o) o.s2.toNat a = .stall)) →
    ∃ t, exec i s = .next t ∧ Withdrawn s t)

/-- R58, R59, R130, R195, R197, R224: no slot instruction changes a byte of chip shared memory, of host memory or of a scratchpad at its issue,
and none changes a register file, FFLAGS, EVEC, SBCHK, STATUS.BCOL or a bank format of any core, but LOOPM, which sets the stage
predicates p12 to p15: results are written when they land, stores when they are performed. At most the issuing core is set back to where
it stood before the part. -/
def Obligations.SlotsWriteNothingAtIssue : Prop :=
  ∀ (i : Instr) (s t : State), CoresWf s → i.guard?.isSome = true → exec i s = .next t →
    t.csm = s.csm ∧ t.host = s.host ∧
    ∀ c, ∃ k p, (k = s.core c ∨ (c = s.part.core ∧ k = s.part.before)) ∧ (t.core c).scratch = k.scratch ∧ (t.core c).full = k.full ∧
      files (t.core c) = files { k with arch := { k.arch with p := p } } ∧ (∀ n, n < 12 → predBit p n = predBit k.arch.p n) ∧
      ((∀ o, i ≠ .loopm o) → p = k.arch.p)

/-- Every step keeps the tables of cores and memories in canonical form (log entry 1), so that equal memories are equal data. -/
def Obligations.StepsKeepCanonical : Prop := ∀ s t : State, Canonical s → step s = .next t → Canonical t

/-- R6, R15, R17 to R24: after reset the tables are in canonical form, every register of every core reads its reset value, no queue holds
an entry, GTC is 0, every field unit is enabled, every full bit is set and memory reads as log entry 2 says.
The model's choices: log entries 2 and 7. -/
def Obligations.ResetState : Prop :=
  Canonical State.reset ∧ State.reset.gtc = 0 ∧
  (∀ c n, (State.reset.core c).arch.getS n = 0 ∧ (State.reset.core c).arch.getA n = 0 ∧ (State.reset.core c).arch.getV n = 0 ∧
    predBit (State.reset.core c).arch.p n = decide (n = 0) ∧ (State.reset.core c).arch.getK n = (if n = 0 then BitVec.allOnes 1024 else 0)) ∧
  (∀ c q r, (State.reset.core c).arch.q q = [] ∧ (State.reset.core c).arch.vq r = []) ∧
  (∀ c n, ({ State.reset with part := { Part.idle with core := c } } : State).readSys n = (if n = 6 then BitVec.ofNat 64
      (c * 2 ^ 16 + c / 72 * 2 ^ 8 + c / 8 % 9 * 2 ^ 4 + c % 8) else if n = 13 then 0x1FFFF else if n = 14 then 1 else 0)) ∧
  (∀ c l a, (State.reset.core c).isFull l = true ∧ (State.reset.core c).run = .free ∧ Sparse.get 0 (State.reset.core c).scratch a = 0 ∧
    Sparse.get 0 State.reset.csm a = 0 ∧ Sparse.get 0 State.reset.host a = 0)
end

