-- ==== Sys2Proof/Laws/Decode.lean ====
section
/-! SUPPORT. Sys2Proof/Laws/Decode.lean: the fields of an encoded syllable are read back, format by format (R48, R50), and a
syllable is put together from its fields. -/

namespace Sys2Proof

theorem append_toNat {a b : Nat} (x : BitVec a) (y : BitVec b) : (x ++ y).toNat = x.toNat * 2 ^ b + y.toNat := by
  rw [BitVec.toNat_append, Nat.shiftLeft_eq, Nat.mul_comm, Nat.two_pow_add_eq_or_of_lt y.isLt]

theorem extract_toNat {w : Nat} (x : BitVec w) (lo n : Nat) : (x.extractLsb' lo n).toNat = x.toNat / 2 ^ lo % 2 ^ n := by
  rw [BitVec.extractLsb'_toNat, Nat.shiftRight_eq_div_pow]

/-- The guard bits as a number. -/
theorem encGuard_toNat (g : Guard) : (encGuard g).toNat = g.pred.toNat * 2 + g.neg.toNat := by
  unfold encGuard
  rw [append_toNat]
  cases g.neg <;> rfl

/-- The guard of a syllable by numbers. -/
theorem guardOf_eq {y : Syllable} {g : Guard} (h : y.toNat / 2 ^ 55 = g.pred.toNat * 2 + g.neg.toNat) : guardOf y = g := by
  obtain ⟨p, n⟩ := g
  have hb : n.toNat < 2 := by cases n <;> decide
  simp only [] at h
  rw [guardOf, Guard.mk.injEq]
  constructor
  · apply BitVec.eq_of_toNat_eq
    rw [extract_toNat]
    have := p.isLt
    omega
  · rw [← BitVec.testBit_toNat, Nat.testBit_eq_decide_div_mod_eq, h]
    cases n
    · simp
    · simp

theorem a3_toNat (op : BitVec 10) (o : A3) : (encA3 op o).toNat =
    (((((encGuard o.guard).toNat * 2 ^ 10 + op.toNat) * 2 ^ 7 + o.d.toNat) * 2 ^ 7 + o.s1.toNat) * 2 ^ 7 + o.s2.toNat) * 2 ^ 24 +
      o.s3.toNat * 2 ^ 17 + o.m.toNat := by
  unfold encA3
  rw [append_toNat, append_toNat, append_toNat, append_toNat, append_toNat, append_toNat]
  omega

theorem en_toNat (op : BitVec 10) (o : EN) : (encEN op o).toNat =
    (((((encGuard o.guard).toNat * 2 ^ 10 + op.toNat) * 2 ^ 7 + o.tag.toNat) * 2 ^ 7 + o.o1.toNat) * 2 ^ 7 + o.o2.toNat) * 2 ^ 24 +
      o.o3.toNat * 2 ^ 17 + o.em.toNat := by
  unfold encEN
  rw [append_toNat, append_toNat, append_toNat, append_toNat, append_toNat, append_toNat]
  omega

theorem ai_toNat (op : BitVec 10) (o : AI) : (encAI op o).toNat =
    (((encGuard o.guard).toNat * 2 ^ 10 + op.toNat) * 2 ^ 7 + o.d.toNat) * 2 ^ 38 + o.s1.toNat * 2 ^ 31 + o.imm.toNat := by
  unfold encAI
  rw [append_toNat, append_toNat, append_toNat, append_toNat]
  omega

theorem wi_toNat (op : BitVec 10) (o : WI) : (encWI op o).toNat =
    ((encGuard o.guard).toNat * 2 ^ 10 + op.toNat) * 2 ^ 45 + o.d.toNat * 2 ^ 38 + o.imm.toNat := by
  unfold encWI
  rw [append_toNat, append_toNat, append_toNat]
  omega

theorem br_toNat (op : BitVec 10) (o : BrF) : (encBR op o).toNat =
    (((encGuard o.guard).toNat * 2 ^ 10 + op.toNat) * 2 ^ 7 + o.link.toNat) * 2 ^ 38 + o.off.toNat * 2 ^ 6 + o.md.toNat := by
  unfold encBR
  rw [append_toNat, append_toNat, append_toNat, append_toNat]
  omega

/-! ### Reading back -/

theorem opOf_toNat (y : Syllable) : opOf y = y.toNat / 2 ^ 45 % 2 ^ 10 := extract_toNat y 45 10

theorem opOf_encA3 (op : BitVec 10) (o : A3) : opOf (encA3 op o) = op.toNat := by
  rw [opOf_toNat, a3_toNat]
  have := op.isLt; have := o.d.isLt; have := o.s1.isLt; have := o.s2.isLt; have := o.s3.isLt; have := o.m.isLt
  omega
theorem opOf_encEN (op : BitVec 10) (o : EN) : opOf (encEN op o) = op.toNat := by
  rw [opOf_toNat, en_toNat]
  have := op.isLt; have := o.tag.isLt; have := o.o1.isLt; have := o.o2.isLt; have := o.o3.isLt; have := o.em.isLt
  omega
theorem opOf_encAI (op : BitVec 10) (o : AI) : opOf (encAI op o) = op.toNat := by
  rw [opOf_toNat, ai_toNat]
  have := op.isLt; have := o.d.isLt; have := o.s1.isLt; have := o.imm.isLt
  omega
theorem opOf_encWI (op : BitVec 10) (o : WI) : opOf (encWI op o) = op.toNat := by
  rw [opOf_toNat, wi_toNat]
  have := op.isLt; have := o.d.isLt; have := o.imm.isLt
  omega
theorem opOf_encBR (op : BitVec 10) (o : BrF) : opOf (encBR op o) = op.toNat := by
  rw [opOf_toNat, br_toNat]
  have := op.isLt; have := o.link.isLt; have := o.off.isLt; have := o.md.isLt
  omega

theorem guardOf_encA3 (op : BitVec 10) (o : A3) : guardOf (encA3 op o) = o.guard := by
  apply guardOf_eq
  rw [a3_toNat, encGuard_toNat]
  have := op.isLt; have := o.d.isLt; have := o.s1.isLt; have := o.s2.isLt; have := o.s3.isLt; have := o.m.isLt
  omega
theorem guardOf_encEN (op : BitVec 10) (o : EN) : guardOf (encEN op o) = o.guard := by
  apply guardOf_eq
  rw [en_toNat, encGuard_toNat]
  have := op.isLt; have := o.tag.isLt; have := o.o1.isLt; have := o.o2.isLt; have := o.o3.isLt; have := o.em.isLt
  omega
theorem guardOf_encAI (op : BitVec 10) (o : AI) : guardOf (encAI op o) = o.guard := by
  apply guardOf_eq
  rw [ai_toNat, encGuard_toNat]
  have := op.isLt; have := o.d.isLt; have := o.s1.isLt; have := o.imm.isLt
  omega
theorem guardOf_encWI (op : BitVec 10) (o : WI) : guardOf (encWI op o) = o.guard := by
  apply guardOf_eq
  rw [wi_toNat, encGuard_toNat]
  have := op.isLt; have := o.d.isLt; have := o.imm.isLt
  omega
theorem guardOf_encBR (op : BitVec 10) (o : BrF) : guardOf (encBR op o) = o.guard := by
  apply guardOf_eq
  rw [br_toNat, encGuard_toNat]
  have := op.isLt; have := o.link.isLt; have := o.off.isLt; have := o.md.isLt
  omega

theorem a3Of_encA3 (op : BitVec 10) (o : A3) : a3Of (encA3 op o) = o := by
  have hg := guardOf_encA3 op o
  have := op.isLt; have := o.d.isLt; have := o.s1.isLt; have := o.s2.isLt; have := o.s3.isLt; have := o.m.isLt
  unfold a3Of
  rw [hg]
  obtain ⟨g, d, s1, s2, s3, m⟩ := o
  rw [A3.mk.injEq]
  refine ⟨rfl, ?_, ?_, ?_, ?_, ?_⟩ <;>
    (apply BitVec.eq_of_toNat_eq; rw [extract_toNat, a3_toNat]; simp only [] at *; omega)
theorem enOf_encEN (op : BitVec 10) (o : EN) : enOf (encEN op o) = o := by
  have hg := guardOf_encEN op o
  have := op.isLt; have := o.tag.isLt; have := o.o1.isLt; have := o.o2.isLt; have := o.o3.isLt; have := o.em.isLt
  unfold enOf
  rw [hg]
  obtain ⟨g, d, s1, s2, s3, m⟩ := o
  rw [EN.mk.injEq]
  refine ⟨rfl, ?_, ?_, ?_, ?_, ?_⟩ <;>
    (apply BitVec.eq_of_toNat_eq; rw [extract_toNat, en_toNat]; simp only [] at *; omega)
theorem aiOf_encAI (op : BitVec 10) (o : AI) : aiOf (encAI op o) = o := by
  have hg := guardOf_encAI op o
  have := op.isLt; have := o.d.isLt; have := o.s1.isLt; have := o.imm.isLt
  unfold aiOf
  rw [hg]
  obtain ⟨g, d, s1, m⟩ := o
  rw [AI.mk.injEq]
  refine ⟨rfl, ?_, ?_, ?_⟩ <;> (apply BitVec.eq_of_toNat_eq; rw [extract_toNat, ai_toNat]; simp only [] at *; omega)
theorem wiOf_encWI (op : BitVec 10) (o : WI) : wiOf (encWI op o) = o := by
  have hg := guardOf_encWI op o
  have := op.isLt; have := o.d.isLt; have := o.imm.isLt
  unfold wiOf
  rw [hg]
  obtain ⟨g, d, m⟩ := o
  rw [WI.mk.injEq]
  refine ⟨rfl, ?_, ?_⟩ <;> (apply BitVec.eq_of_toNat_eq; rw [extract_toNat, wi_toNat]; simp only [] at *; omega)
theorem brOf_encBR (op : BitVec 10) (o : BrF) : brOf (encBR op o) = o := by
  have hg := guardOf_encBR op o
  have := op.isLt; have := o.link.isLt; have := o.off.isLt; have := o.md.isLt
  unfold brOf
  rw [hg]
  obtain ⟨g, d, m, x⟩ := o
  rw [BrF.mk.injEq]
  refine ⟨rfl, ?_, ?_, ?_⟩ <;> (apply BitVec.eq_of_toNat_eq; rw [extract_toNat, br_toNat]; simp only [] at *; omega)

end Sys2Proof
end

