-- ==== Sys2Proof/Laws/Sparse.lean ====
section
/-! SUPPORT. Sys2Proof/Laws/Sparse.lean: reading after writing, and the canonical form, of the sparse tables and memories. -/

namespace Sys2Proof.Machine

variable {α : Type} [DecidableEq α]

theorem Sparse.wfFrom_mono {d : α} {m : Sparse α} {lo lo' : Nat} (h : lo' ≤ lo) (w : Sparse.wfFrom d lo m = true) :
    Sparse.wfFrom d lo' m = true := by
  cases m with
  | nil => rfl
  | cons x m =>
    simp only [Sparse.wfFrom, Bool.and_eq_true, decide_eq_true_eq] at w ⊢
    exact ⟨⟨by omega, w.1.2⟩, w.2⟩

/-- Below the first key a canonical table reads the default. -/
theorem Sparse.get_below {d : α} {m : Sparse α} {lo n : Nat} (w : Sparse.wfFrom d lo m = true) (h : n < lo) :
    Sparse.get d m n = d := by
  cases m with
  | nil => rfl
  | cons x m =>
    simp only [Sparse.wfFrom, Bool.and_eq_true, decide_eq_true_eq] at w
    have h1 : n ≠ x.1 := by omega
    have h2 : n < x.1 := by omega
    simp [Sparse.get, h1, h2]

theorem Sparse.put_wf {d v : α} {k lo : Nat} {m : Sparse α} (h : lo ≤ k) (w : Sparse.wfFrom d (k + 1) m = true) :
    Sparse.wfFrom d lo (Sparse.put d k v m) = true := by
  unfold Sparse.put
  split
  · exact Sparse.wfFrom_mono (by omega) w
  · simp_all [Sparse.wfFrom]

/-- A write keeps the canonical form. -/
theorem Sparse.set_wfFrom {d v : α} {n : Nat} {m : Sparse α} {lo : Nat} (h : lo ≤ n) (w : Sparse.wfFrom d lo m = true) :
    Sparse.wfFrom d lo (Sparse.set d m n v) = true := by
  induction m generalizing lo with
  | nil => exact Sparse.put_wf h rfl
  | cons x m ih =>
    simp only [Sparse.wfFrom, Bool.and_eq_true, decide_eq_true_eq] at w
    unfold Sparse.set
    split
    · exact Sparse.put_wf h (by subst n; exact w.2)
    · split
      · refine Sparse.put_wf h ?_
        simp only [Sparse.wfFrom, Bool.and_eq_true, decide_eq_true_eq]
        exact ⟨⟨by omega, w.1.2⟩, w.2⟩
      · simp only [Sparse.wfFrom, Bool.and_eq_true, decide_eq_true_eq]
        exact ⟨w.1, ih (by omega) w.2⟩

/-- A write keeps the canonical form. -/
@[simp] theorem Sparse.set_wf {d v : α} {n : Nat} {m : Sparse α} (w : Sparse.wf d m = true) :
    Sparse.wf d (Sparse.set d m n v) = true := Sparse.set_wfFrom (by omega) w

/-- The empty table is canonical. -/
@[simp] theorem Sparse.nil_wf {d : α} : Sparse.wf d ([] : Sparse α) = true := rfl

theorem Sparse.get_put_same {d v : α} {k lo : Nat} {m : Sparse α} (h : k < lo) (w : Sparse.wfFrom d lo m = true) :
    Sparse.get d (Sparse.put d k v m) k = v := by
  unfold Sparse.put
  split
  · rename_i e; rw [e]; exact Sparse.get_below w h
  · simp [Sparse.get]

theorem Sparse.get_put_other {d v : α} {k n lo : Nat} {m : Sparse α} (h : k < lo) (hn : n ≠ k) (w : Sparse.wfFrom d lo m = true) :
    Sparse.get d (Sparse.put d k v m) n = Sparse.get d m n := by
  unfold Sparse.put
  split
  · rfl
  · simp only [Sparse.get, hn, if_false]
    split
    · exact (Sparse.get_below w (by omega)).symm
    · rfl

/-- A canonical table reads what was written last, and elsewhere what it read before. -/
theorem Sparse.get_set_from {d v : α} {n : Nat} {m : Sparse α} {lo : Nat} (w : Sparse.wfFrom d lo m = true) (i : Nat) :
    Sparse.get d (Sparse.set d m n v) i = if i = n then v else Sparse.get d m i := by
  induction m generalizing lo with
  | nil =>
    unfold Sparse.set Sparse.put
    by_cases h : v = d <;> by_cases hi : i = n <;> simp [Sparse.get, h, hi]
  | cons x m ih =>
    have w' := w
    simp only [Sparse.wfFrom, Bool.and_eq_true, decide_eq_true_eq] at w
    unfold Sparse.set
    split
    · rename_i e
      by_cases hi : i = n
      · rw [if_pos hi, hi]; exact Sparse.get_put_same (lo := x.1 + 1) (by omega) w.2
      · rw [if_neg hi, Sparse.get_put_other (lo := x.1 + 1) (by omega) hi w.2]
        have : i ≠ x.1 := by omega
        simp only [Sparse.get, this, if_false]
        split
        · exact Sparse.get_below w.2 (by omega)
        · rfl
    · split
      · have wx : Sparse.wfFrom d x.1 (x :: m) = true := by
          simp only [Sparse.wfFrom, Bool.and_eq_true, decide_eq_true_eq]
          exact ⟨⟨by omega, w.1.2⟩, w.2⟩
        by_cases hi : i = n
        · rw [if_pos hi, hi]; exact Sparse.get_put_same (lo := x.1) (by omega) wx
        · rw [if_neg hi, Sparse.get_put_other (lo := x.1) (by omega) hi wx]
      · simp only [Sparse.get]
        by_cases h1 : i = x.1
        · have : i ≠ n := by omega
          rw [if_pos h1, if_neg this, if_pos h1]
        · rw [if_neg h1, if_neg h1, ih w.2]
          by_cases h2 : i < x.1
          · have : i ≠ n := by omega
            rw [if_pos h2, if_neg this, if_pos h2]
          · rw [if_neg h2, if_neg h2]

/-- A canonical table reads what was written last, and elsewhere what it read before. -/
theorem Sparse.get_set {d v : α} {n : Nat} {m : Sparse α} (w : Sparse.wf d m = true) (i : Nat) :
    Sparse.get d (Sparse.set d m n v) i = if i = n then v else Sparse.get d m i := Sparse.get_set_from w i

/-- In any table a key reads what was written to it last. -/
theorem Sparse.get_set_same {d v : α} {n : Nat} {m : Sparse α} (w : Sparse.wf d m = true) :
    Sparse.get d (Sparse.set d m n v) n = v := by simp [Sparse.get_set w]

/-- The same above a bound. -/
theorem Sparse.ext_from {d : α} {m m' : Sparse α} {lo : Nat} (w : Sparse.wfFrom d lo m = true) (w' : Sparse.wfFrom d lo m' = true)
    (h : ∀ i, Sparse.get d m i = Sparse.get d m' i) : m = m' := by
  induction m generalizing lo m' with
  | nil =>
    cases m' with
    | nil => rfl
    | cons e l =>
      have := h e.1
      simp [Sparse.wfFrom] at w'
      simp [Sparse.get] at this
      exact absurd this.symm w'.1.2
  | cons e l ih =>
    obtain ⟨k, v⟩ := e
    simp only [Sparse.wfFrom, Bool.and_eq_true, decide_eq_true_eq] at w
    cases m' with
    | nil =>
      have := h k
      simp [Sparse.get] at this
      exact absurd this w.1.2
    | cons e' l' =>
      obtain ⟨k', v'⟩ := e'
      simp only [Sparse.wfFrom, Bool.and_eq_true, decide_eq_true_eq] at w'
      have h1 := h k
      have h2 := h k'
      simp only [Sparse.get, if_true] at h1 h2
      have hk : k = k' := by
        rcases Nat.lt_trichotomy k k' with hl | hl | hl
        · rw [if_neg (by omega), if_pos hl] at h1; exact absurd h1 w.1.2
        · exact hl
        · rw [if_neg (by omega), if_pos hl] at h2; exact absurd h2.symm w'.1.2
      subst hk
      simp only [if_true] at h1
      subst h1
      congr 1
      refine ih w.2 w'.2 fun i => ?_
      have h3 := h i
      simp only [Sparse.get] at h3
      by_cases hi : i ≤ k
      · rw [Sparse.get_below w.2 (by omega), Sparse.get_below w'.2 (by omega)]
      · rwa [if_neg (by omega), if_neg (by omega), if_neg (by omega), if_neg (by omega)] at h3

/-- Canonical tables that read alike are equal. -/
theorem Sparse.ext {d : α} {m m' : Sparse α} (w : Sparse.wf d m = true) (w' : Sparse.wf d m' = true)
    (h : ∀ i, Sparse.get d m i = Sparse.get d m' i) : m = m' := Sparse.ext_from w w' h

/-- The later of two writes to one key counts. -/
theorem Sparse.set_set {d v u : α} {n : Nat} {m : Sparse α} (w : Sparse.wf d m = true) :
    Sparse.set d (Sparse.set d m n v) n u = Sparse.set d m n u :=
  Sparse.ext (Sparse.set_wf (Sparse.set_wf w)) (Sparse.set_wf w) fun i => by
    rw [Sparse.get_set (Sparse.set_wf w), Sparse.get_set w, Sparse.get_set w]
    split <;> rfl

/-- Writing what a key reads changes nothing. -/
theorem Sparse.set_get {d : α} {n : Nat} {m : Sparse α} (w : Sparse.wf d m = true) : Sparse.set d m n (Sparse.get d m n) = m :=
  Sparse.ext (Sparse.set_wf w) w fun i => by
    rw [Sparse.get_set w]
    split
    · next h => rw [h]
    · rfl

/-! ### Memories -/

/-- Every memory operation keeps the canonical form. -/
@[simp] theorem putMem_wf {m : Memory} {a : Nat} {l : List Byte} (w : Memory.wf m = true) : Memory.wf (putMem m a l) = true := by
  induction l generalizing m a with
  | nil => exact w
  | cons b l ih => exact ih (Sparse.set_wf w)

/-- What a memory reads after bytes have been put into it. -/
theorem get_putMem {m : Memory} {a : Nat} {l : List Byte} (w : Memory.wf m = true) (i : Nat) :
    Sparse.get 0 (putMem m a l) i = if a ≤ i ∧ i < a + l.length then l.getD (i - a) 0 else Sparse.get 0 m i := by
  induction l generalizing m a with
  | nil => exact (if_neg (by simp only [List.length_nil]; omega)).symm
  | cons b l ih =>
    have w' : Memory.wf (Sparse.set 0 m a b) = true := Sparse.set_wf w
    rw [putMem, ih w', Sparse.get_set w]
    simp only [List.length_cons]
    by_cases h : i = a
    · subst h
      simp <;> omega
    · by_cases h2 : a + 1 ≤ i ∧ i < a + 1 + l.length
      · have h3 : a ≤ i ∧ i < a + (l.length + 1) := by omega
        have h4 : i - a = (i - (a + 1)) + 1 := by omega
        rw [if_pos h2, if_pos h3, h4, List.getD_cons_succ]
      · have h3 : ¬ (a ≤ i ∧ i < a + (l.length + 1)) := by omega
        rw [if_neg h2, if_neg h3, if_neg h]

/-- Bytes outside those put read as before. -/
theorem get_putMem_outside {m : Memory} {a : Nat} {l : List Byte} (w : Memory.wf m = true) {i : Nat}
    (h : i < a ∨ a + l.length ≤ i) : Sparse.get 0 (putMem m a l) i = Sparse.get 0 m i := by
  rw [get_putMem w, if_neg (by omega)]

end Sys2Proof.Machine
end

