-- ==== Sys2Proof/Laws/State.lean ====
section
/-! SUPPORT. Sys2Proof/Laws/State.lean: what the updates of State leave as it was, field by field, and how the table of cores reads
after a write. -/

namespace Sys2Proof.Machine

open Safety

theorem State.setCore_coresWf {s : State} {c : Nat} {k : Core} (w : CoresWf s) : CoresWf (s.setCore c k) := Sparse.set_wf w

/-- The record of a core after one has been replaced. -/
theorem State.core_setCore {s : State} {c : Nat} {k : Core} (w : CoresWf s) (i : Nat) :
    (s.setCore c k).core i = if i = c then k else s.core i := Sparse.get_set w i
theorem State.core_setCore_same {s : State} {c : Nat} {k : Core} (w : CoresWf s) : (s.setCore c k).core c = k := by
  simp [State.core_setCore w]
theorem State.core_onCore {s : State} {c : Nat} {f : Core → Core} (w : CoresWf s) (i : Nat) :
    (s.onCore c f).core i = if i = c then f (s.core c) else s.core i := State.core_setCore w i
theorem State.core_onArch {s : State} {c : Nat} {f : Arch → Arch} (w : CoresWf s) (i : Nat) :
    (s.onArch c f).core i = if i = c then { s.core c with arch := f (s.core c).arch } else s.core i := State.core_setCore w i

@[simp] theorem State.setCore_fieldmask {s : State} {c : Nat} {k : Core} : (s.setCore c k).fieldmask = s.fieldmask := rfl
@[simp] theorem State.setCore_pendingMask {s : State} {c : Nat} {k : Core} : (s.setCore c k).pendingMask = s.pendingMask := rfl
@[simp] theorem State.setCore_overhead {s : State} {c : Nat} {k : Core} : (s.setCore c k).overhead = s.overhead := rfl
@[simp] theorem State.setCore_slotTables {s : State} {c : Nat} {k : Core} : (s.setCore c k).slotTables = s.slotTables := rfl
@[simp] theorem State.setCore_slotPending {s : State} {c : Nat} {k : Core} : (s.setCore c k).slotPending = s.slotPending := rfl
@[simp] theorem State.setCore_slotServed {s : State} {c : Nat} {k : Core} : (s.setCore c k).slotServed = s.slotServed := rfl
@[simp] theorem State.setCore_slotCycle {s : State} {c : Nat} {k : Core} : (s.setCore c k).slotCycle = s.slotCycle := rfl
@[simp] theorem State.setCore_slotUsed {s : State} {c : Nat} {k : Core} : (s.setCore c k).slotUsed = s.slotUsed := rfl
@[simp] theorem State.setCore_gtc {s : State} {c : Nat} {k : Core} : (s.setCore c k).gtc = s.gtc := rfl
@[simp] theorem State.setCore_csm {s : State} {c : Nat} {k : Core} : (s.setCore c k).csm = s.csm := rfl
@[simp] theorem State.setCore_csmMarks {s : State} {c : Nat} {k : Core} : (s.setCore c k).csmMarks = s.csmMarks := rfl
@[simp] theorem State.setCore_host {s : State} {c : Nat} {k : Core} : (s.setCore c k).host = s.host := rfl
@[simp] theorem State.setCore_hbm {s : State} {c : Nat} {k : Core} : (s.setCore c k).hbm = s.hbm := rfl
@[simp] theorem State.setCore_contexts {s : State} {c : Nat} {k : Core} : (s.setCore c k).contexts = s.contexts := rfl
@[simp] theorem State.setCore_modules {s : State} {c : Nat} {k : Core} : (s.setCore c k).modules = s.modules := rfl
@[simp] theorem State.setCore_handles {s : State} {c : Nat} {k : Core} : (s.setCore c k).handles = s.handles := rfl
@[simp] theorem State.setCore_launches {s : State} {c : Nat} {k : Core} : (s.setCore c k).launches = s.launches := rfl
@[simp] theorem State.setCore_launchIds {s : State} {c : Nat} {k : Core} : (s.setCore c k).launchIds = s.launchIds := rfl
@[simp] theorem State.setCore_grants {s : State} {c : Nat} {k : Core} : (s.setCore c k).grants = s.grants := rfl
@[simp] theorem State.setCore_heldEvents {s : State} {c : Nat} {k : Core} : (s.setCore c k).heldEvents = s.heldEvents := rfl
@[simp] theorem State.setCore_transits {s : State} {c : Nat} {k : Core} : (s.setCore c k).transits = s.transits := rfl
@[simp] theorem State.setCore_launchMsgs {s : State} {c : Nat} {k : Core} : (s.setCore c k).launchMsgs = s.launchMsgs := rfl
@[simp] theorem State.setCore_tags {s : State} {c : Nat} {k : Core} : (s.setCore c k).tags = s.tags := rfl
@[simp] theorem State.setCore_windows {s : State} {c : Nat} {k : Core} : (s.setCore c k).windows = s.windows := rfl
@[simp] theorem State.setCore_resends {s : State} {c : Nat} {k : Core} : (s.setCore c k).resends = s.resends := rfl
@[simp] theorem State.setCore_migrations {s : State} {c : Nat} {k : Core} : (s.setCore c k).migrations = s.migrations := rfl
@[simp] theorem State.setCore_faults {s : State} {c : Nat} {k : Core} : (s.setCore c k).faults = s.faults := rfl
@[simp] theorem State.setCore_holdOffs {s : State} {c : Nat} {k : Core} : (s.setCore c k).holdOffs = s.holdOffs := rfl
@[simp] theorem State.setCore_stepMeta {s : State} {c : Nat} {k : Core} : (s.setCore c k).stepMeta = s.stepMeta := rfl
@[simp] theorem State.setCore_stepMarks {s : State} {c : Nat} {k : Core} : (s.setCore c k).stepMarks = s.stepMarks := rfl
@[simp] theorem State.setCore_landed {s : State} {c : Nat} {k : Core} : (s.setCore c k).landed = s.landed := rfl
@[simp] theorem State.setCore_landedAt {s : State} {c : Nat} {k : Core} : (s.setCore c k).landedAt = s.landedAt := rfl
@[simp] theorem State.setCore_errors {s : State} {c : Nat} {k : Core} : (s.setCore c k).errors = s.errors := rfl
@[simp] theorem State.setCore_found {s : State} {c : Nat} {k : Core} : (s.setCore c k).found = s.found := rfl
@[simp] theorem State.setCore_ring {s : State} {c : Nat} {k : Core} : (s.setCore c k).ring = s.ring := rfl
@[simp] theorem State.setCore_ringHeld {s : State} {c : Nat} {k : Core} : (s.setCore c k).ringHeld = s.ringHeld := rfl
@[simp] theorem State.setCore_markhor {s : State} {c : Nat} {k : Core} : (s.setCore c k).markhor = s.markhor := rfl
@[simp] theorem State.setCore_answers {s : State} {c : Nat} {k : Core} : (s.setCore c k).answers = s.answers := rfl
@[simp] theorem State.setCore_part {s : State} {c : Nat} {k : Core} : (s.setCore c k).part = s.part := rfl
@[simp] theorem State.setCore_latch {s : State} {c : Nat} {k : Core} : (s.setCore c k).latch = s.latch := rfl
@[simp] theorem State.setCore_agenda {s : State} {c : Nat} {k : Core} : (s.setCore c k).agenda = s.agenda := rfl
@[simp] theorem State.setCore_choice {s : State} {c : Nat} {k : Core} : (s.setCore c k).choice = s.choice := rfl

@[simp] theorem State.onCore_fieldmask {s : State} {c : Nat} {f : Core → Core} : (s.onCore c f).fieldmask = s.fieldmask := rfl
@[simp] theorem State.onCore_pendingMask {s : State} {c : Nat} {f : Core → Core} : (s.onCore c f).pendingMask = s.pendingMask := rfl
@[simp] theorem State.onCore_overhead {s : State} {c : Nat} {f : Core → Core} : (s.onCore c f).overhead = s.overhead := rfl
@[simp] theorem State.onCore_slotTables {s : State} {c : Nat} {f : Core → Core} : (s.onCore c f).slotTables = s.slotTables := rfl
@[simp] theorem State.onCore_slotPending {s : State} {c : Nat} {f : Core → Core} : (s.onCore c f).slotPending = s.slotPending := rfl
@[simp] theorem State.onCore_slotServed {s : State} {c : Nat} {f : Core → Core} : (s.onCore c f).slotServed = s.slotServed := rfl
@[simp] theorem State.onCore_slotCycle {s : State} {c : Nat} {f : Core → Core} : (s.onCore c f).slotCycle = s.slotCycle := rfl
@[simp] theorem State.onCore_slotUsed {s : State} {c : Nat} {f : Core → Core} : (s.onCore c f).slotUsed = s.slotUsed := rfl
@[simp] theorem State.onCore_gtc {s : State} {c : Nat} {f : Core → Core} : (s.onCore c f).gtc = s.gtc := rfl
@[simp] theorem State.onCore_csm {s : State} {c : Nat} {f : Core → Core} : (s.onCore c f).csm = s.csm := rfl
@[simp] theorem State.onCore_csmMarks {s : State} {c : Nat} {f : Core → Core} : (s.onCore c f).csmMarks = s.csmMarks := rfl
@[simp] theorem State.onCore_host {s : State} {c : Nat} {f : Core → Core} : (s.onCore c f).host = s.host := rfl
@[simp] theorem State.onCore_hbm {s : State} {c : Nat} {f : Core → Core} : (s.onCore c f).hbm = s.hbm := rfl
@[simp] theorem State.onCore_contexts {s : State} {c : Nat} {f : Core → Core} : (s.onCore c f).contexts = s.contexts := rfl
@[simp] theorem State.onCore_modules {s : State} {c : Nat} {f : Core → Core} : (s.onCore c f).modules = s.modules := rfl
@[simp] theorem State.onCore_handles {s : State} {c : Nat} {f : Core → Core} : (s.onCore c f).handles = s.handles := rfl
@[simp] theorem State.onCore_launches {s : State} {c : Nat} {f : Core → Core} : (s.onCore c f).launches = s.launches := rfl
@[simp] theorem State.onCore_launchIds {s : State} {c : Nat} {f : Core → Core} : (s.onCore c f).launchIds = s.launchIds := rfl
@[simp] theorem State.onCore_grants {s : State} {c : Nat} {f : Core → Core} : (s.onCore c f).grants = s.grants := rfl
@[simp] theorem State.onCore_heldEvents {s : State} {c : Nat} {f : Core → Core} : (s.onCore c f).heldEvents = s.heldEvents := rfl
@[simp] theorem State.onCore_transits {s : State} {c : Nat} {f : Core → Core} : (s.onCore c f).transits = s.transits := rfl
@[simp] theorem State.onCore_launchMsgs {s : State} {c : Nat} {f : Core → Core} : (s.onCore c f).launchMsgs = s.launchMsgs := rfl
@[simp] theorem State.onCore_tags {s : State} {c : Nat} {f : Core → Core} : (s.onCore c f).tags = s.tags := rfl
@[simp] theorem State.onCore_windows {s : State} {c : Nat} {f : Core → Core} : (s.onCore c f).windows = s.windows := rfl
@[simp] theorem State.onCore_resends {s : State} {c : Nat} {f : Core → Core} : (s.onCore c f).resends = s.resends := rfl
@[simp] theorem State.onCore_migrations {s : State} {c : Nat} {f : Core → Core} : (s.onCore c f).migrations = s.migrations := rfl
@[simp] theorem State.onCore_faults {s : State} {c : Nat} {f : Core → Core} : (s.onCore c f).faults = s.faults := rfl
@[simp] theorem State.onCore_holdOffs {s : State} {c : Nat} {f : Core → Core} : (s.onCore c f).holdOffs = s.holdOffs := rfl
@[simp] theorem State.onCore_stepMeta {s : State} {c : Nat} {f : Core → Core} : (s.onCore c f).stepMeta = s.stepMeta := rfl
@[simp] theorem State.onCore_stepMarks {s : State} {c : Nat} {f : Core → Core} : (s.onCore c f).stepMarks = s.stepMarks := rfl
@[simp] theorem State.onCore_landed {s : State} {c : Nat} {f : Core → Core} : (s.onCore c f).landed = s.landed := rfl
@[simp] theorem State.onCore_landedAt {s : State} {c : Nat} {f : Core → Core} : (s.onCore c f).landedAt = s.landedAt := rfl
@[simp] theorem State.onCore_errors {s : State} {c : Nat} {f : Core → Core} : (s.onCore c f).errors = s.errors := rfl
@[simp] theorem State.onCore_found {s : State} {c : Nat} {f : Core → Core} : (s.onCore c f).found = s.found := rfl
@[simp] theorem State.onCore_ring {s : State} {c : Nat} {f : Core → Core} : (s.onCore c f).ring = s.ring := rfl
@[simp] theorem State.onCore_ringHeld {s : State} {c : Nat} {f : Core → Core} : (s.onCore c f).ringHeld = s.ringHeld := rfl
@[simp] theorem State.onCore_markhor {s : State} {c : Nat} {f : Core → Core} : (s.onCore c f).markhor = s.markhor := rfl
@[simp] theorem State.onCore_answers {s : State} {c : Nat} {f : Core → Core} : (s.onCore c f).answers = s.answers := rfl
@[simp] theorem State.onCore_part {s : State} {c : Nat} {f : Core → Core} : (s.onCore c f).part = s.part := rfl
@[simp] theorem State.onCore_latch {s : State} {c : Nat} {f : Core → Core} : (s.onCore c f).latch = s.latch := rfl
@[simp] theorem State.onCore_agenda {s : State} {c : Nat} {f : Core → Core} : (s.onCore c f).agenda = s.agenda := rfl
@[simp] theorem State.onCore_choice {s : State} {c : Nat} {f : Core → Core} : (s.onCore c f).choice = s.choice := rfl

@[simp] theorem State.onArch_fieldmask {s : State} {c : Nat} {f : Arch → Arch} : (s.onArch c f).fieldmask = s.fieldmask := rfl
@[simp] theorem State.onArch_pendingMask {s : State} {c : Nat} {f : Arch → Arch} : (s.onArch c f).pendingMask = s.pendingMask := rfl
@[simp] theorem State.onArch_overhead {s : State} {c : Nat} {f : Arch → Arch} : (s.onArch c f).overhead = s.overhead := rfl
@[simp] theorem State.onArch_slotTables {s : State} {c : Nat} {f : Arch → Arch} : (s.onArch c f).slotTables = s.slotTables := rfl
@[simp] theorem State.onArch_slotPending {s : State} {c : Nat} {f : Arch → Arch} : (s.onArch c f).slotPending = s.slotPending := rfl
@[simp] theorem State.onArch_slotServed {s : State} {c : Nat} {f : Arch → Arch} : (s.onArch c f).slotServed = s.slotServed := rfl
@[simp] theorem State.onArch_slotCycle {s : State} {c : Nat} {f : Arch → Arch} : (s.onArch c f).slotCycle = s.slotCycle := rfl
@[simp] theorem State.onArch_slotUsed {s : State} {c : Nat} {f : Arch → Arch} : (s.onArch c f).slotUsed = s.slotUsed := rfl
@[simp] theorem State.onArch_gtc {s : State} {c : Nat} {f : Arch → Arch} : (s.onArch c f).gtc = s.gtc := rfl
@[simp] theorem State.onArch_csm {s : State} {c : Nat} {f : Arch → Arch} : (s.onArch c f).csm = s.csm := rfl
@[simp] theorem State.onArch_csmMarks {s : State} {c : Nat} {f : Arch → Arch} : (s.onArch c f).csmMarks = s.csmMarks := rfl
@[simp] theorem State.onArch_host {s : State} {c : Nat} {f : Arch → Arch} : (s.onArch c f).host = s.host := rfl
@[simp] theorem State.onArch_hbm {s : State} {c : Nat} {f : Arch → Arch} : (s.onArch c f).hbm = s.hbm := rfl
@[simp] theorem State.onArch_contexts {s : State} {c : Nat} {f : Arch → Arch} : (s.onArch c f).contexts = s.contexts := rfl
@[simp] theorem State.onArch_modules {s : State} {c : Nat} {f : Arch → Arch} : (s.onArch c f).modules = s.modules := rfl
@[simp] theorem State.onArch_handles {s : State} {c : Nat} {f : Arch → Arch} : (s.onArch c f).handles = s.handles := rfl
@[simp] theorem State.onArch_launches {s : State} {c : Nat} {f : Arch → Arch} : (s.onArch c f).launches = s.launches := rfl
@[simp] theorem State.onArch_launchIds {s : State} {c : Nat} {f : Arch → Arch} : (s.onArch c f).launchIds = s.launchIds := rfl
@[simp] theorem State.onArch_grants {s : State} {c : Nat} {f : Arch → Arch} : (s.onArch c f).grants = s.grants := rfl
@[simp] theorem State.onArch_heldEvents {s : State} {c : Nat} {f : Arch → Arch} : (s.onArch c f).heldEvents = s.heldEvents := rfl
@[simp] theorem State.onArch_transits {s : State} {c : Nat} {f : Arch → Arch} : (s.onArch c f).transits = s.transits := rfl
@[simp] theorem State.onArch_launchMsgs {s : State} {c : Nat} {f : Arch → Arch} : (s.onArch c f).launchMsgs = s.launchMsgs := rfl
@[simp] theorem State.onArch_tags {s : State} {c : Nat} {f : Arch → Arch} : (s.onArch c f).tags = s.tags := rfl
@[simp] theorem State.onArch_windows {s : State} {c : Nat} {f : Arch → Arch} : (s.onArch c f).windows = s.windows := rfl
@[simp] theorem State.onArch_resends {s : State} {c : Nat} {f : Arch → Arch} : (s.onArch c f).resends = s.resends := rfl
@[simp] theorem State.onArch_migrations {s : State} {c : Nat} {f : Arch → Arch} : (s.onArch c f).migrations = s.migrations := rfl
@[simp] theorem State.onArch_faults {s : State} {c : Nat} {f : Arch → Arch} : (s.onArch c f).faults = s.faults := rfl
@[simp] theorem State.onArch_holdOffs {s : State} {c : Nat} {f : Arch → Arch} : (s.onArch c f).holdOffs = s.holdOffs := rfl
@[simp] theorem State.onArch_stepMeta {s : State} {c : Nat} {f : Arch → Arch} : (s.onArch c f).stepMeta = s.stepMeta := rfl
@[simp] theorem State.onArch_stepMarks {s : State} {c : Nat} {f : Arch → Arch} : (s.onArch c f).stepMarks = s.stepMarks := rfl
@[simp] theorem State.onArch_landed {s : State} {c : Nat} {f : Arch → Arch} : (s.onArch c f).landed = s.landed := rfl
@[simp] theorem State.onArch_landedAt {s : State} {c : Nat} {f : Arch → Arch} : (s.onArch c f).landedAt = s.landedAt := rfl
@[simp] theorem State.onArch_errors {s : State} {c : Nat} {f : Arch → Arch} : (s.onArch c f).errors = s.errors := rfl
@[simp] theorem State.onArch_found {s : State} {c : Nat} {f : Arch → Arch} : (s.onArch c f).found = s.found := rfl
@[simp] theorem State.onArch_ring {s : State} {c : Nat} {f : Arch → Arch} : (s.onArch c f).ring = s.ring := rfl
@[simp] theorem State.onArch_ringHeld {s : State} {c : Nat} {f : Arch → Arch} : (s.onArch c f).ringHeld = s.ringHeld := rfl
@[simp] theorem State.onArch_markhor {s : State} {c : Nat} {f : Arch → Arch} : (s.onArch c f).markhor = s.markhor := rfl
@[simp] theorem State.onArch_answers {s : State} {c : Nat} {f : Arch → Arch} : (s.onArch c f).answers = s.answers := rfl
@[simp] theorem State.onArch_part {s : State} {c : Nat} {f : Arch → Arch} : (s.onArch c f).part = s.part := rfl
@[simp] theorem State.onArch_latch {s : State} {c : Nat} {f : Arch → Arch} : (s.onArch c f).latch = s.latch := rfl
@[simp] theorem State.onArch_agenda {s : State} {c : Nat} {f : Arch → Arch} : (s.onArch c f).agenda = s.agenda := rfl
@[simp] theorem State.onArch_choice {s : State} {c : Nat} {f : Arch → Arch} : (s.onArch c f).choice = s.choice := rfl

@[simp] theorem State.setContext_cores {s : State} {a : Nat} {x : Option Context} : (s.setContext a x).cores = s.cores := rfl
@[simp] theorem State.setContext_fieldmask {s : State} {a : Nat} {x : Option Context} : (s.setContext a x).fieldmask = s.fieldmask := rfl
@[simp] theorem State.setContext_pendingMask {s : State} {a : Nat} {x : Option Context} : (s.setContext a x).pendingMask = s.pendingMask := rfl
@[simp] theorem State.setContext_overhead {s : State} {a : Nat} {x : Option Context} : (s.setContext a x).overhead = s.overhead := rfl
@[simp] theorem State.setContext_slotTables {s : State} {a : Nat} {x : Option Context} : (s.setContext a x).slotTables = s.slotTables := rfl
@[simp] theorem State.setContext_slotPending {s : State} {a : Nat} {x : Option Context} : (s.setContext a x).slotPending = s.slotPending := rfl
@[simp] theorem State.setContext_slotServed {s : State} {a : Nat} {x : Option Context} : (s.setContext a x).slotServed = s.slotServed := rfl
@[simp] theorem State.setContext_slotCycle {s : State} {a : Nat} {x : Option Context} : (s.setContext a x).slotCycle = s.slotCycle := rfl
@[simp] theorem State.setContext_slotUsed {s : State} {a : Nat} {x : Option Context} : (s.setContext a x).slotUsed = s.slotUsed := rfl
@[simp] theorem State.setContext_gtc {s : State} {a : Nat} {x : Option Context} : (s.setContext a x).gtc = s.gtc := rfl
@[simp] theorem State.setContext_csm {s : State} {a : Nat} {x : Option Context} : (s.setContext a x).csm = s.csm := rfl
@[simp] theorem State.setContext_csmMarks {s : State} {a : Nat} {x : Option Context} : (s.setContext a x).csmMarks = s.csmMarks := rfl
@[simp] theorem State.setContext_host {s : State} {a : Nat} {x : Option Context} : (s.setContext a x).host = s.host := rfl
@[simp] theorem State.setContext_hbm {s : State} {a : Nat} {x : Option Context} : (s.setContext a x).hbm = s.hbm := rfl
@[simp] theorem State.setContext_modules {s : State} {a : Nat} {x : Option Context} : (s.setContext a x).modules = s.modules := rfl
@[simp] theorem State.setContext_handles {s : State} {a : Nat} {x : Option Context} : (s.setContext a x).handles = s.handles := rfl
@[simp] theorem State.setContext_launches {s : State} {a : Nat} {x : Option Context} : (s.setContext a x).launches = s.launches := rfl
@[simp] theorem State.setContext_launchIds {s : State} {a : Nat} {x : Option Context} : (s.setContext a x).launchIds = s.launchIds := rfl
@[simp] theorem State.setContext_grants {s : State} {a : Nat} {x : Option Context} : (s.setContext a x).grants = s.grants := rfl
@[simp] theorem State.setContext_heldEvents {s : State} {a : Nat} {x : Option Context} : (s.setContext a x).heldEvents = s.heldEvents := rfl
@[simp] theorem State.setContext_transits {s : State} {a : Nat} {x : Option Context} : (s.setContext a x).transits = s.transits := rfl
@[simp] theorem State.setContext_launchMsgs {s : State} {a : Nat} {x : Option Context} : (s.setContext a x).launchMsgs = s.launchMsgs := rfl
@[simp] theorem State.setContext_tags {s : State} {a : Nat} {x : Option Context} : (s.setContext a x).tags = s.tags := rfl
@[simp] theorem State.setContext_windows {s : State} {a : Nat} {x : Option Context} : (s.setContext a x).windows = s.windows := rfl
@[simp] theorem State.setContext_resends {s : State} {a : Nat} {x : Option Context} : (s.setContext a x).resends = s.resends := rfl
@[simp] theorem State.setContext_migrations {s : State} {a : Nat} {x : Option Context} : (s.setContext a x).migrations = s.migrations := rfl
@[simp] theorem State.setContext_faults {s : State} {a : Nat} {x : Option Context} : (s.setContext a x).faults = s.faults := rfl
@[simp] theorem State.setContext_holdOffs {s : State} {a : Nat} {x : Option Context} : (s.setContext a x).holdOffs = s.holdOffs := rfl
@[simp] theorem State.setContext_stepMeta {s : State} {a : Nat} {x : Option Context} : (s.setContext a x).stepMeta = s.stepMeta := rfl
@[simp] theorem State.setContext_stepMarks {s : State} {a : Nat} {x : Option Context} : (s.setContext a x).stepMarks = s.stepMarks := rfl
@[simp] theorem State.setContext_landed {s : State} {a : Nat} {x : Option Context} : (s.setContext a x).landed = s.landed := rfl
@[simp] theorem State.setContext_landedAt {s : State} {a : Nat} {x : Option Context} : (s.setContext a x).landedAt = s.landedAt := rfl
@[simp] theorem State.setContext_errors {s : State} {a : Nat} {x : Option Context} : (s.setContext a x).errors = s.errors := rfl
@[simp] theorem State.setContext_found {s : State} {a : Nat} {x : Option Context} : (s.setContext a x).found = s.found := rfl
@[simp] theorem State.setContext_ring {s : State} {a : Nat} {x : Option Context} : (s.setContext a x).ring = s.ring := rfl
@[simp] theorem State.setContext_ringHeld {s : State} {a : Nat} {x : Option Context} : (s.setContext a x).ringHeld = s.ringHeld := rfl
@[simp] theorem State.setContext_markhor {s : State} {a : Nat} {x : Option Context} : (s.setContext a x).markhor = s.markhor := rfl
@[simp] theorem State.setContext_answers {s : State} {a : Nat} {x : Option Context} : (s.setContext a x).answers = s.answers := rfl
@[simp] theorem State.setContext_part {s : State} {a : Nat} {x : Option Context} : (s.setContext a x).part = s.part := rfl
@[simp] theorem State.setContext_latch {s : State} {a : Nat} {x : Option Context} : (s.setContext a x).latch = s.latch := rfl
@[simp] theorem State.setContext_agenda {s : State} {a : Nat} {x : Option Context} : (s.setContext a x).agenda = s.agenda := rfl
@[simp] theorem State.setContext_choice {s : State} {a : Nat} {x : Option Context} : (s.setContext a x).choice = s.choice := rfl

@[simp] theorem State.onLaunch_cores {s : State} {id : Nat} {f : Launch → Launch} : (s.onLaunch id f).cores = s.cores := rfl
@[simp] theorem State.onLaunch_fieldmask {s : State} {id : Nat} {f : Launch → Launch} : (s.onLaunch id f).fieldmask = s.fieldmask := rfl
@[simp] theorem State.onLaunch_pendingMask {s : State} {id : Nat} {f : Launch → Launch} : (s.onLaunch id f).pendingMask = s.pendingMask := rfl
@[simp] theorem State.onLaunch_overhead {s : State} {id : Nat} {f : Launch → Launch} : (s.onLaunch id f).overhead = s.overhead := rfl
@[simp] theorem State.onLaunch_slotTables {s : State} {id : Nat} {f : Launch → Launch} : (s.onLaunch id f).slotTables = s.slotTables := rfl
@[simp] theorem State.onLaunch_slotPending {s : State} {id : Nat} {f : Launch → Launch} : (s.onLaunch id f).slotPending = s.slotPending := rfl
@[simp] theorem State.onLaunch_slotServed {s : State} {id : Nat} {f : Launch → Launch} : (s.onLaunch id f).slotServed = s.slotServed := rfl
@[simp] theorem State.onLaunch_slotCycle {s : State} {id : Nat} {f : Launch → Launch} : (s.onLaunch id f).slotCycle = s.slotCycle := rfl
@[simp] theorem State.onLaunch_slotUsed {s : State} {id : Nat} {f : Launch → Launch} : (s.onLaunch id f).slotUsed = s.slotUsed := rfl
@[simp] theorem State.onLaunch_gtc {s : State} {id : Nat} {f : Launch → Launch} : (s.onLaunch id f).gtc = s.gtc := rfl
@[simp] theorem State.onLaunch_csm {s : State} {id : Nat} {f : Launch → Launch} : (s.onLaunch id f).csm = s.csm := rfl
@[simp] theorem State.onLaunch_csmMarks {s : State} {id : Nat} {f : Launch → Launch} : (s.onLaunch id f).csmMarks = s.csmMarks := rfl
@[simp] theorem State.onLaunch_host {s : State} {id : Nat} {f : Launch → Launch} : (s.onLaunch id f).host = s.host := rfl
@[simp] theorem State.onLaunch_hbm {s : State} {id : Nat} {f : Launch → Launch} : (s.onLaunch id f).hbm = s.hbm := rfl
@[simp] theorem State.onLaunch_contexts {s : State} {id : Nat} {f : Launch → Launch} : (s.onLaunch id f).contexts = s.contexts := rfl
@[simp] theorem State.onLaunch_modules {s : State} {id : Nat} {f : Launch → Launch} : (s.onLaunch id f).modules = s.modules := rfl
@[simp] theorem State.onLaunch_handles {s : State} {id : Nat} {f : Launch → Launch} : (s.onLaunch id f).handles = s.handles := rfl
@[simp] theorem State.onLaunch_launchIds {s : State} {id : Nat} {f : Launch → Launch} : (s.onLaunch id f).launchIds = s.launchIds := rfl
@[simp] theorem State.onLaunch_grants {s : State} {id : Nat} {f : Launch → Launch} : (s.onLaunch id f).grants = s.grants := rfl
@[simp] theorem State.onLaunch_heldEvents {s : State} {id : Nat} {f : Launch → Launch} : (s.onLaunch id f).heldEvents = s.heldEvents := rfl
@[simp] theorem State.onLaunch_transits {s : State} {id : Nat} {f : Launch → Launch} : (s.onLaunch id f).transits = s.transits := rfl
@[simp] theorem State.onLaunch_launchMsgs {s : State} {id : Nat} {f : Launch → Launch} : (s.onLaunch id f).launchMsgs = s.launchMsgs := rfl
@[simp] theorem State.onLaunch_tags {s : State} {id : Nat} {f : Launch → Launch} : (s.onLaunch id f).tags = s.tags := rfl
@[simp] theorem State.onLaunch_windows {s : State} {id : Nat} {f : Launch → Launch} : (s.onLaunch id f).windows = s.windows := rfl
@[simp] theorem State.onLaunch_resends {s : State} {id : Nat} {f : Launch → Launch} : (s.onLaunch id f).resends = s.resends := rfl
@[simp] theorem State.onLaunch_migrations {s : State} {id : Nat} {f : Launch → Launch} : (s.onLaunch id f).migrations = s.migrations := rfl
@[simp] theorem State.onLaunch_faults {s : State} {id : Nat} {f : Launch → Launch} : (s.onLaunch id f).faults = s.faults := rfl
@[simp] theorem State.onLaunch_holdOffs {s : State} {id : Nat} {f : Launch → Launch} : (s.onLaunch id f).holdOffs = s.holdOffs := rfl
@[simp] theorem State.onLaunch_stepMeta {s : State} {id : Nat} {f : Launch → Launch} : (s.onLaunch id f).stepMeta = s.stepMeta := rfl
@[simp] theorem State.onLaunch_stepMarks {s : State} {id : Nat} {f : Launch → Launch} : (s.onLaunch id f).stepMarks = s.stepMarks := rfl
@[simp] theorem State.onLaunch_landed {s : State} {id : Nat} {f : Launch → Launch} : (s.onLaunch id f).landed = s.landed := rfl
@[simp] theorem State.onLaunch_landedAt {s : State} {id : Nat} {f : Launch → Launch} : (s.onLaunch id f).landedAt = s.landedAt := rfl
@[simp] theorem State.onLaunch_errors {s : State} {id : Nat} {f : Launch → Launch} : (s.onLaunch id f).errors = s.errors := rfl
@[simp] theorem State.onLaunch_found {s : State} {id : Nat} {f : Launch → Launch} : (s.onLaunch id f).found = s.found := rfl
@[simp] theorem State.onLaunch_ring {s : State} {id : Nat} {f : Launch → Launch} : (s.onLaunch id f).ring = s.ring := rfl
@[simp] theorem State.onLaunch_ringHeld {s : State} {id : Nat} {f : Launch → Launch} : (s.onLaunch id f).ringHeld = s.ringHeld := rfl
@[simp] theorem State.onLaunch_markhor {s : State} {id : Nat} {f : Launch → Launch} : (s.onLaunch id f).markhor = s.markhor := rfl
@[simp] theorem State.onLaunch_answers {s : State} {id : Nat} {f : Launch → Launch} : (s.onLaunch id f).answers = s.answers := rfl
@[simp] theorem State.onLaunch_part {s : State} {id : Nat} {f : Launch → Launch} : (s.onLaunch id f).part = s.part := rfl
@[simp] theorem State.onLaunch_latch {s : State} {id : Nat} {f : Launch → Launch} : (s.onLaunch id f).latch = s.latch := rfl
@[simp] theorem State.onLaunch_agenda {s : State} {id : Nat} {f : Launch → Launch} : (s.onLaunch id f).agenda = s.agenda := rfl
@[simp] theorem State.onLaunch_choice {s : State} {id : Nat} {f : Launch → Launch} : (s.onLaunch id f).choice = s.choice := rfl

@[simp] theorem State.onModule_cores {s : State} {h : Nat} {f : Module → Module} : (s.onModule h f).cores = s.cores := rfl
@[simp] theorem State.onModule_fieldmask {s : State} {h : Nat} {f : Module → Module} : (s.onModule h f).fieldmask = s.fieldmask := rfl
@[simp] theorem State.onModule_pendingMask {s : State} {h : Nat} {f : Module → Module} : (s.onModule h f).pendingMask = s.pendingMask := rfl
@[simp] theorem State.onModule_overhead {s : State} {h : Nat} {f : Module → Module} : (s.onModule h f).overhead = s.overhead := rfl
@[simp] theorem State.onModule_slotTables {s : State} {h : Nat} {f : Module → Module} : (s.onModule h f).slotTables = s.slotTables := rfl
@[simp] theorem State.onModule_slotPending {s : State} {h : Nat} {f : Module → Module} : (s.onModule h f).slotPending = s.slotPending := rfl
@[simp] theorem State.onModule_slotServed {s : State} {h : Nat} {f : Module → Module} : (s.onModule h f).slotServed = s.slotServed := rfl
@[simp] theorem State.onModule_slotCycle {s : State} {h : Nat} {f : Module → Module} : (s.onModule h f).slotCycle = s.slotCycle := rfl
@[simp] theorem State.onModule_slotUsed {s : State} {h : Nat} {f : Module → Module} : (s.onModule h f).slotUsed = s.slotUsed := rfl
@[simp] theorem State.onModule_gtc {s : State} {h : Nat} {f : Module → Module} : (s.onModule h f).gtc = s.gtc := rfl
@[simp] theorem State.onModule_csm {s : State} {h : Nat} {f : Module → Module} : (s.onModule h f).csm = s.csm := rfl
@[simp] theorem State.onModule_csmMarks {s : State} {h : Nat} {f : Module → Module} : (s.onModule h f).csmMarks = s.csmMarks := rfl
@[simp] theorem State.onModule_host {s : State} {h : Nat} {f : Module → Module} : (s.onModule h f).host = s.host := rfl
@[simp] theorem State.onModule_hbm {s : State} {h : Nat} {f : Module → Module} : (s.onModule h f).hbm = s.hbm := rfl
@[simp] theorem State.onModule_contexts {s : State} {h : Nat} {f : Module → Module} : (s.onModule h f).contexts = s.contexts := rfl
@[simp] theorem State.onModule_handles {s : State} {h : Nat} {f : Module → Module} : (s.onModule h f).handles = s.handles := rfl
@[simp] theorem State.onModule_launches {s : State} {h : Nat} {f : Module → Module} : (s.onModule h f).launches = s.launches := rfl
@[simp] theorem State.onModule_launchIds {s : State} {h : Nat} {f : Module → Module} : (s.onModule h f).launchIds = s.launchIds := rfl
@[simp] theorem State.onModule_grants {s : State} {h : Nat} {f : Module → Module} : (s.onModule h f).grants = s.grants := rfl
@[simp] theorem State.onModule_heldEvents {s : State} {h : Nat} {f : Module → Module} : (s.onModule h f).heldEvents = s.heldEvents := rfl
@[simp] theorem State.onModule_transits {s : State} {h : Nat} {f : Module → Module} : (s.onModule h f).transits = s.transits := rfl
@[simp] theorem State.onModule_launchMsgs {s : State} {h : Nat} {f : Module → Module} : (s.onModule h f).launchMsgs = s.launchMsgs := rfl
@[simp] theorem State.onModule_tags {s : State} {h : Nat} {f : Module → Module} : (s.onModule h f).tags = s.tags := rfl
@[simp] theorem State.onModule_windows {s : State} {h : Nat} {f : Module → Module} : (s.onModule h f).windows = s.windows := rfl
@[simp] theorem State.onModule_resends {s : State} {h : Nat} {f : Module → Module} : (s.onModule h f).resends = s.resends := rfl
@[simp] theorem State.onModule_migrations {s : State} {h : Nat} {f : Module → Module} : (s.onModule h f).migrations = s.migrations := rfl
@[simp] theorem State.onModule_faults {s : State} {h : Nat} {f : Module → Module} : (s.onModule h f).faults = s.faults := rfl
@[simp] theorem State.onModule_holdOffs {s : State} {h : Nat} {f : Module → Module} : (s.onModule h f).holdOffs = s.holdOffs := rfl
@[simp] theorem State.onModule_stepMeta {s : State} {h : Nat} {f : Module → Module} : (s.onModule h f).stepMeta = s.stepMeta := rfl
@[simp] theorem State.onModule_stepMarks {s : State} {h : Nat} {f : Module → Module} : (s.onModule h f).stepMarks = s.stepMarks := rfl
@[simp] theorem State.onModule_landed {s : State} {h : Nat} {f : Module → Module} : (s.onModule h f).landed = s.landed := rfl
@[simp] theorem State.onModule_landedAt {s : State} {h : Nat} {f : Module → Module} : (s.onModule h f).landedAt = s.landedAt := rfl
@[simp] theorem State.onModule_errors {s : State} {h : Nat} {f : Module → Module} : (s.onModule h f).errors = s.errors := rfl
@[simp] theorem State.onModule_found {s : State} {h : Nat} {f : Module → Module} : (s.onModule h f).found = s.found := rfl
@[simp] theorem State.onModule_ring {s : State} {h : Nat} {f : Module → Module} : (s.onModule h f).ring = s.ring := rfl
@[simp] theorem State.onModule_ringHeld {s : State} {h : Nat} {f : Module → Module} : (s.onModule h f).ringHeld = s.ringHeld := rfl
@[simp] theorem State.onModule_markhor {s : State} {h : Nat} {f : Module → Module} : (s.onModule h f).markhor = s.markhor := rfl
@[simp] theorem State.onModule_answers {s : State} {h : Nat} {f : Module → Module} : (s.onModule h f).answers = s.answers := rfl
@[simp] theorem State.onModule_part {s : State} {h : Nat} {f : Module → Module} : (s.onModule h f).part = s.part := rfl
@[simp] theorem State.onModule_latch {s : State} {h : Nat} {f : Module → Module} : (s.onModule h f).latch = s.latch := rfl
@[simp] theorem State.onModule_agenda {s : State} {h : Nat} {f : Module → Module} : (s.onModule h f).agenda = s.agenda := rfl
@[simp] theorem State.onModule_choice {s : State} {h : Nat} {f : Module → Module} : (s.onModule h f).choice = s.choice := rfl

@[simp] theorem State.latchNext_cores {s : State} {w : W64} {r : List W64} : (s.latchNext w r).cores = s.cores := rfl
@[simp] theorem State.latchNext_fieldmask {s : State} {w : W64} {r : List W64} : (s.latchNext w r).fieldmask = s.fieldmask := rfl
@[simp] theorem State.latchNext_pendingMask {s : State} {w : W64} {r : List W64} : (s.latchNext w r).pendingMask = s.pendingMask := rfl
@[simp] theorem State.latchNext_overhead {s : State} {w : W64} {r : List W64} : (s.latchNext w r).overhead = s.overhead := rfl
@[simp] theorem State.latchNext_slotTables {s : State} {w : W64} {r : List W64} : (s.latchNext w r).slotTables = s.slotTables := rfl
@[simp] theorem State.latchNext_slotPending {s : State} {w : W64} {r : List W64} : (s.latchNext w r).slotPending = s.slotPending := rfl
@[simp] theorem State.latchNext_slotServed {s : State} {w : W64} {r : List W64} : (s.latchNext w r).slotServed = s.slotServed := rfl
@[simp] theorem State.latchNext_slotCycle {s : State} {w : W64} {r : List W64} : (s.latchNext w r).slotCycle = s.slotCycle := rfl
@[simp] theorem State.latchNext_slotUsed {s : State} {w : W64} {r : List W64} : (s.latchNext w r).slotUsed = s.slotUsed := rfl
@[simp] theorem State.latchNext_gtc {s : State} {w : W64} {r : List W64} : (s.latchNext w r).gtc = s.gtc := rfl
@[simp] theorem State.latchNext_csm {s : State} {w : W64} {r : List W64} : (s.latchNext w r).csm = s.csm := rfl
@[simp] theorem State.latchNext_csmMarks {s : State} {w : W64} {r : List W64} : (s.latchNext w r).csmMarks = s.csmMarks := rfl
@[simp] theorem State.latchNext_host {s : State} {w : W64} {r : List W64} : (s.latchNext w r).host = s.host := rfl
@[simp] theorem State.latchNext_hbm {s : State} {w : W64} {r : List W64} : (s.latchNext w r).hbm = s.hbm := rfl
@[simp] theorem State.latchNext_contexts {s : State} {w : W64} {r : List W64} : (s.latchNext w r).contexts = s.contexts := rfl
@[simp] theorem State.latchNext_modules {s : State} {w : W64} {r : List W64} : (s.latchNext w r).modules = s.modules := rfl
@[simp] theorem State.latchNext_handles {s : State} {w : W64} {r : List W64} : (s.latchNext w r).handles = s.handles := rfl
@[simp] theorem State.latchNext_launches {s : State} {w : W64} {r : List W64} : (s.latchNext w r).launches = s.launches := rfl
@[simp] theorem State.latchNext_launchIds {s : State} {w : W64} {r : List W64} : (s.latchNext w r).launchIds = s.launchIds := rfl
@[simp] theorem State.latchNext_grants {s : State} {w : W64} {r : List W64} : (s.latchNext w r).grants = s.grants := rfl
@[simp] theorem State.latchNext_heldEvents {s : State} {w : W64} {r : List W64} : (s.latchNext w r).heldEvents = s.heldEvents := rfl
@[simp] theorem State.latchNext_transits {s : State} {w : W64} {r : List W64} : (s.latchNext w r).transits = s.transits := rfl
@[simp] theorem State.latchNext_launchMsgs {s : State} {w : W64} {r : List W64} : (s.latchNext w r).launchMsgs = s.launchMsgs := rfl
@[simp] theorem State.latchNext_tags {s : State} {w : W64} {r : List W64} : (s.latchNext w r).tags = s.tags := rfl
@[simp] theorem State.latchNext_windows {s : State} {w : W64} {r : List W64} : (s.latchNext w r).windows = s.windows := rfl
@[simp] theorem State.latchNext_resends {s : State} {w : W64} {r : List W64} : (s.latchNext w r).resends = s.resends := rfl
@[simp] theorem State.latchNext_migrations {s : State} {w : W64} {r : List W64} : (s.latchNext w r).migrations = s.migrations := rfl
@[simp] theorem State.latchNext_faults {s : State} {w : W64} {r : List W64} : (s.latchNext w r).faults = s.faults := rfl
@[simp] theorem State.latchNext_holdOffs {s : State} {w : W64} {r : List W64} : (s.latchNext w r).holdOffs = s.holdOffs := rfl
@[simp] theorem State.latchNext_stepMeta {s : State} {w : W64} {r : List W64} : (s.latchNext w r).stepMeta = s.stepMeta := rfl
@[simp] theorem State.latchNext_stepMarks {s : State} {w : W64} {r : List W64} : (s.latchNext w r).stepMarks = s.stepMarks := rfl
@[simp] theorem State.latchNext_landed {s : State} {w : W64} {r : List W64} : (s.latchNext w r).landed = s.landed := rfl
@[simp] theorem State.latchNext_landedAt {s : State} {w : W64} {r : List W64} : (s.latchNext w r).landedAt = s.landedAt := rfl
@[simp] theorem State.latchNext_errors {s : State} {w : W64} {r : List W64} : (s.latchNext w r).errors = s.errors := rfl
@[simp] theorem State.latchNext_found {s : State} {w : W64} {r : List W64} : (s.latchNext w r).found = s.found := rfl
@[simp] theorem State.latchNext_ring {s : State} {w : W64} {r : List W64} : (s.latchNext w r).ring = s.ring := rfl
@[simp] theorem State.latchNext_ringHeld {s : State} {w : W64} {r : List W64} : (s.latchNext w r).ringHeld = s.ringHeld := rfl
@[simp] theorem State.latchNext_markhor {s : State} {w : W64} {r : List W64} : (s.latchNext w r).markhor = s.markhor := rfl
@[simp] theorem State.latchNext_answers {s : State} {w : W64} {r : List W64} : (s.latchNext w r).answers = s.answers := rfl
@[simp] theorem State.latchNext_agenda {s : State} {w : W64} {r : List W64} : (s.latchNext w r).agenda = s.agenda := rfl
@[simp] theorem State.latchNext_choice {s : State} {w : W64} {r : List W64} : (s.latchNext w r).choice = s.choice := rfl

@[simp] theorem State.postEventFor_cores {s : State} {id t src : Nat} {w0 w1 : W64} : (s.postEventFor id t src w0 w1).cores = s.cores := rfl
@[simp] theorem State.postEventFor_fieldmask {s : State} {id t src : Nat} {w0 w1 : W64} : (s.postEventFor id t src w0 w1).fieldmask = s.fieldmask := rfl
@[simp] theorem State.postEventFor_pendingMask {s : State} {id t src : Nat} {w0 w1 : W64} : (s.postEventFor id t src w0 w1).pendingMask = s.pendingMask := rfl
@[simp] theorem State.postEventFor_overhead {s : State} {id t src : Nat} {w0 w1 : W64} : (s.postEventFor id t src w0 w1).overhead = s.overhead := rfl
@[simp] theorem State.postEventFor_slotTables {s : State} {id t src : Nat} {w0 w1 : W64} : (s.postEventFor id t src w0 w1).slotTables = s.slotTables := rfl
@[simp] theorem State.postEventFor_slotPending {s : State} {id t src : Nat} {w0 w1 : W64} : (s.postEventFor id t src w0 w1).slotPending = s.slotPending := rfl
@[simp] theorem State.postEventFor_slotServed {s : State} {id t src : Nat} {w0 w1 : W64} : (s.postEventFor id t src w0 w1).slotServed = s.slotServed := rfl
@[simp] theorem State.postEventFor_slotCycle {s : State} {id t src : Nat} {w0 w1 : W64} : (s.postEventFor id t src w0 w1).slotCycle = s.slotCycle := rfl
@[simp] theorem State.postEventFor_slotUsed {s : State} {id t src : Nat} {w0 w1 : W64} : (s.postEventFor id t src w0 w1).slotUsed = s.slotUsed := rfl
@[simp] theorem State.postEventFor_gtc {s : State} {id t src : Nat} {w0 w1 : W64} : (s.postEventFor id t src w0 w1).gtc = s.gtc := rfl
@[simp] theorem State.postEventFor_csm {s : State} {id t src : Nat} {w0 w1 : W64} : (s.postEventFor id t src w0 w1).csm = s.csm := rfl
@[simp] theorem State.postEventFor_csmMarks {s : State} {id t src : Nat} {w0 w1 : W64} : (s.postEventFor id t src w0 w1).csmMarks = s.csmMarks := rfl
@[simp] theorem State.postEventFor_host {s : State} {id t src : Nat} {w0 w1 : W64} : (s.postEventFor id t src w0 w1).host = s.host := rfl
@[simp] theorem State.postEventFor_hbm {s : State} {id t src : Nat} {w0 w1 : W64} : (s.postEventFor id t src w0 w1).hbm = s.hbm := rfl
@[simp] theorem State.postEventFor_contexts {s : State} {id t src : Nat} {w0 w1 : W64} : (s.postEventFor id t src w0 w1).contexts = s.contexts := rfl
@[simp] theorem State.postEventFor_modules {s : State} {id t src : Nat} {w0 w1 : W64} : (s.postEventFor id t src w0 w1).modules = s.modules := rfl
@[simp] theorem State.postEventFor_handles {s : State} {id t src : Nat} {w0 w1 : W64} : (s.postEventFor id t src w0 w1).handles = s.handles := rfl
@[simp] theorem State.postEventFor_launches {s : State} {id t src : Nat} {w0 w1 : W64} : (s.postEventFor id t src w0 w1).launches = s.launches := rfl
@[simp] theorem State.postEventFor_launchIds {s : State} {id t src : Nat} {w0 w1 : W64} : (s.postEventFor id t src w0 w1).launchIds = s.launchIds := rfl
@[simp] theorem State.postEventFor_grants {s : State} {id t src : Nat} {w0 w1 : W64} : (s.postEventFor id t src w0 w1).grants = s.grants := rfl
@[simp] theorem State.postEventFor_transits {s : State} {id t src : Nat} {w0 w1 : W64} : (s.postEventFor id t src w0 w1).transits = s.transits := rfl
@[simp] theorem State.postEventFor_launchMsgs {s : State} {id t src : Nat} {w0 w1 : W64} : (s.postEventFor id t src w0 w1).launchMsgs = s.launchMsgs := rfl
@[simp] theorem State.postEventFor_tags {s : State} {id t src : Nat} {w0 w1 : W64} : (s.postEventFor id t src w0 w1).tags = s.tags := rfl
@[simp] theorem State.postEventFor_windows {s : State} {id t src : Nat} {w0 w1 : W64} : (s.postEventFor id t src w0 w1).windows = s.windows := rfl
@[simp] theorem State.postEventFor_resends {s : State} {id t src : Nat} {w0 w1 : W64} : (s.postEventFor id t src w0 w1).resends = s.resends := rfl
@[simp] theorem State.postEventFor_migrations {s : State} {id t src : Nat} {w0 w1 : W64} : (s.postEventFor id t src w0 w1).migrations = s.migrations := rfl
@[simp] theorem State.postEventFor_faults {s : State} {id t src : Nat} {w0 w1 : W64} : (s.postEventFor id t src w0 w1).faults = s.faults := rfl
@[simp] theorem State.postEventFor_holdOffs {s : State} {id t src : Nat} {w0 w1 : W64} : (s.postEventFor id t src w0 w1).holdOffs = s.holdOffs := rfl
@[simp] theorem State.postEventFor_stepMeta {s : State} {id t src : Nat} {w0 w1 : W64} : (s.postEventFor id t src w0 w1).stepMeta = s.stepMeta := rfl
@[simp] theorem State.postEventFor_stepMarks {s : State} {id t src : Nat} {w0 w1 : W64} : (s.postEventFor id t src w0 w1).stepMarks = s.stepMarks := rfl
@[simp] theorem State.postEventFor_landed {s : State} {id t src : Nat} {w0 w1 : W64} : (s.postEventFor id t src w0 w1).landed = s.landed := rfl
@[simp] theorem State.postEventFor_landedAt {s : State} {id t src : Nat} {w0 w1 : W64} : (s.postEventFor id t src w0 w1).landedAt = s.landedAt := rfl
@[simp] theorem State.postEventFor_errors {s : State} {id t src : Nat} {w0 w1 : W64} : (s.postEventFor id t src w0 w1).errors = s.errors := rfl
@[simp] theorem State.postEventFor_found {s : State} {id t src : Nat} {w0 w1 : W64} : (s.postEventFor id t src w0 w1).found = s.found := rfl
@[simp] theorem State.postEventFor_ring {s : State} {id t src : Nat} {w0 w1 : W64} : (s.postEventFor id t src w0 w1).ring = s.ring := rfl
@[simp] theorem State.postEventFor_ringHeld {s : State} {id t src : Nat} {w0 w1 : W64} : (s.postEventFor id t src w0 w1).ringHeld = s.ringHeld := rfl
@[simp] theorem State.postEventFor_markhor {s : State} {id t src : Nat} {w0 w1 : W64} : (s.postEventFor id t src w0 w1).markhor = s.markhor := rfl
@[simp] theorem State.postEventFor_answers {s : State} {id t src : Nat} {w0 w1 : W64} : (s.postEventFor id t src w0 w1).answers = s.answers := rfl
@[simp] theorem State.postEventFor_part {s : State} {id t src : Nat} {w0 w1 : W64} : (s.postEventFor id t src w0 w1).part = s.part := rfl
@[simp] theorem State.postEventFor_latch {s : State} {id t src : Nat} {w0 w1 : W64} : (s.postEventFor id t src w0 w1).latch = s.latch := rfl
@[simp] theorem State.postEventFor_agenda {s : State} {id t src : Nat} {w0 w1 : W64} : (s.postEventFor id t src w0 w1).agenda = s.agenda := rfl
@[simp] theorem State.postEventFor_choice {s : State} {id t src : Nat} {w0 w1 : W64} : (s.postEventFor id t src w0 w1).choice = s.choice := rfl

@[simp] theorem State.latchNext_core {s : State} {w : W64} {r : List W64} (c : Nat) : (s.latchNext w r).core c = s.core c := rfl

end Sys2Proof.Machine
end

