-- ==== Sys2Proof/Laws/Slots.lean ====
section
/-! SUPPORT. Sys2Proof/Laws/Slots.lean: what performing a slot can do: the cases of runSlot and of the shared forms of its bodies
(R49, R77, R11), once for all instructions. -/

namespace Sys2Proof.Machine

open Safety

/-- Under a false guard nothing happens (R49). -/
theorem runSlot_false {i : Instr} {body : State → Got State} {s : State} {g : Guard} (h : i.guard? = some g)
    (hg : guardHolds g s.part.preds = false) : runSlot i body s = .next s := by
  simp [runSlot, h, hg]

/-- A device step is no slot. -/
theorem runSlot_none {i : Instr} {body : State → Got State} {s : State} (h : i.guard? = none) : runSlot i body s = .next s := by
  simp [runSlot, h]

/-- A defect cancels the part (R77). -/
theorem runSlot_defect {i : Instr} {body : State → Got State} {s : State} {cause : Nat} (h : Guarded i s)
    (hd : s.slotDefect i = some cause) : runSlot i body s = .next (s.cancelPart cause s.slotAddr) := by
  obtain ⟨g, h1, h2⟩ := h
  simp [runSlot, h1, h2, hd]

/-- A slot that runs is its body, settled. -/
theorem runSlot_runs {i : Instr} {body : State → Got State} {s : State} (h : Runs i s) :
    runSlot i body s = .next (s.settle (body s)) := by
  obtain ⟨⟨g, h1, h2⟩, hd⟩ := h
  simp [runSlot, h1, h2, hd]

/-- A slot that runs and whose body can be performed answers what the body gives. -/
theorem runSlot_ok {i : Instr} {body : State → Got State} {s t : State} (h : Runs i s) (hb : body s = .ok t) :
    runSlot i body s = .next t := by rw [runSlot_runs h, hb]; rfl

/-- A slot that must wait is withdrawn with its part (R11). -/
theorem runSlot_stall {i : Instr} {body : State → Got State} {s : State} (h : Runs i s) (hb : body s = .stall) :
    runSlot i body s = .next s.withdraw := by rw [runSlot_runs h, hb]; rfl

/-- Every slot instruction is performed through its body. -/
theorem exec_slot {i : Instr} (h : i.guard?.isSome = true) (s : State) : exec i s = runSlot i (slotBody i) s := by
  cases i <;> first
    | rfl
    | exact absurd h Bool.false_ne_true

/-- A slot that runs and whose body can be performed answers what the body gives. -/
theorem exec_ok {i : Instr} {s t : State} (h : Runs i s) (hb : slotBody i s = .ok t) : exec i s = .next t := by
  have hg : i.guard?.isSome = true := by
    obtain ⟨⟨g, h1, -⟩, -⟩ := h
    rw [h1]; rfl
  rw [exec_slot hg]
  exact runSlot_ok h hb

/-- Performing a slot always answers a next state. -/
theorem runSlot_next (i : Instr) (body : State → Got State) (s : State) : ∃ t, runSlot i body s = .next t := by
  unfold runSlot
  split
  · exact ⟨_, rfl⟩
  · split
    · split <;> exact ⟨_, rfl⟩
    · exact ⟨_, rfl⟩

/-- What a cancelled part leaves (R77, R192). -/
theorem State.cancelPart_latch (s : State) (cause : Nat) (addr : W64) : (s.cancelPart cause addr).latch = [] := rfl
theorem State.cancelPart_core {s : State} (w : CoresWf s) (cause : Nat) (addr : W64) (c : Nat) :
    (s.cancelPart cause addr).core c =
      if c = s.part.core then { s.part.before with arch := s.part.before.arch.askTrap cause addr s.part.pc } else s.core c := by
  have w1 : CoresWf s.withdraw := Sparse.set_wf w
  have h : ∀ i, s.withdraw.core i = if i = s.part.core then s.part.before else s.core i := fun i => Sparse.get_set w i
  show (s.withdraw.onArch s.part.core _).core c = _
  rw [State.core_onArch w1, h, h]
  split
  · rw [if_pos rfl]; rfl
  · rfl

/-- A body over the registers of the issuing core. -/
theorem onPart_ok {f : Part → Arch → Got Arch} {s : State} {b : Arch} (h : f s.part (arch s) = .ok b) :
    onPart f s = .ok (s.withArch b) := by
  have h' : f s.part (s.core s.part.core).arch = .ok b := h
  simp [onPart, h', Got.map, Got.bind, State.withArch]

@[simp] theorem Got.bind_ok {α β : Type} (a : α) (f : α → Got β) : (Got.ok a).bind f = f a := rfl
@[simp] theorem Got.bind_stall {α β : Type} (f : α → Got β) : (Got.stall : Got α).bind f = .stall := rfl
@[simp] theorem Got.bind_held {α β : Type} (id kind tgt : Nat) (f : α → Got β) : (Got.held id kind tgt).bind f = .held id kind tgt := rfl
@[simp] theorem Got.map_ok {α β : Type} (a : α) (f : α → β) : (Got.ok a).map f = .ok (f a) := rfl
@[simp] theorem Got.map_stall {α β : Type} (f : α → β) : (Got.stall : Got α).map f = .stall := rfl
@[simp] theorem Got.map_held {α β : Type} (id kind tgt : Nat) (f : α → β) : (Got.held id kind tgt : Got α).map f = .held id kind tgt := rfl

/-- Two s-type sources and a result. -/
theorem scalar2_ok {f : W64 → W64 → W64 × BitVec 5} {lat : Nat} {o : A3} {s : State} {x y : W64} {a b : Arch}
    (h : Reads2 s o.s1 o.s2 x y a) (hd : s.part.dstS o.d.toNat (f x y).1 lat (f x y).2 a = .ok b) :
    scalar2 f lat o s = .ok (s.withArch b) := by
  obtain ⟨c, h1, h2⟩ := h
  unfold Reads1 at h1
  exact onPart_ok (by simp [h1, h2, hd])

/-- One s-type source and a result. -/
theorem scalar1_ok {f : W64 → W64 × BitVec 5} {lat : Nat} {o : A3} {s : State} {x : W64} {a b : Arch}
    (h : Reads1 s o.s1 x a) (hd : s.part.dstS o.d.toNat (f x).1 lat (f x).2 a = .ok b) :
    scalar1 f lat o s = .ok (s.withArch b) := by
  unfold Reads1 at h
  exact onPart_ok (by simp [h, hd])

/-- Two s-type sources and a predicate. -/
theorem scalarP_ok {f : W64 → W64 → Bool} {lat : Nat} {o : A3} {s : State} {x y : W64} {a b : Arch}
    (h : Reads2 s o.s1 o.s2 x y a) (hd : s.part.dstP o.d.toNat (f x y) lat a = .ok b) :
    scalarP f lat o s = .ok (s.withArch b) := by
  obtain ⟨c, h1, h2⟩ := h
  unfold Reads1 at h1
  exact onPart_ok (by simp [h1, h2, hd])

end Sys2Proof.Machine
end

