-- ==== Sys2Proof/Laws/Vector.lean ====
section
/-! SUPPORT. Sys2Proof/Laws/Vector.lean: the elements of packed vectors, of masked results and of masks (R132 to R134). -/

namespace Sys2Proof.Machine

theorem packElems_lt (w : Nat) (l : List Nat) : packElems w l < 2 ^ (w * l.length) := by
  induction l with
  | nil => simp [packElems]
  | cons e l ih =>
    have h : packElems w (e :: l) = e % 2 ^ w + packElems w l * 2 ^ w := rfl
    rw [h, List.length_cons, Nat.mul_succ, Nat.pow_add]
    have h1 : e % 2 ^ w < 2 ^ w := Nat.mod_lt _ (Nat.two_pow_pos w)
    have h2 : packElems w l + 1 ≤ 2 ^ (w * l.length) := ih
    calc e % 2 ^ w + packElems w l * 2 ^ w < (packElems w l + 1) * 2 ^ w := by rw [Nat.succ_mul]; omega
      _ ≤ 2 ^ (w * l.length) * 2 ^ w := Nat.mul_le_mul_right _ h2

/-- Element `i` of packed elements. -/
theorem elem_packElems (w : Nat) (l : List Nat) (i : Nat) : elem (packElems w l) w i = l.getD i 0 % 2 ^ w := by
  induction l generalizing i with
  | nil => simp [packElems, elem]
  | cons e l ih =>
    have h : packElems w (e :: l) = e % 2 ^ w + packElems w l * 2 ^ w := rfl
    cases i with
    | zero => simp [h, elem]
    | succ i =>
      rw [List.getD_cons_succ, ← ih i, h]
      unfold elem
      rw [Nat.mul_succ, Nat.add_comm (w * i) w, Nat.pow_add, ← Nat.div_div_eq_div_mul,
        Nat.add_mul_div_right _ _ (Nat.two_pow_pos w), Nat.div_eq_of_lt (Nat.mod_lt _ (Nat.two_pow_pos w)), Nat.zero_add]

/-- Elements that fit into a vector register are not cut off. -/
theorem elem_ofNat_pack {w : Nat} {l : List Nat} (h : w * l.length ≤ 8192) (i : Nat) :
    elem (BitVec.ofNat 8192 (packElems w l)).toNat w i = l.getD i 0 % 2 ^ w := by
  rw [BitVec.toNat_ofNat, Nat.mod_eq_of_lt (Nat.lt_of_lt_of_le (packElems_lt w l) (Nat.pow_le_pow_right (by decide) h)),
    elem_packElems]

theorem width_mul_count (w : Nat) : w * (8192 / w) ≤ 8192 := Nat.mul_div_le 8192 w

/-- Element `i` of a vector given by a function. -/
theorem elem_vecOf {w i : Nat} (f : Nat → Nat) (h : i < 8192 / w) : elem (vecOf w f).toNat w i = f i % 2 ^ w := by
  unfold vecOf
  rw [elem_ofNat_pack (by simpa using width_mul_count w)]
  simp [List.getD, h]

/-- Element `i` of a broadcast scalar (R135). -/
theorem elem_broadcast {w i : Nat} (x : W64) (h : i < 8192 / w) : elem (broadcast w x).toNat w i = x.toNat % 2 ^ w := by
  unfold broadcast
  rw [elem_vecOf _ h, Nat.mod_mod]

theorem elem_lt (x w i : Nat) : elem x w i < 2 ^ w := Nat.mod_lt _ (Nat.two_pow_pos w)

/-- Element `i` of a result under its mask (R134). -/
theorem elem_vecMasked {w i : Nat} (mask : Nat → Bool) (zero : Bool) (old : VReg) (f : Nat → Nat × BitVec 5) (h : i < 8192 / w) :
    elem (vecMasked w mask zero old f).1.toNat w i =
      if mask i then (f i).1 % 2 ^ w else if zero then 0 else elem old.toNat w i := by
  unfold vecMasked
  simp only []
  rw [elem_ofNat_pack (by simpa using width_mul_count w)]
  simp only [List.getD, List.getElem?_map, List.getElem?_range h, Option.map_some, Option.getD_some]
  split
  · rfl
  · split
    · simp
    · exact Nat.mod_eq_of_lt (elem_lt _ _ _)

theorem orFold_getLsbD (l : List (Nat × BitVec 5)) (a : BitVec 5) (j : Nat) :
    (l.foldl (fun fl r => fl ||| r.2) a).getLsbD j = (a.getLsbD j || l.any fun r => r.2.getLsbD j) := by
  induction l generalizing a with
  | nil => simp
  | cons x l ih => simp [ih, Bool.or_assoc]

/-- The flags of a result under its mask: those of its active elements (R134). -/
theorem flags_vecMasked (w : Nat) (mask : Nat → Bool) (zero : Bool) (old : VReg) (f : Nat → Nat × BitVec 5) (j : Nat) :
    (vecMasked w mask zero old f).2.getLsbD j = true ↔ ∃ i, i < 8192 / w ∧ mask i = true ∧ (f i).2.getLsbD j = true := by
  unfold vecMasked
  have z : (0 : BitVec 5).getLsbD j = false := by simp
  rw [orFold_getLsbD, z, Bool.false_or, List.any_map, List.any_eq_true]
  simp only [List.mem_range, Function.comp]
  constructor
  · rintro ⟨i, h, hi⟩
    refine ⟨i, h, ?_⟩
    by_cases hm : mask i = true
    · simpa [hm] using hi
    · simp [hm] at hi
  · rintro ⟨i, h, hm, hf⟩
    exact ⟨i, h, by simpa [hm] using hf⟩

/-- Bit `i` of a mask given by a function. -/
theorem maskBit_maskOfBits (f : Nat → Bool) (i : Nat) : maskBit (maskOfBits f) i = (decide (i < 1024) && f i) := by
  unfold maskBit maskOfBits
  rw [BitVec.getLsbD_ofNat, Nat.testBit_eq_decide_div_mod_eq]
  have h := elem_packElems 1 ((List.range 1024).map fun i => (f i).toNat) i
  unfold elem at h
  rw [Nat.one_mul] at h
  by_cases hi : i < 1024
  · simp only [hi, decide_true, Bool.true_and]
    have bit : ((List.range 1024).map fun i => (f i).toNat).getD i 0 = (f i).toNat := by simp [List.getD, hi]
    have two : (2 : Nat) ^ 1 = 2 := rfl
    rw [bit, two] at h
    rw [h]
    cases f i <;> rfl
  · simp [hi]

end Sys2Proof.Machine
end

