-- ==== Sys2Proof/Laws/Delivers.lean ====
section
/-! SUPPORT. Sys2Proof/Laws/Delivers.lean: what the shared forms of the vector slots deliver, lane by lane (R134). -/

namespace Sys2Proof.Machine

open Safety

/-- A slot whose body sends a masked result delivers its lanes. -/
theorem deliversLanes_of {i : Instr} {s : State} {d : BitVec 7} {w lat : Nat} {a : Arch}
    {active : Nat → Bool} {zero : Bool} {g : Nat → Nat × BitVec 5} (hr : Runs i s)
    (hb : ∀ b, s.part.dstV d.toNat (vecMasked w active zero (s.part.oldV d.toNat a) g).1 lat
      (vecMasked w active zero (s.part.oldV d.toNat a) g).2 a = .ok b → slotBody i s = .ok (s.withArch b)) :
    DeliversLanes i s d w lat a active (fun _ => zero) g :=
  ⟨_, _, fun _ hj => elem_vecMasked _ _ _ _ hj, fun n => flags_vecMasked _ _ _ _ _ n, fun b h => exec_ok hr (hb b h)⟩

/-- A masked result of one source. -/
theorem vec1_delivers {i : Instr} {s : State} {o : A3} {ws wd lat : Nat} {a : Arch} {x : VReg}
    {f : (Nat → Nat) → Nat → Nat × BitVec 5} (hr : Runs i s) (he : slotBody i s = vec1 ws wd lat o f s)
    (hx : ReadsV1 s ws o.s1 x a) : Delivers i s o wd lat a (f (elem x.toNat ws)) :=
  deliversLanes_of hr fun b h => he.trans (onPart_ok (by
    unfold ReadsV1 at hx
    simpa [hx, Part.putMasked] using h))

/-- A masked result of two sources. -/
theorem vec2_delivers {i : Instr} {s : State} {o : A3} {ws wd lat : Nat} {a : Arch} {x y : VReg}
    {f : (Nat → Nat) → (Nat → Nat) → Nat → Nat × BitVec 5} (hr : Runs i s) (he : slotBody i s = vec2 ws wd lat o f s)
    (hx : ReadsV2 s ws ws o.s1 o.s2 x y a) : Delivers i s o wd lat a (f (elem x.toNat ws) (elem y.toNat ws)) :=
  deliversLanes_of hr fun b h => he.trans (onPart_ok (by
    obtain ⟨c, h1, h2⟩ := hx
    unfold ReadsV1 at h1
    simpa [h1, h2, Part.putMasked] using h))

/-- Lanes whose results agree are delivered alike. -/
theorem DeliversLanes.congr {i : Instr} {s : State} {d : BitVec 7} {w lat : Nat} {a : Arch} {active zero : Nat → Bool}
    {f g : Nat → Nat × BitVec 5} (h : DeliversLanes i s d w lat a active zero f)
    (e : ∀ j, j < 8192 / w → (f j).1 % 2 ^ w = (g j).1 % 2 ^ w ∧ (f j).2 = (g j).2) : DeliversLanes i s d w lat a active zero g := by
  obtain ⟨result, flags, lanes, raised, arrives⟩ := h
  exact ⟨result, flags, fun j hj => by rw [lanes j hj, (e j hj).1],
    fun n => (raised n).trans (exists_congr fun j => and_congr_right fun hj => by rw [(e j hj).2]), arrives⟩

end Sys2Proof.Machine
end

