-- ==== Sys2Proof/Laws/Lines.lean ====
section
/-! SUPPORT. Sys2Proof/Laws/Lines.lean: an operation whose lines lie in its own scratchpad, all of them full and awake, reads them at
once, and nothing changes but its own record and its place among the readers. -/

namespace Sys2Proof.Machine

open Safety

theorem mem_of_mem_distinct {x : Nat} {l : List Nat} (h : x ∈ distinct l) : x ∈ l := by
  have enters : ∀ (l seen : List Nat), x ∈ l.foldl (fun seen y => if seen.contains y then seen else seen ++ [y]) seen → x ∈ seen ++ l := by
    intro l
    induction l with
    | nil => simp
    | cons y l later =>
      intro seen h
      have := later _ h
      grind
  simpa using enters l [] h

theorem ofInt64_lt (n : Int) : ofInt 64 n < 2 ^ 64 := by
  unfold ofInt
  have h := Int.emod_lt_of_pos n (show (0 : Int) < ((2 ^ 64 : Nat) : Int) by decide)
  have g := Int.emod_nonneg n (show ((2 ^ 64 : Nat) : Int) ≠ 0 by decide)
  omega

/-- The lines of a span that begins below 2^64 and is short carry the number of their space. -/
theorem mem_spanKeys {space key : Nat} {x : Nat × Nat} (hx : x.1 < 2 ^ 64) (hn : x.2 ≤ 2 ^ 20) (h : key ∈ spanKeys space x) :
    key / 2 ^ 64 = space := by
  simp only [spanKeys, linesOf, List.mem_map] at h
  obtain ⟨l, hl, rfl⟩ := h
  split at hl
  · simp at hl
  · simp only [List.mem_map, List.mem_range] at hl
    obtain ⟨i, hi, rfl⟩ := hl
    unfold lineKey
    omega

theorem recElem_lt (r : List W64) (row col : Nat) : recElem r row col / 8 < 2 ^ 64 := by
  unfold recElem
  have h := ofInt64_lt (recBlock r row col + ((recAxes r row col).2 % 32 * fmtBits (recFmt r) / 8 : Nat))
  simp only
  omega

/-- Every line that a record's elements lie in carries the number of the record's space. -/
theorem mem_recKeys {c key : Nat} {r : List W64} {l : List (Nat × Nat)} (h : key ∈ recKeys c r l) : key / 2 ^ 64 = recSpace c r := by
  have h := mem_of_mem_distinct h
  simp only [List.mem_flatMap] at h
  obtain ⟨x, -, y, hy, hk⟩ := h
  have hs : recSpan r x.1 x.2 = (recElem r x.1 x.2 / 8, (fmtBits (recFmt r) + 7) / 8) := rfl
  have hb : fmtBits (recFmt r) ≤ 32 := by unfold fmtBits; repeat (first | omega | split)
  have he := recElem_lt r x.1 x.2
  have hc : recScale r x.1 x.2 < 2 ^ 64 := by
    unfold recScale
    simp only
    split <;> exact ofInt64_lt _
  unfold recSpans at hy
  split at hy
  · rcases List.mem_cons.mp hy with rfl | hy
    · exact mem_spanKeys (by rw [hs]; exact he) (by rw [hs]; simp only; omega) hk
    · obtain rfl := List.mem_singleton.mp hy
      exact mem_spanKeys hc (show (1 : Nat) ≤ 2 ^ 20 by decide) hk
  · obtain rfl := List.mem_singleton.mp hy
    exact mem_spanKeys (by rw [hs]; exact he) (by rw [hs]; simp only; omega) hk

/-- A core with every line full, no bank asleep and no uncorrectable word. -/
def Core.plain (k : Core) : Prop := k.full = [] ∧ k.retention = [] ∧ k.marks = []

theorem grabLine_plain {s : State} {c frame since key : Nat} (h : (s.core c).plain) (hk : key / 2 ^ 64 = c + 1) :
    s.grabLine c frame since key = (.got ((s.core c).bytes (128 * (key % 2 ^ 64)) 128), s) := by
  have hf : (s.core c).isFull (key % 2 ^ 64) = true := by simp [Core.isFull, h.1, Sparse.get]
  have hr : (s.core c).retained [key % 2 ^ 64] = false := by simp [Core.retained, h.2.1, Sparse.get]
  have hm : (s.core c).spoiled (128 * (key % 2 ^ 64)) 128 = false := by simp [Core.spoiled, h.2.2]
  unfold State.grabLine
  simp only [hk, Nat.add_one_ne_zero, if_false, Nat.add_sub_cancel]
  rw [hf, hr, hm]
  simp

theorem grabLines_plain {s : State} {c frame since : Nat} {keys : List Nat} (h : (s.core c).plain)
    (hk : ∀ key ∈ keys, key / 2 ^ 64 = c + 1) (had : List (Nat × List Byte)) :
    ∃ l, s.grabLines c frame since keys had = (⟨l, [], false, false⟩, s) := by
  unfold State.grabLines
  induction keys generalizing had with
  | nil => exact ⟨had, rfl⟩
  | cons key keys ih =>
    rw [List.foldl_cons]
    dsimp only
    by_cases e : (had.any fun x => x.1 == key) = true
    · rw [if_pos e]
      exact ih (fun x hx => hk x (List.mem_cons_of_mem _ hx)) had
    · rw [if_neg e, grabLine_plain h (hk key List.mem_cons_self)]
      exact ih (fun x hx => hk x (List.mem_cons_of_mem _ hx)) _

/-- What reading its lines leaves of an operation whose lines are all at hand. -/
theorem operands_plain {s : State} {c q : Nat} {o : Op} {rest : List Op} {keys : List Nat} (w : CoresWf s)
    (wo : Sparse.wf [] (s.core c).ops = true) (ha : AtHead s c q o rest) (h : (s.core c).plain)
    (hk : ∀ key ∈ keys, key / 2 ^ 64 = c + 1) (hs : o.sources c = [c]) :
    ∃ ls u, s.operands c q o keys = (some ls, u) ∧ HeadAfterReading u c q o { o with fetched := ls, blocked := false } rest ∧
      (∃ k, u = s.setCore c k ∧ k.arch = (s.core c).arch ∧ k.scratch = (s.core c).scratch ∧ k.full = (s.core c).full ∧
        k.retention = (s.core c).retention ∧ k.table = (s.core c).table ∧ k.launch = (s.core c).launch) ∧ u.doubled c = s.doubled c := by
  obtain ⟨ls, hl⟩ := grabLines_plain (frame := o.frame) (since := o.since) h (fun key hx => hk key (mem_of_mem_distinct hx)) o.fetched
  have key : ∃ k, ((s.dropReader c q o).onHead c q fun o => { o with fetched := ls, blocked := false }) = s.setCore c k ∧
      k.arch = (s.core c).arch ∧ k.scratch = (s.core c).scratch ∧ k.full = (s.core c).full ∧
      k.retention = (s.core c).retention ∧ k.table = (s.core c).table ∧ k.launch = (s.core c).launch := by
    have hd : s.dropReader c q o = s.onCore c fun k => { k with waiters := k.waiters.filter fun x => x.2 ≠ readerOp c q } := by
      unfold State.dropReader
      rw [hs]
      rfl
    rw [hd]
    let f : Core → Core := fun k => { k with waiters := k.waiters.filter fun x => x.2 ≠ readerOp c q }
    let g : Core → Core := fun k => match k.headOp q with
      | none => k
      | some o => k.setHead q { o with fetched := ls, blocked := false }
    have hc : (s.onCore c f).core c = f (s.core c) := by simp [State.core_onCore w]
    refine ⟨g (f (s.core c)), ?_, ?_⟩
    · show (s.onCore c f).setCore c (g ((s.onCore c f).core c)) = _
      rw [hc]
      show { s with cores := Sparse.set Core.reset (Sparse.set Core.reset s.cores c _) c _ } = { s with cores := _ }
      rw [Sparse.set_set w]
    · simp only [g]
      split <;> exact ⟨rfl, rfl, rfl, rfl, rfl, rfl⟩
  refine ⟨ls, (s.dropReader c q o).onHead c q fun o => { o with fetched := ls, blocked := false }, ?_, ?_, key, ?_⟩
  · unfold State.operands
    rw [hl]
    rfl
  · have hd : s.dropReader c q o = s.onCore c fun k => { k with waiters := k.waiters.filter fun x => x.2 ≠ readerOp c q } := by
      unfold State.dropReader
      rw [hs]
      rfl
    have w1 : CoresWf (s.dropReader c q o) := by rw [hd]; exact State.setCore_coresWf w
    have hc1 : ((s.dropReader c q o).core c).ops = (s.core c).ops := by rw [hd, State.core_onCore w]; simp
    have hq : ((s.dropReader c q o).core c).opsOf q = o :: rest := by unfold Core.opsOf; rw [hc1]; exact ha
    have hc2 : ((s.dropReader c q o).onHead c q fun o => { o with fetched := ls, blocked := false }).core c =
        ((s.dropReader c q o).core c).setHead q { o with fetched := ls, blocked := false } := by
      unfold State.onHead
      rw [State.core_onCore w1]
      simp [Core.headOp, hq]
    refine ⟨State.setCore_coresWf w1, ?_, ?_, rfl⟩
    · rw [hc2]
      unfold Core.setHead Core.setOps
      simp only
      rw [hc1]
      exact Sparse.set_wf wo
    · unfold AtHead
      rw [hc2]
      unfold Core.setHead Core.setOps
      simp only
      rw [hq, hc1, Sparse.get_set_same wo]
      rfl
  · obtain ⟨k, e, -, -, -, -, -, hl⟩ := key
    rw [e]
    unfold State.doubled State.launchOf
    rw [State.core_setCore_same w, hl]
    rfl

end Sys2Proof.Machine
end

