-- ==== Sys2Proof/Laws/Only.lean ====
section
/-! SUPPORT. Sys2Proof/Laws/Only.lean: the issuing core's record through the shared forms: what a body that changes only that record
leaves. -/

namespace Sys2Proof.Machine

open Safety

/-- The later of two replacements of a core counts. -/
theorem State.setCore_setCore {s : State} {c : Nat} {j k : Core} (w : CoresWf s) : (s.setCore c j).setCore c k = s.setCore c k := by
  unfold State.setCore
  simp [Sparse.set_set w]

/-- Replacing the issuing core changes only it. -/
theorem onlyCore_setCore {s : State} {k : Core} (w : CoresWf s) : OnlyCore s (s.setCore s.part.core k) k :=
  ⟨by rw [State.core_setCore w, if_pos rfl], fun c h => by rw [State.core_setCore w, if_neg h], rfl⟩

/-- The part's own record does not count. -/
theorem OnlyCore.withPart {s t : State} {k : Core} (h : OnlyCore s t k) (p : Part) : OnlyCore s { t with part := p } k :=
  ⟨h.1, h.2.1, by have := h.2.2; exact this⟩

/-- After the registers of the issuing core have been replaced. -/
theorem State.withArch_eq (s : State) (a : Arch) : s.withArch a = s.setCore s.part.core { s.mine with arch := a } := rfl
@[simp] theorem State.withArch_part (s : State) (a : Arch) : (s.withArch a).part = s.part := rfl
theorem State.withArch_core {s : State} (w : CoresWf s) (a : Arch) : (s.withArch a).core s.part.core = { s.mine with arch := a } :=
  State.core_setCore_same w
theorem State.withArch_wf {s : State} (w : CoresWf s) (a : Arch) : CoresWf (s.withArch a) := State.setCore_coresWf w

/-- Reading a source for a body that goes on with the whole state. -/
theorem State.readS_ok {s : State} {n : BitVec 7} {x : W64} {a : Arch} (h : Reads1 s n x a) :
    s.readS n.toNat = .ok (x, s.withArch a) := by
  have h' : s.part.srcS n.toNat (s.core s.part.core).arch = .ok (x, a) := h
  simp [State.readS, h']

end Sys2Proof.Machine
end

