-- ==== Sys2Proof/Laws/PerInstr.lean ====
section
/-! SUPPORT. Sys2Proof/Laws/PerInstr.lean: per instruction, its class reads back the instruction and its guard from the syllable that
the encoder makes of it (R48, R50, R71 to R76); a device step has no syllable. -/

namespace Sys2Proof.Laws.Encoded

set_option Elab.async false

/-- The class of an encoded instruction assigns its opcode to the instruction itself, fields and all, and its guard is the one
encoded. -/
def Statement (i : Instr) : Prop :=
  ∀ c y, encode i = some (c, y) → assigned c y = some i ∧ i.guard? = some (guardOf y)

theorem controlOf_hint (y : Syllable) (h : 0x3C0 ≤ opOf y) :
    controlOf y = some (.hint (BitVec.ofNat 6 (opOf y - 0x3C0)) (wiOf y)) := by
  unfold controlOf
  generalize opOf y = n at *
  split <;> first | omega | rw [if_pos h]

theorem ofA3 (i : Instr) (cl : SlotClass) (op : BitVec 10) (o : A3) (he : encode i = some (cl, encA3 op o))
    (ha : ∀ y, opOf y = op.toNat → a3Of y = o → assigned cl y = some i) (hg : i.guard? = some o.guard) : Statement i := by
  intro c y h
  rw [he] at h
  injection h with h
  injection h with h1 h2
  subst h1 h2
  exact ⟨ha _ (opOf_encA3 op o) (a3Of_encA3 op o), by rw [guardOf_encA3]; exact hg⟩

theorem ofAI (i : Instr) (cl : SlotClass) (op : BitVec 10) (o : AI) (he : encode i = some (cl, encAI op o))
    (ha : ∀ y, opOf y = op.toNat → aiOf y = o → assigned cl y = some i) (hg : i.guard? = some o.guard) : Statement i := by
  intro c y h
  rw [he] at h
  injection h with h
  injection h with h1 h2
  subst h1 h2
  exact ⟨ha _ (opOf_encAI op o) (aiOf_encAI op o), by rw [guardOf_encAI]; exact hg⟩

theorem ofBR (i : Instr) (cl : SlotClass) (op : BitVec 10) (o : BrF) (he : encode i = some (cl, encBR op o))
    (ha : ∀ y, opOf y = op.toNat → brOf y = o → assigned cl y = some i) (hg : i.guard? = some o.guard) : Statement i := by
  intro c y h
  rw [he] at h
  injection h with h
  injection h with h1 h2
  subst h1 h2
  exact ⟨ha _ (opOf_encBR op o) (brOf_encBR op o), by rw [guardOf_encBR]; exact hg⟩

theorem ofEN (i : Instr) (cl : SlotClass) (op : BitVec 10) (o : EN) (he : encode i = some (cl, encEN op o))
    (ha : ∀ y, opOf y = op.toNat → enOf y = o → assigned cl y = some i) (hg : i.guard? = some o.guard) : Statement i := by
  intro c y h
  rw [he] at h
  injection h with h
  injection h with h1 h2
  subst h1 h2
  exact ⟨ha _ (opOf_encEN op o) (enOf_encEN op o), by rw [guardOf_encEN]; exact hg⟩

theorem ofWI (i : Instr) (cl : SlotClass) (op : BitVec 10) (o : WI) (he : encode i = some (cl, encWI op o))
    (ha : ∀ y, opOf y = op.toNat → wiOf y = o → assigned cl y = some i) (hg : i.guard? = some o.guard) : Statement i := by
  intro c y h
  rw [he] at h
  injection h with h
  injection h with h1 h2
  subst h1 h2
  exact ⟨ha _ (opOf_encWI op o) (wiOf_encWI op o), by rw [guardOf_encWI]; exact hg⟩

theorem add (o : A3) : Statement (.add o) :=
  ofA3 _ .control 0x010 o rfl (fun y h e => by subst e; unfold assigned controlOf; rw [h]; rfl) rfl
theorem sub (o : A3) : Statement (.sub o) :=
  ofA3 _ .control 0x011 o rfl (fun y h e => by subst e; unfold assigned controlOf; rw [h]; rfl) rfl
theorem mul (o : A3) : Statement (.mul o) :=
  ofA3 _ .control 0x012 o rfl (fun y h e => by subst e; unfold assigned controlOf; rw [h]; rfl) rfl
theorem mulh (o : A3) : Statement (.mulh o) :=
  ofA3 _ .control 0x013 o rfl (fun y h e => by subst e; unfold assigned controlOf; rw [h]; rfl) rfl
theorem mulhn (o : A3) : Statement (.mulhn o) :=
  ofA3 _ .control 0x014 o rfl (fun y h e => by subst e; unfold assigned controlOf; rw [h]; rfl) rfl
theorem div (o : A3) : Statement (.div o) :=
  ofA3 _ .control 0x015 o rfl (fun y h e => by subst e; unfold assigned controlOf; rw [h]; rfl) rfl
theorem divn (o : A3) : Statement (.divn o) :=
  ofA3 _ .control 0x016 o rfl (fun y h e => by subst e; unfold assigned controlOf; rw [h]; rfl) rfl
theorem rem (o : A3) : Statement (.rem o) :=
  ofA3 _ .control 0x017 o rfl (fun y h e => by subst e; unfold assigned controlOf; rw [h]; rfl) rfl
theorem remn (o : A3) : Statement (.remn o) :=
  ofA3 _ .control 0x018 o rfl (fun y h e => by subst e; unfold assigned controlOf; rw [h]; rfl) rfl
theorem andS (o : A3) : Statement (.andS o) :=
  ofA3 _ .control 0x019 o rfl (fun y h e => by subst e; unfold assigned controlOf; rw [h]; rfl) rfl
theorem orS (o : A3) : Statement (.orS o) :=
  ofA3 _ .control 0x01A o rfl (fun y h e => by subst e; unfold assigned controlOf; rw [h]; rfl) rfl
theorem xorS (o : A3) : Statement (.xorS o) :=
  ofA3 _ .control 0x01B o rfl (fun y h e => by subst e; unfold assigned controlOf; rw [h]; rfl) rfl
theorem andn (o : A3) : Statement (.andn o) :=
  ofA3 _ .control 0x01C o rfl (fun y h e => by subst e; unfold assigned controlOf; rw [h]; rfl) rfl
theorem shl (o : A3) : Statement (.shl o) :=
  ofA3 _ .control 0x01D o rfl (fun y h e => by subst e; unfold assigned controlOf; rw [h]; rfl) rfl
theorem shr (o : A3) : Statement (.shr o) :=
  ofA3 _ .control 0x01E o rfl (fun y h e => by subst e; unfold assigned controlOf; rw [h]; rfl) rfl
theorem sar (o : A3) : Statement (.sar o) :=
  ofA3 _ .control 0x01F o rfl (fun y h e => by subst e; unfold assigned controlOf; rw [h]; rfl) rfl
theorem rotr (o : A3) : Statement (.rotr o) :=
  ofA3 _ .control 0x020 o rfl (fun y h e => by subst e; unfold assigned controlOf; rw [h]; rfl) rfl
theorem minS (o : A3) : Statement (.minS o) :=
  ofA3 _ .control 0x021 o rfl (fun y h e => by subst e; unfold assigned controlOf; rw [h]; rfl) rfl
theorem maxS (o : A3) : Statement (.maxS o) :=
  ofA3 _ .control 0x022 o rfl (fun y h e => by subst e; unfold assigned controlOf; rw [h]; rfl) rfl
theorem minn (o : A3) : Statement (.minn o) :=
  ofA3 _ .control 0x023 o rfl (fun y h e => by subst e; unfold assigned controlOf; rw [h]; rfl) rfl
theorem maxn (o : A3) : Statement (.maxn o) :=
  ofA3 _ .control 0x024 o rfl (fun y h e => by subst e; unfold assigned controlOf; rw [h]; rfl) rfl
theorem clz (o : A3) : Statement (.clz o) :=
  ofA3 _ .control 0x025 o rfl (fun y h e => by subst e; unfold assigned controlOf; rw [h]; rfl) rfl
theorem ctz (o : A3) : Statement (.ctz o) :=
  ofA3 _ .control 0x026 o rfl (fun y h e => by subst e; unfold assigned controlOf; rw [h]; rfl) rfl
theorem popc (o : A3) : Statement (.popc o) :=
  ofA3 _ .control 0x027 o rfl (fun y h e => by subst e; unfold assigned controlOf; rw [h]; rfl) rfl
theorem sext (o : A3) : Statement (.sext o) :=
  ofA3 _ .control 0x028 o rfl (fun y h e => by subst e; unfold assigned controlOf; rw [h]; rfl) rfl
theorem zext (o : A3) : Statement (.zext o) :=
  ofA3 _ .control 0x029 o rfl (fun y h e => by subst e; unfold assigned controlOf; rw [h]; rfl) rfl
theorem bfx (o : A3) : Statement (.bfx o) :=
  ofA3 _ .control 0x02A o rfl (fun y h e => by subst e; unfold assigned controlOf; rw [h]; rfl) rfl
theorem bfi (o : A3) : Statement (.bfi o) :=
  ofA3 _ .control 0x02B o rfl (fun y h e => by subst e; unfold assigned controlOf; rw [h]; rfl) rfl
theorem sel (o : A3) : Statement (.sel o) :=
  ofA3 _ .control 0x02C o rfl (fun y h e => by subst e; unfold assigned controlOf; rw [h]; rfl) rfl
theorem addi (o : AI) : Statement (.addi o) :=
  ofAI _ .control 0x030 o rfl (fun y h e => by subst e; unfold assigned controlOf; rw [h]; rfl) rfl
theorem cmpi (o : AI) : Statement (.cmpi o) :=
  ofAI _ .control 0x031 o rfl (fun y h e => by subst e; unfold assigned controlOf; rw [h]; rfl) rfl
theorem movi (o : WI) : Statement (.movi o) :=
  ofWI _ .control 0x038 o rfl (fun y h e => by subst e; unfold assigned controlOf; rw [h]; rfl) rfl
theorem movhi (o : WI) : Statement (.movhi o) :=
  ofWI _ .control 0x039 o rfl (fun y h e => by subst e; unfold assigned controlOf; rw [h]; rfl) rfl
theorem cmp (o : A3) : Statement (.cmp o) :=
  ofA3 _ .control 0x040 o rfl (fun y h e => by subst e; unfold assigned controlOf; rw [h]; rfl) rfl
theorem plog (o : A3) : Statement (.plog o) :=
  ofA3 _ .control 0x041 o rfl (fun y h e => by subst e; unfold assigned controlOf; rw [h]; rfl) rfl
theorem ptst (o : A3) : Statement (.ptst o) :=
  ofA3 _ .control 0x042 o rfl (fun y h e => by subst e; unfold assigned controlOf; rw [h]; rfl) rfl
theorem fadds (o : A3) : Statement (.fadds o) :=
  ofA3 _ .control 0x050 o rfl (fun y h e => by subst e; unfold assigned controlOf; rw [h]; rfl) rfl
theorem fmuls (o : A3) : Statement (.fmuls o) :=
  ofA3 _ .control 0x051 o rfl (fun y h e => by subst e; unfold assigned controlOf; rw [h]; rfl) rfl
theorem fmas (o : A3) : Statement (.fmas o) :=
  ofA3 _ .control 0x052 o rfl (fun y h e => by subst e; unfold assigned controlOf; rw [h]; rfl) rfl
theorem fcmps (o : A3) : Statement (.fcmps o) :=
  ofA3 _ .control 0x053 o rfl (fun y h e => by subst e; unfold assigned controlOf; rw [h]; rfl) rfl
theorem fcvts (o : A3) : Statement (.fcvts o) :=
  ofA3 _ .control 0x054 o rfl (fun y h e => by subst e; unfold assigned controlOf; rw [h]; rfl) rfl
theorem fmms (o : A3) : Statement (.fmms o) :=
  ofA3 _ .control 0x055 o rfl (fun y h e => by subst e; unfold assigned controlOf; rw [h]; rfl) rfl
theorem bri (o : BrF) : Statement (.bri o) :=
  ofBR _ .control 0x060 o rfl (fun y h e => by subst e; unfold assigned controlOf; rw [h]; rfl) rfl
theorem br (o : A3) : Statement (.br o) :=
  ofA3 _ .control 0x061 o rfl (fun y h e => by subst e; unfold assigned controlOf; rw [h]; rfl) rfl
theorem call (o : BrF) : Statement (.call o) :=
  ofBR _ .control 0x062 o rfl (fun y h e => by subst e; unfold assigned controlOf; rw [h]; rfl) rfl
theorem ret (o : A3) : Statement (.ret o) :=
  ofA3 _ .control 0x063 o rfl (fun y h e => by subst e; unfold assigned controlOf; rw [h]; rfl) rfl
theorem trap (o : A3) : Statement (.trap o) :=
  ofA3 _ .control 0x070 o rfl (fun y h e => by subst e; unfold assigned controlOf; rw [h]; rfl) rfl
theorem eret (o : A3) : Statement (.eret o) :=
  ofA3 _ .control 0x071 o rfl (fun y h e => by subst e; unfold assigned controlOf; rw [h]; rfl) rfl
theorem sysr (o : AI) : Statement (.sysr o) :=
  ofAI _ .control 0x072 o rfl (fun y h e => by subst e; unfold assigned controlOf; rw [h]; rfl) rfl
theorem sysw (o : AI) : Statement (.sysw o) :=
  ofAI _ .control 0x073 o rfl (fun y h e => by subst e; unfold assigned controlOf; rw [h]; rfl) rfl
theorem brk (o : A3) : Statement (.brk o) :=
  ofA3 _ .control 0x074 o rfl (fun y h e => by subst e; unfold assigned controlOf; rw [h]; rfl) rfl
theorem loopm (o : A3) : Statement (.loopm o) :=
  ofA3 _ .control 0x075 o rfl (fun y h e => by subst e; unfold assigned controlOf; rw [h]; rfl) rfl
theorem lbrk (o : A3) : Statement (.lbrk o) :=
  ofA3 _ .control 0x076 o rfl (fun y h e => by subst e; unfold assigned controlOf; rw [h]; rfl) rfl
theorem spawn (o : A3) : Statement (.spawn o) :=
  ofA3 _ .control 0x078 o rfl (fun y h e => by subst e; unfold assigned controlOf; rw [h]; rfl) rfl
theorem susp (o : A3) : Statement (.susp o) :=
  ofA3 _ .control 0x079 o rfl (fun y h e => by subst e; unfold assigned controlOf; rw [h]; rfl) rfl
theorem steal (o : A3) : Statement (.steal o) :=
  ofA3 _ .control 0x07A o rfl (fun y h e => by subst e; unfold assigned controlOf; rw [h]; rfl) rfl
theorem launchMsg (o : A3) : Statement (.launchMsg o) :=
  ofA3 _ .control 0x07B o rfl (fun y h e => by subst e; unfold assigned controlOf; rw [h]; rfl) rfl
theorem bend (o : A3) : Statement (.bend o) :=
  ofA3 _ .control 0x07C o rfl (fun y h e => by subst e; unfold assigned controlOf; rw [h]; rfl) rfl
theorem qsend (o : A3) : Statement (.qsend o) :=
  ofA3 _ .control 0x07D o rfl (fun y h e => by subst e; unfold assigned controlOf; rw [h]; rfl) rfl
theorem evpost (o : A3) : Statement (.evpost o) :=
  ofA3 _ .control 0x07E o rfl (fun y h e => by subst e; unfold assigned controlOf; rw [h]; rfl) rfl
theorem bstat (o : A3) : Statement (.bstat o) :=
  ofA3 _ .control 0x07F o rfl (fun y h e => by subst e; unfold assigned controlOf; rw [h]; rfl) rfl
theorem sgbeg (o : A3) : Statement (.sgbeg o) :=
  ofA3 _ .control 0x080 o rfl (fun y h e => by subst e; unfold assigned controlOf; rw [h]; rfl) rfl
theorem sgend (o : A3) : Statement (.sgend o) :=
  ofA3 _ .control 0x081 o rfl (fun y h e => by subst e; unfold assigned controlOf; rw [h]; rfl) rfl
theorem sginv (o : A3) : Statement (.sginv o) :=
  ofA3 _ .control 0x082 o rfl (fun y h e => by subst e; unfold assigned controlOf; rw [h]; rfl) rfl
theorem sgcfg (o : A3) : Statement (.sgcfg o) :=
  ofA3 _ .control 0x083 o rfl (fun y h e => by subst e; unfold assigned controlOf; rw [h]; rfl) rfl
theorem hint (n : BitVec 6) (o : WI) : Statement (.hint n o) := by
  intro c y h
  simp only [encode] at h
  injection h with h
  injection h with h1 h2
  subst h1 h2
  refine ⟨?_, by rw [guardOf_encWI]; rfl⟩
  have hn := n.isLt
  have e : opOf (encWI (0x3C0 + n.setWidth 10) o) = 0x3C0 + n.toNat := by
    rw [opOf_encWI, BitVec.toNat_add, BitVec.toNat_setWidth]
    change (960 + n.toNat % 1024) % 1024 = 960 + n.toNat
    omega
  have h2 : BitVec.ofNat 6 (0x3C0 + n.toNat - 0x3C0) = n := by
    apply BitVec.eq_of_toNat_eq; rw [BitVec.toNat_ofNat]; omega
  show controlOf _ = _
  rw [controlOf_hint _ (by omega), e, h2, wiOf_encWI]
theorem vadd (o : A3) : Statement (.vadd o) :=
  ofA3 _ .vector 0x010 o rfl (fun y h e => by subst e; unfold assigned vectorOf; rw [h]; rfl) rfl
theorem vsub (o : A3) : Statement (.vsub o) :=
  ofA3 _ .vector 0x011 o rfl (fun y h e => by subst e; unfold assigned vectorOf; rw [h]; rfl) rfl
theorem vmul (o : A3) : Statement (.vmul o) :=
  ofA3 _ .vector 0x012 o rfl (fun y h e => by subst e; unfold assigned vectorOf; rw [h]; rfl) rfl
theorem vmulh (o : A3) : Statement (.vmulh o) :=
  ofA3 _ .vector 0x013 o rfl (fun y h e => by subst e; unfold assigned vectorOf; rw [h]; rfl) rfl
theorem vmac (o : A3) : Statement (.vmac o) :=
  ofA3 _ .vector 0x014 o rfl (fun y h e => by subst e; unfold assigned vectorOf; rw [h]; rfl) rfl
theorem vdot4 (o : A3) : Statement (.vdot4 o) :=
  ofA3 _ .vector 0x015 o rfl (fun y h e => by subst e; unfold assigned vectorOf; rw [h]; rfl) rfl
theorem vdot2 (o : A3) : Statement (.vdot2 o) :=
  ofA3 _ .vector 0x016 o rfl (fun y h e => by subst e; unfold assigned vectorOf; rw [h]; rfl) rfl
theorem vmin (o : A3) : Statement (.vmin o) :=
  ofA3 _ .vector 0x017 o rfl (fun y h e => by subst e; unfold assigned vectorOf; rw [h]; rfl) rfl
theorem vmax (o : A3) : Statement (.vmax o) :=
  ofA3 _ .vector 0x018 o rfl (fun y h e => by subst e; unfold assigned vectorOf; rw [h]; rfl) rfl
theorem vabs (o : A3) : Statement (.vabs o) :=
  ofA3 _ .vector 0x019 o rfl (fun y h e => by subst e; unfold assigned vectorOf; rw [h]; rfl) rfl
theorem vshl (o : A3) : Statement (.vshl o) :=
  ofA3 _ .vector 0x01A o rfl (fun y h e => by subst e; unfold assigned vectorOf; rw [h]; rfl) rfl
theorem vshr (o : A3) : Statement (.vshr o) :=
  ofA3 _ .vector 0x01B o rfl (fun y h e => by subst e; unfold assigned vectorOf; rw [h]; rfl) rfl
theorem vsar (o : A3) : Statement (.vsar o) :=
  ofA3 _ .vector 0x01C o rfl (fun y h e => by subst e; unfold assigned vectorOf; rw [h]; rfl) rfl
theorem vand (o : A3) : Statement (.vand o) :=
  ofA3 _ .vector 0x01D o rfl (fun y h e => by subst e; unfold assigned vectorOf; rw [h]; rfl) rfl
theorem vor (o : A3) : Statement (.vor o) :=
  ofA3 _ .vector 0x01E o rfl (fun y h e => by subst e; unfold assigned vectorOf; rw [h]; rfl) rfl
theorem vxor (o : A3) : Statement (.vxor o) :=
  ofA3 _ .vector 0x01F o rfl (fun y h e => by subst e; unfold assigned vectorOf; rw [h]; rfl) rfl
theorem vsadd (o : A3) : Statement (.vsadd o) :=
  ofA3 _ .vector 0x020 o rfl (fun y h e => by subst e; unfold assigned vectorOf; rw [h]; rfl) rfl
theorem vssub (o : A3) : Statement (.vssub o) :=
  ofA3 _ .vector 0x021 o rfl (fun y h e => by subst e; unfold assigned vectorOf; rw [h]; rfl) rfl
theorem vrshr (o : A3) : Statement (.vrshr o) :=
  ofA3 _ .vector 0x022 o rfl (fun y h e => by subst e; unfold assigned vectorOf; rw [h]; rfl) rfl
theorem vnarw (o : A3) : Statement (.vnarw o) :=
  ofA3 _ .vector 0x023 o rfl (fun y h e => by subst e; unfold assigned vectorOf; rw [h]; rfl) rfl
theorem vwide (o : A3) : Statement (.vwide o) :=
  ofA3 _ .vector 0x024 o rfl (fun y h e => by subst e; unfold assigned vectorOf; rw [h]; rfl) rfl
theorem vcmp (o : A3) : Statement (.vcmp o) :=
  ofA3 _ .vector 0x030 o rfl (fun y h e => by subst e; unfold assigned vectorOf; rw [h]; rfl) rfl
theorem klog (o : A3) : Statement (.klog o) :=
  ofA3 _ .vector 0x031 o rfl (fun y h e => by subst e; unfold assigned vectorOf; rw [h]; rfl) rfl
theorem kpop (o : A3) : Statement (.kpop o) :=
  ofA3 _ .vector 0x032 o rfl (fun y h e => by subst e; unfold assigned vectorOf; rw [h]; rfl) rfl
theorem kfst (o : A3) : Statement (.kfst o) :=
  ofA3 _ .vector 0x033 o rfl (fun y h e => by subst e; unfold assigned vectorOf; rw [h]; rfl) rfl
theorem kset (o : A3) : Statement (.kset o) :=
  ofA3 _ .vector 0x034 o rfl (fun y h e => by subst e; unfold assigned vectorOf; rw [h]; rfl) rfl
theorem vsel (o : A3) : Statement (.vsel o) :=
  ofA3 _ .vector 0x035 o rfl (fun y h e => by subst e; unfold assigned vectorOf; rw [h]; rfl) rfl
theorem vfadd (o : A3) : Statement (.vfadd o) :=
  ofA3 _ .vector 0x040 o rfl (fun y h e => by subst e; unfold assigned vectorOf; rw [h]; rfl) rfl
theorem vfsub (o : A3) : Statement (.vfsub o) :=
  ofA3 _ .vector 0x041 o rfl (fun y h e => by subst e; unfold assigned vectorOf; rw [h]; rfl) rfl
theorem vfmul (o : A3) : Statement (.vfmul o) :=
  ofA3 _ .vector 0x042 o rfl (fun y h e => by subst e; unfold assigned vectorOf; rw [h]; rfl) rfl
theorem vfma (o : A3) : Statement (.vfma o) :=
  ofA3 _ .vector 0x043 o rfl (fun y h e => by subst e; unfold assigned vectorOf; rw [h]; rfl) rfl
theorem vfmin (o : A3) : Statement (.vfmin o) :=
  ofA3 _ .vector 0x044 o rfl (fun y h e => by subst e; unfold assigned vectorOf; rw [h]; rfl) rfl
theorem vfmax (o : A3) : Statement (.vfmax o) :=
  ofA3 _ .vector 0x045 o rfl (fun y h e => by subst e; unfold assigned vectorOf; rw [h]; rfl) rfl
theorem vfcmp (o : A3) : Statement (.vfcmp o) :=
  ofA3 _ .vector 0x046 o rfl (fun y h e => by subst e; unfold assigned vectorOf; rw [h]; rfl) rfl
theorem vfsgn (o : A3) : Statement (.vfsgn o) :=
  ofA3 _ .vector 0x047 o rfl (fun y h e => by subst e; unfold assigned vectorOf; rw [h]; rfl) rfl
theorem vfcls (o : A3) : Statement (.vfcls o) :=
  ofA3 _ .vector 0x048 o rfl (fun y h e => by subst e; unfold assigned vectorOf; rw [h]; rfl) rfl
theorem vxdot (o : A3) : Statement (.vxdot o) :=
  ofA3 _ .vector 0x050 o rfl (fun y h e => by subst e; unfold assigned vectorOf; rw [h]; rfl) rfl
theorem vxadd (o : A3) : Statement (.vxadd o) :=
  ofA3 _ .vector 0x051 o rfl (fun y h e => by subst e; unfold assigned vectorOf; rw [h]; rfl) rfl
theorem vsum (o : A3) : Statement (.vsum o) :=
  ofA3 _ .vector 0x058 o rfl (fun y h e => by subst e; unfold assigned vectorOf; rw [h]; rfl) rfl
theorem vscan (o : A3) : Statement (.vscan o) :=
  ofA3 _ .vector 0x059 o rfl (fun y h e => by subst e; unfold assigned vectorOf; rw [h]; rfl) rfl
theorem vcvt (o : A3) : Statement (.vcvt o) :=
  ofA3 _ .vector 0x060 o rfl (fun y h e => by subst e; unfold assigned vectorOf; rw [h]; rfl) rfl
theorem vcvt8 (o : A3) : Statement (.vcvt8 o) :=
  ofA3 _ .vector 0x061 o rfl (fun y h e => by subst e; unfold assigned vectorOf; rw [h]; rfl) rfl
theorem vmxq (o : A3) : Statement (.vmxq o) :=
  ofA3 _ .vector 0x062 o rfl (fun y h e => by subst e; unfold assigned vectorOf; rw [h]; rfl) rfl
theorem vmxdq (o : A3) : Statement (.vmxdq o) :=
  ofA3 _ .vector 0x063 o rfl (fun y h e => by subst e; unfold assigned vectorOf; rw [h]; rfl) rfl
theorem vexp (o : A3) : Statement (.vexp o) :=
  ofA3 _ .vector 0x064 o rfl (fun y h e => by subst e; unfold assigned vectorOf; rw [h]; rfl) rfl
theorem vpack (o : A3) : Statement (.vpack o) :=
  ofA3 _ .vector 0x065 o rfl (fun y h e => by subst e; unfold assigned vectorOf; rw [h]; rfl) rfl
theorem vunpk (o : A3) : Statement (.vunpk o) :=
  ofA3 _ .vector 0x066 o rfl (fun y h e => by subst e; unfold assigned vectorOf; rw [h]; rfl) rfl
theorem vperm (o : A3) : Statement (.vperm o) :=
  ofA3 _ .vector 0x070 o rfl (fun y h e => by subst e; unfold assigned vectorOf; rw [h]; rfl) rfl
theorem vshuf (o : A3) : Statement (.vshuf o) :=
  ofA3 _ .vector 0x071 o rfl (fun y h e => by subst e; unfold assigned vectorOf; rw [h]; rfl) rfl
theorem vslide (o : A3) : Statement (.vslide o) :=
  ofA3 _ .vector 0x072 o rfl (fun y h e => by subst e; unfold assigned vectorOf; rw [h]; rfl) rfl
theorem vbcst (o : A3) : Statement (.vbcst o) :=
  ofA3 _ .vector 0x073 o rfl (fun y h e => by subst e; unfold assigned vectorOf; rw [h]; rfl) rfl
theorem vextr (o : A3) : Statement (.vextr o) :=
  ofA3 _ .vector 0x074 o rfl (fun y h e => by subst e; unfold assigned vectorOf; rw [h]; rfl) rfl
theorem vins (o : A3) : Statement (.vins o) :=
  ofA3 _ .vector 0x075 o rfl (fun y h e => by subst e; unfold assigned vectorOf; rw [h]; rfl) rfl
theorem vmov (o : A3) : Statement (.vmov o) :=
  ofA3 _ .vector 0x076 o rfl (fun y h e => by subst e; unfold assigned vectorOf; rw [h]; rfl) rfl
theorem vmovi (o : WI) : Statement (.vmovi o) :=
  ofWI _ .vector 0x077 o rfl (fun y h e => by subst e; unfold assigned vectorOf; rw [h]; rfl) rfl
theorem swr (o : A3) : Statement (.swr o) :=
  ofA3 _ .vector 0x080 o rfl (fun y h e => by subst e; unfold assigned vectorOf; rw [h]; rfl) rfl
theorem srd (o : A3) : Statement (.srd o) :=
  ofA3 _ .vector 0x081 o rfl (fun y h e => by subst e; unfold assigned vectorOf; rw [h]; rfl) rfl
theorem scnt (o : A3) : Statement (.scnt o) :=
  ofA3 _ .vector 0x082 o rfl (fun y h e => by subst e; unfold assigned vectorOf; rw [h]; rfl) rfl
theorem aadd (o : A3) : Statement (.aadd o) :=
  ofA3 _ .memory 0x010 o rfl (fun y h e => by subst e; unfold assigned memoryOf; rw [h]; rfl) rfl
theorem asub (o : A3) : Statement (.asub o) :=
  ofA3 _ .memory 0x011 o rfl (fun y h e => by subst e; unfold assigned memoryOf; rw [h]; rfl) rfl
theorem aaddi (o : AI) : Statement (.aaddi o) :=
  ofAI _ .memory 0x012 o rfl (fun y h e => by subst e; unfold assigned memoryOf; rw [h]; rfl) rfl
theorem ashl (o : A3) : Statement (.ashl o) :=
  ofA3 _ .memory 0x013 o rfl (fun y h e => by subst e; unfold assigned memoryOf; rw [h]; rfl) rfl
theorem amul (o : A3) : Statement (.amul o) :=
  ofA3 _ .memory 0x014 o rfl (fun y h e => by subst e; unfold assigned memoryOf; rw [h]; rfl) rfl
theorem aand (o : A3) : Statement (.aand o) :=
  ofA3 _ .memory 0x015 o rfl (fun y h e => by subst e; unfold assigned memoryOf; rw [h]; rfl) rfl
theorem amin (o : A3) : Statement (.amin o) :=
  ofA3 _ .memory 0x016 o rfl (fun y h e => by subst e; unfold assigned memoryOf; rw [h]; rfl) rfl
theorem acmp (o : A3) : Statement (.acmp o) :=
  ofA3 _ .memory 0x017 o rfl (fun y h e => by subst e; unfold assigned memoryOf; rw [h]; rfl) rfl
theorem amovi (o : WI) : Statement (.amovi o) :=
  ofWI _ .memory 0x018 o rfl (fun y h e => by subst e; unfold assigned memoryOf; rw [h]; rfl) rfl
theorem ld (o : A3) : Statement (.ld o) :=
  ofA3 _ .memory 0x020 o rfl (fun y h e => by subst e; unfold assigned memoryOf; rw [h]; rfl) rfl
theorem st (o : A3) : Statement (.st o) :=
  ofA3 _ .memory 0x021 o rfl (fun y h e => by subst e; unfold assigned memoryOf; rw [h]; rfl) rfl
theorem ldacq (o : A3) : Statement (.ldacq o) :=
  ofA3 _ .memory 0x022 o rfl (fun y h e => by subst e; unfold assigned memoryOf; rw [h]; rfl) rfl
theorem strel (o : A3) : Statement (.strel o) :=
  ofA3 _ .memory 0x023 o rfl (fun y h e => by subst e; unfold assigned memoryOf; rw [h]; rfl) rfl
theorem vld (o : A3) : Statement (.vld o) :=
  ofA3 _ .memory 0x024 o rfl (fun y h e => by subst e; unfold assigned memoryOf; rw [h]; rfl) rfl
theorem vlds (o : A3) : Statement (.vlds o) :=
  ofA3 _ .memory 0x025 o rfl (fun y h e => by subst e; unfold assigned memoryOf; rw [h]; rfl) rfl
theorem vldx (o : A3) : Statement (.vldx o) :=
  ofA3 _ .memory 0x026 o rfl (fun y h e => by subst e; unfold assigned memoryOf; rw [h]; rfl) rfl
theorem vst (o : A3) : Statement (.vst o) :=
  ofA3 _ .memory 0x027 o rfl (fun y h e => by subst e; unfold assigned memoryOf; rw [h]; rfl) rfl
theorem vsts (o : A3) : Statement (.vsts o) :=
  ofA3 _ .memory 0x028 o rfl (fun y h e => by subst e; unfold assigned memoryOf; rw [h]; rfl) rfl
theorem vstx (o : A3) : Statement (.vstx o) :=
  ofA3 _ .memory 0x029 o rfl (fun y h e => by subst e; unfold assigned memoryOf; rw [h]; rfl) rfl
theorem feset (o : A3) : Statement (.feset o) :=
  ofA3 _ .memory 0x030 o rfl (fun y h e => by subst e; unfold assigned memoryOf; rw [h]; rfl) rfl
theorem fetst (o : A3) : Statement (.fetst o) :=
  ofA3 _ .memory 0x031 o rfl (fun y h e => by subst e; unfold assigned memoryOf; rw [h]; rfl) rfl
theorem amo (o : A3) : Statement (.amo o) :=
  ofA3 _ .memory 0x038 o rfl (fun y h e => by subst e; unfold assigned memoryOf; rw [h]; rfl) rfl
theorem cas (o : A3) : Statement (.cas o) :=
  ofA3 _ .memory 0x039 o rfl (fun y h e => by subst e; unfold assigned memoryOf; rw [h]; rfl) rfl
theorem red (o : A3) : Statement (.red o) :=
  ofA3 _ .memory 0x03A o rfl (fun y h e => by subst e; unfold assigned memoryOf; rw [h]; rfl) rfl
theorem vred (o : A3) : Statement (.vred o) :=
  ofA3 _ .memory 0x03B o rfl (fun y h e => by subst e; unfold assigned memoryOf; rw [h]; rfl) rfl
theorem fence (o : A3) : Statement (.fence o) :=
  ofA3 _ .memory 0x040 o rfl (fun y h e => by subst e; unfold assigned memoryOf; rw [h]; rfl) rfl
theorem qfence (o : A3) : Statement (.qfence o) :=
  ofA3 _ .memory 0x041 o rfl (fun y h e => by subst e; unfold assigned memoryOf; rw [h]; rfl) rfl
theorem cpy (o : EN) : Statement (.cpy o) :=
  ofEN _ .memory 0x048 o rfl (fun y h e => by subst e; unfold assigned memoryOf; rw [h]; rfl) rfl
theorem cpyt (o : EN) : Statement (.cpyt o) :=
  ofEN _ .memory 0x049 o rfl (fun y h e => by subst e; unfold assigned memoryOf; rw [h]; rfl) rfl
theorem cpyn (o : EN) : Statement (.cpyn o) :=
  ofEN _ .memory 0x04A o rfl (fun y h e => by subst e; unfold assigned memoryOf; rw [h]; rfl) rfl
theorem cpym (o : EN) : Statement (.cpym o) :=
  ofEN _ .memory 0x04B o rfl (fun y h e => by subst e; unfold assigned memoryOf; rw [h]; rfl) rfl
theorem xlatq (o : A3) : Statement (.xlatq o) :=
  ofA3 _ .memory 0x050 o rfl (fun y h e => by subst e; unfold assigned memoryOf; rw [h]; rfl) rfl
theorem mma (o : EN) : Statement (.mma o) :=
  ofEN _ .memory 0x058 o rfl (fun y h e => by subst e; unfold assigned memoryOf; rw [h]; rfl) rfl
theorem mlat (o : EN) : Statement (.mlat o) :=
  ofEN _ .memory 0x059 o rfl (fun y h e => by subst e; unfold assigned memoryOf; rw [h]; rfl) rfl
theorem mcfg (o : EN) : Statement (.mcfg o) :=
  ofEN _ .memory 0x05A o rfl (fun y h e => by subst e; unfold assigned memoryOf; rw [h]; rfl) rfl
theorem sfn (o : EN) : Statement (.sfn o) :=
  ofEN _ .memory 0x05B o rfl (fun y h e => by subst e; unfold assigned memoryOf; rw [h]; rfl) rfl
theorem gath (o : EN) : Statement (.gath o) :=
  ofEN _ .memory 0x05C o rfl (fun y h e => by subst e; unfold assigned memoryOf; rw [h]; rfl) rfl
theorem scat (o : EN) : Statement (.scat o) :=
  ofEN _ .memory 0x05D o rfl (fun y h e => by subst e; unfold assigned memoryOf; rw [h]; rfl) rfl
theorem streamPartIssue (core : Nat) (side : Side) : Statement (.streamPartIssue core side) := nofun
theorem stallCountExpiry (core : Nat) (side : Side) : Statement (.stallCountExpiry core side) := nofun
theorem resultLands (core : Nat) (side : Side) : Statement (.resultLands core side) := nofun
theorem offCoreLoadReturn (core req : Nat) : Statement (.offCoreLoadReturn core req) := nofun
theorem scratchpadAccessPoint (core : Nat) : Statement (.scratchpadAccessPoint core) := nofun
theorem trapEntry (core : Nat) : Statement (.trapEntry core) := nofun
theorem segmentClose (core : Nat) : Statement (.segmentClose core) := nofun
theorem rendezvous (core : Nat) : Statement (.rendezvous core) := nofun
theorem sideLogReplay (core idx : Nat) : Statement (.sideLogReplay core idx) := nofun
theorem operationStart (core queue : Nat) : Statement (.operationStart core queue) := nofun
theorem fieldArbitration (cluster : Nat) (kind : UnitKind) : Statement (.fieldArbitration cluster kind) := nofun
theorem stepBoundary (core queue : Nat) : Statement (.stepBoundary core queue) := nofun
theorem benchCycleSteal (core : Nat) (side : Side) : Statement (.benchCycleSteal core side) := nofun
theorem mmaClaim (core queue : Nat) : Statement (.mmaClaim core queue) := nofun
theorem mmaStep (core queue : Nat) : Statement (.mmaStep core queue) := nofun
theorem mmaWriteBack (core queue : Nat) : Statement (.mmaWriteBack core queue) := nofun
theorem mlatPerform (core queue : Nat) : Statement (.mlatPerform core queue) := nofun
theorem copyStep (core queue : Nat) : Statement (.copyStep core queue) := nofun
theorem copyPerformed (core queue : Nat) : Statement (.copyPerformed core queue) := nofun
theorem sfnStep (core : Nat) : Statement (.sfnStep core) := nofun
theorem gatherStep (core : Nat) : Statement (.gatherStep core) := nofun
theorem surrogateInvocation (core : Nat) : Statement (.surrogateInvocation core) := nofun
theorem eventEntry (core idx : Nat) : Statement (.eventEntry core idx) := nofun
theorem messageArrival (core : Nat) : Statement (.messageArrival core) := nofun
theorem stealAnswer (core : Nat) : Statement (.stealAnswer core) := nofun
theorem dequeTopDelivery (idx : Nat) : Statement (.dequeTopDelivery idx) := nofun
theorem remoteAtomicRequest (core req : Nat) : Statement (.remoteAtomicRequest core req) := nofun
theorem requestResend (core req : Nat) : Statement (.requestResend core req) := nofun
theorem globalTick : Statement .globalTick := nofun
theorem frameCounterStart (launch : Nat) : Statement (.frameCounterStart launch) := nofun
theorem entryStart (core : Nat) : Statement (.entryStart core) := nofun
theorem frameEndProcessing (launch : Nat) : Statement (.frameEndProcessing launch) := nofun
theorem launchMessage (asid window : Nat) (words : List W64) : Statement (.launchMessage asid window words) := nofun
theorem grantDecision : Statement (.grantDecision) := nofun
theorem grant (launch : Nat) : Statement (.grant launch) := nofun
theorem contextSave (core : Nat) : Statement (.contextSave core) := nofun
theorem resumption (launch : Nat) : Statement (.resumption launch) := nofun
theorem launchEnd (launch : Nat) : Statement (.launchEnd launch) := nofun
theorem hostEventPost (asid : Nat) : Statement (.hostEventPost asid) := nofun
theorem contextCreate (asid rank : Nat) : Statement (.contextCreate asid rank) := nofun
theorem contextDestroy (asid : Nat) : Statement (.contextDestroy asid) := nofun
theorem rankWrite (asid rank : Nat) : Statement (.rankWrite asid rank) := nofun
theorem slotTableWrite (die idx : Nat) (value : W32) : Statement (.slotTableWrite die idx value) := nofun
theorem dieFabricArbitration (die port : Nat) (ready : List Nat) : Statement (.dieFabricArbitration die port ready) := nofun
theorem debugHalt (launch : Nat) : Statement (.debugHalt launch) := nofun
theorem debugResume (launch : Nat) : Statement (.debugResume launch) := nofun
theorem moduleLoad (asid addr size : Nat) (plan : LoadPlan) : Statement (.moduleLoad asid addr size plan) := nofun
theorem moduleUnload (handle : Nat) : Statement (.moduleUnload handle) := nofun
theorem registerHostEventArea (asid base size widx ridx : Nat) : Statement (.registerHostEventArea asid base size widx ridx) := nofun
theorem moveToDevice (asid va count : Nat) : Statement (.moveToDevice asid va count) := nofun
theorem moveToHost (asid va count hbase : Nat) : Statement (.moveToHost asid va count hbase) := nofun
theorem duplicate (asid va count hbase : Nat) : Statement (.duplicate asid va count hbase) := nofun
theorem unmap (asid va count : Nat) : Statement (.unmap asid va count) := nofun
theorem faultRequest (core va : Nat) (write : Bool) : Statement (.faultRequest core va write) := nofun
theorem declareUnresolvable (asid va : Nat) : Statement (.declareUnresolvable asid va) := nofun
theorem migration (idx : Nat) : Statement (.migration idx) := nofun
theorem invalidate (core idx : Nat) : Statement (.invalidate core idx) := nofun
theorem holdOffExpiry (idx : Nat) : Statement (.holdOffExpiry idx) := nofun
theorem replayHoldTimeout (launch : Nat) : Statement (.replayHoldTimeout launch) := nofun
theorem hbmSectorRead (pa key asid : Nat) (flips : List (Nat × Byte)) (bus : List BusFault) : Statement (.hbmSectorRead pa key asid flips bus) := nofun
theorem hbmSectorWrite (pa key asid : Nat) (data : List Byte) (bus : List BusFault) : Statement (.hbmSectorWrite pa key asid data bus) := nofun
theorem parityDelta (idx : Nat) : Statement (.parityDelta idx) := nofun
theorem stackLost (stack : Nat) : Statement (.stackLost stack) := nofun
theorem restripe : Statement (.restripe) := nofun
theorem restripeCursorAdvance : Statement (.restripeCursorAdvance) := nofun
theorem keyWrite (id : Nat) (xts : BitVec 512) (mac : BitVec 256) : Statement (.keyWrite id xts mac) := nofun
theorem signatureCompare (leader fault : Nat) : Statement (.signatureCompare leader fault) := nofun
theorem resultSignatureCompare (leader queue fault : Nat) : Statement (.resultSignatureCompare leader queue fault) := nofun
theorem endLaunchPinned (launch : Nat) : Statement (.endLaunchPinned launch) := nofun
theorem teardown (asid : Nat) : Statement (.teardown asid) := nofun
theorem scrub (idx : Nat) (failed : Bool) : Statement (.scrub idx failed) := nofun
theorem fieldmaskRemove (cluster : Nat) (mask : BitVec 17) : Statement (.fieldmaskRemove cluster mask) := nofun
theorem retentionEntry (u : RetentionUnit) : Statement (.retentionEntry u) := nofun
theorem retentionExit (u : RetentionUnit) : Statement (.retentionExit u) := nofun
theorem weightBlockAccess (module region offset : Nat) (write : Option W64) : Statement (.weightBlockAccess module region offset write) := nofun
theorem packageReset : Statement (.packageReset) := nofun
theorem attestationRequest (nonce : BitVec 256) : Statement (.attestationRequest nonce) := nofun
theorem hostFaultRequest (asid va : Nat) (write : Bool) : Statement (.hostFaultRequest asid va write) := nofun
theorem registerSystemEventRing (base size widx ridx : Nat) : Statement (.registerSystemEventRing base size widx ridx) := nofun
theorem registerCoreSetHandle (asid handle : Nat) (cores : List Nat) : Statement (.registerCoreSetHandle asid handle cores) := nofun
theorem registerPublicKeys (asid : Nat) (keys : List (List Byte)) : Statement (.registerPublicKeys asid keys) := nofun

end Sys2Proof.Laws.Encoded
end

