-- ==== Sys2Proof/Tests/Slice0.lean ====
section
/-! SUPPORT. Sys2Proof/Tests/Slice0.lean: the author's tests: words written out from the spec's encodings, ill-formed instructions,
small steps with results from the spec's text, and for each statement a state and operands that meet its hypotheses. -/

set_option Elab.async false

namespace Sys2Proof.Tests

open Sys2Proof.Machine Sys2Proof.Safety

/-- The guard that is always true. -/
def g0 : Guard := ⟨0, false⟩
/-- An A3 body under that guard. -/
def a3 (d s1 s2 s3 : BitVec 7) (m : BitVec 17) : A3 := ⟨g0, d, s1, s2, s3, m⟩

/-! ### Ill-formed instructions: one for each check of WellFormed -/

theorem test_wellFormed_add : (Instr.add (a3 4 5 6 0 0)).wellFormed = true := by decide
theorem test_illFormed_guard : (Instr.add ⟨⟨0, true⟩, 4, 5, 6, 0, 0⟩).wellFormed = false := by decide
theorem test_illFormed_unused_field : (Instr.add (a3 4 5 6 1 0)).wellFormed = false := by decide
theorem test_illFormed_core : (Instr.resultLands 288 .execute).wellFormed = false := by decide
theorem test_illFormed_queue : (Instr.operationStart 0 7).wellFormed = false := by decide
theorem test_illFormed_matrix_queue : (Instr.mmaStep 0 2).wellFormed = false := by decide
theorem test_illFormed_cluster : (Instr.fieldmaskRemove 36 0).wellFormed = false := by decide
theorem test_illFormed_leader : (Instr.signatureCompare 1 0).wellFormed = false := by decide
theorem test_illFormed_asid : (Instr.contextCreate 0 1).wellFormed = false := by decide
theorem test_illFormed_rank : (Instr.contextCreate 1 8).wellFormed = false := by decide
theorem test_illFormed_keys_asid : (Instr.registerPublicKeys 4096 []).wellFormed = false := by decide
theorem test_illFormed_coreSet : (Instr.registerCoreSetHandle 1 1 [288]).wellFormed = false := by decide
theorem test_illFormed_record : (Instr.launchMessage 1 0 []).wellFormed = false := by decide
theorem test_illFormed_slot_table : (Instr.slotTableWrite 0 64 0).wellFormed = false := by decide
theorem test_illFormed_fabric_die : (Instr.dieFabricArbitration 4 0 []).wellFormed = false := by decide
theorem test_illFormed_sector_key : (Instr.hbmSectorRead 0 16 1 [] []).wellFormed = false := by decide
theorem test_illFormed_stack : (Instr.stackLost 12).wellFormed = false := by decide
theorem test_illFormed_key : (Instr.keyWrite 16 0 0).wellFormed = false := by decide
theorem test_illFormed_bank : (Instr.retentionEntry (.bank 0 16)).wellFormed = false := by decide
theorem test_illFormed_overhead : (Instr.retentionExit (.overhead 0 8)).wellFormed = false := by decide

/-! ### Words written out from the spec's encodings -/

-- R48, R50, worked encoding of 03_bundle_formats
theorem test_decode_add : decodeWord 0x0002010286000000 = .ok (.add (a3 4 5 6 0 0)) := rfl
theorem test_decode_add_guarded : decodeWord 0x938201C408000000 = .ok (.add ⟨⟨3, true⟩, 7, 8, 8, 0, 0⟩) := rfl
-- worked encodings of 06, 07, 08, 09, 10, 11, 16 and 23
theorem test_decode_cmpi : decode .control 0x000630C217FFFFFB = .ok (.cmpi ⟨g0, 67, 4, 0x17FFFFFB⟩) := rfl
theorem test_decode_loopm : decode .control 0x000EA00480000042 = .ok (.loopm (a3 0 9 0 0 0x42)) := rfl
theorem test_decode_bstat : decode .control 0x000FEE9E00000000 = .ok (.bstat (a3 58 60 0 0 0)) := rfl
theorem test_decode_vslide : decode .vector 0x0C0E4800BE940001 = .ok (.vslide ⟨⟨12, false⟩, 32, 1, 62, 74, 1⟩) := rfl
theorem test_decode_vbcst : decode .vector 0x0C0E68814A000001 = .ok (.vbcst ⟨⟨12, false⟩, 34, 2, 74, 0, 1⟩) := rfl
theorem test_decode_vxdot : decode .vector 0x000A028082060009 = .ok (.vxdot (a3 10 1 2 3 9)) := rfl
theorem test_decode_ld : decode .memory 0x0004100205017002 = .ok (.ld (a3 64 4 5 0 0x17002)) := rfl
theorem test_decode_feset : decode .memory 0x0006000307000000 = .ok (.feset (a3 0 6 7 0 0)) := rfl
theorem test_decode_amo : decode .memory 0x0C07100C030190C0 = .ok (.amo ⟨⟨12, false⟩, 64, 24, 3, 0, 0x190C0⟩) := rfl
theorem test_decode_mma : decode .memory 0x000B00C2080B2148 = .ok (.mma ⟨g0, 3, 4, 8, 5, 0x12148⟩) := rfl
theorem test_decode_mlat : decode .memory 0x000B200405012000 = .ok (.mlat ⟨g0, 0, 8, 5, 0, 0x12000⟩) := rfl
theorem test_decode_qfence : decode .memory 0x0008200000000081 = .ok (.qfence (a3 0 0 0 0 0x81)) := rfl
-- bit by bit: OP << 45, D << 38, S1 << 31, S2 << 24, S3 << 17, M (R48, R50, R72, R73, R75)
theorem test_decode_fmas :
    decode .control 0x00A4102860E0001 =
      .ok (.fmas (a3 4 5 6 7 1)) := rfl
theorem test_decode_bri : decode .control (0x060#60 <<< 45 ||| 0xFFFFFFFF#60 <<< 6) = .ok (.bri ⟨g0, 0, 0xFFFFFFFF, 0⟩) := rfl
theorem test_decode_movi : decode .control (0x038#60 <<< 45 ||| 4#60 <<< 38 ||| 0x2345678#60) = .ok (.movi ⟨g0, 4, 0x2345678⟩) := rfl
theorem test_decode_sysw : decode .control (0x073#60 <<< 45 ||| 5#60 <<< 31 ||| 4#60) = .ok (.sysw ⟨g0, 0, 5, 4⟩) := rfl
theorem test_decode_spawn : decode .control 0x00F010288000100 =
    .ok (.spawn (a3 4 5 8 0 0x100)) := rfl
theorem test_decode_sgbeg : decode .control (0x080#60 <<< 45 ||| 3#60) = .ok (.sgbeg (a3 0 0 0 0 3)) := rfl

/-- The instructions of consecutive codes of a class, each read from its OP and fields of zeros (R48). -/
def codesFrom (c : SlotClass) (first n : Nat) : List (Option Instr) :=
  (List.range n).map fun i => (decode c (BitVec.ofNat 60 ((first + i) * 2 ^ 45))).toOption
-- the tables of R72, R73 and R75: every constructor's code
theorem test_codes_control_010 : codesFrom .control 0x010 16 =
    [some (.add (a3 0 0 0 0 0)), some (.sub (a3 0 0 0 0 0)), some (.mul (a3 0 0 0 0 0)), some (.mulh (a3 0 0 0 0 0)),
      some (.mulhn (a3 0 0 0 0 0)), some (.div (a3 0 0 0 0 0)), some (.divn (a3 0 0 0 0 0)), some (.rem (a3 0 0 0 0 0)),
      some (.remn (a3 0 0 0 0 0)), some (.andS (a3 0 0 0 0 0)), some (.orS (a3 0 0 0 0 0)), some (.xorS (a3 0 0 0 0 0)),
      some (.andn (a3 0 0 0 0 0)), some (.shl (a3 0 0 0 0 0)), some (.shr (a3 0 0 0 0 0)), some (.sar (a3 0 0 0 0 0))] := rfl
theorem test_codes_control_020 : codesFrom .control 0x020 13 =
    [some (.rotr (a3 0 0 0 0 0)), some (.minS (a3 0 0 0 0 0)), some (.maxS (a3 0 0 0 0 0)), some (.minn (a3 0 0 0 0 0)),
      some (.maxn (a3 0 0 0 0 0)), some (.clz (a3 0 0 0 0 0)), some (.ctz (a3 0 0 0 0 0)), some (.popc (a3 0 0 0 0 0)),
      some (.sext (a3 0 0 0 0 0)), some (.zext (a3 0 0 0 0 0)), some (.bfx (a3 0 0 0 0 0)), some (.bfi (a3 0 0 0 0 0)),
      some (.sel (a3 0 0 0 0 0))] := rfl
theorem test_codes_control_030 : codesFrom .control 0x030 2 =
    [some (.addi ⟨g0, 0, 0, 0⟩), some (.cmpi ⟨g0, 0, 0, 0⟩)] := rfl
theorem test_codes_control_038 : codesFrom .control 0x038 2 =
    [some (.movi ⟨g0, 0, 0⟩), some (.movhi ⟨g0, 0, 0⟩)] := rfl
theorem test_codes_control_040 : codesFrom .control 0x040 3 =
    [some (.cmp (a3 0 0 0 0 0)), some (.plog (a3 0 0 0 0 0)), some (.ptst (a3 0 0 0 0 0))] := rfl
theorem test_codes_control_050 : codesFrom .control 0x050 6 =
    [some (.fadds (a3 0 0 0 0 0)), some (.fmuls (a3 0 0 0 0 0)), some (.fmas (a3 0 0 0 0 0)), some (.fcmps (a3 0 0 0 0 0)),
      some (.fcvts (a3 0 0 0 0 0)), some (.fmms (a3 0 0 0 0 0))] := rfl
theorem test_codes_control_060 : codesFrom .control 0x060 4 =
    [some (.bri ⟨g0, 0, 0, 0⟩), some (.br (a3 0 0 0 0 0)), some (.call ⟨g0, 0, 0, 0⟩), some (.ret (a3 0 0 0 0 0))] := rfl
theorem test_codes_control_070 : codesFrom .control 0x070 7 =
    [some (.trap (a3 0 0 0 0 0)), some (.eret (a3 0 0 0 0 0)), some (.sysr ⟨g0, 0, 0, 0⟩), some (.sysw ⟨g0, 0, 0, 0⟩),
      some (.brk (a3 0 0 0 0 0)), some (.loopm (a3 0 0 0 0 0)), some (.lbrk (a3 0 0 0 0 0))] := rfl
theorem test_codes_control_078 : codesFrom .control 0x078 8 =
    [some (.spawn (a3 0 0 0 0 0)), some (.susp (a3 0 0 0 0 0)), some (.steal (a3 0 0 0 0 0)), some (.launchMsg (a3 0 0 0 0 0)),
      some (.bend (a3 0 0 0 0 0)), some (.qsend (a3 0 0 0 0 0)), some (.evpost (a3 0 0 0 0 0)), some (.bstat (a3 0 0 0 0 0))] := rfl
theorem test_codes_control_080 : codesFrom .control 0x080 4 =
    [some (.sgbeg (a3 0 0 0 0 0)), some (.sgend (a3 0 0 0 0 0)), some (.sginv (a3 0 0 0 0 0)), some (.sgcfg (a3 0 0 0 0 0))] := rfl
theorem test_codes_vector_010 : codesFrom .vector 0x010 21 =
    [some (.vadd (a3 0 0 0 0 0)), some (.vsub (a3 0 0 0 0 0)), some (.vmul (a3 0 0 0 0 0)), some (.vmulh (a3 0 0 0 0 0)),
      some (.vmac (a3 0 0 0 0 0)), some (.vdot4 (a3 0 0 0 0 0)), some (.vdot2 (a3 0 0 0 0 0)), some (.vmin (a3 0 0 0 0 0)),
      some (.vmax (a3 0 0 0 0 0)), some (.vabs (a3 0 0 0 0 0)), some (.vshl (a3 0 0 0 0 0)), some (.vshr (a3 0 0 0 0 0)),
      some (.vsar (a3 0 0 0 0 0)), some (.vand (a3 0 0 0 0 0)), some (.vor (a3 0 0 0 0 0)), some (.vxor (a3 0 0 0 0 0)),
      some (.vsadd (a3 0 0 0 0 0)), some (.vssub (a3 0 0 0 0 0)), some (.vrshr (a3 0 0 0 0 0)), some (.vnarw (a3 0 0 0 0 0)),
      some (.vwide (a3 0 0 0 0 0))] := rfl
theorem test_codes_vector_030 : codesFrom .vector 0x030 6 =
    [some (.vcmp (a3 0 0 0 0 0)), some (.klog (a3 0 0 0 0 0)), some (.kpop (a3 0 0 0 0 0)), some (.kfst (a3 0 0 0 0 0)),
      some (.kset (a3 0 0 0 0 0)), some (.vsel (a3 0 0 0 0 0))] := rfl
theorem test_codes_vector_040 : codesFrom .vector 0x040 9 =
    [some (.vfadd (a3 0 0 0 0 0)), some (.vfsub (a3 0 0 0 0 0)), some (.vfmul (a3 0 0 0 0 0)), some (.vfma (a3 0 0 0 0 0)),
      some (.vfmin (a3 0 0 0 0 0)), some (.vfmax (a3 0 0 0 0 0)), some (.vfcmp (a3 0 0 0 0 0)), some (.vfsgn (a3 0 0 0 0 0)),
      some (.vfcls (a3 0 0 0 0 0))] := rfl
theorem test_codes_vector_050 : codesFrom .vector 0x050 2 =
    [some (.vxdot (a3 0 0 0 0 0)), some (.vxadd (a3 0 0 0 0 0))] := rfl
theorem test_codes_vector_058 : codesFrom .vector 0x058 2 =
    [some (.vsum (a3 0 0 0 0 0)), some (.vscan (a3 0 0 0 0 0))] := rfl
theorem test_codes_vector_060 : codesFrom .vector 0x060 7 =
    [some (.vcvt (a3 0 0 0 0 0)), some (.vcvt8 (a3 0 0 0 0 0)), some (.vmxq (a3 0 0 0 0 0)), some (.vmxdq (a3 0 0 0 0 0)),
      some (.vexp (a3 0 0 0 0 0)), some (.vpack (a3 0 0 0 0 0)), some (.vunpk (a3 0 0 0 0 0))] := rfl
theorem test_codes_vector_070 : codesFrom .vector 0x070 8 =
    [some (.vperm (a3 0 0 0 0 0)), some (.vshuf (a3 0 0 0 0 0)), some (.vslide (a3 0 0 0 0 0)), some (.vbcst (a3 0 0 0 0 0)),
      some (.vextr (a3 0 0 0 0 0)), some (.vins (a3 0 0 0 0 0)), some (.vmov (a3 0 0 0 0 0)), some (.vmovi ⟨g0, 0, 0⟩)] := rfl
theorem test_codes_vector_080 : codesFrom .vector 0x080 3 =
    [some (.swr (a3 0 0 0 0 0)), some (.srd (a3 0 0 0 0 0)), some (.scnt (a3 0 0 0 0 0))] := rfl
theorem test_codes_memory_010 : codesFrom .memory 0x010 9 =
    [some (.aadd (a3 0 0 0 0 0)), some (.asub (a3 0 0 0 0 0)), some (.aaddi ⟨g0, 0, 0, 0⟩), some (.ashl (a3 0 0 0 0 0)),
      some (.amul (a3 0 0 0 0 0)), some (.aand (a3 0 0 0 0 0)), some (.amin (a3 0 0 0 0 0)), some (.acmp (a3 0 0 0 0 0)),
      some (.amovi ⟨g0, 0, 0⟩)] := rfl
theorem test_codes_memory_020 : codesFrom .memory 0x020 10 =
    [some (.ld (a3 0 0 0 0 0)), some (.st (a3 0 0 0 0 0)), some (.ldacq (a3 0 0 0 0 0)), some (.strel (a3 0 0 0 0 0)),
      some (.vld (a3 0 0 0 0 0)), some (.vlds (a3 0 0 0 0 0)), some (.vldx (a3 0 0 0 0 0)), some (.vst (a3 0 0 0 0 0)),
      some (.vsts (a3 0 0 0 0 0)), some (.vstx (a3 0 0 0 0 0))] := rfl
theorem test_codes_memory_030 : codesFrom .memory 0x030 2 =
    [some (.feset (a3 0 0 0 0 0)), some (.fetst (a3 0 0 0 0 0))] := rfl
theorem test_codes_memory_038 : codesFrom .memory 0x038 4 =
    [some (.amo (a3 0 0 0 0 0)), some (.cas (a3 0 0 0 0 0)), some (.red (a3 0 0 0 0 0)), some (.vred (a3 0 0 0 0 0))] := rfl
theorem test_codes_memory_040 : codesFrom .memory 0x040 2 =
    [some (.fence (a3 0 0 0 0 0)), some (.qfence (a3 0 0 0 0 0))] := rfl
theorem test_codes_memory_048 : codesFrom .memory 0x048 4 =
    [some (.cpy ⟨g0, 0, 0, 0, 0, 0⟩), some (.cpyt ⟨g0, 0, 0, 0, 0, 0⟩), some (.cpyn ⟨g0, 0, 0, 0, 0, 0⟩),
      some (.cpym ⟨g0, 0, 0, 0, 0, 0⟩)] := rfl
theorem test_codes_memory_050 : codesFrom .memory 0x050 1 =
    [some (.xlatq (a3 0 0 0 0 0))] := rfl
theorem test_codes_memory_058 : codesFrom .memory 0x058 6 =
    [some (.mma ⟨g0, 0, 0, 0, 0, 0⟩), some (.mlat ⟨g0, 0, 0, 0, 0, 0⟩), some (.mcfg ⟨g0, 0, 0, 0, 0, 0⟩),
      some (.sfn ⟨g0, 0, 0, 0, 0, 0⟩), some (.gath ⟨g0, 0, 0, 0, 0, 0⟩), some (.scat ⟨g0, 0, 0, 0, 0, 0⟩)] := rfl
theorem test_codes_hints : codesFrom .control 0x3C0 2 = [some (.hint 0 ⟨g0, 0, 0⟩), some (.hint 1 ⟨g0, 0, 0⟩)] ∧
    codesFrom .control 0x3FF 1 = [some (.hint 63 ⟨g0, 0, 0⟩)] := ⟨rfl, rfl⟩

/-! ### Small states -/

/-- A launch that runs on cores 0 and 1. -/
def launchT : Launch where
  id := 0
  asid := 1
  module := 1
  kernel := 0
  stepped := false
  record := false
  replay := false
  doubles := false
  argptr := 0
  seed := 0
  cores := [0, 1]
  rvg := 0
  kickoff := 0
  larea := 0
  state := .running
  debugHalted := false
  frcOn := true
  startTick := 0
  frame := 0
  tick := 0
  slipAt := none
  slips := 0
  kickLate := 0
  log := []
  logRoom := 0
  replayLog := []
  replayUsed := 0
  holds := []
  logFail := none
  streams := []
  samples := []
  cfgs := []
  sgBegs := []
  frameDone := false
  ran := 0
  pinned := none
  status := 0
  grantNo := 1

/-- 64 KiB of chip shared memory at 0x100000, readable and writable. -/
def entryT : TEntry := ⟨0x100000, 0, true, 0xA500000000, 0, 0x34, BitVec.allOnes 64, 0, 0, 0, false⟩
/-- 64 KiB of HBM at 0x200000 with no subpage present. -/
def absentT : TEntry := ⟨0x200000, 0, true, 0x10000, 0, 0x30, 0, 0, 0, 0, false⟩
/-- The same with every subpage present in device memory. -/
def hbmT : TEntry := ⟨0x300000, 0, true, 0x20000, 0, 0x30, BitVec.allOnes 64, 0, 0, 0, false⟩
/-- The table of the test kernel. -/
def tableT : Sparse TEntry := [(0, entryT), (1, absentT), (2, hbmT)]
/-- A kernel of one entry: a window for core ordinal 0 from tick 5 of 10. -/
def kernelT : Kernel where
  frameTicks := 10
  seed := 0
  tt := [⟨0, 3, true, 5, 0x100000⟩, ⟨1, 3, true, 5, 0x100000⟩]
  ttAddr := 0
  table := tableT
  tableAddr := 0
  dict := []
  outs := []
  codeEntry := 0
/-- A region of one input, `v1`, and one output, `v2`, in the state OBSERVE. -/
def regionT : Region := ⟨1, 1, [1], [2], 0, 0x100010, 0x100020, [], [], 0, none⟩
/-- A module of one kernel and one region. -/
def moduleT : Module := ⟨1, 1, [], [kernelT], [regionT], [], [], [], [], []⟩
/-- A context without anything registered. -/
def contextT : Context := ⟨true, 2, none, [], [], [], false, none⟩

/-- Registers with a few values: `s5` = 7, `s6` = 3, `s8` = 0x100010; `a4` = 0x80, `a5` = 8, `a6` = 0x100000. -/
def archT : Arch := { Arch.reset with
  s := [(5, 7), (6, 3), (8, 0x100010)], a := [(4, 0x80), (5, 8), (6, 0x100000)], v := [(1, 5), (2, 6)], k := [(1, 3)] }
/-- A core of the launch that runs its first entry. -/
def coreT : Core := { Core.reset with
  arch := archT, run := .running, launch := some 0, entry := some 0, table := tableT, seg := Segment.openAt archT }
/-- The other core of the launch, waiting for an entry. -/
def otherT : Core := { Core.reset with launch := some 0, ordinal := 1, run := .waiting, table := tableT }
/-- A booted package with these cores, core `k` issuing an execute part at 0x100000. -/
def stateOf (k : Core) (l : Launch) : State := { State.reset with
  cores := [(0, k), (1, otherT)], launches := [l], modules := [moduleT], contexts := [(1, some contextT)]
  markhor := { Markhor.reset with booted := true }
  part := { Part.idle with pc := 0x100000, next := 0x100002, before := k } }
/-- That state with the plain core. -/
def s0 : State := stateOf coreT launchT

theorem s0_canonical : Canonical s0 := ⟨rfl, rfl, rfl, rfl, rfl⟩

/-! ### Single steps: what core 0 sends on its way, with results from the spec's text -/

/-- What core 0 has in flight on a side after a step: what lands, its flags, the cycles left. -/
def sent (side : Side) (r : Out) : List (Landing × BitVec 5 × Nat) :=
  match r with
  | .next t => ((t.core 0).arch.infl side).map fun e => (e.what, e.flags, e.left)
  | _ => []
/-- The core's registers with others in place of some scalars. -/
def withS (l : Sparse W64) : State := stateOf { coreT with arch := { archT with s := l } } launchT

-- R106, R107: 2^64 - 1 + 1 = 0 modulo 2^64, latency 1; MULHN of 2^63 and 4 is 2
theorem test_add_wraps : sent .execute (exec (.add (a3 4 5 6 0 0)) (withS [(5, BitVec.allOnes 64), (6, 1)])) = [(.s 4 0, 0, 0)] := rfl
theorem test_mulhn : sent .execute (exec (.mulhn (a3 4 5 6 0 0)) (withS [(5, 0x8000000000000000), (6, 4)])) = [(.s 4 2, 0, 2)] := rfl
-- the table of R108: -7 / 2 and -7 mod 2; 7 / 0 and 7 mod 0; -2^63 / -1
theorem test_div : sent .execute (exec (.div (a3 4 5 6 0 0)) (withS [(5, -7), (6, 2)])) = [(.s 4 (-3), 0, 17)] := rfl
theorem test_div_overflow :
    sent .execute (exec (.div (a3 4 5 6 0 0)) (withS [(5, 0x8000000000000000), (6, -1)])) = [(.s 4 0x8000000000000000, 0, 17)] := rfl
theorem test_rem : sent .execute (exec (.rem (a3 4 5 6 0 0)) (withS [(5, -7), (6, 2)])) = [(.s 4 (-1), 0, 17)] := rfl
theorem test_rem_zero : sent .execute (exec (.rem (a3 4 5 6 0 0)) (withS [(5, 7)])) = [(.s 4 7, 0, 17)] := rfl
theorem test_divn_zero : sent .execute (exec (.divn (a3 4 5 6 0 0)) (withS [(5, 7)])) = [(.s 4 (BitVec.allOnes 64), 0, 17)] := rfl
-- R113, the worked case of 06: MOVI of 0x23456789AB has bit 37 set and extends its sign; MOVHI puts 4 above the low 38 bits of it
theorem test_movi : sent .execute (exec (.movi ⟨g0, 4, 0x23456789AB⟩) s0) = [(.s 4 0xFFFFFFE3456789AB, 0, 0)] := rfl
theorem test_movhi :
    sent .execute (exec (.movhi ⟨g0, 4, 4⟩) (withS [(4, 0xFFFFFFE3456789AB)])) = [(.s 4 0x0123456789AB, 0, 0)] := rfl
-- R122: fcvts.i32.f32.rtz of 3.0e9 delivers 0x7FFFFFFF with NV; fcvts.f32.i32 of 16,777,217 delivers 16,777,216 with NX
theorem test_fcvts_saturates :
    sent .execute (exec (.fcvts (a3 4 5 0 0 1)) (withS [(5, 0x4F32D05E)])) = [(.s 4 0x7FFFFFFF, 0x10, 2)] := rfl
-- R22: CORECOORD of core 157 with stage 5
theorem test_corecoord : BitVec.ofNat 64 (coreCoord 157 5) = (0x009D5215 : W64) := rfl
-- R14: logical s41 names physical 40 under RB 15, logical s40 names physical 37 under RB 13
theorem test_rotation : rot 15 41 = 40 ∧ rot 13 40 = 37 := ⟨rfl, rfl⟩
-- R10: sub s4, s56, s56 with 7 and then 5 in LQ0 gives 2
theorem test_sub_pops :
    sent .execute (exec (.sub (a3 4 56 56 0 0))
      (stateOf { coreT with arch := archT.setQ .lq0 [⟨0, some 7, none, false⟩, ⟨1, some 5, none, false⟩] } launchT)) =
      [(.s 4 2, 0, 0)] := rfl
-- R192: an LD of 8 bytes at 0x81 takes a misaligned-access trap, 0x06, with the address
theorem test_ld_misaligned :
    (match exec (.ld (a3 8 4 0 0 0x3000)) (stateOf { coreT with arch := { archT with a := [(4, 0x81)] } } launchT) with
     | .next t => (t.core 0).arch.trap
     | _ => none) = some ⟨6, 0x81, 0x100000, false⟩ := rfl
-- R138: elements of 8 bits wrap: 0xFF + 0x02 = 0x01, and no carry reaches the next element
theorem test_vadd_wraps :
    sent .execute (exec (.vadd (a3 3 1 2 0 0)) (stateOf { coreT with arch := { archT with v := [(1, 0xFF), (2, 2)] } } launchT)) =
      [(.v 3 1, 0, 1)] := by decide +kernel
-- R40: a load of a bank whose format is ET's passes a signalling NaN unchanged
theorem test_load_nan : loadConv 4 8 0x7F800001 = (0x7F800001, 0) := rfl
-- the entry after R355: 64 KiB at 0x1000000000, its device copy at 0x40000000, every subpage present
theorem test_entry_words : (TEntry.words ⟨0x1000000000, 0, true, 0x40000000, 0, 0x30, BitVec.allOnes 64, 0, 0, 0, false⟩).take 2 =
    [0x0010001000000000, 0x0000000040000C00] := rfl
-- the worked read after R424: lane 37 of stack 10 fails on the transfer of the metadata area at 0x5E00, stack 9's sector 33 has one
-- symbol in error
theorem test_lane_record :
    let fault : BusFault := ⟨10, rawArea (groupOf 32), List.replicate 5 [(0, BitVec.ofNat 64 (2 ^ 37))], [37]⟩
    ((({ Hbm.reset with bus := [fault] } : Hbm).transfer 10 32 (rawArea (groupOf 32)) ⟨0, 0⟩).logs.map (·.w0)) = [0x9A104B0000005E00] := by
  decide +kernel
theorem test_correction_record : ((Hbm.reset.logArray 1 9 33 1 ⟨0, 0⟩).logs.map (·.w0)) = [0x1911FE0000004600] := by decide +kernel
-- R151: a pair whose E is that of a special value but whose N holds none is a sum, which overflows
theorem test_vxadd_special : (vxaddElem 0 (0x7FFFFFFF * 2 ^ 96 + 8)).1 = 0x7F800000 := by decide +kernel
theorem test_aadd : sent .access (exec (.aadd (a3 8 4 5 0 0)) s0) = [(.a 8 0x88, 0, 0)] := rfl

/-- Core 0 with other registers. -/
def withArch (a : Arch) : State := stateOf { coreT with arch := a } launchT
/-- Queues with one value each in LQ0 and VLQ0. -/
def queued : Arch := (archT.setQ .lq0 [⟨0, some 9, none, false⟩]).setVQ .vlq0 [⟨1, some 9, false⟩]

/-- An instruction runs by its guard, the guard's predicate and the check of its values. -/
theorem runsBy {i : Instr} {s : State} {g : Guard} (h : i.guard? = some g) (hg : guardHolds g s.part.preds = true)
    (hd : s.slotDefect i = none) : Runs i s := ⟨⟨g, h, hg⟩, hd⟩
/-- What a check of every number below a bound shows. -/
theorem below {P : Nat → Prop} [DecidablePred P] (bound : Nat) (checked : (List.range bound).all (fun number => decide (P number)) = true)
    (number : Nat) (less : number < bound) : P number :=
  of_decide_eq_true (List.all_eq_true.mp checked number (List.mem_range.mpr less))
/-- What a check of every member of a list shows. -/
theorem every {α : Type} {P : α → Prop} [DecidablePred P] (members : List α) (checked : members.all (fun member => decide (P member)) = true)
    (member : α) (isIn : member ∈ members) : P member := of_decide_eq_true (List.all_eq_true.mp checked member isIn)
/-- What a check of a result shows. -/
theorem delivered {α : Type} (answer : Got α) (holds : α → Bool)
    (checked : (match answer with | .ok value => holds value | _ => false) = true) : ∃ value, answer = .ok value ∧ holds value = true := by
  cases answer <;> simp_all

/-! ### Witnesses: hypotheses of the statements about encoding and steps -/

theorem hyps_EncodedInstructionsDecode :
    (Instr.sel ⟨⟨15, true⟩, 127, 127, 127, 127, 0⟩).wellFormed = true ∧
      (Instr.sel ⟨⟨15, true⟩, 127, 127, 127, 127, 0⟩).guard?.isSome = true := by decide
theorem hyps_DecodedSyllablesEncode : ∃ i, decode .memory 0x000B00C2080B2148 = .ok i := ⟨_, rfl⟩
theorem hyps_UnassignedCodesRefused :
    (guardOf 0).ok = true ∧ decode .control 0 = .error .unassigned ∧ codeAssigned .control (opOf 0) = false := ⟨rfl, rfl, rfl⟩
theorem hyps_StepRunsInstruction :
    (∃ (s : State) (w : W64) (rest : List W64) (i : Instr), s.latch = w :: rest ∧ decodeWord w = .ok i) ∧
    (∃ (s : State) (e : Instr) (rest : List Instr), s.latch = [] ∧ s.agenda = e :: rest ∧ deviceStep e = true) ∧
    (∃ s : State, s.latch = [] ∧ s.agenda = []) :=
  ⟨⟨{ s0 with latch := [0x0002010286000000] }, _, _, _, rfl, rfl⟩, ⟨{ s0 with agenda := [.resultLands 287 .access] }, _, _, rfl, rfl, rfl⟩,
    s0, rfl, rfl⟩
theorem hyps_FalseGuardDoesNothing :
    (Instr.add ⟨⟨3, false⟩, 4, 5, 6, 0, 0⟩).guard? = some ⟨3, false⟩ ∧ guardHolds ⟨3, false⟩ s0.part.preds = false := ⟨rfl, rfl⟩
theorem hyps_DefectsTrap : ∃ cause, CoresWf s0 ∧ Guarded (.add (a3 4 58 6 0 0)) s0 ∧ s0.slotDefect (.add (a3 4 58 6 0 0)) = some cause :=
  ⟨2, rfl, ⟨_, rfl, rfl⟩, rfl⟩

/-! ### Witnesses: scalar and vector results -/

theorem hyps_IntegerResults : ∃ lat f x y a b, intOp (.add (a3 59 56 6 0 0)) = some (a3 59 56 6 0 0, lat, f) ∧
    Runs (.add (a3 59 56 6 0 0)) (withArch queued) ∧ Reads2 (withArch queued) 56 6 x y a ∧
    (withArch queued).part.dstS 59 (BitVec.ofInt 64 (f x y)) lat 0 a = .ok b :=
  ⟨_, _, _, _, _, _, rfl, runsBy rfl rfl rfl, ⟨_, rfl, rfl⟩, rfl⟩
theorem hyps_BitwiseShiftUnaryResults :
    (∃ f x y a b, bitOp (.andn (a3 4 5 6 0 0)) = some (a3 4 5 6 0 0, f) ∧ Runs (.andn (a3 4 5 6 0 0)) s0 ∧ Reads2 s0 5 6 x y a ∧
      (∀ j : Nat, j < 64 → (4 : W64).getLsbD j = f (x.getLsbD j) (y.getLsbD j)) ∧ s0.part.dstS 4 4 1 0 a = .ok b) ∧
    (∃ f x a b, shiftOp (.rotr (a3 4 5 0 0 0x7F)) = some (a3 4 5 0 0 0x7F, f) ∧ Runs (.rotr (a3 4 5 0 0 0x7F)) s0 ∧
      fld (0x7F : BitVec 17) 6 1 = 1 ∧ Reads1 s0 5 x a ∧ s0.part.dstS 4 (BitVec.ofInt 64 (f x 63)) 1 0 a = .ok b) ∧
    (∃ f x y a b, shiftOp (.sar (a3 4 5 6 0 0)) = some (a3 4 5 6 0 0, f) ∧ Runs (.sar (a3 4 5 6 0 0)) s0 ∧
      fld (0 : BitVec 17) 6 1 = 0 ∧ Reads2 s0 5 6 x y a ∧ s0.part.dstS 4 (BitVec.ofInt 64 (f x (y.toNat % 64))) 1 0 a = .ok b) ∧
    (∃ f x a b, unaryOp (.sext (a3 4 5 0 0 63)) = some (a3 4 5 0 0 63, f) ∧ Runs (.sext (a3 4 5 0 0 63)) s0 ∧ Reads1 s0 5 x a ∧
      s0.part.dstS 4 (BitVec.ofInt 64 (f x)) 1 0 a = .ok b) :=
  ⟨⟨_, _, _, _, _, rfl, runsBy rfl rfl rfl, ⟨_, rfl, rfl⟩, by decide, rfl⟩,
    ⟨_, _, _, _, rfl, runsBy rfl rfl rfl, rfl, rfl, rfl⟩,
    ⟨_, _, _, _, _, rfl, runsBy rfl rfl rfl, rfl, ⟨_, rfl, rfl⟩, rfl⟩,
    ⟨_, _, _, _, rfl, runsBy rfl rfl rfl, rfl, rfl⟩⟩
theorem hyps_InsertSelectImmediate :
    (∃ x y a b, Runs (.bfi (a3 4 5 6 0 0xFC0)) s0 ∧ Reads2 s0 5 6 x y a ∧
      (∀ j : Nat, j < 64 → (3 : W64).getLsbD j = if fld (0xFC0 : BitVec 17) 0 6 ≤ j ∧ j ≤ fld (0xFC0 : BitVec 17) 0 6 + fld (0xFC0 : BitVec 17) 6 6
        then y.getLsbD (j - fld (0xFC0 : BitVec 17) 0 6) else x.getLsbD j) ∧ s0.part.dstS 4 3 1 0 a = .ok b) ∧
    (∃ x y a b, Runs (.sel (a3 4 5 6 64 0)) s0 ∧ Reads2 s0 5 6 x y a ∧ s0.part.dstS 4 (if s0.part.srcP 64 then x else y) 1 0 a = .ok b) ∧
    (∃ x a b, Runs (.addi ⟨g0, 4, 5, 0x40000000⟩) s0 ∧ Reads1 s0 5 x a ∧
      s0.part.dstS 4 (BitVec.ofInt 64 (x.toInt + (0x40000000 : BitVec 31).toInt)) 1 0 a = .ok b) ∧
    (∃ b, Runs (.movi ⟨g0, 4, 0x2000000000⟩) s0 ∧ s0.part.dstS 4 (BitVec.ofInt 64 (0x2000000000 : BitVec 38).toInt) 1 0 (arch s0) = .ok b) ∧
    (∃ x a b, Runs (.movhi ⟨g0, 5, 1⟩) s0 ∧ Reads1 s0 5 x a ∧
      s0.part.dstS 5 (BitVec.ofNat 64 (1 % 2 ^ 26 * 2 ^ 38 + x.toNat % 2 ^ 38)) 1 0 a = .ok b) :=
  ⟨⟨_, _, _, _, runsBy rfl rfl rfl, ⟨_, rfl, rfl⟩, by decide, rfl⟩,
    ⟨_, _, _, _, runsBy rfl rfl rfl, ⟨_, rfl, rfl⟩, rfl⟩,
    ⟨_, _, _, runsBy rfl rfl rfl, rfl, rfl⟩, ⟨_, runsBy rfl rfl rfl, rfl⟩,
    ⟨_, _, _, runsBy rfl rfl rfl, rfl, rfl⟩⟩
theorem hyps_PredicateResults :
    (∃ x y a, Runs (.cmp (a3 65 5 6 0 0xB)) s0 ∧ Reads2 s0 5 6 x y a ∧ (false = true ↔ Cond 0xB x y)) ∧
    (∃ x a, Runs (.cmpi ⟨g0, 67, 5, 0x17FFFFFB⟩) s0 ∧ Reads1 s0 5 x a ∧
      (false = true ↔ Cond (fld (0x17FFFFFB : BitVec 31) 27 4) x
        (BitVec.ofInt 64 ((((0x17FFFFFB : BitVec 31).toNat % 2 ^ 27 : Nat) : Int).bmod (2 ^ 27))))) ∧
    Runs (.plog (a3 65 64 79 0 0xF)) s0 ∧ (∃ x a, Runs (.ptst (a3 65 5 0 0 63)) s0 ∧ Reads1 s0 5 x a) ∧
    (∃ x y a, Runs (.fcmps (a3 65 5 6 0 7)) s0 ∧ Reads2 s0 5 6 x y a) :=
  ⟨⟨_, _, _, runsBy rfl rfl rfl, ⟨_, rfl, rfl⟩, by simp [Cond]; decide⟩,
    ⟨_, _, runsBy rfl rfl rfl, rfl, by simp [Cond, fld]; decide⟩, runsBy rfl rfl rfl,
    ⟨_, _, runsBy rfl rfl rfl, rfl⟩, ⟨_, _, _, runsBy rfl rfl rfl, ⟨_, rfl, rfl⟩⟩⟩
theorem hyps_ScalarFloatResults :
    (∃ lat f x y a b, fpOp (.fadds (a3 4 5 6 0 1)) = some (a3 4 5 6 0 1, lat, f) ∧ Runs (.fadds (a3 4 5 6 0 1)) s0 ∧
      Reads2 s0 5 6 x y a ∧ s0.part.dstS 4 (BitVec.ofNat 64 (f (x.toNat % 2 ^ 32) (y.toNat % 2 ^ 32)).1) lat
        (f (x.toNat % 2 ^ 32) (y.toNat % 2 ^ 32)).2 a = .ok b) ∧
    (∃ x y z a b, Runs (.fmas (a3 4 5 6 5 3)) s0 ∧ Reads3 s0 5 6 5 x y z a ∧
      s0.part.dstS 4 (BitVec.ofNat 64 (fFma fp32 true true (x.toNat % 2 ^ 32) (y.toNat % 2 ^ 32) (z.toNat % 2 ^ 32)).1) 4
        (fFma fp32 true true (x.toNat % 2 ^ 32) (y.toNat % 2 ^ 32) (z.toNat % 2 ^ 32)).2 a = .ok b) ∧
    (∃ x a b, Runs (.fcvts (a3 4 5 0 0 0x27)) s0 ∧ Reads1 s0 5 x a ∧
      s0.part.dstS 4 (fcvtsVal 9 (RMode.ofCode 3) x).1 3 (fcvtsVal 9 (RMode.ofCode 3) x).2 a = .ok b) :=
  ⟨⟨_, _, _, _, _, _, rfl, runsBy rfl rfl rfl, ⟨_, rfl, rfl⟩, rfl⟩,
    ⟨_, _, _, _, _, runsBy rfl rfl rfl, ⟨_, ⟨_, rfl, rfl⟩, rfl⟩, rfl⟩, ⟨_, _, _, runsBy rfl rfl rfl, rfl, rfl⟩⟩

/-- A vector slot's operands with two vector sources of a width. -/
def meetsV2 (i : Instr) (o : A3) (w : Nat) : Prop := ∃ x y a, Runs i s0 ∧ ReadsV2 s0 w w o.s1 o.s2 x y a
/-- With one. -/
def meetsV1 (i : Instr) (o : A3) (w : Nat) : Prop := ∃ x a, Runs i s0 ∧ ReadsV1 s0 w o.s1 x a

theorem hyps_VectorIntegerFamilyResults_1 :
    (∃ lat f, vecOp (.vssub (a3 3 1 2 0 0x96)) = some (a3 3 1 2 0 0x96, lat, f)) ∧
      meetsV2 (.vssub (a3 3 1 2 0 0x96)) (a3 3 1 2 0 0x96) 32 :=
  ⟨⟨_, _, rfl⟩, _, _, _, runsBy rfl rfl rfl, ⟨_, rfl, rfl⟩⟩
theorem hyps_VectorIntegerFamilyResults_2 :
    ∃ (f : Bool → Bool → Bool) (x y : VReg) (a : Arch) (g : Nat → Nat), vecBitOp (.vand (a3 3 1 2 0 0)) = some (a3 3 1 2 0 0, f) ∧
      Runs (.vand (a3 3 1 2 0 0)) s0 ∧ ReadsV2 s0 8 8 1 2 x y a ∧
      ∀ j n, n < 8 → (g j).testBit n = f ((elem x.toNat 8 j).testBit n) ((elem y.toNat 8 j).testBit n) :=
  ⟨_, _, _, _, fun _ => _, rfl, runsBy rfl rfl rfl, ⟨_, rfl, rfl⟩, fun _ _ _ => Nat.testBit_and ..⟩
theorem hyps_VectorIntegerFamilyResults_3 :
    meetsV1 (.vabs (a3 3 1 0 0 0)) (a3 3 1 0 0 0) 8 :=
  ⟨_, _, runsBy rfl rfl rfl, rfl⟩
theorem hyps_VectorIntegerFamilyResults_4 :
    (∃ f, vecShiftOp (.vrshr (a3 3 1 0 0 0x11F06)) = some (a3 3 1 0 0 0x11F06, f)) ∧ fld (0x11F06 : BitVec 17) 16 1 = 1 ∧
      meetsV1 (.vrshr (a3 3 1 0 0 0x11F06)) (a3 3 1 0 0 0x11F06) 32 :=
  ⟨⟨_, rfl⟩, rfl, _, _, runsBy rfl rfl rfl, rfl⟩
theorem hyps_VectorIntegerFamilyResults_5 :
    (∃ f, vecShiftOp (.vsar (a3 3 1 2 0 1)) = some (a3 3 1 2 0 1, f)) ∧ fld (1 : BitVec 17) 16 1 = 0 ∧
      meetsV2 (.vsar (a3 3 1 2 0 1)) (a3 3 1 2 0 1) 16 :=
  ⟨⟨_, rfl⟩, rfl, _, _, _, runsBy rfl rfl rfl, ⟨_, rfl, rfl⟩⟩
theorem hyps_VectorAccumulateNarrowWiden :
    meetsV2 (.vmac (a3 3 1 2 0 0)) (a3 3 1 2 0 0) 8 ∧ meetsV2 (.vdot4 (a3 3 1 2 0 4)) (a3 3 1 2 0 4) 8 ∧
    meetsV2 (.vdot2 (a3 3 1 2 0 1)) (a3 3 1 2 0 1) 16 ∧ meetsV2 (.vnarw (a3 3 1 2 0 0x100)) (a3 3 1 2 0 0x100) 16 ∧
    meetsV1 (.vwide (a3 3 1 0 0 0x101)) (a3 3 1 0 0 0x101) 8 :=
  ⟨⟨_, _, _, runsBy rfl rfl rfl, ⟨_, rfl, rfl⟩⟩, ⟨_, _, _, runsBy rfl rfl rfl, ⟨_, rfl, rfl⟩⟩,
    ⟨_, _, _, runsBy rfl rfl rfl, ⟨_, rfl, rfl⟩⟩, ⟨_, _, _, runsBy rfl rfl rfl, ⟨_, rfl, rfl⟩⟩,
    ⟨_, _, runsBy rfl rfl rfl, rfl⟩⟩
-- v1 = 5 and v2 = 6: only their elements 0 differ, 5 < 6; k1 = 3
theorem hyps_MaskResults :
    (∃ x y a, Runs (.vcmp (a3 2 1 2 0 0x202)) s0 ∧ ReadsV2 s0 32 32 1 2 x y a ∧
      MaskOf (a3 2 1 2 0 0x202) a (fun j => VCond (a3 2 1 2 0 0x202) 2 (elem x.toNat 32 j) (elem y.toNat 32 j)) 1) ∧
    (∃ x y a, Runs (.vfcmp (a3 2 1 2 0 0x208)) s0 ∧ ReadsV2 s0 32 32 1 2 x y a ∧
      MaskOf (a3 2 1 2 0 0x208) a (fun j => fCompare (etFmt 8) 2 (elem x.toNat 32 j) (elem y.toNat 32 j) = true) 1) ∧
    (Runs (.klog (a3 2 1 0 0 0xC00)) s0 ∧
      ∀ j, j < 1024 → (3 : KReg).getLsbD j = (0xC : Nat).testBit
        (2 * (((arch s0).getK 1).getLsbD j).toNat + (((arch s0).getK 0).getLsbD j).toNat)) ∧
    (∃ x a, Runs (.kset (a3 2 69 0 0 0)) s0 ∧ s0.part.srcX 69 (arch s0) = .ok (x, a) ∧
      ∀ j, j < 1024 → ((0x7F : KReg).getLsbD j = true ↔ j < x.toNat ∧ j < 1024)) ∧
    (∃ b, Runs (.kpop (a3 3 1 0 0 0)) s0 ∧ s0.part.dstV 3 (BitVec.ofNat 8192 2) 1 0 (arch s0) = .ok b) ∧
    (∃ b, Runs (.kfst (a3 3 1 0 0 0)) s0 ∧ (∀ j, j < 0 → maskBit ((arch s0).getK 1) j = false) ∧
      ((0 < 1024 ∧ maskBit ((arch s0).getK 1) 0 = true) ∨ 0 = 1024) ∧ s0.part.dstV 3 (BitVec.ofNat 8192 0) 1 0 (arch s0) = .ok b) ∧
    (∃ x y a b, Runs (.vsel (a3 3 1 2 0 0x10)) s0 ∧ ReadsV2 s0 8 8 1 2 x y a ∧
      (∀ j, j < 1024 → elem (5 : VReg).toNat 8 j = elem (if maskBit (a.maskOf 0x10) j then x else y).toNat 8 j) ∧
      s0.part.dstV 3 5 2 0 a = .ok b) :=
  ⟨⟨5, 6, _, runsBy rfl rfl rfl, ⟨_, rfl, rfl⟩, below (P := fun j => (1 : KReg).getLsbD j = true ↔ j < count (a3 2 1 2 0 0x202) ∧
      ((maskBit ((arch s0).maskOf 0x202) j = true ∧
          val (a3 2 1 2 0 0x202) (elem (5 : VReg).toNat 32 j) < val (a3 2 1 2 0 0x202) (elem (6 : VReg).toNat 32 j)) ∨
       (maskBit ((arch s0).maskOf 0x202) j = false ∧ fld (0x202 : BitVec 17) 7 1 = 0 ∧ maskBit ((arch s0).getK 2) j = true)))
      1024 (by decide +kernel)⟩,
    ⟨5, 6, _, runsBy rfl rfl rfl, ⟨_, rfl, rfl⟩, below (P := fun j => (1 : KReg).getLsbD j = true ↔ j < count (a3 2 1 2 0 0x208) ∧
      ((maskBit ((arch s0).maskOf 0x208) j = true ∧ fCompare (etFmt 8) 2 (elem (5 : VReg).toNat 32 j) (elem (6 : VReg).toNat 32 j) = true) ∨
       (maskBit ((arch s0).maskOf 0x208) j = false ∧ fld (0x208 : BitVec 17) 7 1 = 0 ∧ maskBit ((arch s0).getK 2) j = true)))
      1024 (by decide +kernel)⟩,
    ⟨runsBy rfl rfl rfl, below _ (by decide +kernel)⟩,
    ⟨7, _, runsBy rfl rfl rfl, rfl, below _ (by decide +kernel)⟩, ⟨_, runsBy rfl rfl rfl, rfl⟩,
    ⟨_, runsBy rfl rfl rfl, by omega, .inl ⟨by omega, by decide +kernel⟩, rfl⟩,
    ⟨5, 6, _, _, runsBy rfl rfl rfl, ⟨_, rfl, rfl⟩, below _ (by decide +kernel), rfl⟩⟩

theorem hyps_VectorFloatResults_1 :
    (∃ lat f, vecFpOp (.vfadd (a3 3 1 2 0 8)) = some (a3 3 1 2 0 8, lat, f)) ∧ meetsV2 (.vfadd (a3 3 1 2 0 8)) (a3 3 1 2 0 8) 32 :=
  ⟨⟨_, _, rfl⟩, _, _, _, runsBy rfl rfl rfl, ⟨_, rfl, rfl⟩⟩
theorem hyps_VectorFloatResults_2 :
    ∃ x y z a b, Runs (.vfma (a3 3 1 2 4 0x309)) s0 ∧ ReadsV2 s0 16 16 1 2 x y a ∧ s0.part.srcV 16 4 a = .ok (z, b) :=
  ⟨_, _, _, _, _, runsBy rfl rfl rfl, ⟨_, rfl, rfl⟩, rfl⟩
theorem hyps_VectorFloatResults_3 :
    meetsV2 (.vfsgn (a3 3 1 2 0 0x20A)) (a3 3 1 2 0 0x20A) 16 :=
  ⟨_, _, _, runsBy rfl rfl rfl, ⟨_, rfl, rfl⟩⟩
theorem hyps_VectorFloatResults_4 :
    meetsV1 (.vfcls (a3 3 1 0 0 8)) (a3 3 1 0 0 8) 32 :=
  ⟨_, _, runsBy rfl rfl rfl, rfl⟩
theorem hyps_ExactBlockResults :
    (∃ x y z a b, Runs (.vxdot (a3 10 1 2 3 9)) s0 ∧ ReadsV2 s0 64 64 1 2 x y a ∧ isMx 9 = true ∧ s0.part.srcV 64 3 a = .ok (z, b)) ∧
    (∃ x y a, Runs (.vxdot (a3 10 1 2 0 0x107)) s0 ∧ ReadsV2 s0 64 64 1 2 x y a ∧ isMx 7 = false) ∧
    (∃ x y a, Runs (.vxadd (a3 3 1 2 0 0x308)) s0 ∧ ReadsV2 s0 32 64 1 2 x y a) :=
  ⟨⟨_, _, _, _, _, runsBy rfl rfl rfl, ⟨_, rfl, rfl⟩, rfl, rfl⟩, ⟨_, _, _, runsBy rfl rfl rfl, ⟨_, rfl, rfl⟩, rfl⟩,
    ⟨_, _, _, runsBy rfl rfl rfl, ⟨_, rfl, rfl⟩⟩⟩
theorem hyps_ReductionResults :
    meetsV1 (.vsum (a3 3 1 0 0 0x808)) (a3 3 1 0 0 0x808) 32 ∧ meetsV1 (.vsum (a3 3 1 0 0 0x102)) (a3 3 1 0 0 0x102) 32 ∧
    meetsV1 (.vscan (a3 3 1 0 0 2)) (a3 3 1 0 0 2) 32 :=
  ⟨⟨_, _, runsBy rfl rfl rfl, rfl⟩, ⟨_, _, runsBy rfl rfl rfl, rfl⟩, ⟨_, _, runsBy rfl rfl rfl, rfl⟩⟩
-- v5 and v3 are 0: a block of zeros has scale code 0 and elements 0, without a flag
theorem hyps_ConversionBlockResults :
    (meetsV1 (.vcvt (a3 3 1 0 0 0x4809)) (a3 3 1 0 0 0x4809) 32 ∧ width (a3 3 1 0 0 0x4809) < 32) ∧
    (meetsV1 (.vcvt (a3 3 1 0 0 0x0208)) (a3 3 1 0 0 0x0208) 32 ∧ 32 ≤ width (a3 3 1 0 0 0x0208)) ∧
    (fld (0x6108 : BitVec 17) 8 1 = 1 ∧ meetsV1 (.vcvt8 (a3 3 1 0 0 0x6108)) (a3 3 1 0 0 0x6108) 64) ∧
    (fld (0x6008 : BitVec 17) 8 1 = 0 ∧ meetsV1 (.vcvt8 (a3 3 1 0 0 0x6008)) (a3 3 1 0 0 0x6008) 32) ∧
    (∃ x a b, Runs (.vmxq (a3 3 5 0 0 0x7C08)) s0 ∧ ReadsV1 s0 32 5 x a ∧ fld (0x7C08 : BitVec 17) 10 1 = 1 ∧
      (∀ j, j < 1024 → elem (0 : VReg).toNat 8 j =
        if j / 8 = 15 then (quantise 9 ((List.range 32).map fun n => fp32.decode (elem x.toNat 32 (32 * (j % 8) + n)))).1 % 2 ^ 8
        else elem (s0.part.oldV 3 a).toNat 8 j) ∧ s0.part.dstV 3 0 5 0 a = .ok b) ∧
    (∃ x a b, Runs (.vmxq (a3 3 5 0 0 0x1908)) s0 ∧ ReadsV1 s0 32 5 x a ∧ fld (0x1908 : BitVec 17) 10 1 = 0 ∧
      (∀ j, j < 1024 → elem (0 : VReg).toNat 8 j =
        if 3 * 256 ≤ j ∧ j < 3 * 256 + 256 then
          ((quantise 10 ((List.range 32).map fun n => fp32.decode (elem x.toNat 32 (32 * ((j - 3 * 256) / 32) + n)))).2.1[j % 32]?).getD 0 % 2 ^ 8
        else elem (s0.part.oldV 3 a).toNat 8 j) ∧
      (∀ n, (0 : BitVec 5).getLsbD n = true ↔ ∃ k, k < 8 ∧
        (quantise 10 ((List.range 32).map fun n => fp32.decode (elem x.toNat 32 (32 * k + n)))).2.2.getLsbD n = true) ∧
      s0.part.dstV 3 0 5 0 a = .ok b) ∧
    meetsV2 (.vmxdq (a3 3 1 2 0 8)) (a3 3 1 2 0 8) 64 ∧ meetsV1 (.vexp (a3 3 1 0 0 0x400)) (a3 3 1 0 0 0x400) 64 :=
  ⟨⟨⟨_, _, runsBy rfl rfl rfl, rfl⟩, by decide⟩, ⟨⟨_, _, runsBy rfl rfl rfl, rfl⟩, by decide⟩,
    ⟨rfl, _, _, runsBy rfl rfl rfl, rfl⟩, ⟨rfl, _, _, runsBy rfl rfl rfl, rfl⟩,
    ⟨0, _, _, runsBy rfl rfl rfl, rfl, rfl, below _ (by decide +kernel), rfl⟩,
    ⟨0, _, _, runsBy rfl rfl rfl, rfl, rfl, below _ (by decide +kernel), by
      intro n
      have h : ∀ k, k < 8 → (quantise 10 ((List.range 32).map fun n => fp32.decode (elem (0 : VReg).toNat 32 (32 * k + n)))).2.2 = 0 :=
        below _ (by decide +kernel)
      constructor
      · simp
      · rintro ⟨k, hk, e⟩; rw [h k hk] at e; exact e, rfl⟩,
    ⟨_, _, _, runsBy rfl rfl rfl, ⟨_, rfl, rfl⟩⟩, ⟨_, _, runsBy rfl rfl rfl, rfl⟩⟩
theorem hyps_PermuteMoveResults :
    meetsV2 (.vpack (a3 3 1 2 0 0)) (a3 3 1 2 0 0) 64 ∧ meetsV1 (.vunpk (a3 3 1 0 0 0x300)) (a3 3 1 0 0 0x300) 64 ∧
    meetsV2 (.vperm (a3 3 1 2 0 0)) (a3 3 1 2 0 0) 8 ∧ meetsV2 (.vshuf (a3 3 1 2 0 0x302)) (a3 3 1 2 0 0x302) 32 ∧
    (∃ x y n a b, Runs (.vslide (a3 3 1 2 69 2)) s0 ∧ ReadsV2 s0 32 32 1 2 x y a ∧ s0.part.srcX 69 a = .ok (n, b)) ∧
    (∃ x n a b, Runs (.vbcst (a3 3 1 69 0 2)) s0 ∧ ReadsV1 s0 32 1 x a ∧ s0.part.srcX 69 a = .ok (n, b)) ∧
    (∃ x n a b, Runs (.vextr (a3 3 1 69 0 2)) s0 ∧ ReadsV1 s0 32 1 x a ∧ s0.part.srcX 69 a = .ok (n, b)) ∧
    (∃ v n a b, Runs (.vins (a3 3 69 70 0 0x82)) s0 ∧ s0.part.srcX 69 (arch s0) = .ok (v, a) ∧ s0.part.srcX 70 a = .ok (n, b)) ∧
    meetsV1 (.vmov (a3 3 1 0 0 8)) (a3 3 1 0 0 8) 32 ∧
    (∃ b, Runs (.vmovi ⟨g0, 3, 0x800000007⟩) s0 ∧
      (∀ j, j < 256 → elem (BitVec.ofNat 8192 ((List.range 256).foldl (fun n i => n + 7 * 2 ^ (32 * i)) 0)).toNat 32 j =
        fld (0x800000007 : BitVec 38) 0 32 % 2 ^ 32) ∧
      s0.part.dstV 3 (BitVec.ofNat 8192 ((List.range 256).foldl (fun n i => n + 7 * 2 ^ (32 * i)) 0)) 2 0 (arch s0) = .ok b) :=
  ⟨⟨_, _, _, runsBy rfl rfl rfl, ⟨_, rfl, rfl⟩⟩, ⟨_, _, runsBy rfl rfl rfl, rfl⟩,
    ⟨_, _, _, runsBy rfl rfl rfl, ⟨_, rfl, rfl⟩⟩, ⟨_, _, _, runsBy rfl rfl rfl, ⟨_, rfl, rfl⟩⟩,
    ⟨_, _, _, _, _, runsBy rfl rfl rfl, ⟨_, rfl, rfl⟩, rfl⟩, ⟨_, _, _, _, runsBy rfl rfl rfl, rfl, rfl⟩,
    ⟨_, _, _, _, runsBy rfl rfl rfl, rfl, rfl⟩, ⟨_, _, _, _, runsBy rfl rfl rfl, rfl, rfl⟩,
    ⟨_, _, runsBy rfl rfl rfl, rfl⟩, ⟨_, runsBy rfl rfl rfl, below _ (by decide +kernel), rfl⟩⟩

/-! ### Witnesses: control -/

/-- Another state of the part of `s0`. -/
def withPart (f : Part → Part) : State := { s0 with part := f s0.part }
/-- A loop of two passes of a body of two bundles. -/
def loopT : Loop := ⟨0x100000, 2, 1, 2, 0, 0⟩
/-- The core in a loop. -/
def inLoop (l : Loop) : State :=
  let s := withArch { archT with loop := some l, loopOn := true }
  { s with part := { s.part with loop := some loopT, loopOn := true } }

theorem hyps_TakenBranches :
    (∃ target a, CoresWf s0 ∧ Runs (.bri ⟨g0, 0, 0x40, 0⟩) s0 ∧ Branch (.bri ⟨g0, 0, 0x40, 0⟩) s0 target none a ∧
      s0.part.redirected = false ∧ Linked s0 none a a ∧ s0.part.undecided = false) ∧
    (∃ target a b, Runs (.call ⟨g0, 4, 0x7FFFFFFF, 0⟩) s0 ∧ Branch (.call ⟨g0, 4, 0x7FFFFFFF, 0⟩) s0 target (some 4) a ∧ Linked s0 (some 4) a b) ∧
    (∃ target a b, CoresWf (withPart fun p => { p with undecided := true }) ∧
      Runs (.br (a3 4 8 0 0 0)) (withPart fun p => { p with undecided := true }) ∧
      Branch (.br (a3 4 8 0 0 0)) (withPart fun p => { p with undecided := true }) target (some 4) a ∧
      Linked (withPart fun p => { p with undecided := true }) (some 4) a b) ∧
    (∃ target a, CoresWf (withPart fun p => { p with redirected := true }) ∧
      Runs (.ret (a3 0 8 0 0 0)) (withPart fun p => { p with redirected := true }) ∧
      Branch (.ret (a3 0 8 0 0 0)) (withPart fun p => { p with redirected := true }) target none a) :=
  ⟨⟨_, _, rfl, runsBy rfl rfl rfl, ⟨rfl, rfl, rfl⟩, rfl, rfl, rfl⟩, ⟨_, _, _, runsBy rfl rfl rfl, ⟨rfl, rfl, rfl⟩, rfl⟩,
    ⟨_, _, _, rfl, runsBy rfl rfl rfl, ⟨rfl, rfl⟩, rfl⟩, ⟨_, _, rfl, runsBy rfl rfl rfl, rfl, rfl⟩⟩
/-- What an interrupted context has left. -/
def heldT : Held := ⟨3, [⟨.s 4 9, 0, 1, false⟩], [], 5, 6, 0, 0, none, false⟩
/-- A core in its handler, and one whose trap is due. -/
def inHandler : State := withArch { archT with exc := true, epc := 0x100000, held := some heldT }
def trapDue : State := stateOf { coreT with arch := { archT with pc := 0x100002, trap := some ⟨8, 0xFFFF, 0, true⟩ } } launchT
theorem hyps_TrapsTaken :
    (CoresWf s0 ∧ Runs (.trap (a3 0 0 0 0 0xFFFF)) s0 ∧ s0.part.trapped = false) ∧
    (Runs (.brk (a3 0 0 0 0 0)) (withPart fun p => { p with trapped := true }) ∧
      (withPart fun p => { p with trapped := true }).part.trapped = true) ∧
    (CoresWf trapDue ∧ trapDue.mayTrap 0 = true ∧ (trapDue.core 0).arch.trap = some ⟨8, 0xFFFF, 0, true⟩ ∧
      (trapDue.core 0).arch.accs = [] ∧ (trapDue.core 0).arch.exc = false ∧ (trapDue.core 0).arch.turn = none) ∧
    (CoresWf (withPart fun p => { p with before := { p.before with arch := { archT with inflX := heldT.inflX } } }) ∧
      Runs (.eret (a3 0 0 0 0 0)) (withPart fun p => { p with before := { p.before with arch := { archT with inflX := heldT.inflX } } }) ∧
      ¬ (withPart fun p => { p with before := { p.before with arch := { archT with inflX := heldT.inflX } } }).part.before.arch.inflX = []) ∧
    (CoresWf inHandler ∧ Runs (.eret (a3 0 0 0 0 0)) inHandler ∧ inHandler.part.before.arch.inflX = [] ∧
      inHandler.part.before.arch.inflA = [] ∧ inHandler.part.before.arch.accs = [] ∧ inHandler.part.redirected = false ∧
      inHandler.part.undecided = false ∧ inHandler.mine.arch.exc = true ∧ inHandler.mine.arch.held = some heldT) ∧
    (Runs (.eret (a3 0 0 0 0 0)) s0 ∧ s0.part.before.arch.inflX = [] ∧ s0.part.before.arch.inflA = [] ∧ s0.part.before.arch.accs = [] ∧
      s0.part.redirected = false ∧ s0.part.undecided = false ∧ s0.mine.arch.exc = false) :=
  ⟨⟨rfl, runsBy rfl rfl rfl, rfl⟩, ⟨runsBy rfl rfl rfl, rfl⟩, ⟨rfl, by decide +kernel, rfl, rfl, rfl, rfl⟩,
    ⟨rfl, runsBy rfl rfl rfl, by simp [withPart, heldT]⟩, ⟨rfl, runsBy rfl rfl rfl, rfl, rfl, rfl, rfl, rfl, rfl, rfl⟩,
    ⟨runsBy rfl rfl rfl, rfl, rfl, rfl, rfl, rfl, rfl⟩⟩
/-- A core that a debugger has halted. -/
def stoppedS : State := stateOf { coreT with halt := .requested } { launchT with debugHalted := true }
theorem hyps_SystemRegisterAccess :
    (∃ b, Runs (.sysr ⟨g0, 4, 0, 0x1F⟩) s0 ∧ s0.part.dstS 4 (s0.readSys 0x1F) 2 0 (arch s0) = .ok b) ∧
    (s0.launchOf s0.part.core = some launchT ∧ launchT.debugHalted = false) ∧
    (s0.launchOf s0.part.core = some launchT ∧ s0.context? launchT.asid = some contextT) ∧
    Sparse.wf 0 archT.bfmt = true ∧ 0xE ∈ [6, 7, 8, 9, 0xA, 0xC, 0xD, 0xE] ∧
    (stoppedS.launchOf stoppedS.part.core = some { launchT with debugHalted := true } ∧ stoppedS.halted stoppedS.part.core = true) ∧
    (∃ x a, CoresWf s0 ∧ Runs (.sysw ⟨g0, 0, 5, 4⟩) s0 ∧ Reads1 s0 5 x a ∧ ¬ (0x10 ≤ (4 : BitVec 31).toNat ∧ 0xD ≤ x.toNat % 16)) ∧
    (∃ x a, CoresWf (withS [(5, 0xD)]) ∧ Runs (.sysw ⟨g0, 0, 5, 0x10⟩) (withS [(5, 0xD)]) ∧ Reads1 (withS [(5, 0xD)]) 5 x a ∧
      0x10 ≤ (0x10 : BitVec 31).toNat ∧ 0xD ≤ x.toNat % 16) :=
  ⟨⟨_, runsBy rfl rfl rfl, rfl⟩, ⟨rfl, rfl⟩, ⟨rfl, rfl⟩, rfl, by decide, ⟨rfl, by decide +kernel⟩,
    ⟨_, _, rfl, runsBy rfl rfl rfl, rfl, by decide⟩,
    ⟨_, _, rfl, runsBy rfl rfl rfl, rfl, by decide, by decide⟩⟩
theorem hyps_LoopControl :
    (∃ t a, CoresWf s0 ∧ Runs (.loopm (a3 0 5 0 0 0x41)) s0 ∧ Reads1 s0 5 t a ∧ s0.part.redirected = false ∧ s0.part.undecided = false) ∧
    (∃ a, Runs (.loopm (a3 0 0 0 0 0x41)) s0 ∧ Reads1 s0 0 0 a) ∧
    (CoresWf (inLoop loopT) ∧ Runs (.lbrk (a3 0 0 0 0 1)) (inLoop loopT) ∧ (inLoop loopT).part.loop = some loopT ∧
      fld (1 : BitVec 17) 0 1 = 1 ∧ (inLoop loopT).part.redirected = false ∧ (inLoop loopT).part.undecided = false) ∧
    (CoresWf (inLoop { loopT with pos := 1 }) ∧ Runs (.lbrk (a3 0 0 0 0 0)) (inLoop { loopT with pos := 1 }) ∧
      (inLoop { loopT with pos := 1 }).part.loop = some loopT ∧ fld (0 : BitVec 17) 0 1 = 0 ∧
      (arch (inLoop { loopT with pos := 1 })).loop = some { loopT with pos := 1 } ∧ ({ loopT with pos := 1 } : Loop).pos ≠ 0) ∧
    (Runs (.lbrk (a3 0 0 0 0 0)) (inLoop { loopT with pass := 1 }) ∧
      (arch (inLoop { loopT with pass := 1 })).loop = some { loopT with pass := 1 } ∧ ({ loopT with pass := 1 } : Loop).pos = 0 ∧
      min 2 (loopT.pass + 1) + 1 - 1 ≤ 1) ∧
    (({ archT with turn := some loopT } : Arch).turn = some loopT ∧ loopT.pass + 1 < loopT.limit + loopT.stages - 1 ∧
      { loopT with pass := 1, limit := 1 }.limit + loopT.stages - 1 ≤ { loopT with pass := 1 }.pass + 1) ∧
    Runs (.hint 63 ⟨g0, 127, 0x3FFFFFFFFF⟩) s0 :=
  ⟨⟨_, _, rfl, runsBy rfl rfl rfl, rfl, rfl, rfl⟩, ⟨_, runsBy rfl rfl rfl, rfl⟩, ⟨rfl, runsBy rfl rfl rfl, rfl, rfl, rfl, rfl⟩,
    ⟨rfl, runsBy rfl rfl rfl, rfl, rfl, rfl, by decide⟩, ⟨runsBy rfl rfl rfl, rfl, rfl, by decide⟩, ⟨rfl, by decide, by decide⟩,
    runsBy rfl rfl rfl⟩
/-- A launch whose conditional stream 0 of cluster 0 holds records. -/
def streamed (n : Nat) : State := stateOf coreT { launchT with streams := [(0, List.replicate n 7)] }
theorem hyps_ConditionalStreams :
    (∃ x a, CoresWf (streamed 4096) ∧ Runs (.swr (a3 0 1 0 0 2)) (streamed 4096) ∧ ReadsV1 (streamed 4096) 32 1 x a ∧
      (streamed 4096).recorded? = none ∧ ((List.range 256).filter fun j => maskBit ((arch (streamed 4096)).maskOf 2) j).length = 256) ∧
    (∃ x a, CoresWf s0 ∧ Runs (.swr (a3 0 1 0 0 2)) s0 ∧ ReadsV1 s0 32 1 x a ∧ s0.recorded? = none ∧
      s0.launchOf s0.part.core = some launchT ∧ launchT.record = false ∧ launchT.replay = false ∧
      (launchT.stream (streamKey s0.part.core 2)).length + 256 ≤ 4096) ∧
    (∃ x a, Runs (.swr (a3 0 1 0 0 0x22)) s0 ∧ ReadsV1 s0 32 1 x a ∧
      ((List.range 256).filter fun j => maskBit ((arch s0).maskOf 0x22) j) = []) ∧
    (CoresWf s0 ∧ Runs (.srd (a3 3 0 0 0 2)) s0 ∧ s0.recorded? = none ∧ fld (2 : BitVec 17) 12 1 = 0 ∧
      (launchT.stream (streamKey s0.part.core 2)).length < 256 ∧ ∀ j, j < 256 → elem (0 : VReg).toNat 32 j = 0) ∧
    (∃ b, CoresWf s0 ∧ Runs (.srd (a3 3 0 0 0 0x1002)) s0 ∧ fld (0x1002 : BitVec 17) 12 1 = 1 ∧
      s0.part.dstV 3 0 3 0 (arch s0) = .ok b) ∧
    (∃ b, Runs (.scnt (a3 3 0 0 0 0)) (streamed 3) ∧ s0.part.dstV 3 3 2 0 (arch (streamed 3)) = .ok b) :=
  ⟨⟨_, _, rfl, runsBy rfl rfl rfl, rfl, rfl, by decide +kernel⟩,
    ⟨_, _, rfl, runsBy rfl rfl rfl, rfl, rfl, rfl, rfl, rfl, by decide⟩, ⟨_, _, runsBy rfl rfl rfl, rfl, by decide +kernel⟩,
    ⟨rfl, runsBy rfl rfl rfl, rfl, rfl, by decide, below _ (by decide +kernel)⟩, ⟨_, rfl, runsBy rfl rfl rfl, rfl, rfl⟩,
    ⟨_, runsBy rfl rfl rfl, rfl⟩⟩

/-! ### Witnesses: memory slots -/

/-- The core with values in SQ, VLQ0, VSQ0 and VSQ1, and a stride of 8 in `a5`. -/
def queuesT : Arch :=
  (((archT.setQ .sq [⟨0, some 9, none, false⟩]).setVQ .vlq0 [⟨1, some 1, false⟩]).setVQ .vsq0 [⟨2, some 2, false⟩]).setVQ .vsq1 [⟨3, some 1, false⟩]
/-- A state whose core has other access registers. -/
def withA (l : Sparse W64) : State := withArch { archT with a := l }
/-- A state whose part began, and whose core stands, with these registers and queues. -/
def memS : State := withArch queuesT
/-- The same core outside every launch. -/
def soloS : State := stateOf { coreT with arch := queuesT, launch := none } launchT

/-- The same state while a request of the core has not returned. -/
def owingS : State := stateOf { coreT with arch := queuesT, offs := [⟨5, .ld 0x100010 3 true, 0, false, false, .nowhere, 0, 0, 4, none, false⟩] } launchT
/-- The core with a full side log in which a subpage waits. -/
def fullSideS : State := stateOf { coreT with
  arch := queuesT, side := List.replicate 256 ⟨1, .store [(0x200000, [1])], 0, 0, false, 0⟩ } launchT

theorem hyps_AddressResults :
    (∃ lat f x y k k' d, addrOp (.aadd (a3 29 4 5 0 0)) = some (a3 29 4 5 0 0, lat, f) ∧ Runs (.aadd (a3 29 4 5 0 0)) s0 ∧
      ReadsA2 s0 4 5 x y k ∧ k.dest 29 = .ok (d, k')) ∧
    (∃ x k k' d, Runs (.ashl (a3 8 4 0 0 0x7F)) s0 ∧ fld (0x7F : BitVec 17) 6 1 = 1 ∧ ReadsA1 s0 4 x k ∧ k.dest 8 = .ok (d, k')) ∧
    (∃ x y k k' d, Runs (.ashl (a3 8 4 5 0 0)) s0 ∧ fld (0 : BitVec 17) 6 1 = 0 ∧ ReadsA2 s0 4 5 x y k ∧ k.dest 8 = .ok (d, k')) ∧
    (∃ x y k, Runs (.acmp (a3 40 4 5 0 2)) s0 ∧ ReadsA2 s0 4 5 x y k ∧ (false = true ↔ Cond 2 x y)) ∧
    (∃ x k k' d, Runs (.aaddi ⟨g0, 8, 4, 0x40000000⟩) s0 ∧ ReadsA1 s0 4 x k ∧ k.dest 8 = .ok (d, k')) ∧
    (∃ k' d, Runs (.amovi ⟨g0, 8, 0x3FFFFFFFFF⟩) s0 ∧ s0.mine.dest 8 = .ok (d, k')) ∧
    (∃ x k k' d, Runs (.xlatq (a3 8 4 0 0 0)) s0 ∧ ReadsA1 s0 4 x k ∧ k.dest 8 = .ok (d, k') ∧ findEntry k'.table x.toNat = none) ∧
    (∃ x k k' d, Runs (.xlatq (a3 8 6 0 0 0)) s0 ∧ ReadsA1 s0 6 x k ∧ k.dest 8 = .ok (d, k') ∧
      findEntry k'.table x.toNat = some (0, entryT) ∧ 0 < 512 ∧ entryT.key < 16) :=
  ⟨⟨_, _, _, _, _, _, _, rfl, runsBy rfl rfl rfl, ⟨_, rfl, rfl⟩, rfl⟩, ⟨_, _, _, _, runsBy rfl rfl rfl, rfl, rfl, rfl⟩,
    ⟨_, _, _, _, _, runsBy rfl rfl rfl, rfl, ⟨_, rfl, rfl⟩, rfl⟩,
    ⟨_, _, _, runsBy rfl rfl rfl, ⟨_, rfl, rfl⟩, by simp [Cond]; decide⟩, ⟨_, _, _, _, runsBy rfl rfl rfl, rfl, rfl⟩,
    ⟨_, _, runsBy rfl rfl rfl, rfl⟩, ⟨_, _, _, _, runsBy rfl rfl rfl, rfl, rfl, rfl⟩,
    ⟨_, _, _, _, runsBy rfl rfl rfl, rfl, rfl, rfl, by decide, by decide⟩⟩
/-- The same core when mem0 of the bundle has put a reduction into the commit buffer. -/
def reducedS : State :=
  stateOf { coreT with
    arch := queuesT, side := List.replicate 256 ⟨1, .store [(0x200000, [1])], 0, 0, false, 0⟩
    seg := { coreT.seg with commit := [⟨2, .red 0 3 0x100008 1, 0, 0, false, 0⟩] } } launchT
theorem hyps_ScratchpadLoadsPend_1 :
    ∃ b x k k' d, Runs (.ld (a3 64 4 5 0 0x3000)) s0 ∧ ReadsA2 s0 4 5 b x k ∧ fld (0x3000 : BitVec 17) 16 1 = 0 ∧
      (scalarAddr (a3 64 4 5 0 0x3000) b x).toNat % scalarSize (a3 64 4 5 0 0x3000) = 0 ∧
      (scalarAddr (a3 64 4 5 0 0x3000) b x).toNat + scalarSize (a3 64 4 5 0 0x3000) ≤ 2097152 ∧ s0.loadsFree = true ∧
      k.dest 64 = .ok (d, k') :=
  ⟨_, _, _, _, _, runsBy rfl rfl rfl, ⟨_, rfl, rfl⟩, rfl, by decide, by decide, rfl, rfl⟩
theorem hyps_ScratchpadLoadsPend_2 :
    -- the last 8 bytes of the scratchpad, with the offset -1; one access further does not fit
    (∃ b x k k' d, Runs (.ldacq (a3 8 4 0 0 0x307F)) (withA [(4, 0x200000)]) ∧ ReadsA2 (withA [(4, 0x200000)]) 4 0 b x k ∧
      (scalarAddr (a3 8 4 0 0 0x307F) b x).toNat + scalarSize (a3 8 4 0 0 0x307F) = 2097152 ∧ k.dest 8 = .ok (d, k')) :=
  ⟨_, _, _, _, _, runsBy rfl rfl rfl, ⟨_, rfl, rfl⟩, by decide, rfl⟩
theorem hyps_ScratchpadLoadsPend_3 :
    ∃ b x k, Runs (.ldacq (a3 8 4 0 0 0x3000)) (withA [(4, 0x200000)]) ∧ ReadsA2 (withA [(4, 0x200000)]) 4 0 b x k ∧
      ¬ ((scalarAddr (a3 8 4 0 0 0x3000) b x).toNat % scalarSize (a3 8 4 0 0 0x3000) = 0 ∧
        (scalarAddr (a3 8 4 0 0 0x3000) b x).toNat + scalarSize (a3 8 4 0 0 0x3000) ≤ 2097152) :=
  ⟨_, _, _, runsBy rfl rfl rfl, ⟨_, rfl, rfl⟩, by decide⟩
theorem hyps_ScratchpadLoadsPend_4 :
    ∃ x k, Runs (.fetst (a3 40 4 0 0 0)) (withA [(4, 0x200000)]) ∧ ReadsA1 (withA [(4, 0x200000)]) 4 x k ∧ 2097152 ≤ x.toNat :=
  ⟨_, _, runsBy rfl rfl rfl, rfl, by decide⟩
theorem hyps_ScratchpadLoadsPend_5 :
    ∃ x k, Runs (.fetst (a3 40 4 0 0 0)) (withA [(4, 0x1FFFFF)]) ∧ ReadsA1 (withA [(4, 0x1FFFFF)]) 4 x k ∧ x.toNat < 2097152 ∧
      (withA [(4, 0x1FFFFF)]).loadsFree = true :=
  ⟨_, _, runsBy rfl rfl rfl, rfl, by decide, rfl⟩
theorem hyps_ScratchpadLoadsPend_6 :
    ∃ c base addrs k k' d, Runs (.vld (a3 67 4 0 0 0x800)) s0 ∧ VecAddrs (.vld (a3 67 4 0 0 0x800)) s0 (a3 67 4 0 0 0x800) c base addrs k ∧
      fld (0x800 : BitVec 17) 16 1 = 0 ∧ vecBreach k.arch 2 (memWidth (a3 67 4 0 0 0x800) k base) base c addrs = none ∧
      s0.loadsFree = true ∧ k.destVQ 67 = .ok (d, k') :=
  ⟨_, _, _, _, _, _, runsBy rfl rfl rfl, ⟨rfl, rfl, _, _, ⟨_, rfl, rfl⟩, rfl, rfl⟩, rfl, by decide +kernel, rfl, rfl⟩
theorem hyps_ScratchpadLoadsPend_7 :
    ∃ c base addrs k, Runs (.vlds (a3 67 4 5 0 0x800)) (withA [(4, 0x80), (5, 2)]) ∧
      VecAddrs (.vlds (a3 67 4 5 0 0x800)) (withA [(4, 0x80), (5, 2)]) (a3 67 4 5 0 0x800) c base addrs k ∧
      vecBreach k.arch 2 (memWidth (a3 67 4 5 0 0x800) k base) base c addrs = some 0x82 :=
  ⟨_, _, _, _, runsBy rfl rfl rfl, ⟨rfl, rfl, _, ⟨_, rfl, rfl⟩, rfl⟩, by decide +kernel⟩
theorem hyps_ScratchpadLoadsPend_8 :
    ∃ c base addrs k k' d, Runs (.vldx (a3 68 4 72 0 0x800)) memS ∧
      VecAddrs (.vldx (a3 68 4 72 0 0x800)) memS (a3 68 4 72 0 0x800) c base addrs k ∧
      vecBreach k.arch 2 (memWidth (a3 68 4 72 0 0x800) k base) base c addrs = none ∧ k.destVQ 68 = .ok (d, k') :=
  ⟨_, _, _, _, _, _, runsBy rfl rfl rfl, ⟨rfl, rfl, _, _, rfl, rfl, rfl⟩, by decide +kernel, rfl⟩
theorem hyps_ScratchpadStoresPend_1 :
    memS.writesFree = true ∧ memS.recorded? = none ∧ memS.part.before.offs = [] ∧ memS.part.before.out = [] ∧ ∀ w ∈ memS.part.before.side, w.own = false :=
  ⟨rfl, rfl, rfl, rfl, every _ rfl⟩
theorem hyps_ScratchpadStoresPend_2 :
    -- a release point with a load outstanding
    (∃ b x v j k, owingS.writesFree = true ∧ owingS.recorded? = none ∧ Runs (.strel (a3 0 4 5 66 0)) owingS ∧
      ReadsA2 owingS 4 5 b x j ∧ j.srcSd 66 = .ok (v, k) ∧ owingS.part.before.offs ≠ []) :=
  ⟨_, _, _, _, _, rfl, rfl, runsBy rfl rfl rfl, ⟨_, rfl, rfl⟩, rfl, by decide⟩
theorem hyps_ScratchpadStoresPend_3 :
    -- a word at an odd address, and one that reaches past the scratchpad
    (∃ b x v j k, Runs (.st (a3 0 4 5 66 0x3000)) (withArch { queuesT with a := [(4, 0x81)] }) ∧
      ReadsA2 (withArch { queuesT with a := [(4, 0x81)] }) 4 5 b x j ∧ j.srcSd 66 = .ok (v, k) ∧
      (scalarAddr (a3 0 4 5 66 0x3000) b x).toNat % scalarSize (a3 0 4 5 66 0x3000) ≠ 0) :=
  ⟨_, _, _, _, _, runsBy rfl rfl rfl, ⟨_, rfl, rfl⟩, rfl, by decide⟩
theorem hyps_ScratchpadStoresPend_4 :
    ∃ b x v j k, Runs (.strel (a3 0 4 5 66 0x3000)) (withArch { queuesT with a := [(4, 0x200000)] }) ∧
      ReadsA2 (withArch { queuesT with a := [(4, 0x200000)] }) 4 5 b x j ∧ j.srcSd 66 = .ok (v, k) ∧
      2097152 < (scalarAddr (a3 0 4 5 66 0x3000) b x).toNat + scalarSize (a3 0 4 5 66 0x3000) :=
  ⟨_, _, _, _, _, runsBy rfl rfl rfl, ⟨_, rfl, rfl⟩, rfl, by decide⟩
theorem hyps_ScratchpadStoresPend_5 :
    ∃ c base addrs j x a, Runs (.vsts (a3 0 4 5 71 0x800)) (withArch { queuesT with a := [(4, 0x80), (5, 2)] }) ∧
      VecAddrs (.vsts (a3 0 4 5 71 0x800)) (withArch { queuesT with a := [(4, 0x80), (5, 2)] }) (a3 0 4 5 71 0x800) c base addrs j ∧
      j.arch.vpop (vqOf 71) = .ok (x, a) ∧
      vecBreach a 2 (memWidth (a3 0 4 5 71 0x800) { j with arch := a } base) base c addrs = some 0x82 :=
  ⟨_, _, _, _, _, _, runsBy rfl rfl rfl, ⟨rfl, rfl, _, ⟨_, rfl, rfl⟩, rfl⟩, rfl, by decide +kernel⟩
theorem hyps_ScratchpadStoresPend_6 :
    ∃ x n k, Runs (.feset (a3 0 4 5 0 1)) (withA [(5, 16385)]) ∧ ReadsA2 (withA [(5, 16385)]) 4 5 x n k ∧ ¬ n.toNat ≤ 16384 :=
  ⟨_, _, _, runsBy rfl rfl rfl, ⟨_, rfl, rfl⟩, by decide⟩
theorem hyps_ScratchpadStoresPend_7 :
    ∃ b x v j k, Runs (.st (a3 0 4 5 66 0x3400)) memS ∧ ReadsA2 memS 4 5 b x j ∧ j.srcSd 66 = .ok (v, k) ∧
      fld (0x3400 : BitVec 17) 16 1 = 0 ∧ fld (0x3400 : BitVec 17) 10 1 = 1 ∧
      (scalarAddr (a3 0 4 5 66 0x3400) b x).toNat % scalarSize (a3 0 4 5 66 0x3400) = 0 ∧
      (scalarAddr (a3 0 4 5 66 0x3400) b x).toNat + scalarSize (a3 0 4 5 66 0x3400) ≤ 2097152 :=
  ⟨_, _, _, _, _, runsBy rfl rfl rfl, ⟨_, rfl, rfl⟩, rfl, rfl, rfl, by decide, by decide⟩
theorem hyps_ScratchpadStoresPend_8 :
    ∃ b x v j k, Runs (.strel (a3 0 4 5 66 0)) memS ∧ ReadsA2 memS 4 5 b x j ∧ j.srcSd 66 = .ok (v, k) ∧
      (scalarAddr (a3 0 4 5 66 0) b x).toNat % scalarSize (a3 0 4 5 66 0) = 0 ∧
      (scalarAddr (a3 0 4 5 66 0) b x).toNat + scalarSize (a3 0 4 5 66 0) ≤ 2097152 :=
  ⟨_, _, _, _, _, runsBy rfl rfl rfl, ⟨_, rfl, rfl⟩, rfl, by decide, by decide⟩
theorem hyps_ScratchpadStoresPend_9 :
    ∃ c base addrs j x a, Runs (.vst (a3 0 4 0 71 0xA00)) memS ∧ VecAddrs (.vst (a3 0 4 0 71 0xA00)) memS (a3 0 4 0 71 0xA00) c base addrs j ∧
      j.arch.vpop (vqOf 71) = .ok (x, a) ∧ fld (0xA00 : BitVec 17) 9 1 = 1 ∧ c = true ∧
      vecBreach a 2 (memWidth (a3 0 4 0 71 0xA00) { j with arch := a } base) base c addrs = none :=
  ⟨_, _, _, _, _, _, runsBy rfl rfl rfl, ⟨rfl, rfl, _, _, ⟨_, rfl, rfl⟩, rfl, rfl⟩, rfl, rfl, rfl, by decide +kernel⟩
theorem hyps_ScratchpadStoresPend_10 :
    ∃ c base addrs j x a, Runs (.vstx (a3 0 4 72 71 0x800)) memS ∧
      VecAddrs (.vstx (a3 0 4 72 71 0x800)) memS (a3 0 4 72 71 0x800) c base addrs j ∧ j.arch.vpop (vqOf 71) = .ok (x, a) ∧
      vecBreach a 2 (memWidth (a3 0 4 72 71 0x800) { j with arch := a } base) base c addrs = none :=
  ⟨_, _, _, _, _, _, runsBy rfl rfl rfl, ⟨rfl, rfl, _, _, rfl, rfl, rfl⟩, rfl, by decide +kernel⟩
theorem hyps_ScratchpadStoresPend_11 :
    ∃ x n k, Runs (.feset (a3 0 4 5 0 1)) (withA [(5, 16384)]) ∧ ReadsA2 (withA [(5, 16384)]) 4 5 x n k ∧ x.toNat % 128 = 0 ∧
      1 ≤ n.toNat ∧ n.toNat ≤ 16384 ∧ x.toNat + 128 * n.toNat ≤ 2097152 :=
  ⟨_, _, _, runsBy rfl rfl rfl, ⟨_, rfl, rfl⟩, by decide, by decide, by decide, by decide⟩
theorem hyps_OffCoreAccesses_1 :
    ∃ b x k k' d, Runs (.ld (a3 8 6 5 0 0x13000)) s0 ∧ ReadsA2 s0 6 5 b x k ∧ fld (0x13000 : BitVec 17) 16 1 = 1 ∧
      (scalarAddr (a3 8 6 5 0 0x13000) b x).toNat % scalarSize (a3 8 6 5 0 0x13000) = 0 ∧
      lookup k.table .read (scalarAddr (a3 8 6 5 0 0x13000) b x).toNat ≠ .stray ∧ s0.loadsFree = true ∧ k.dest 8 = .ok (d, k') ∧
      (s0.flushBundle k' 0 [((scalarAddr (a3 8 6 5 0 0x13000) b x).toNat, scalarSize (a3 8 6 5 0 0x13000))] true).side.length ≤ 256 :=
  ⟨_, _, _, _, _, runsBy rfl rfl rfl, ⟨_, rfl, rfl⟩, rfl, by decide, by decide +kernel, rfl, rfl, by decide +kernel⟩
theorem hyps_OffCoreAccesses_2 :
    -- mem0's reduction of the same word, which has to leave first, finds no room in the side log
    (∃ b x k k' d, Runs (.ld (a3 8 6 5 0 0x13000)) reducedS ∧ ReadsA2 reducedS 6 5 b x k ∧ reducedS.loadsFree = true ∧ k.dest 8 = .ok (d, k') ∧
      256 < (reducedS.flushBundle k' 0 [((scalarAddr (a3 8 6 5 0 0x13000) b x).toNat, scalarSize (a3 8 6 5 0 0x13000))] true).side.length) :=
  ⟨_, _, _, _, _, runsBy rfl rfl rfl, ⟨_, rfl, rfl⟩, rfl, rfl, by decide +kernel⟩
theorem hyps_OffCoreAccesses_3 :
    ∃ c base addrs k k' d, Runs (.vld (a3 67 6 0 0 0x10800)) reducedS ∧
      VecAddrs (.vld (a3 67 6 0 0 0x10800)) reducedS (a3 67 6 0 0 0x10800) c base addrs k ∧ k.destVQ 67 = .ok (d, k') ∧
      256 < (reducedS.flushBundle k' 0 (addrs.map fun y => (y.toNat, memWidth (a3 67 6 0 0 0x10800) k base)) true).side.length :=
  ⟨_, _, _, _, _, _, runsBy rfl rfl rfl, ⟨rfl, rfl, _, _, ⟨_, rfl, rfl⟩, rfl, rfl⟩, rfl, by decide +kernel⟩
theorem hyps_OffCoreAccesses_4 :
    ∃ c base addrs k, Runs (.vld (a3 67 6 0 0 0x10800)) (withA [(6, 0x100040)]) ∧
      VecAddrs (.vld (a3 67 6 0 0 0x10800)) (withA [(6, 0x100040)]) (a3 67 6 0 0 0x10800) c base addrs k ∧ c = true ∧ base.toNat % 128 ≠ 0 :=
  ⟨_, _, _, _, runsBy rfl rfl rfl, ⟨rfl, rfl, _, _, ⟨_, rfl, rfl⟩, rfl, rfl⟩, rfl, by decide⟩
theorem hyps_OffCoreAccesses_5 :
    ∃ c base addrs j x a, Runs (.vsts (a3 0 6 5 71 0x10800)) (withArch { queuesT with a := [(5, 2), (6, 0x100000)] }) ∧
      VecAddrs (.vsts (a3 0 6 5 71 0x10800)) (withArch { queuesT with a := [(5, 2), (6, 0x100000)] }) (a3 0 6 5 71 0x10800) c base addrs j ∧
      j.arch.vpop (vqOf 71) = .ok (x, a) ∧ c = false ∧
      (addrs.find? fun x => decide (x.toNat % memWidth (a3 0 6 5 71 0x10800) j base ≠ 0)) = some 0x100002 :=
  ⟨_, _, _, _, _, _, runsBy rfl rfl rfl, ⟨rfl, rfl, _, ⟨_, rfl, rfl⟩, rfl⟩, rfl, rfl, by decide +kernel⟩
theorem hyps_OffCoreAccesses_6 :
    ∃ b x v j k, Runs (.strel (a3 0 6 5 66 0x13000)) (withArch { queuesT with a := [(6, 0x100004)] }) ∧
      ReadsA2 (withArch { queuesT with a := [(6, 0x100004)] }) 6 5 b x j ∧ j.srcSd 66 = .ok (v, k) ∧
      (scalarAddr (a3 0 6 5 66 0x13000) b x).toNat % scalarSize (a3 0 6 5 66 0x13000) ≠ 0 :=
  ⟨_, _, _, _, _, runsBy rfl rfl rfl, ⟨_, rfl, rfl⟩, rfl, by decide⟩
theorem hyps_OffCoreAccesses_7 :
    ∃ b x k, Runs (.ldacq (a3 8 6 5 0 0x13000)) (withA [(5, 1)]) ∧ ReadsA2 (withA [(5, 1)]) 6 5 b x k ∧
      (scalarAddr (a3 8 6 5 0 0x13000) b x).toNat % scalarSize (a3 8 6 5 0 0x13000) ≠ 0 :=
  ⟨_, _, _, runsBy rfl rfl rfl, ⟨_, rfl, rfl⟩, by decide⟩
theorem hyps_OffCoreAccesses_8 :
    ∃ c base addrs k k' d, Runs (.vld (a3 67 6 0 0 0x10800)) s0 ∧
      VecAddrs (.vld (a3 67 6 0 0 0x10800)) s0 (a3 67 6 0 0 0x10800) c base addrs k ∧ (c = true → base.toNat % 128 = 0) ∧
      (∀ y ∈ addrs, y.toNat % memWidth (a3 67 6 0 0 0x10800) k base = 0) ∧ (∀ y ∈ addrs, lookup k.table .read y.toNat ≠ .stray) ∧
      s0.loadsFree = true ∧ k.destVQ 67 = .ok (d, k') :=
  ⟨_, _, _, _, _, _, runsBy rfl rfl rfl, ⟨rfl, rfl, _, _, ⟨_, rfl, rfl⟩, rfl, rfl⟩, fun _ => by decide +kernel, every _ (by decide +kernel),
      every _ (by decide +kernel), rfl, rfl⟩
theorem hyps_OffCoreAccesses_9 :
    ∃ b x v j k t, Runs (.strel (a3 0 6 5 66 0x13000)) memS ∧ ReadsA2 memS 6 5 b x j ∧ j.srcSd 66 = .ok (v, k) ∧
      (scalarAddr (a3 0 6 5 66 0x13000) b x).toNat % scalarSize (a3 0 6 5 66 0x13000) = 0 ∧
      lookup k.table .write (scalarAddr (a3 0 6 5 66 0x13000) b x).toNat ≠ .stray ∧ memS.writesFree = true ∧
      memS.recorded? = none ∧
      memS.checkStepped [((scalarAddr (a3 0 6 5 66 0x13000) b x).toNat, scalarSize (a3 0 6 5 66 0x13000))] = .ok t ∧
      (writeSent memS k (.store [((scalarAddr (a3 0 6 5 66 0x13000) b x).toNat, leBytes v.toNat (scalarSize (a3 0 6 5 66 0x13000)))])
        (fld (0x13000 : BitVec 17) 14 2)).side.length ≤ 256 :=
  ⟨_, _, _, _, _, _, runsBy rfl rfl rfl, ⟨_, rfl, rfl⟩, rfl, by decide, by decide +kernel, rfl, rfl, rfl, by decide +kernel⟩
theorem hyps_OffCoreAccesses_10 :
    ∃ b x v j k t, Runs (.strel (a3 0 6 5 66 0x13000)) fullSideS ∧ ReadsA2 fullSideS 6 5 b x j ∧ j.srcSd 66 = .ok (v, k) ∧
      fullSideS.writesFree = true ∧ fullSideS.checkStepped [((scalarAddr (a3 0 6 5 66 0x13000) b x).toNat, 8)] = .ok t ∧
      256 < (writeSent fullSideS k (.store [((scalarAddr (a3 0 6 5 66 0x13000) b x).toNat, leBytes v.toNat 8)]) 0).side.length :=
  ⟨_, _, _, _, _, _, runsBy rfl rfl rfl, ⟨_, rfl, rfl⟩, rfl, rfl, rfl, by decide +kernel⟩
theorem hyps_OffCoreAccesses_11 :
    ∃ c base addrs j x a t, Runs (.vst (a3 0 6 0 71 0x10800)) soloS ∧
      VecAddrs (.vst (a3 0 6 0 71 0x10800)) soloS (a3 0 6 0 71 0x10800) c base addrs j ∧ j.arch.vpop (vqOf 71) = .ok (x, a) ∧
      (c = true → base.toNat % 128 = 0) ∧ (∀ y ∈ addrs, y.toNat % memWidth (a3 0 6 0 71 0x10800) { j with arch := a } base = 0) ∧
      (∀ y ∈ addrs, lookup j.table .write y.toNat ≠ .stray) ∧ soloS.writesFree = true ∧
      soloS.checkStepped (addrs.map fun y => (y.toNat, memWidth (a3 0 6 0 71 0x10800) { j with arch := a } base)) = .ok t :=
  ⟨_, _, _, _, _, _, _, runsBy rfl rfl rfl, ⟨rfl, rfl, _, _, ⟨_, rfl, rfl⟩, rfl, rfl⟩, rfl, fun _ => by decide +kernel,
      every _ (by decide +kernel), every _ (by decide +kernel), rfl, rfl⟩
theorem hyps_OffCoreAccesses_12 :
    ∀ w ∈ coreT.seg.commit, w.seq < s0.part.before.arch.accSeq :=
  by simp [coreT, Segment.openAt]

/-! ### Witnesses: atomics, fences, engine commands -/

/-- An operation of the matrix queue 0 of core 0. -/
def opT : Op := { (default : Op) with code := .mma, queue := 0, seq := 1, o3 := 0, state := .unstarted }

theorem hyps_AtomicsIssue :
    (∃ x v k k' d t, Runs (.amo (a3 8 6 5 0 0x1830)) s0 ∧ ReadsA2 s0 6 5 x v k ∧ x.toNat % 8 = 0 ∧
      lookup k.table .both x.toNat ≠ .stray ∧ s0.writesFree = true ∧ s0.checkStepped [(x.toNat, 8)] = .ok t ∧
      k.dest 8 = .ok (d, k') ∧ (s0.flushBundle k' (fld (0x1830 : BitVec 17) 9 2) [(x.toNat, 8)] false).side.length ≤ 256) ∧
    (∃ x c v j k k' d t, Runs (.cas (a3 64 6 5 4 0x1000)) s0 ∧ ReadsA2 s0 6 5 x c j ∧ j.srcA 4 = .ok (v, k) ∧ x.toNat % 4 = 0 ∧
      lookup k.table .both x.toNat ≠ .stray ∧ s0.checkStepped [(x.toNat, 4)] = .ok t ∧ k.dest 64 = .ok (d, k') ∧
      (s0.flushBundle k' (fld (0x1000 : BitVec 17) 9 2) [(x.toNat, 4)] false).side.length ≤ 256) ∧
    -- mem0's store on the channel finds no room in the side log
    (∃ x v k k' d t, Runs (.amo (a3 8 6 5 0 0x1830)) reducedS ∧ ReadsA2 reducedS 6 5 x v k ∧ reducedS.writesFree = true ∧
      reducedS.checkStepped [(x.toNat, 8)] = .ok t ∧ k.dest 8 = .ok (d, k') ∧
      256 < (reducedS.flushBundle k' (fld (0x1830 : BitVec 17) 9 2) [(x.toNat, 8)] false).side.length) ∧
    -- the pair of words of AMO 12 lies at a multiple of 64
    (∃ x v k, Runs (.amo (a3 8 6 5 0 0x19000)) (withA [(6, 0x100020)]) ∧ ReadsA2 (withA [(6, 0x100020)]) 6 5 x v k ∧ x.toNat % 64 ≠ 0) ∧
    (∃ x v k t, Runs (.red (a3 0 6 5 0 0x17020)) s0 ∧ ReadsA2 s0 6 5 x v k ∧ x.toNat % 64 = 0 ∧
      lookup k.table .write x.toNat ≠ .stray ∧ s0.writesFree = true ∧ s0.recorded? = none ∧
      s0.checkStepped [(x.toNat, 64)] = .ok t ∧ fld (0x17020 : BitVec 17) 5 1 = 1 ∧
      (writeSent s0 k (.red 11 2 x.toNat v) 0).side.length ≤ 256) ∧
    (∃ x v k t, Runs (.red (a3 0 6 5 0 0x1820)) fullSideS ∧ ReadsA2 fullSideS 6 5 x v k ∧ fullSideS.checkStepped [(x.toNat, 8)] = .ok t ∧
      256 < (writeSent fullSideS k (.red 0 3 x.toNat v) 0).side.length) ∧
    (∃ x v k, Runs (.red (a3 0 6 5 0 0x1800)) (withA [(6, 0x100004)]) ∧ ReadsA2 (withA [(6, 0x100004)]) 6 5 x v k ∧ x.toNat % 8 ≠ 0) ∧
    (∃ x y j a t, Runs (.vred (a3 0 6 71 0 0xC00)) memS ∧ ReadsA1 memS 6 x j ∧ j.arch.vpop (vqOf 71) = .ok (y, a) ∧ x.toNat % 128 = 0 ∧
      (∀ y ∈ (List.range 8).map fun n => (x + BitVec.ofNat 64 (128 * n)).toNat, lookup j.table .write y ≠ .stray) ∧
      memS.writesFree = true ∧ memS.checkStepped (((List.range 8).map fun n => (x + BitVec.ofNat 64 (128 * n)).toNat).map fun y => (y, 128)) = .ok t) ∧
    (∃ x y j a, Runs (.vred (a3 0 4 71 0 0xC00)) (withArch { queuesT with a := [(4, 0x100040)] }) ∧
      ReadsA1 (withArch { queuesT with a := [(4, 0x100040)] }) 4 x j ∧ j.arch.vpop (vqOf 71) = .ok (y, a) ∧ x.toNat % 128 ≠ 0) :=
  ⟨⟨_, _, _, _, _, _, runsBy rfl rfl rfl, ⟨_, rfl, rfl⟩, by decide, by decide +kernel, rfl, rfl, rfl, by decide +kernel⟩,
    ⟨_, _, _, _, _, _, _, _, runsBy rfl rfl rfl, ⟨_, rfl, rfl⟩, rfl, by decide, by decide +kernel, rfl, rfl, by decide +kernel⟩,
    ⟨_, _, _, _, _, _, runsBy rfl rfl rfl, ⟨_, rfl, rfl⟩, rfl, rfl, rfl, by decide +kernel⟩,
    ⟨_, _, _, runsBy rfl rfl rfl, ⟨_, rfl, rfl⟩, by decide⟩,
    ⟨_, _, _, _, runsBy rfl rfl rfl, ⟨_, rfl, rfl⟩, by decide, by decide +kernel, rfl, rfl, rfl, rfl, by decide +kernel⟩,
    ⟨_, _, _, _, runsBy rfl rfl rfl, ⟨_, rfl, rfl⟩, rfl, by decide +kernel⟩,
    ⟨_, _, _, runsBy rfl rfl rfl, ⟨_, rfl, rfl⟩, by decide⟩,
    ⟨_, _, _, _, _, runsBy rfl rfl rfl, rfl, rfl, by decide, every _ (by decide +kernel), rfl, rfl⟩,
    ⟨_, _, _, _, runsBy rfl rfl rfl, rfl, rfl, by decide⟩⟩
/-- A core with operations in a queue. -/
def withOps (q : Nat) (l : List Op) : State := stateOf { coreT with ops := [(q, l)] } launchT
theorem hyps_FencesIssue :
    Runs (.fence (a3 0 0 0 0 0x18)) s0 ∧ Runs (.fence (a3 0 0 0 0 4)) s0 ∧
    (Runs (.qfence (a3 0 0 0 0 0xFF)) (withOps 6 [opT]) ∧ fld (0xFF : BitVec 17) 7 1 = 1 ∧
      ∃ q, q < 7 ∧ (0xFF : BitVec 17).getLsbD q = true ∧ Sparse.get [] (withOps 6 [opT]).part.before.ops q ≠ []) ∧
    (Runs (.qfence (a3 0 0 0 0 0x83)) (withOps 6 [opT]) ∧
      ¬ (fld (0x83 : BitVec 17) 7 1 = 1 ∧
        ∃ q, q < 7 ∧ (0x83 : BitVec 17).getLsbD q = true ∧ Sparse.get [] (withOps 6 [opT]).part.before.ops q ≠ [])) :=
  ⟨runsBy rfl rfl rfl, runsBy rfl rfl rfl, ⟨runsBy rfl rfl rfl, rfl, 6, by decide, rfl, by decide⟩,
    ⟨runsBy rfl rfl rfl, by
      rintro ⟨-, q, hq, hb, h⟩
      have : ∀ q, q < 7 → (0x83 : BitVec 17).getLsbD q = true → Sparse.get [] (withOps 6 [opT]).part.before.ops q = [] := by decide
      exact h (this q hq hb)⟩⟩
/-- A core that performs again, after a rewind, the bundle whose slot 0 has left a value. -/
def replayS : State :=
  let k : Core := { coreT with seg := { coreT.seg with recorded := [⟨0, 0, some 5, false, [], none⟩] } }
  { stateOf k launchT with part := { (stateOf k launchT).part with bundle := k.seg.checkpoint.issued } }
/-- An engine command that captures its operands and delivers its tag. -/
def meetsEngine (i : Instr) (o : EN) (s : State) : Prop :=
  ∃ code q w1 w2 w3 recA recB k k' d, engineCmd i = some (code, q, o) ∧ Runs i s ∧ Captures i s w1 w2 w3 recA recB k ∧
    s.writesFree = true ∧ k.dest o.tag.toNat = .ok (d, k') ∧ k'.ops = s.mine.ops
/-- A command meets its conditions with what it captures and where its tag's answer goes. -/
theorem commandMet {i : Instr} {o : EN} {s : State} {code q} {w1 w2 w3 : W64} {recA recB} {k : Core} {d : Dest} {k' : Core}
    (names : engineCmd i = some (code, q, o)) (runs : Runs i s) (takes : Captures i s w1 w2 w3 recA recB k) (free : s.writesFree = true)
    (tag : k.dest o.tag.toNat = .ok (d, k')) (keeps : k'.ops = s.mine.ops) : meetsEngine i o s :=
  ⟨code, q, w1, w2, w3, recA, recB, k, k', d, names, runs, takes, free, tag, keeps⟩
/-- An engine command's body. -/
def en (o1 o2 o3 : BitVec 7) (em : BitVec 17) : EN := ⟨g0, 3, o1, o2, o3, em⟩
theorem hyps_EngineCommandsAppend_1 :
    meetsEngine (.mma (en 4 8 5 0x2020)) (en 4 8 5 0x2020) s0 :=
  commandMet rfl (runsBy rfl rfl rfl) ⟨rfl, _, rfl, rfl, rfl, rfl⟩ rfl rfl rfl
theorem hyps_EngineCommandsAppend_2 :
    meetsEngine (.mlat (en 8 4 0 0x2010)) (en 8 4 0 0x2010) s0 :=
  commandMet rfl (runsBy rfl rfl rfl) ⟨rfl, rfl, rfl, rfl, rfl⟩ rfl rfl rfl
theorem hyps_EngineCommandsAppend_3 :
    meetsEngine (.mcfg (en 4 0 0 0)) (en 4 0 0 0) s0 :=
  commandMet rfl (runsBy rfl rfl rfl) ⟨rfl, rfl, rfl, rfl, rfl⟩ rfl rfl rfl
theorem hyps_EngineCommandsAppend_4 :
    meetsEngine (.cpy (en 8 16 0 0)) (en 8 16 0 0) s0 :=
  commandMet rfl (runsBy rfl rfl rfl) ⟨rfl, rfl, rfl, rfl, rfl, rfl⟩ rfl rfl rfl
theorem hyps_EngineCommandsAppend_5 :
    meetsEngine (.cpyt (en 8 16 4 0x10)) (en 8 16 4 0x10) s0 :=
  commandMet rfl (runsBy rfl rfl rfl) ⟨rfl, rfl, rfl, rfl, rfl⟩ rfl rfl rfl
theorem hyps_EngineCommandsAppend_6 :
    meetsEngine (.cpyn (en 8 16 4 0)) (en 8 16 4 0) s0 :=
  commandMet rfl (runsBy rfl rfl rfl) ⟨rfl, rfl, rfl, rfl, rfl⟩ rfl rfl rfl
theorem hyps_EngineCommandsAppend_7 :
    meetsEngine (.cpym (en 8 16 4 0)) (en 8 16 4 0) s0 :=
  commandMet rfl (runsBy rfl rfl rfl) ⟨rfl, rfl, rfl, rfl, rfl⟩ rfl rfl rfl
theorem hyps_EngineCommandsAppend_8 :
    meetsEngine (.sfn (en 4 5 6 0x10000)) (en 4 5 6 0x10000) s0 :=
  commandMet rfl (runsBy rfl rfl rfl) ⟨rfl, rfl, _, ⟨_, rfl, rfl⟩, rfl⟩ rfl rfl rfl
theorem hyps_EngineCommandsAppend_9 :
    meetsEngine (.gath (en 8 4 5 0)) (en 8 4 5 0) s0 :=
  commandMet rfl (runsBy rfl rfl rfl) ⟨rfl, rfl, rfl, _, rfl, rfl⟩ rfl rfl rfl
theorem hyps_EngineCommandsAppend_10 :
    meetsEngine (.scat (en 8 4 5 0)) (en 8 4 5 0) s0 :=
  commandMet rfl (runsBy rfl rfl rfl) ⟨rfl, rfl, rfl, _, rfl, rfl⟩ rfl rfl rfl
theorem hyps_EngineCommandsAppend_11 :
    s0.recorded? = none ∧ (Sparse.get [] s0.mine.ops 0).length < 8 :=
  ⟨rfl, by decide⟩
theorem hyps_EngineCommandsAppend_12 :
    meetsEngine (.mcfg (en 4 0 0 0)) (en 4 0 0 0) (withOps 0 (List.replicate 8 opT)) ∧ (withOps 0 (List.replicate 8 opT)).recorded? = none ∧
      8 ≤ (Sparse.get [] (withOps 0 (List.replicate 8 opT)).mine.ops 0).length :=
  ⟨commandMet rfl (runsBy rfl rfl rfl) ⟨rfl, rfl, rfl, rfl, rfl⟩ rfl rfl rfl, rfl, by decide⟩
theorem hyps_EngineCommandsAppend_13 :
    meetsEngine (.mcfg (en 4 0 0 0)) (en 4 0 0 0) replayS ∧ replayS.recorded? = some ⟨0, 0, some 5, false, [], none⟩ :=
  ⟨commandMet rfl (runsBy rfl rfl rfl) ⟨rfl, rfl, rfl, rfl, rfl⟩ rfl rfl rfl, rfl⟩

/-! ### Witnesses: strands, messages, surrogate regions, streams -/

/-- A record of a strand. -/
def recordT : Record := ⟨0, 0x100008, [1, 2, 3, 4, 5, 6, 7], 1⟩
/-- A core with records in its deque. -/
def withDeque (l : List Record) : State := stateOf { coreT with deque := l } launchT
/-- A core whose MB holds a steal request of core 1. -/
def begged : State := withArch (archT.setQ .mb [⟨0, some 0, some 1, false⟩])
/-- A part in which an instruction that redirects has claimed the bundle. -/
def claimedS : State := withPart fun p => { p with claimed := true }

theorem hyps_SpawnAndStrandEnds_1 :
    ∃ x a b, CoresWf s0 ∧ Runs (.spawn (a3 4 8 32 0 0x80)) s0 ∧ Reads1 s0 8 x a ∧ x.toNat % 2 = 0 ∧ x.toNat < 2 ^ 52 ∧
      s0.recorded? = none ∧ s0.launchOf s0.part.core = some launchT ∧ launchT.replay = false ∧ launchT.record = false ∧
      s0.part.dstS 4 (BitVec.ofNat 64 (s0.mine.ordinal * 2 ^ 32 + s0.mine.spawned)) 1 0 a = .ok b ∧
      (a.q .mb).filterMap (·.thief) = [] ∧ fld (0x80 : BitVec 17) 8 1 = 0 ∧
      s0.mine.deque.length < 4096 :=
  ⟨_, _, _, rfl, runsBy rfl rfl rfl, rfl, by decide, by decide, rfl, rfl, rfl, rfl, rfl, rfl, rfl, by decide⟩
theorem hyps_SpawnAndStrandEnds_2 :
    ∃ x a, CoresWf s0 ∧ Runs (.spawn (a3 4 6 32 0 0)) s0 ∧ Reads1 s0 6 x a ∧ (x.toNat % 2 = 1 ∨ 2 ^ 52 ≤ x.toNat) :=
  ⟨_, _, rfl, runsBy rfl rfl rfl, rfl, by decide⟩
theorem hyps_SpawnAndStrandEnds_3 :
    ∃ x a b, CoresWf begged ∧ Runs (.spawn (a3 4 8 32 0 0)) begged ∧ Reads1 begged 8 x a ∧ begged.recorded? = none ∧
      begged.part.dstS 4 (BitVec.ofNat 64 (begged.mine.ordinal * 2 ^ 32 + begged.mine.spawned)) 1 0 a = .ok b ∧
      (a.q .mb).filterMap (·.thief) = 1 :: [] ∧ 1 ≠ begged.part.core :=
  ⟨_, _, _, rfl, runsBy rfl rfl rfl, rfl, rfl, rfl, rfl, by decide⟩
theorem hyps_SpawnAndStrandEnds_4 :
    Runs (.bend (a3 0 0 0 0 0)) claimedS ∧ claimedS.part.before.arch.inflX = [] ∧ claimedS.part.claimed = true :=
  ⟨runsBy rfl rfl rfl, rfl, rfl⟩
theorem hyps_SpawnAndStrandEnds_5 :
    ∃ x a, CoresWf (withDeque [recordT]) ∧ Runs (.susp (a3 0 8 32 0 0x100)) (withDeque [recordT]) ∧ Alone (withDeque [recordT]) ∧
      Reads1 (withDeque [recordT]) 8 x a ∧ (withDeque [recordT]).recorded? = none ∧ fld (0x100 : BitVec 17) 8 1 = 1 ∧
      (withDeque [recordT]).mine.deque = [] ++ [recordT] :=
  ⟨_, _, rfl, runsBy rfl rfl rfl, ⟨rfl, rfl, rfl, rfl⟩, rfl, rfl, rfl, rfl⟩
theorem hyps_SpawnAndStrandEnds_6 :
    ∃ x a r, Runs (.susp (a3 0 8 32 0 0x40)) s0 ∧ Reads1 s0 8 x a ∧ fld (0x40 : BitVec 17) 8 1 = 0 ∧ x.toNat % 2 = 0 ∧ x.toNat < 2 ^ 52 ∧
      (⟨BitVec.ofNat 8 ((0x40 : BitVec 17).toNat % 2 ^ 8), x, argWords s0 32, 0⟩ : Record) :: s0.mine.deque = [] ++ [r] :=
  ⟨_, _, _, runsBy rfl rfl rfl, rfl, rfl, by decide, by decide, rfl⟩
theorem hyps_SpawnAndStrandEnds_7 :
    ∃ x a, CoresWf s0 ∧ Runs (.susp (a3 0 0 32 0 0x100)) s0 ∧ Alone s0 ∧ Reads1 s0 0 x a ∧ s0.recorded? = none ∧
      fld (0x100 : BitVec 17) 8 1 = 1 ∧ s0.mine.deque = [] :=
  ⟨_, _, rfl, runsBy rfl rfl rfl, ⟨rfl, rfl, rfl, rfl⟩, rfl, rfl, rfl, rfl⟩
theorem hyps_SpawnAndStrandEnds_8 :
    CoresWf (withDeque [recordT]) ∧ Runs (.bend (a3 0 0 0 0 1)) (withDeque [recordT]) ∧ Alone (withDeque [recordT]) ∧
      (withDeque [recordT]).recorded? = none ∧ (withDeque [recordT]).mine.deque = [] ++ [recordT] :=
  ⟨rfl, runsBy rfl rfl rfl, ⟨rfl, rfl, rfl, rfl⟩, rfl, rfl⟩
theorem hyps_SpawnAndStrandEnds_9 :
    CoresWf s0 ∧ Runs (.bend (a3 0 0 0 0 1)) s0 ∧ Alone s0 ∧ s0.recorded? = none ∧ s0.mine.deque = [] ∧
      (∀ t ∈ s0.transits, t.target = s0.part.core → s0.inWindow s0.part.core t = false) ∧ s0.mine.region = none ∧ s0.mine.thieves = [] :=
  ⟨rfl, runsBy rfl rfl rfl, ⟨rfl, rfl, rfl, rfl⟩, rfl, rfl, by simp [s0, stateOf, State.reset], rfl, rfl⟩
/-- An access of the scratchpad that waits for its access point. -/
def accT : Acc := ⟨.fetst 0 (.p 8), 3, 0, 0, false, false⟩
/-- A core with an access of an earlier bundle that has not been performed. -/
def busyS : State :=
  let k : Core := { coreT with arch := { archT with accs := [accT], accSeq := 1 } }
  stateOf { k with seg := { k.seg with checkpoint := { archT with accSeq := 1 } } } launchT
/-- A core whose outgoing buffer is full. -/
def fullS : State := stateOf { coreT with msgs := List.replicate 8 ⟨1, false, false, 0⟩ } launchT
/-- A core whose scalar `s7` names an operation of queue 0. -/
def taggedS : State :=
  stateOf { coreT with arch := { archT with s := [(7, 0x10000000001)] }, ops := [(0, [opT])], opCount := [(0, 1)] } launchT
/-- A core that holds the same tag, with `n` operations appended to queue 0, the first of them performed. -/
def statusS (n : Nat) : State :=
  stateOf { coreT with arch := { archT with s := [(7, 0x10000000001)] }, opCount := if n = 0 then [] else [(0, n)], status := [⟨0, 1, 3, 9⟩] } launchT
theorem hyps_MessagesEventsStatus_1 :
    ∃ x a, CoresWf s0 ∧ Runs (.steal (a3 0 5 0 0 0)) s0 ∧ Alone s0 ∧ Reads1 s0 5 x a ∧ s0.recorded? = none ∧
      s0.launchOf s0.part.core = some launchT ∧ launchT.replay = false ∧ (s0.windowOf s0.part.core)[x.toNat]? = none :=
  ⟨_, _, rfl, runsBy rfl rfl rfl, ⟨rfl, rfl, rfl, rfl⟩, rfl, rfl, rfl, rfl, rfl⟩
theorem hyps_MessagesEventsStatus_2 :
    ∃ x a, Runs (.steal (a3 0 5 0 0 0)) (withS [(5, 1)]) ∧ Alone (withS [(5, 1)]) ∧ Reads1 (withS [(5, 1)]) 5 x a ∧
      (withS [(5, 1)]).recorded? = none ∧ ((withS [(5, 1)]).windowOf 0)[x.toNat]? = some 1 ∧ 1 ≠ (withS [(5, 1)]).part.core ∧
      (withS [(5, 1)]).endedWindow 0 1 = false ∧ (withS [(5, 1)]).mine.msgs.length < 8 :=
  ⟨_, _, runsBy rfl rfl rfl, ⟨rfl, rfl, rfl, rfl⟩, rfl, rfl, rfl, by decide, rfl, by decide⟩
theorem hyps_MessagesEventsStatus_3 :
    ∃ x a, CoresWf s0 ∧ Runs (.launchMsg (a3 0 8 0 0 0)) s0 ∧ Reads1 s0 8 x a ∧ s0.recorded? = none ∧
      s0.launchOf s0.part.core = some launchT :=
  ⟨_, _, rfl, runsBy rfl rfl rfl, rfl, rfl, rfl⟩
theorem hyps_MessagesEventsStatus_4 :
    ∃ x v a, CoresWf (withS [(5, 1)]) ∧ Runs (.qsend (a3 0 5 6 0 1)) (withS [(5, 1)]) ∧ Reads2 (withS [(5, 1)]) 5 6 x v a ∧
      (withS [(5, 1)]).recorded? = none ∧ (withS [(5, 1)]).part.quiet = true ∧ launchT.cores[x.toNat]? = some 1 ∧
      (withS [(5, 1)]).mine.msgs.length < 8 :=
  ⟨_, _, _, rfl, runsBy rfl rfl rfl, ⟨_, rfl, rfl⟩, rfl, rfl, rfl, by decide⟩
theorem hyps_MessagesEventsStatus_5 :
    ∃ x v a, CoresWf fullS ∧ Runs (.qsend (a3 0 0 6 0 0)) fullS ∧ Reads2 fullS 0 6 x v a ∧ fullS.recorded? = none ∧
      fullS.part.quiet = true ∧ launchT.cores[x.toNat]? = some 0 ∧ 8 ≤ fullS.mine.msgs.length :=
  ⟨_, _, _, rfl, runsBy rfl rfl rfl, ⟨_, rfl, rfl⟩, rfl, rfl, rfl, by decide⟩
theorem hyps_MessagesEventsStatus_6 :
    ∃ x v a, Runs (.qsend (a3 0 5 6 0 0)) s0 ∧ Reads2 s0 5 6 x v a ∧ s0.part.quiet = true ∧ launchT.cores[x.toNat]? = none ∧
      s0.mine.launch = some launchT.id :=
  ⟨_, _, _, runsBy rfl rfl rfl, ⟨_, rfl, rfl⟩, rfl, rfl, rfl⟩
theorem hyps_MessagesEventsStatus_7 :
    ∃ x v a, Runs (.evpost (a3 0 5 6 0 0)) busyS ∧ Reads2 busyS 5 6 x v a ∧ busyS.recorded? = none ∧ busyS.part.quiet = false :=
  ⟨_, _, _, runsBy rfl rfl rfl, ⟨_, rfl, rfl⟩, rfl, rfl⟩
theorem hyps_MessagesEventsStatus_8 :
    ∃ x v a, CoresWf (withS [(5, 1)]) ∧ Runs (.evpost (a3 0 5 6 0 0xFFFF)) (withS [(5, 1)]) ∧ Reads2 (withS [(5, 1)]) 5 6 x v a ∧
      (withS [(5, 1)]).part.quiet = true ∧ fld (0xFFFF : BitVec 17) 16 1 = 0 ∧ launchT.cores[x.toNat]? = some 1 ∧
      ((withS [(5, 1)]).core 1).launch = some 0 :=
  ⟨_, _, _, rfl, runsBy rfl rfl rfl, ⟨_, rfl, rfl⟩, rfl, rfl, rfl, rfl⟩
theorem hyps_MessagesEventsStatus_9 :
    -- to the core itself, and to an ordinal that the launch does not have
    (∃ x v a, Runs (.evpost (a3 0 0 6 0 0)) s0 ∧ Reads2 s0 0 6 x v a ∧ s0.part.quiet = true ∧ launchT.cores[x.toNat]? = some s0.part.core) :=
  ⟨_, _, _, runsBy rfl rfl rfl, ⟨_, rfl, rfl⟩, rfl, rfl⟩
theorem hyps_MessagesEventsStatus_10 :
    ∃ x v a, Runs (.evpost (a3 0 5 6 0 0)) s0 ∧ Reads2 s0 5 6 x v a ∧ s0.part.quiet = true ∧ launchT.cores[x.toNat]? = none ∧
      s0.mine.launch = some launchT.id :=
  ⟨_, _, _, runsBy rfl rfl rfl, ⟨_, rfl, rfl⟩, rfl, rfl, rfl⟩
theorem hyps_MessagesEventsStatus_11 :
    ∃ x v a, Runs (.evpost (a3 0 0 6 0 0x10000)) s0 ∧ Reads2 s0 0 6 x v a ∧ s0.part.quiet = true ∧
      fld (0x10000 : BitVec 17) 16 1 = 1 ∧ s0.context? launchT.asid = some contextT :=
  ⟨_, _, _, runsBy rfl rfl rfl, ⟨_, rfl, rfl⟩, rfl, rfl, rfl⟩
theorem hyps_MessagesEventsStatus_12 :
    ∃ x a b, CoresWf s0 ∧ Runs (.bstat (a3 4 5 0 0 0)) s0 ∧ Reads1 s0 5 x a ∧ x.getLsbD 40 = false ∧
      s0.part.dstS 4 0 2 0 a = .ok b :=
  ⟨_, _, _, rfl, runsBy rfl rfl rfl, rfl, rfl, rfl⟩
theorem hyps_MessagesEventsStatus_13 :
    ∃ x a b, CoresWf taggedS ∧ Runs (.bstat (a3 4 7 0 0 0)) taggedS ∧ Reads1 taggedS 7 x a ∧ x.getLsbD 40 = true ∧
      ¬ (x.toNat % 2 ^ 32 = 0 ∨ Sparse.get 0 taggedS.mine.opCount 0 < x.toNat % 2 ^ 32) ∧
      x.toNat / 2 ^ 37 % 8 = 0 ∧ (Sparse.get [] taggedS.mine.ops 0).find? (fun y => y.seq == opT.seq) = some opT ∧
      opT.seq = x.toNat % 2 ^ 32 ∧ 1 ≤ opT.seq ∧ opT.seq ≤ Sparse.get 0 taggedS.mine.opCount 0 ∧
      Sparse.get 0 taggedS.mine.opCount 0 < 2 ^ 32 ∧ taggedS.part.dstS 4 (opT.status false) 2 0 a = .ok b :=
  ⟨_, _, _, rfl, runsBy rfl rfl rfl, rfl, rfl, by decide, rfl, rfl, rfl, by decide, by decide, by decide, rfl⟩
theorem hyps_MessagesEventsStatus_14 :
    -- a tag of an operation to come, of one performed whose status is kept, and of the first of 257
    (∃ x a, Runs (.bstat (a3 4 7 0 0 0)) (statusS 0) ∧ Reads1 (statusS 0) 7 x a ∧ x.getLsbD 40 = true ∧ x.toNat / 2 ^ 37 % 8 ≠ 7 ∧
      Sparse.get 0 (statusS 0).mine.opCount (x.toNat / 2 ^ 37 % 8) < x.toNat % 2 ^ 32) :=
  ⟨_, _, runsBy rfl rfl rfl, rfl, rfl, by decide, by decide⟩
theorem hyps_MessagesEventsStatus_15 :
    ∃ x a b y, Runs (.bstat (a3 4 7 0 0 1)) (statusS 1) ∧ Reads1 (statusS 1) 7 x a ∧ x.toNat / 2 ^ 37 % 8 = 0 ∧ x.toNat % 2 ^ 32 = 1 ∧
      1 ≤ Sparse.get 0 (statusS 1).mine.opCount 0 ∧ (∀ p ∈ Sparse.get [] (statusS 1).mine.ops 0, p.seq ≠ 1) ∧
      Sparse.get 0 (statusS 1).mine.opCount 0 < 1 + 256 ∧ ((statusS 1).mine.status.find? fun z => z.queue == 0 && z.seq == 1) = some y ∧
      (statusS 1).part.dstS 4 (y.word.setWidth 64) 2 0 a = .ok b :=
  ⟨_, _, _, _, runsBy rfl rfl rfl, rfl, rfl, rfl, by decide, every _ rfl, by decide, rfl, rfl⟩
theorem hyps_MessagesEventsStatus_16 :
    ∃ x a b, Runs (.bstat (a3 4 7 0 0 0)) (statusS 257) ∧ Reads1 (statusS 257) 7 x a ∧ x.toNat % 2 ^ 32 = 1 ∧
      (∀ p ∈ Sparse.get [] (statusS 257).mine.ops 0, p.seq ≠ 1) ∧ 1 + 256 ≤ Sparse.get 0 (statusS 257).mine.opCount 0 ∧
      (statusS 257).part.dstS 4 (2 ^ 24) 2 0 a = .ok b :=
  ⟨_, _, _, runsBy rfl rfl rfl, rfl, rfl, every _ rfl, by decide, rfl⟩
/-- The state with its module's region changed. -/
def withRegion (s : State) (x : Region) : State := { s with modules := [{ moduleT with regions := [x] }] }
/-- A FITTED region that samples one invocation in 2^31. -/
def fittedT : Region := { regionT with block := [(1, 2), (8, 31)] }
/-- A core in region 0. -/
def openT : OpenRegion := ⟨0, 0, 0, 0, [5], none⟩
/-- A state whose core has region 0 open. -/
def openS : State := stateOf { coreT with region := some openT } launchT
theorem hyps_SurrogateSlots :
    (CoresWf s0 ∧ Runs (.sgbeg (a3 0 0 0 0 0)) s0 ∧ Alone s0 ∧ s0.recorded? = none ∧
      s0.regionFor s0.part.core 0 = some (launchT, regionT) ∧ s0.mine.region = none ∧ s0.holds launchT = true ∧ regionT.state ≠ 2) ∧
    (let s := withRegion (withOps 6 [opT]) fittedT;
      CoresWf s ∧ Runs (.sgbeg (a3 0 0 0 0 0)) s ∧ s.regionFor s.part.core 0 = some (launchT, fittedT) ∧ s.holds launchT = true ∧
      fittedT.state = 2 ∧ Sparse.get [] s.mine.ops 6 ≠ []) ∧
    (let s := withRegion (stateOf { coreT with sgCount := [(0, 1)] } launchT) fittedT;
      Runs (.sgbeg (a3 0 0 0 0 0)) s ∧ s.regionFor s.part.core 0 = some (launchT, fittedT) ∧ Sparse.get [] s.mine.ops 6 = [] ∧
      fittedT.state = 2 ∧ fittedT.sampled launchT.seed (BitVec.ofNat 64 (s.mine.ordinal * 2 ^ 32 + Sparse.get 0 s.mine.sgCount 0)) = false) ∧
    (CoresWf openS ∧ Runs (.sgend (a3 0 0 0 0 0)) openS ∧ openS.recorded? = none ∧ openS.part.before.arch.inflX = [] ∧
      openS.regionFor openS.part.core 0 = some (launchT, regionT) ∧ openS.mine.region = some openT ∧ openT.region = 0 ∧
      launchT.replay = false ∧ openT.state ≤ 1 ∧ regionT.state ≠ 4) ∧
    (CoresWf s0 ∧ Runs (.sginv (a3 0 0 0 0 0)) s0 ∧ s0.recorded? = none ∧ s0.regionFor s0.part.core 0 = some (launchT, regionT) ∧
      s0.mine.launch = some 0 ∧ regionT.state ≠ 4) ∧
    (∃ v a, CoresWf s0 ∧ Runs (.sgcfg (a3 65 5 0 0 0xC0)) s0 ∧ s0.recorded? = none ∧ Reads1 s0 5 v a ∧
      s0.regionFor s0.part.core 0 = some (launchT, regionT) ∧ s0.holds launchT = true ∧ cfgOk 3 0 regionT.nout v = true) ∧
    (∃ v a, Runs (.sgcfg (a3 65 5 0 0 0xC0)) (withS [(5, 17)]) ∧ Reads1 (withS [(5, 17)]) 5 v a ∧ cfgOk 3 0 regionT.nout v = false) :=
  ⟨⟨rfl, runsBy rfl rfl rfl, ⟨rfl, rfl, rfl, rfl⟩, rfl, rfl, rfl, rfl, by decide⟩,
    ⟨rfl, runsBy rfl rfl rfl, rfl, rfl, rfl, by decide⟩, ⟨runsBy rfl rfl rfl, rfl, rfl, rfl, by decide +kernel⟩,
    ⟨rfl, runsBy rfl rfl rfl, rfl, rfl, rfl, rfl, rfl, rfl, by decide, by decide⟩,
    ⟨rfl, runsBy rfl rfl rfl, rfl, rfl, rfl, by decide⟩, ⟨_, _, rfl, runsBy rfl rfl rfl, rfl, rfl, rfl, rfl, rfl⟩,
    ⟨_, _, runsBy rfl rfl rfl, rfl, by decide⟩⟩

/-! ### Witnesses: streams, landing, segments -/

/-- A dictionary entry of one slot 0, `add s4, s5, s6`. -/
def dictT : BitVec 384 := BitVec.ofNat 384 (0x0002010286000000 + 0x80000000000000 * (2 ^ 60 + 2 ^ 120 + 2 ^ 180 + 2 ^ 240 + 2 ^ 300))
/-- A core that stands at 0x100000, where the code reads 0, which names the entry 0 of the dictionary. -/
def codeS : State :=
  { stateOf { coreT with arch := { archT with pc := 0x100000 } } launchT with
    modules := [{ moduleT with kernels := [{ kernelT with dict := [dictT] }] }] }
/-- The bundle of that entry. -/
def bundleT : Bundle := dictBundle dictT 0x100000
/-- A core whose access stream is one bundle ahead. -/
def aheadS : State := withArch { archT with ahead := [⟨bundleT, 0x100000, 0x100002, none, 1, 0⟩], issued := 1 }
/-- The state after its fetch. -/
def fetchedS : State := (codeS.fetch 0 1 (codeS.dictOf 0) 0x100000).2
theorem fetches : codeS.fetch 0 launchT.asid (codeS.dictOf 0) (codeS.core 0).arch.pc = (.bundle bundleT 0x100002, fetchedS) :=
  Prod.ext (by decide +kernel) rfl
/-- The predicates that its access part reads. -/
def codePreds : BitVec 16 := (codeS.core 0).arch.turned.predsBehind (codeS.core 0).arch.ahead (codeS.core 0).arch.loop
theorem hyps_StreamsIssue_free :
    CoresWf codeS ∧ codeS.launchOf 0 = some launchT ∧ codeS.canIssue 0 = true ∧ (codeS.core 0).wait = .none ∧
      (codeS.core 0).mustClose = false ∧ (codeS.core 0).rewindFlag = false ∧ codeS.haltAsked 0 = false ∧ (codeS.core 0).arch.trap = none ∧
      (codeS.core 0).conflicts = [] := ⟨rfl, rfl, rfl, rfl, rfl, rfl, rfl, rfl, rfl⟩
theorem hyps_StreamsIssue_settled :
    (codeS.core 0).arch.waitA = 0 ∧ (codeS.core 0).arch.settled .access = true ∧ (codeS.core 0).arch.ahead.length < 64 ∧
      (codeS.core 0).arch.blocked = false ∧ (codeS.core 0).holdsAccess = false ∧ (codeS.core 0).arch.skip = 0 ∧ (codeS.core 0).arch.till = none ∧
      (codeS.core 0).arch.pc.getLsbD 0 = false := ⟨rfl, rfl, by decide, rfl, rfl, rfl, rfl, rfl⟩
theorem hyps_StreamsIssue_1 :
    ∃ v, codeS.fetch 0 launchT.asid (codeS.dictOf 0) (codeS.core 0).arch.pc = (.bundle bundleT 0x100002, fetchedS) ∧
      fetchedS.cores = codeS.cores ∧ bundleT.needsBoth (codeS.core 0).arch.turned (fetchedS.regionCount 0) = false ∧
      (codeS.core 0).benchTurn .access bundleT codePreds = false ∧
      (fetchedS.setupAccess 0 bundleT 0x100002 codePreds).tryPart bundleT .access = .ok v ∧
      (codeS.core 0).overfills (v.core 0) = false := by
  obtain ⟨v, h, hp⟩ := delivered
    ((fetchedS.setupAccess 0 bundleT 0x100002 codePreds).tryPart bundleT .access)
    (fun v => !(codeS.core 0).overfills (v.core 0)) (by decide +kernel)
  exact ⟨v, fetches, by decide +kernel, by decide +kernel, by decide +kernel, h, by simpa using hp⟩
theorem hyps_StreamsIssue_2 :
    ∃ v, CoresWf aheadS ∧ (aheadS.core 0).arch.ahead = [⟨bundleT, 0x100000, 0x100002, none, 1, 0⟩] ∧ aheadS.canIssue 0 = true ∧
      (aheadS.core 0).wait = .none ∧ (aheadS.core 0).mustClose = false ∧ (aheadS.core 0).rewindFlag = false ∧ (aheadS.core 0).arch.waitX = 0 ∧
      (aheadS.core 0).arch.settled .execute = true ∧
      ((aheadS.core 0).arch.turned.p &&& ~~~0x0F00) ||| ((1 : BitVec 16) &&& 0x0F00) = 1 ∧
      (aheadS.core 0).benchTurn .execute bundleT 1 = false ∧ (aheadS.core 0).arch.drain? (bundleT.lives 1 [0, 1, 2, 3]) = none ∧
      (aheadS.setupExecute 0 ⟨bundleT, 0x100000, 0x100002, none, 1, 0⟩ []).tryPart bundleT .execute = .ok v := by
  obtain ⟨v, h, -⟩ := delivered
    ((aheadS.setupExecute 0 ⟨bundleT, 0x100000, 0x100002, none, 1, 0⟩ []).tryPart bundleT .execute) (fun _ => true) (by decide +kernel)
  exact ⟨v, rfl, rfl, rfl, rfl, rfl, rfl, rfl, rfl, rfl, by decide +kernel, by decide +kernel, h⟩
/-- A core with a result that is due on both sides, in a WAIT, and benched operations. -/
def landS : State :=
  stateOf { coreT with
    arch := { archT with inflX := [⟨.s 4 9, 1, 2, false⟩, ⟨.s 6 1, 0x10, 0, false⟩], inflA := [⟨.a 7 5, 0, 0, false⟩] }
    benchIdleX := 7, benchIdleA := 7
    ops := [(0, [{ opT with state := .bench, claimed := true }]), (2, [{ opT with code := .cpy, queue := 2, state := .bench }])] } launchT
/-- A dictionary entry of one slot 4, `aadd a8, a28, a4`, which pops XA. -/
def popDictT : BitVec 384 :=
  BitVec.ofNat 384 (0x80000000000000 * (1 + 2 ^ 60 + 2 ^ 120 + 2 ^ 180 + 2 ^ 300) + 0x002020E04000000 * 2 ^ 240)
/-- A core whose access stream waits for an entry of XA that an execute slot will fill, with no bundle left for the execute stream. -/
def hungS : State :=
  { stateOf { coreT with
      arch := { archT.setQ .xa [⟨0, none, none, false⟩] with pc := 0x100000, inflX := [⟨.q .xa 0 0x80, 0, 1, false⟩] } } launchT with
    modules := [{ moduleT with kernels := [{ kernelT with dict := [popDictT] }] }] }
/-- A core in the middle of a WAIT. -/
def waitS : State := withArch { archT with waitX := 3, waitA := 1 }
theorem hyps_ResultsLand :
    (waitS.canIssue 0 = true ∧ (waitS.core 0).arch.wait .execute ≠ 0 ∧ (waitS.core 0).arch.settled .execute = true ∧
      (waitS.core 0).arch.wait .access ≠ 0 ∧ (waitS.core 0).arch.settled .access = true ∧ (waitS.core 0).holdsAccess = false) ∧
    (landS.lively 0 = true ∧ ArchWf (landS.core 0).arch ∧
      (landS.core 0).arch.infl .execute = [⟨.s 4 9, 1, 2, false⟩] ++ ⟨.s 6 1, 0x10, 0, false⟩ :: [] ∧
      (∀ y ∈ [(⟨.s 4 9, 1, 2, false⟩ : InFlight)], y.left ≠ 0)) ∧
    s0.queueStall 0 = false ∧
    (hungS.lively 0 = true ∧ ArchWf (hungS.core 0).arch ∧ hungS.queueStall 0 = true ∧
      (∀ y ∈ (hungS.core 0).arch.infl .execute, y.left ≠ 0) ∧ (hungS.core 0).arch.infl .execute = [] ++ ⟨.q .xa 0 0x80, 0, 1, false⟩ :: [] ∧
      (⟨.q .xa 0 0x80, 0, 1, false⟩ : InFlight).what.entry?.isSome = true) ∧
    ((landS.core 0).benched .execute = true ∧ 7 ≤ (landS.core 0).benchIdleX) ∧
    ((landS.core 0).benched .access = true ∧ 7 ≤ (landS.core 0).benchIdleA) ∧
    ((s0.core 0).benched .execute = false) ∧ (∀ e ∈ (s0.core 0).arch.infl .execute, e.left ≠ 0) ∧
    (0 ∈ (landS.core 0).benchQueues .execute ∧ Sparse.get [] (landS.core 0).ops 0 = { opT with state := .bench, claimed := true } :: [] ∧
      ∀ r ∈ (landS.core 0).benchQueues .execute, r ≤ (landS.core 0).benchLast .execute ∧ 0 ≤ r) :=
  ⟨⟨rfl, by decide, rfl, by decide, rfl, rfl⟩, ⟨rfl, by unfold ArchWf; decide +kernel, rfl, by decide +kernel⟩,
    by decide +kernel, ⟨rfl, by unfold ArchWf; decide +kernel, by decide +kernel, every _ (by decide +kernel), rfl, rfl⟩,
    ⟨by decide +kernel, by decide⟩, ⟨by decide +kernel, by decide⟩, rfl, every _ rfl, ⟨by decide +kernel, rfl, by decide +kernel⟩⟩

/-! ### Witnesses: accesses at their point, traps, segments, off-core requests -/

/-- A core with one access at its access point and another full bit or two. -/
def accessing (k : AccKind) (full : Sparse Bool) : State :=
  stateOf { coreT with arch := { archT with accs := [⟨k, 0, 0, 0, false, false⟩], accSeq := 1 }, full := full, scratch := [(0x80, 7)] } launchT
/-- An access is alone at its access point, on a core without operations or waiting accesses. -/
theorem atPoint {s : State} {x : Acc} (hw : CoresWf s) (hl : s.lively 0 = true) (hg : (s.core 0).arch.accGroup = [x]) (h0 : x.left = 0)
    (hd : (s.core 0).arch.due .execute = false) (hr : (s.core 0).retained (groupLines [x]) = false)
    (hf : ∀ l ∈ x.kind.readLines, (s.core 0).isFull l = true) (ho : (s.core 0).ops = []) (hn : (s.core 0).waiters = [])
    (hc : (s.core 0).caught = []) : AtAccessPoint s 0 x :=
  ⟨hw, hl, hg, h0, hd, hr, hf, by simp [hn], hc, fun q o h => by simp [Core.headOp, Core.opsOf, ho, Sparse.get] at h⟩
/-- Its access. -/
def theAcc (k : AccKind) : Acc := ⟨k, 0, 0, 0, false, false⟩
/-- The same with an uncorrectable word under it. -/
def spoiledS (x : Acc) : State :=
  stateOf { coreT with arch := { archT with accs := [x], accSeq := 1 }, marks := [(16, true)] } launchT
theorem hyps_ScratchpadAccessesPerform :
    (let x := theAcc (.ld 0x80 0 false true (.a 8)); let s := accessing x.kind [(1, false)];
      s.lively 0 = true ∧ (s.core 0).arch.accGroup = [x] ∧ x.left = 0 ∧ (s.core 0).arch.due .execute = false ∧
      (s.core 0).retained (groupLines [x]) = false ∧ 1 ∈ x.kind.readLines ∧
      (s.core 0).isFull 1 = false ∧ (s.core 0).caught = []) ∧
    (let s := withArch { archT with accs := [accT] };
      (s.core 0).arch.accGroup = [accT] ∧ accT.left ≠ 0 ∧ s.stallAwaits 0 [accT] = false) ∧
    (let x := theAcc (.ld 0x80 3 true true (.a 8)); let s := spoiledS x;
      AtAccessPoint s 0 x ∧ (s.core 0).spoiled 0x80 8 = true) ∧
    (let x := theAcc (.ld 0x80 3 true true (.a 8)); let s := accessing x.kind [];
      SpmWf (s.core 0) ∧ AtAccessPoint s 0 x ∧ x.kind = .ld 0x80 3 true x.kind.consumes (.a 8) ∧ (s.core 0).spoiled 0x80 8 = false) ∧
    (let x := theAcc (.fetst 1 (.p 8)); let s := accessing x.kind [(1, false)];
      SpmWf (s.core 0) ∧ AtAccessPoint s 0 x ∧ x.kind = .fetst 1 (.p 8)) ∧
    (let x := theAcc (.vld 6 ((List.range 256).map fun j => 4 * j) ((List.range 256).map fun _ => 0) true (.vq .vlq0 0));
      let s := accessing x.kind [];
      SpmWf (s.core 0) ∧ AtAccessPoint s 0 x ∧ (256 : Nat) = 8192 / etWidth 6 ∧ etWidth 6 ≠ 0 ∧ (s.core 0).marks = []) ∧
    (let x := theAcc (.st 0x1FFFF8 3 9 true); let s := accessing x.kind [(16383, false)]; SpmWf (s.core 0) ∧ AtAccessPoint s 0 x) ∧
    -- the step just before has written the same byte, or it has not
    (let s := { accessing (.st 0x80 0 9 true) [] with landed := [(0, 0x80, 5)], landedAt := 4, choice := 5 };
      metJustBefore s 0 0x80 ∧ (0, 0x80, 5) ∈ s.landed) ∧ ¬ metJustBefore s0 0 0x80 ∧
    (let x := theAcc (.vst 6 [0x80, 0x84] [0, 0] 9 true); let s := accessing x.kind [(1, false)];
      SpmWf (s.core 0) ∧ AtAccessPoint s 0 x ∧ [0x80, 0x84].length = [0, 0].length) ∧
    (let x := theAcc (.feset 16383 1 false); let s := accessing x.kind []; SpmWf (s.core 0) ∧ AtAccessPoint s 0 x) :=
  ⟨⟨rfl, rfl, rfl, rfl, by decide +kernel, by decide +kernel, rfl, rfl⟩, ⟨rfl, by decide, by decide +kernel⟩,
    ⟨atPoint rfl rfl rfl rfl rfl (by decide +kernel) (every _ (by decide +kernel)) rfl rfl rfl, by decide +kernel⟩,
    ⟨⟨rfl, rfl, rfl⟩, atPoint rfl rfl rfl rfl rfl (by decide +kernel) (every _ (by decide +kernel)) rfl rfl rfl, rfl, by decide +kernel⟩,
    ⟨⟨rfl, rfl, rfl⟩, atPoint rfl rfl rfl rfl rfl (by decide +kernel) (every _ (by decide +kernel)) rfl rfl rfl, rfl⟩,
    ⟨⟨rfl, rfl, rfl⟩, atPoint rfl rfl rfl rfl rfl (by decide +kernel) (every _ (by decide +kernel)) rfl rfl rfl, rfl, by decide, rfl⟩,
    ⟨⟨rfl, rfl, rfl⟩, atPoint rfl rfl rfl rfl rfl (by decide +kernel) (every _ (by decide +kernel)) rfl rfl rfl⟩,
    ⟨⟨rfl, _, .head _⟩, .head _⟩, fun h => absurd h.1 (by decide),
    ⟨⟨rfl, rfl, rfl⟩, atPoint rfl rfl rfl rfl rfl (by decide +kernel) (every _ (by decide +kernel)) rfl rfl rfl, rfl⟩,
    ⟨⟨rfl, rfl, rfl⟩, atPoint rfl rfl rfl rfl rfl (by decide +kernel) (every _ (by decide +kernel)) rfl rfl rfl⟩⟩
/-- A core of which a trap has been asked. -/
def trapping (exc : Bool) (skip : Nat) : State := withArch { archT with trap := some ⟨6, 0x81, 0x100000, false⟩, exc := exc, skip := skip }
theorem hyps_TrapEntryTakes_1 :
    ((trapping false 0).core 0).arch.trap = some ⟨6, 0x81, 0x100000, false⟩ ∧ (trapping false 0).canIssue 0 = true ∧
      ((trapping false 0).core 0).wait = .none ∧ ((trapping false 0).core 0).mustClose = false ∧ ((trapping false 0).core 0).arch.ahead = [] ∧
      ((trapping false 0).core 0).arch.waitX = 0 ∧ ((trapping false 0).core 0).arch.settled .execute = true ∧
      ((trapping false 0).core 0).arch.settled .access = true ∧ ((trapping false 0).core 0).arch.skip = 0 ∧
      ((trapping false 0).core 0).arch.till = none ∧ ((trapping false 0).core 0).arch.accs = [] ∧
      ((trapping false 0).core 0).arch.exc = false :=
  ⟨rfl, rfl, rfl, rfl, rfl, rfl, rfl, rfl, rfl, rfl, rfl, rfl⟩
theorem hyps_TrapEntryTakes_2 :
    ((trapping true 0).core 0).arch.exc = true :=
  rfl
theorem hyps_TrapEntryTakes_3 :
    ¬ ((trapping false 1).core 0).arch.skip = 0 :=
  by decide
theorem hyps_TrapEntryTakes_4 :
    let s := stateOf { coreT with conflicts := [0x100010] } launchT;
      (s.core 0).arch.trap = none ∧ (s.core 0).conflicts = 0x100010 :: [] ∧ s.mayTrap 0 = true ∧ (s.core 0).arch.exc = false ∧
      (s.core 0).closedFor = false :=
  ⟨rfl, rfl, by decide +kernel, rfl, rfl⟩
theorem hyps_TrapEntryTakes_5 :
    ({ coreT with closedFor := true } : Core).closedFor = true :=
  rfl
/-- A core whose segment must close, with a store in its commit buffer. -/
def closing (rewinds : Nat) (err : Option Nat) : State :=
  stateOf { coreT with
    mustClose := true
    seg := { coreT.seg with
      commit := [⟨0, .store [(0x100010, [1, 2])], 0, 0, false, 0⟩], rewinds := rewinds, errorAt := err, undo := [.byte 0x80 7, .full 1 true] } }
    launchT
/-- The leader of a pair in a stream cycle of which it has written `s5`, which is still to be compared. -/
def doubledS : State :=
  stateOf { coreT with arch := { archT with s := [(5, 1), (6, 3), (8, 0x100010)] }, unchecked := [coreT.shadow] } { launchT with doubles := true }
theorem hyps_SegmentsClose_ready :
    (closing 0 none).lively 0 = true ∧ (closing 0 none).halted 0 = false ∧ ((closing 0 none).core 0).mustClose = true ∧
      ((closing 0 none).core 0).offs = [] ∧ ((closing 0 none).core 0).unchecked = [] ∧ ((closing 0 none).core 0).seg.errorAt = none ∧
      ((closing 0 none).core 0).arch.ahead = [] ∧ ((closing 0 none).core 0).arch.waitX = 0 := ⟨rfl, rfl, rfl, rfl, rfl, rfl, rfl, rfl⟩
theorem hyps_SegmentsClose_1 :
    ((closing 0 none).core 0).arch.waitA = 0 ∧ ((closing 0 none).core 0).arch.accs = [] ∧ ((closing 0 none).core 0).side = [] ∧
      ((closing 0 none).core 0).seg.leaving = false ∧ ((closing 0 none).core 0).seg.bad = false ∧
      (((closing 0 none).core 0).seg.commit.flatMap fun w => w.kind.split.map fun x => (x, w.ch, w.seq, w.rel, w.frame)) ≠ [] ∧
      (∀ w ∈ ((closing 0 none).core 0).seg.commit, ∀ x ∈ w.kind.split, ∀ r ∈ x.ranges, ∀ i n,
        lookup ((closing 0 none).core 0).table .write r.1 ≠ .absent i n) := by
  refine ⟨rfl, rfl, rfl, rfl, rfl, by decide +kernel, ?_⟩
  intro w hw x hx r hr i n
  have : (((closing 0 none).core 0).seg.commit.all fun w => w.kind.split.all fun x => x.ranges.all fun r =>
    match lookup ((closing 0 none).core 0).table .write r.1 with | .absent _ _ => false | _ => true) = true := by decide +kernel
  have h := List.all_eq_true.mp (List.all_eq_true.mp (List.all_eq_true.mp this w hw) x hx) r hr
  intro e
  rw [e] at h
  simp at h
theorem hyps_SegmentsClose_2 :
    SpmWf ((closing 1 (some 0)).core 0) ∧ (closing 1 (some 0)).lively 0 = true ∧ (closing 1 (some 0)).halted 0 = false ∧
      ((closing 1 (some 0)).core 0).mustClose = true ∧ ((closing 1 (some 0)).core 0).seg.errorAt = some 0 ∧
      ((closing 1 (some 0)).core 0).undecided false = false ∧ ((closing 1 (some 0)).core 0).seg.leaving = false ∧
      ((closing 1 (some 0)).core 0).seg.rewinds < 2 ∧ ((closing 1 (some 0)).core 0).seg.wait = .none :=
  ⟨⟨rfl, rfl, rfl⟩, rfl, rfl, rfl, rfl, rfl, rfl, by decide, rfl⟩
theorem hyps_SegmentsClose_3 :
    2 ≤ ((closing 2 (some 0)).core 0).seg.rewinds ∧ ({ coreT.seg with bad := true } : Segment).bad = true :=
  ⟨by decide, rfl⟩
theorem hyps_SegmentsClose_4 :
    let s := stateOf { coreT with mustClose := true, seg := { coreT.seg with leaving := true } } launchT;
      s.lively 0 = true ∧ (s.core 0).out = [] ∧ (s.core 0).wait = .none ∧ (s.core 0).seg.leaving = true ∧ (s.core 0).arch.ahead = [] :=
  ⟨rfl, rfl, rfl, rfl, rfl⟩
theorem hyps_SegmentsClose_5 :
    let d : BitVec 384 := dictT ||| BitVec.ofNat 384 (2 * 2 ^ 378);
      let s := { codeS with modules := [{ moduleT with kernels := [{ kernelT with dict := [d] }] }] };
      s.launchOf 0 = some launchT ∧ s.canIssue 0 = true ∧ (s.core 0).poised = true ∧ (s.core 0).mustClose = false ∧
      (∀ e ∈ s.group 0, (s.core e).rewindFlag = false) ∧
      (s.fetch 0 launchT.asid (s.dictOf 0) (s.core 0).arch.pc).1 = .bundle (dictBundle d 0x100000) 0x100002 ∧
      (dictBundle d 0x100000).seg = 2 :=
  ⟨rfl, rfl, rfl, rfl, by decide +kernel, by decide +kernel, by decide +kernel⟩
theorem hyps_SegmentsClose_6 :
    CoresWf doubledS ∧ doubledS.launchOf 0 = some { launchT with doubles := true } ∧
      (doubledS.core 0).unchecked = coreT.shadow :: [] ∧
      crc32 (effects coreT.shadow (doubledS.core 0).shadow) = crc32 (disturb (effects coreT.shadow (doubledS.core 0).shadow) 0) ∧
      crc32 (effects coreT.shadow (doubledS.core 0).shadow) ≠ crc32 (disturb (effects coreT.shadow (doubledS.core 0).shadow) 1) :=
  ⟨rfl, rfl, rfl, by decide +kernel, by decide +kernel⟩

/-- A core with one off-core request. -/
def requesting (r : OffReq) : State := stateOf { coreT with offs := [r] } launchT
/-- A load of 8 bytes that lie in chip shared memory. -/
def loadT : OffReq := ⟨5, .ld 0x100010 3 true, 0, false, false, .a 8, 1, 0, 4, none, false⟩
/-- An answered atomic, and one still to be answered. -/
def amoT (v : Option W64) : OffReq := ⟨5, .amo 0 3 0x100010 7, 1, false, false, .q .lq0 0, 1, 0, 4, v, false⟩
/-- A core that has sent a write. -/
def writing (k : WriteKind) : State := stateOf { coreT with out := [⟨6, k, 0, 1, false, 0⟩] } launchT
/-- A core whose side log holds a store. -/
def logged : State := stateOf { coreT with side := [⟨6, .store [(0x100010, [1])], 0, 1, false, 0⟩] } launchT
theorem archT_wf : ArchWf archT := by unfold ArchWf; decide +kernel
theorem atCsm_read : AtCsm s0 0 .read 0x100010 0xA500000010 := ⟨0, entryT, by decide +kernel, rfl, rfl⟩
/-- The request while the word that it loads is uncorrectable. -/
def poisonedS : State := { requesting loadT with csmMarks := [(0xA500000010 / 8, true)] }
/-- A request that has been applied, its acknowledgement in the window. -/
def appliedT : WindowEntry := ⟨0, 6, 0, 0, 0, none⟩
def appliedS : State := { s0 with windows := [appliedT] }
/-- An atomic at 0x300010, which lies in stacked memory. -/
def farAmoT : OffReq := { amoT none with kind := .amo 0 3 0x300010 7 }
/-- 64 KiB of host memory at 0x300000. -/
def hostT : TEntry := ⟨0x300000, 0, true, 0, 0, 0x32, BitVec.allOnes 64, 0, 0x4000, 0, false⟩
/-- The same on a core that has host memory there. -/
def hostS : State := stateOf { coreT with offs := [farAmoT], table := [(0, hostT)] } launchT
theorem hyps_OffCorePerforms :
    (∃ b u, loadT.kind = .ld 0x100010 3 true ∧ scalarDest loadT.dest ∧ ((requesting loadT).core 0).offs.find? (fun x => x.id == 5) = some loadT ∧
      ((requesting loadT).core 0).inOrder loadT.seq loadT.ch loadT.kind.ranges true = true ∧
      (requesting loadT).loadBytes 0 loadT.seq 0x100010 8 = some ((b, false), u) ∧ ArchWf (u.core 0).arch) ∧
    (∃ l u, ((requesting { loadT with kind := .vld 6 [0x100010, 0x100014], dest := .vq .vlq0 0 }).core 0).inOrder 1 0
        (OffKind.vld 6 [0x100010, 0x100014]).ranges true = true ∧
      (requesting { loadT with kind := .vld 6 [0x100010, 0x100014], dest := .vq .vlq0 0 }).loadElems 0 1 4 [0x100010, 0x100014] =
        some ((l, false), u) ∧ ArchWf (u.core 0).arch) ∧
    (s0.launchOf 0 = some launchT ∧ AtCsm s0 0 .read 0x100010 0xA500000010 ∧ (s0.core 0).collapsing 0x100010 = false ∧
      s0.csmBad 0xA500000010 8 = false) ∧
    (∃ b u, (poisonedS.core 0).offs.find? (fun x => x.id == 5) = some loadT ∧ loadT.dest = .a 8 ∧
      poisonedS.loadBytes 0 loadT.seq 0x100010 8 = some ((b, true), u) ∧ CoresWf u) ∧
    (((requesting (amoT (some 9))).core 0).offs.find? (fun x => x.id == 5) = some (amoT (some 9)) ∧ scalarDest (amoT (some 9)).dest ∧
      (amoT (some 9)).poison = false ∧ ArchWf ((requesting (amoT (some 9))).core 0).arch ∧
      ((requesting (amoT (some 9))).core 0).seg.recorded = []) ∧
    (∃ new answer, CoresWf (requesting (amoT none)) ∧ Memory.wf (requesting (amoT none)).csm = true ∧
      ((requesting (amoT none)).core 0).offs.find? (fun x => x.id == 5 && x.answer.isNone) = some (amoT none) ∧
      ((requesting (amoT none)).core 0).readyAtomic (amoT none) = true ∧ (requesting (amoT none)).launchOf 0 = some launchT ∧
      launchT.record = false ∧ launchT.replay = false ∧ AtCsm (requesting (amoT none)) 0 .both 0x100010 0xA500000010 ∧
      (requesting (amoT none)).csmBad 0xA500000010 8 = false ∧ (requesting (amoT none)).spanFull 0 1 (0xA500000010 / 128 % 256) = false ∧
      (new, answer) = atomicDo 0 3 (memBytes (requesting (amoT none)).csm 0xA500000010 8) 7) ∧
    (∃ w, CoresWf (writing (.store [(0x100010, [1, 2])])) ∧ Memory.wf (writing (.store [(0x100010, [1, 2])])).csm = true ∧
      ((writing (.store [(0x100010, [1, 2])])).core 0).offs.find? (fun x => x.id == 6 && x.answer.isNone) = none ∧
      ((writing (.store [(0x100010, [1, 2])])).core 0).out.find? (fun x => x.id == 6) = some w ∧
      ((writing (.store [(0x100010, [1, 2])])).core 0).ready w = true ∧
      AtCsm (writing (.store [(0x100010, [1, 2])])) 0 .write 0x100010 0xA500000010 ∧ w.kind = .store [(0x100010, [1, 2])]) ∧
    (∃ w, ((writing (.red 0 3 0x100010 7)).core 0).out.find? (fun x => x.id == 6) = some w ∧
      ((writing (.red 0 3 0x100010 7)).core 0).ready w = true ∧ w.kind = .red 0 3 0x100010 7 ∧ w.kind.isRed = true ∧
      (writing (.red 0 3 0x100010 7)).csmBad 0xA500000010 8 = false ∧ (writing (.red 0 3 0x100010 7)).spanFull 0 0 (0xA500000010 / 128 % 256) = false ∧
      AtCsm (writing (.red 0 3 0x100010 7)) 0 .write 0x100010 0xA500000010) ∧
    (∃ w, ((writing (.vred 0 6 0x100080 (List.replicate 128 1))).core 0).out.find? (fun x => x.id == 6) = some w ∧
      ((writing (.vred 0 6 0x100080 (List.replicate 128 1))).core 0).ready w = true ∧ w.kind = .vred 0 6 0x100080 (List.replicate 128 1) ∧
      (writing w.kind).csmBad 0xA500000080 128 = false ∧ (writing w.kind).spanFull 0 0 (0xA500000080 / 128 % 256) = false ∧
      AtCsm (writing w.kind) 0 .write 0x100080 0xA500000080) ∧
    -- an atomic, a store and reductions that meet stacked memory
    (let s := requesting farAmoT;
      CoresWf s ∧ Memory.wf s.host = true ∧ (s.core 0).offs.find? (fun x => x.id == 5 && x.answer.isNone) = some farAmoT ∧
      (s.core 0).readyAtomic farAmoT = true ∧ s.launchOf 0 = some launchT ∧ AtFar s 0 .both 0x300010 (.hbm 0x20010 0) ∧
      (s.readPlace 1 (.hbm 0x20010 0) 8).1.2 = false ∧ s.spanFull 0 1 (s.hbm.unitOf (.hbm 0x20010 0)) = false) ∧
    (∃ w, ((writing (.store [(0x300010, [1, 2])])).core 0).out.find? (fun x => x.id == 6) = some w ∧
      ((writing (.store [(0x300010, [1, 2])])).core 0).ready w = true ∧ w.kind = .store [(0x300010, [1, 2])] ∧
      AtFar (writing w.kind) 0 .write 0x300010 (.hbm 0x20010 0)) ∧
    (∃ w, ((writing (.red 0 3 0x300010 7)).core 0).out.find? (fun x => x.id == 6) = some w ∧
      ((writing (.red 0 3 0x300010 7)).core 0).ready w = true ∧ w.kind = .red 0 3 0x300010 7 ∧
      (writing w.kind).spanFull 0 0 ((writing w.kind).hbm.unitOf (.hbm 0x20010 0)) = false ∧
      AtFar (writing w.kind) 0 .write 0x300010 (.hbm 0x20010 0)) ∧
    -- an atomic that meets host memory
    (CoresWf hostS ∧ Memory.wf hostS.host = true ∧ (hostS.core 0).offs.find? (fun x => x.id == 5 && x.answer.isNone) = some farAmoT ∧
      (hostS.core 0).readyAtomic farAmoT = true ∧ hostS.launchOf 0 = some launchT ∧ AtFar hostS 0 .both 0x300010 (.host 0x4010) ∧
      (hostS.readPlace 1 (.host 0x4010) 8).1.2 = false ∧ hostS.spanFull 0 1 (hostS.hbm.unitOf (.host 0x4010)) = false) ∧
    (([1, 0, 0, 0] : List Byte).length = 2 ^ 2 ∧ (List.replicate 8 (0 : Byte)).length = 2 ^ 3 ∧ (List.replicate 64 (0 : Byte)).length = 64 ∧
      ([0, 0] : List Byte).length = 2 ∧ (List.replicate 128 (0 : Byte)).length = 128 ∧ etWidth 8 ∈ [8, 16, 32] ∧ 31 < 1024 / etWidth 8 ∧
      fp32.decode 0x7FC00000 = .nan ∧ fp32.decode 0xFF800000 = .inf true ∧ fp32.decode 0 = .fin false 0 (-149)) ∧
    ((requesting (amoT none)).sentOn 0 5 = true ∧ ((requesting (amoT none)).requests 0).length = 1 ∧
      ((requesting (amoT none)).requests 0).map (·.1) = [5] ∧ (requesting (amoT none)).resends = []) ∧ appliedS.sentOn 0 6 = false ∧
    ((∀ r ∈ (appliedS.core 0).offs, r.id ≠ 6) ∧ (∀ x ∈ (appliedS.core 0).out, x.id ≠ 6) ∧ appliedS.windowed 0 6 = some appliedT ∧
      appliedS.mayLack appliedT = true) ∧
    (let s := { appliedS with resends := [⟨0, 0, 6, some (0, 0, 0)⟩] };
      s.resends.find? (fun r => r.core == 0 && r.req == 6 && r.sent.isSome) = some ⟨0, 0, 6, some (0, 0, 0)⟩ ∧
      s.keptRequests.find? (fun w => some (0, 0, 0) == some (w.source, w.target, w.tag)) = some appliedT ∧
      (s.core 0).launch = some appliedT.launch) ∧
    (∃ w, CoresWf logged ∧ Memory.wf logged.csm = true ∧ (logged.sideEntries 0)[0]? = some (0, 0) ∧ (logged.core 0).side[0]? = some w ∧
      w.kind = .store [(0x100010, [1])] ∧ (∀ y ∈ (logged.core 0).side.take 0, y.ch ≠ w.ch) ∧ logged.launchOf 0 = some launchT ∧
      logged.context? launchT.asid = some contextT ∧ contextT.tombstone = false ∧
      ({ logged.core 0 with side := (logged.core 0).side.eraseIdx 0 } : Core).ready w = true ∧
      AtCsm logged 0 .write 0x100010 0xA500000010) :=
  ⟨⟨_, _, rfl, trivial, rfl, rfl, rfl, archT_wf⟩, ⟨_, _, rfl, rfl, archT_wf⟩, ⟨rfl, atCsm_read, by decide +kernel, by decide +kernel⟩,
    ⟨_, _, rfl, rfl, rfl, rfl⟩, ⟨rfl, trivial, rfl, archT_wf, rfl⟩,
    ⟨_, _, rfl, rfl, rfl, rfl, rfl, rfl, rfl, ⟨0, entryT, by decide +kernel, rfl, rfl⟩, by decide +kernel, by decide +kernel, rfl⟩,
    ⟨_, rfl, rfl, rfl, rfl, rfl, ⟨0, entryT, by decide +kernel, rfl, rfl⟩, rfl⟩,
    ⟨_, rfl, rfl, rfl, rfl, by decide +kernel, by decide +kernel, ⟨0, entryT, by decide +kernel, rfl, rfl⟩⟩,
    ⟨_, rfl, rfl, rfl, by decide +kernel, by decide +kernel, ⟨0, entryT, by decide +kernel, rfl, rfl⟩⟩,
    ⟨rfl, rfl, rfl, rfl, rfl, ⟨⟨2, hbmT, by decide +kernel, rfl, rfl⟩, fun _ h => by cases h⟩, by decide +kernel, by decide +kernel⟩,
    ⟨_, rfl, rfl, rfl, ⟨⟨2, hbmT, by decide +kernel, rfl, rfl⟩, fun _ h => by cases h⟩⟩,
    ⟨_, rfl, rfl, rfl, by decide +kernel, ⟨⟨2, hbmT, by decide +kernel, rfl, rfl⟩, fun _ h => by cases h⟩⟩,
    ⟨rfl, rfl, rfl, rfl, rfl, ⟨⟨0, hostT, by decide +kernel, rfl, rfl⟩, fun _ h => by cases h⟩, by decide +kernel, by decide +kernel⟩,
    by decide +kernel, ⟨by decide +kernel, by decide +kernel, by decide +kernel, rfl⟩, by decide +kernel,
    ⟨every _ rfl, every _ rfl, by decide +kernel, by decide +kernel⟩, ⟨by decide +kernel, by decide +kernel, rfl⟩,
    ⟨_, rfl, rfl, rfl, rfl, rfl, by simp, rfl, rfl, rfl, rfl, ⟨0, entryT, by decide +kernel, rfl, rfl⟩⟩⟩

/-! ### Witnesses: engine operations -/

/-- An SFN of `n` elements from 0x2000 to `d`. -/
def sfnT (d n : Nat) : Op := { opT with code := .sfn, queue := 4, em := 0x2000, o1 := BitVec.ofNat 64 d, o2 := 0x2000, o3 := BitVec.ofNat 64 n }
/-- A layout record of 64 rows and 64 columns of 16-bit floats. -/
def recT : List W64 := [0, 5, 0x4000000040, 0, 0, 0, 0, 0]
/-- An MLAT of one block. -/
def mlatT : Op := { opT with code := .mlat, em := 0xA000, recA := recT }
/-- An MCFG. -/
def mcfgT (w : W64) : Op := { opT with code := .mcfg, o1 := w }
/-- A surrogate invocation. -/
def invokeT : Op := { opT with code := .surrogate, queue := 6 }
/-- An operation at the head of its queue that may start. -/
def meetsStart (q : Nat) (o : Op) : Prop := CoresWf (withOps q [o]) ∧ AtHead (withOps q [o]) 0 q o [] ∧ (withOps q [o]).mayStart 0 o = true
theorem hyps_OperationsStart_1 :
    meetsStart 4 (sfnT 0 1025) ∧ startOf (withOps 4 [sfnT 0 1025]) 0 4 (sfnT 0 1025) = some (0, 2) :=
  ⟨⟨rfl, rfl, rfl⟩, by decide +kernel⟩
theorem hyps_OperationsStart_2 :
    meetsStart 4 (sfnT 0 0) ∧ startOf (withOps 4 [sfnT 0 0]) 0 4 (sfnT 0 0) = some (0, 0) :=
  ⟨⟨rfl, rfl, rfl⟩, by decide +kernel⟩
theorem hyps_OperationsStart_3 :
    meetsStart 4 (sfnT 2 1) ∧ startOf (withOps 4 [sfnT 2 1]) 0 4 (sfnT 2 1) = some (2, 1) :=
  ⟨⟨rfl, rfl, rfl⟩, by decide +kernel⟩
theorem hyps_OperationsStart_4 :
    meetsStart 0 (mcfgT 0x800000000000) ∧ (mcfgT 0x800000000000).o1.toNat / 2 ^ 48 = 0 ∧
      (mcfgT 0x800000000000).o1.toNat / 2 ^ 5 % 2 ^ 27 = 0 ∧ (mcfgT 0x800000000000).o1.toNat / 2 ^ 32 % 2 ^ 16 = 32768 :=
  ⟨⟨rfl, rfl, rfl⟩, by decide, by decide, by decide⟩
theorem hyps_OperationsStart_5 :
    meetsStart 0 (mcfgT 0x808000000000) ∧ (mcfgT 0x808000000000).o1.toNat / 2 ^ 32 % 2 ^ 16 = 32896 :=
  ⟨⟨rfl, rfl, rfl⟩, by decide⟩
theorem hyps_OperationsStart_6 :
    meetsStart 0 mlatT ∧ matrixErr ((withOps 0 [mlatT]).core 0) 0 0 ((withOps 0 [mlatT]).coreSet 0) mlatT = 0 :=
  ⟨⟨rfl, rfl, rfl⟩, by decide +kernel⟩
theorem hyps_OperationsStart_7 :
    meetsStart 6 invokeT ∧ Sparse.wf [] ((withOps 6 [invokeT]).core 0).ops = true :=
  ⟨⟨rfl, rfl, rfl⟩, rfl⟩
/-- An MMA of one step with 16-bit floats, its A from latch 0, with zeros to begin with. -/
def mmaT (st : OpState) : Op := { opT with em := 0xA004, recB := recT, state := st, total := 1 }
/-- A core that waits for a matrix array, in a cluster with these arrays. -/
def bindS (o : Op) (mask : BitVec 17) : State := { withOps 0 [o] with fieldmask := [(0, mask)] }
/-- Two cores of two contexts, the higher in rank without an array, the other on array 0, the only one enabled. -/
def rankS : State :=
  { State.reset with
    cores := [(0, { coreT with ops := [(0, [mmaT .claiming])] }),
      (1, { coreT with launch := some 1, ops := [(0, [{ mmaT .field with everField := true }])] })]
    launches := [{ launchT with cores := [0] }, { launchT with id := 1, asid := 2, cores := [1] }], modules := [moduleT]
    contexts := [(1, some contextT), (2, some { contextT with rank := 1 })], fieldmask := [(0, 1)] }
theorem hyps_OperationsBind_1 :
    AtHead (bindS (mmaT .claiming) 6) 0 0 (mmaT .claiming) [] ∧
      ((bindS (mmaT .claiming) 6).kindHeads 0 .matrix).filter (fun x => x.2.2.candidate && (bindS (mmaT .claiming) 6).engines x.1) =
        [(0, 0, mmaT .claiming)] ∧ (∀ x ∈ (bindS (mmaT .claiming) 6).kindHeads 0 .matrix, x.2.2.marked ≠ some (0, 0)) ∧
      (bindS (mmaT .claiming) 6).freeUnit 0 .matrix = some 1 :=
  ⟨rfl, by decide +kernel, every _ (by decide +kernel), by decide +kernel⟩
theorem hyps_OperationsBind_2 :
    let o : Op := { mmaT .bench with stepEnded := true };
      ((bindS o 0).kindHeads 0 .matrix).filter (fun x => x.2.2.candidate && (bindS o 0).engines x.1) = [(0, 0, o)] ∧
      (bindS o 0).freeUnit 0 .matrix = none ∧ o.state = .bench :=
  ⟨by decide +kernel, by decide +kernel, rfl⟩
theorem hyps_OperationsBind_3 :
    (bindS (mmaT .claiming) 0).freeUnit 0 .matrix = none ∧ (bindS (mmaT .claiming) 0).victim 0 .matrix 0 0 = none :=
  ⟨by decide +kernel, by decide +kernel⟩
theorem hyps_OperationsBind_4 :
    AtHead rankS 0 0 (mmaT .claiming) [] ∧
      (rankS.kindHeads 0 .matrix).filter (fun x => x.2.2.candidate && rankS.engines x.1) = [(0, 0, mmaT .claiming)] ∧
      rankS.freeUnit 0 .matrix = none ∧ rankS.victim 0 .matrix 0 0 = some (1, 0, none) ∧
      AtHead rankS 1 0 { mmaT .field with everField := true } [] :=
  ⟨rfl, by decide +kernel, by decide +kernel, by decide +kernel, rfl⟩
theorem hyps_OperationsBind_5 :
    let o : Op := { mmaT .migrating with toField := true };
      CoresWf (withOps 0 [o]) ∧ Sparse.wf [] ((withOps 0 [o]).core 0).ops = true ∧ (withOps 0 [o]).lively 0 = true ∧
      AtHead (withOps 0 [o]) 0 0 o [] ∧ o.state = .migrating :=
  ⟨rfl, rfl, rfl, rfl, rfl⟩
theorem hyps_OperationsBind_6 :
    let o : Op := { mmaT .field with stepEnded := true };
      AtHead (withOps 0 [o]) 0 0 o [] ∧ o.state = .field ∧ (o.stepEnded = true ∨ o.blocked = true) ∧ o.performed = false ∧ o.next < o.total ∧
      (withOps 0 [o]).haltAsked 0 = false ∧ o.marked = none ∧
      ((withOps 0 [o]).pendingOf (clusterOf 0)).getLsbD ((kindBits (queueKind 0)).1 + o.unit) = false :=
  ⟨rfl, rfl, .inl rfl, rfl, by decide, rfl, rfl, rfl⟩
theorem hyps_OperationsBind_7 :
    let o : Op := { mmaT .field with stepEnded := true, marked := some (1, 0) };
      AtHead (withOps 0 [o]) 0 0 o [] ∧ o.next < o.total ∧ o.marked ≠ none :=
  ⟨rfl, by decide, by decide⟩
theorem hyps_OperationsBind_8 :
    let s := stateOf { coreT with ops := [(0, [mmaT .claiming])], halt := .requested } launchT;
      CoresWf s ∧ s.lively 0 = true ∧ AtHead s 0 0 (mmaT .claiming) [] ∧ s.haltAsked 0 = true :=
  ⟨rfl, rfl, rfl, rfl⟩
theorem hyps_OperationsBind_9 :
    let s := stateOf { coreT with ops := [(0, [mmaT .bench])], halt := .requested } launchT;
      AtHead s 0 0 (mmaT .bench) [] ∧ (mmaT .bench).code = .mma ∧ (mmaT .bench).claimed = false ∧ (mmaT .bench).next < (mmaT .bench).total ∧
      s.haltAsked 0 = true :=
  ⟨rfl, rfl, rfl, by decide, rfl⟩
theorem hyps_OperationsBind_10 :
    s0.markhor.booted = true ∧ 16 < 17 ∧ Sparse.wf (BitVec.allOnes 17) s0.fieldmask = true ∧ Sparse.wf 0 s0.pendingMask = true :=
  ⟨rfl, by decide, rfl, rfl⟩
theorem hyps_OperationsBind_11 :
    s0.bankBusy 1 15 = false ∧ (s0.core 1).run ≠ .running :=
  ⟨by decide +kernel, by decide⟩
theorem hyps_OperationsBind_12 :
    s0.unitHeld 0 .matrix 7 = false :=
  by decide +kernel

theorem withOps_wf (q : Nat) (l : List Op) : CoresWf (withOps q l) := rfl
/-- No operation of the one queue claims a tile. -/
theorem noClaim (q : Nat) (o : Op) (h : o.claims = false) : NoClaim (withOps q [o]) 0 := by
  intro p x hx
  have e : Core.headOp ((withOps q [o]).core 0) p = (Sparse.get [] [(q, [o])] p).head? := rfl
  rw [e] at hx
  by_cases hp : p = q
  · subst hp; simp [Sparse.get] at hx; subst hx; exact h
  · simp [Sparse.get, hp] at hx
/-- A state whose core 0 has one operation, its lines all at hand, reads them. -/
theorem reads_plain (q : Nat) (o : Op) (keys : List Nat) (ha : AtHead (withOps q [o]) 0 q o []) (wo : Sparse.wf [] ((withOps q [o]).core 0).ops = true)
    (hs : o.sources 0 = [0]) (hk : ∀ key ∈ keys, key / 2 ^ 64 = 1) :
    ∃ ls u p, (withOps q [o]).operands 0 q o keys = (some ls, u) ∧ HeadAfterReading u 0 q o p [] ∧ ∃ k, u = (withOps q [o]).setCore 0 k ∧
      k.arch = ((withOps q [o]).core 0).arch ∧ k.scratch = ((withOps q [o]).core 0).scratch ∧ k.full = ((withOps q [o]).core 0).full ∧
      k.retention = ((withOps q [o]).core 0).retention ∧ k.table = ((withOps q [o]).core 0).table ∧ u.doubled 0 = false :=
  have ⟨ls, u, h, g, ⟨k, a, b, c, d, e, f, _⟩, i⟩ := operands_plain (c := 0) (withOps_wf q [o]) wo ha ⟨rfl, rfl, rfl⟩ hk hs
  ⟨ls, u, _, h, g, k, a, b, c, d, e, f, i⟩
/-- An MMA whose tile is claimed, at its step or at its end. -/
def claimedT (next : Nat) : Op := { mmaT .bench with claimed := true, next := next, cycles := 400 }
/-- The lines of its step. -/
def mmaKeys : List Nat :=
  recKeys 0 (claimedT 0).recB ((claimedT 0).cellsB 0) ++ (if (claimedT 0).at then recKeys 0 (claimedT 0).recA ((claimedT 0).cellsA 0) else [])
/-- An MLAT on its bench, and the lines that it reads. -/
def latchingT : Op := { mlatT with state := .bench, total := 1 }
def mlatKeys : List Nat := recKeys 0 latchingT.recA ((List.range latchingT.blocks).flatMap latchingT.cellsA)
theorem hyps_MatrixOperations_1 :
    CoresWf (withOps 0 [mmaT .claiming]) ∧ SpmWf ((withOps 0 [mmaT .claiming]).core 0) ∧ AtHead (withOps 0 [mmaT .claiming]) 0 0 (mmaT .claiming) [] ∧
      (mmaT .claiming).code = .mma ∧ (mmaT .claiming).claimed = false ∧ (mmaT .claiming).state = .claiming ∧
      (withOps 0 [mmaT .claiming]).engines 0 = true ∧ ((withOps 0 [mmaT .claiming]).core 0).claimWaits 0 (mmaT .claiming) = false ∧
      ((withOps 0 [mmaT .claiming]).core 0).retained (((withOps 0 [mmaT .claiming]).core 0).clinesOf 0 (mmaT .claiming)) = false ∧
      (mmaT .claiming).em.getLsbD 2 = true ∧
      ((withOps 0 [mmaT .claiming]).core 0).claimSpoiled 0 (mmaT .claiming) = false :=
  ⟨rfl, ⟨rfl, rfl, rfl⟩, rfl, rfl, rfl, rfl, rfl, by decide +kernel, by decide +kernel, rfl, by decide +kernel⟩
theorem hyps_MatrixOperations_2 :
    ({ (withOps 0 [mmaT .claiming]).core 0 with arch := { archT with latchMarks := [0] } } : Core).claimSpoiled 0 (mmaT .claiming) = true :=
  by decide +kernel
theorem hyps_MatrixOperations_3 :
    AtHead (withOps 0 [claimedT 0]) 0 0 (claimedT 0) [] ∧ (claimedT 0).code = .mma ∧ (claimedT 0).claimed = true ∧ (claimedT 0).atStep = true ∧
      (claimedT 0).next < (claimedT 0).total ∧ (withOps 0 [claimedT 0]).lively 0 = true ∧ (withOps 0 [claimedT 0]).arrayAsleep 0 (claimedT 0) = false ∧
      Sparse.wf 0 (claimedT 0).acc = true ∧ (∃ ls u p, (withOps 0 [claimedT 0]).operands 0 0 (claimedT 0) mmaKeys = (some ls, u) ∧
        HeadAfterReading u 0 0 (claimedT 0) p []) := by
  refine ⟨rfl, rfl, rfl, rfl, by decide, rfl, rfl, rfl, ?_⟩
  obtain ⟨ls, u, p, h, g, -⟩ := reads_plain 0 (claimedT 0) mmaKeys rfl rfl rfl fun key hk =>
      mem_recKeys (c := 0) (r := recT) (by simpa [mmaKeys, Op.at, claimedT, mmaT] using hk)
  exact ⟨ls, u, p, h, g⟩
theorem hyps_MatrixOperations_4 :
    AtHead (withOps 0 [claimedT 1]) 0 0 (claimedT 1) [] ∧ (claimedT 1).claimed = true ∧ (claimedT 1).performed = false ∧
      (claimedT 1).total ≤ (claimedT 1).next ∧ (withOps 0 [claimedT 1]).lively 0 = true ∧
      ((withOps 0 [claimedT 1]).core 0).retained (((withOps 0 [claimedT 1]).core 0).clinesOf 0 (claimedT 1)) = false ∧
      (withOps 0 [claimedT 1]).doubled 0 = false ∧ ((withOps 0 [claimedT 1]).core 0).waiters = [] ∧ NoClaim (withOps 0 [claimedT 1]) 0 ∧
      256 ≤ cstrOf (((withOps 0 [claimedT 1]).core 0).cfgOf 0) :=
  ⟨rfl, rfl, rfl, by decide, rfl, by decide +kernel, rfl, rfl, noClaim _ _ rfl, by decide +kernel⟩
theorem hyps_MatrixOperations_5 :
    AtHead (withOps 0 [latchingT]) 0 0 latchingT [] ∧ latchingT.code = .mlat ∧ latchingT.state = .bench ∧ latchingT.performed = false ∧
      (withOps 0 [latchingT]).lively 0 = true ∧ (withOps 0 [latchingT]).doubled 0 = false ∧
      (∃ ls u p, (withOps 0 [latchingT]).operands 0 0 latchingT mlatKeys = (some ls, u) ∧
        HeadAfterReading u 0 0 latchingT p [] ∧ u.doubled 0 = false ∧ Sparse.wf 0 (u.core 0).arch.latchE = true ∧ Sparse.wf 0 (u.core 0).arch.latchS = true) ∧
      (lkbOf (((withOps 0 [latchingT]).core 0).cfgOf 0) + latchingT.blocks) * blockBytes latchingT.fmt ≤ 512 := by
  refine ⟨rfl, rfl, rfl, rfl, rfl, rfl, ?_, by decide +kernel⟩
  obtain ⟨ls, u, p, h, g, k, rfl, ha, -, -, -, -, hd⟩ := reads_plain 0 latchingT mlatKeys rfl rfl rfl fun key hk =>
      mem_recKeys (c := 0) (r := recT) hk
  refine ⟨ls, _, p, h, g, hd, ?_, ?_⟩
  · rw [State.core_setCore_same (withOps_wf 0 [latchingT]), ha]; rfl
  · rw [State.core_setCore_same (withOps_wf 0 [latchingT]), ha]; rfl

/-- What an operation that finds all its lines reads, and the state behind it. -/
def linesT (s : State) (q : Nat) (o : Op) (keys : List Nat) : List (Nat × List Byte) := ((s.operands 0 q o keys).1).getD []
/-- The state behind it. -/
def behindT (s : State) (q : Nat) (o : Op) (keys : List Nat) : State := (s.operands 0 q o keys).2
theorem reads_lines (s : State) (q : Nat) (o : Op) (keys : List Nat) (h : (s.operands 0 q o keys).1.isSome = true) :
    s.operands 0 q o keys = (some (linesT s q o keys), behindT s q o keys) :=
  Prod.ext (by unfold linesT; cases e : (s.operands 0 q o keys).1 <;> simp_all) rfl
/-- The head of a queue. -/
def headT (s : State) (q : Nat) (o : Op) : Op := ((Sparse.get [] (s.core 0).ops q).head?).getD o
/-- The decidable content of HeadAfterReading. -/
def headChecked (u : State) (q : Nat) (o : Op) : Bool :=
  Sparse.wf Core.reset u.cores && Sparse.wf [] (u.core 0).ops && decide (Sparse.get [] (u.core 0).ops q = [headT u q o]) &&
    decide (headT u q o = { o with fetched := (headT u q o).fetched, blocked := (headT u q o).blocked })
theorem head_after (u : State) (q : Nat) (o : Op) (h : headChecked u q o = true) : HeadAfterReading u 0 q o (headT u q o) [] := by
  simp only [headChecked, Bool.and_eq_true, decide_eq_true_eq] at h
  exact ⟨h.1.1.1, h.1.1.2, h.1.2, h.2⟩

/-- A record of one raw byte at an address. -/
def byteRec (a : W64) : List W64 := [a, 0, 0x100000001, 0, 0, 0, 0, 0]
/-- A copy of that byte. -/
def cpyT (code : OpCode) (next : Nat) : Op :=
  { opT with code := code, queue := 2, recA := byteRec 0x80, recB := byteRec 0x100, state := .field, total := 1, next := next }
/-- Its step: one byte, and the lines that it reads. -/
def stepT : List (Nat × ByteSrc) := ((cpyT .cpy 0).steps?[0]?).getD []
/-- The lines that it reads. -/
def cpyKeys : List Nat := stepT.flatMap fun x => (cpyT .cpy 0).byteKeys 0 x.2
/-- The state in which it reads them. -/
def cpyS : State := withOps 2 [cpyT .cpy 0]
/-- An SFN of one element at its step. -/
def sfnStepT : Op := { sfnT 0x1000 1 with state := .bench, cycles := 16, total := 1 }
/-- The line that it reads. -/
def sfnKeys : List Nat := ((linesOf 0x2000 4).map fun l => 2 ^ 64 + l) ++ []
/-- A gather of the rows 0 and 7 of a table of one row of one byte: its second index is 7. -/
def gathT : Op :=
  { opT with code := .gath, queue := 5, recA := byteRec 0x80, o2 := 0x200001000, o3 := 0x2000, state := .bench, cycles := 16, total := 1 }
/-- The state in which it gathers. -/
def gathS : State := stateOf { coreT with ops := [(5, [gathT])], scratch := [(0x2004, 7)] } launchT
/-- The lines of its indexes. -/
def idxKeys : List Nat := (linesOf 0x2000 8).map fun l => 2 ^ 64 + l
/-- What it has read of them. -/
def idxLines : List (Nat × List Byte) := linesT gathS 5 gathT idxKeys
/-- The state behind that. -/
def idxS : State := behindT gathS 5 gathT idxKeys
/-- The lines of its rows. -/
def rowKeys : List Nat :=
  ((List.range 2).filter fun j => lineNat idxLines 1 (0x2000 + 4 * (0 + j)) 4 < recRows gathT.recA).flatMap fun j =>
    (distinct ((gathT.rowAddrs (lineNat idxLines 1 (0x2000 + 4 * (0 + j)) 4)).map (· / 128))).map fun l => 1 * 2 ^ 64 + l
/-- The operation with its indexes read. -/
def gathT' : Op := { gathT with fetched := idxLines }
/-- A scatter of the same row into the table, its step and what it has read. -/
def scatT : Op := { gathT with code := .scat }
def scatS : State := stateOf { coreT with ops := [(5, [scatT])], scratch := [(0x2004, 7)] } launchT
def scatIdx : List (Nat × List Byte) := linesT scatS 5 scatT idxKeys
def scatMid : State := behindT scatS 5 scatT idxKeys
def scatT' : Op := { scatT with fetched := scatIdx }
def scatKeys : List Nat := (linesOf scatT.gp scatT.rowLen).map fun l => 2 ^ 64 + l
def scatEnd : State := behindT scatMid 5 scatT' scatKeys
/-- What it has read of its rows. -/
def rowLines : List (Nat × List Byte) := linesT idxS 5 gathT' rowKeys
/-- The state behind that. -/
def rowS : State := behindT idxS 5 gathT' rowKeys
/-- A core that waits for an invocation. -/
def invokingS : State :=
  stateOf { coreT with ops := [(6, [{ invokeT with state := .field, total := 1 }])], wait := .invocation 0 0x100002 } launchT
/-- The bytes of the number that a list of bytes is. -/
theorem leBytes_leNat (l : List Byte) : leBytes (leNat l l.length) l.length = l := by
  suffices h : ∀ n, ∀ l : List Byte, l.length = n → leBytes (leNat l n) n = l from h _ l rfl
  intro n
  induction n with
  | zero => intro l h; simp [List.length_eq_zero_iff.mp h, leBytes]
  | succ n ih =>
    intro l h
    obtain ⟨b, m, rfl⟩ := List.exists_cons_of_length_eq_add_one h
    have e : ∀ k, leNat (b :: m) (k + 1) = b.toNat + 256 * leNat m k := by
      intro k
      induction k with
      | zero => simp [leNat, byteAt]
      | succ k hk =>
        have hb : byteAt (b :: m) (k + 1) = byteAt m k := by simp [byteAt]
        rw [leNat, hk, hb, leNat, Nat.pow_succ, Nat.mul_add, Nat.add_assoc, Nat.mul_comm (256 ^ k) 256, Nat.mul_left_comm]
    have hm : m.length = n := by simpa using h
    rw [e n, leBytes]
    have hd : (b.toNat + 256 * leNat m n) / 256 = leNat m n := by have := b.isLt; omega
    rw [hd, ih m hm]
    congr 1
    apply BitVec.eq_of_toNat_eq
    have := b.isLt
    simp; omega
/-- A follower without an error has the leader's effects. -/
theorem disturb_none (l : List Byte) : disturb l 0 = l := by simp [disturb, leBytes_leNat]
/-- An operation of a pair that has performed. -/
def pairT (code : OpCode) (n : Nat) : Op := { opT with code := code, state := .field, performed := true, mismatches := n }
theorem hyps_OtherOperations_1 :
    AtHead cpyS 0 2 (cpyT .cpy 0) [] ∧ (cpyT .cpy 0).atStep = true ∧ (cpyT .cpy 0).next < (cpyT .cpy 0).total ∧ cpyS.lively 0 = true ∧
      (cpyT .cpy 0).steps?[0]? = some stepT ∧ (cpyT .cpy 0).spill = [] ∧
      cpyS.operands 0 2 (cpyT .cpy 0) cpyKeys = (some (linesT cpyS 2 (cpyT .cpy 0) cpyKeys), behindT cpyS 2 (cpyT .cpy 0) cpyKeys) ∧
      HeadAfterReading (behindT cpyS 2 (cpyT .cpy 0) cpyKeys) 0 2 (cpyT .cpy 0) (headT (behindT cpyS 2 (cpyT .cpy 0) cpyKeys) 2 (cpyT .cpy 0)) [] ∧
      (behindT cpyS 2 (cpyT .cpy 0) cpyKeys).doubled 0 = false ∧
      (∀ sp ∈ (cpyT .cpy 0).targets 0, sp ≠ 0 ∧ Memory.wf ((behindT cpyS 2 (cpyT .cpy 0) cpyKeys).core (sp - 1)).scratch = true ∧
        ((behindT cpyS 2 (cpyT .cpy 0) cpyKeys).core (sp - 1)).waiters = []) ∧
      (behindT cpyS 2 (cpyT .cpy 0) cpyKeys).hurdle 0 (cpyT .cpy 0) (((cpyT .cpy 0).targets 0).flatMap fun sp => stepT.map fun x =>
        (sp, x.1, BitVec.ofNat 8 ((cpyT .cpy 0).dstByte (linesT cpyS 2 (cpyT .cpy 0) cpyKeys) 0
          (behindT cpyS 2 (cpyT .cpy 0) cpyKeys).choice x.1 x.2).1)) = .none :=
  ⟨rfl, rfl, by decide, rfl, by decide +kernel, rfl, reads_lines _ _ _ _ (by decide +kernel), head_after _ _ _ (by decide +kernel),
      by decide +kernel, every _ (by decide +kernel), by decide +kernel⟩
theorem hyps_OtherOperations_2 :
    CoresWf (withOps 2 [cpyT .cpy 1]) ∧ AtHead (withOps 2 [cpyT .cpy 1]) 0 2 (cpyT .cpy 1) [] ∧ (cpyT .cpy 1).state = .field ∧
      (cpyT .cpy 1).performed = false ∧ (cpyT .cpy 1).total ≤ (cpyT .cpy 1).next ∧ (withOps 2 [cpyT .cpy 1]).lively 0 = true ∧
      (withOps 2 [cpyT .cpy 1]).doubled 0 = false :=
  ⟨rfl, rfl, rfl, rfl, by decide, rfl, rfl⟩
theorem hyps_OtherOperations_3 :
    ({ cpyT .cpyn 1 with dropped := true } : Op).dropped = true :=
  rfl
theorem hyps_OtherOperations_4 :
    AtHead (withOps 2 [cpyT .cpyn 1]) 0 2 (cpyT .cpyn 1) [] ∧ (cpyT .cpyn 1).spill = [] ∧ (cpyT .cpyn 1).dropped = false ∧ (cpyT .cpyn 1).remains = false ∧
      ((withOps 2 [cpyT .cpyn 1]).core (recTcore (cpyT .cpyn 1).recB)).launch = some 0 :=
  ⟨rfl, rfl, rfl, rfl, rfl⟩
theorem hyps_OtherOperations_5 :
    let s := withOps 4 [sfnStepT]; let u := behindT s 4 sfnStepT sfnKeys;
      AtHead s 0 4 sfnStepT [] ∧ sfnStepT.atStep = true ∧ s.lively 0 = true ∧ u.doubled 0 = false ∧ Memory.wf (u.core 0).scratch = true ∧
      (u.core 0).waiters = [] ∧ s.operands 0 4 sfnStepT sfnKeys = (some (linesT s 4 sfnStepT sfnKeys), u) ∧ HeadAfterReading u 0 4 sfnStepT (headT u 4 sfnStepT) [] ∧
      ∀ l ∈ linesOf 0x1000 4, (u.core 0).retained [l] = false :=
  ⟨rfl, rfl, rfl, by decide +kernel, by decide +kernel, by decide +kernel, reads_lines _ _ _ _ (by decide +kernel), head_after _ _ _ (by decide +kernel),
      every _ (by decide +kernel)⟩
theorem hyps_OtherOperations_6 :
    AtHead gathS 0 5 gathT [] ∧ 8 ≤ fmtBits (recFmt gathT.recA) ∧ gathT.atStep = true ∧ gathS.lively 0 = true ∧ rowS.doubled 0 = false ∧
      Memory.wf (rowS.core 0).scratch = true ∧ (rowS.core 0).waiters = [] ∧ gathS.operands 0 5 gathT idxKeys = (some idxLines, idxS) ∧
      idxS.operands 0 5 gathT' rowKeys = (some rowLines, rowS) ∧ HeadAfterReading rowS 0 5 gathT (headT rowS 5 gathT) [] ∧
      lineNat idxLines 1 0x2000 4 = 0 ∧ lineNat idxLines 1 0x2004 4 = 7 ∧
      rowS.hurdle 0 gathT [(1, gathT.gp, BitVec.ofNat 8 (lineByte rowLines 1 0x80)), (1, gathT.gp + 1, 0)] = .none :=
  ⟨rfl, by decide, rfl, rfl, by decide +kernel, by decide +kernel, by decide +kernel, reads_lines _ _ _ _ (by decide +kernel),
      reads_lines _ _ _ _ (by decide +kernel), head_after _ _ _ (by decide +kernel), by decide +kernel, by decide +kernel, by decide +kernel⟩
theorem hyps_OtherOperations_7 :
    AtHead scatS 0 5 scatT [] ∧ scatT.code = .scat ∧ scatT.atStep = true ∧ scatS.lively 0 = true ∧ scatEnd.doubled 0 = false ∧
      recSpace 0 scatT.recA = 0 + 1 ∧ Memory.wf (scatEnd.core 0).scratch = true ∧ (scatEnd.core 0).waiters = [] ∧
      scatS.operands 0 5 scatT idxKeys = (some scatIdx, scatMid) ∧ (List.range 2).filter (fun j => lineNat scatIdx 1 (0x2000 + 4 * (0 + j)) 4 < 1) = [0] ∧
      scatMid.operands 0 5 scatT' scatKeys = (some (linesT scatMid 5 scatT' scatKeys), scatEnd) ∧
      HeadAfterReading scatEnd 0 5 scatT (headT scatEnd 5 scatT) [] ∧
      scatEnd.hurdle 0 scatT [(1, 0x80, BitVec.ofNat 8 (lineByte (linesT scatMid 5 scatT' scatKeys) 1 scatT.gp))] = .none :=
  ⟨rfl, rfl, by decide +kernel, rfl, by decide +kernel, by decide +kernel, by decide +kernel, by decide +kernel,
      reads_lines _ _ _ _ (by decide +kernel), by decide +kernel, reads_lines _ _ _ _ (by decide +kernel), head_after _ _ _ (by decide +kernel),
      by decide +kernel⟩
theorem hyps_OtherOperations_8 :
    CoresWf invokingS ∧ Sparse.wf [] (invokingS.core 0).ops = true ∧ AtHead invokingS 0 6 { invokeT with state := .field, total := 1 } [] ∧
      ({ invokeT with state := .field, total := 1 } : Op).atStep = true ∧ invokingS.lively 0 = true ∧ invokingS.doubled 0 = false ∧
      invokingS.regionFor 0 0 = some (launchT, regionT) ∧ (invokingS.core 0).wait = .invocation 0 0x100002 ∧
      (invokingS.core 0).deferred = none :=
  ⟨rfl, rfl, rfl, rfl, rfl, rfl, rfl, rfl, rfl⟩
theorem hyps_OtherOperations_9 :
    AtHead (withOps 4 [pairT .sfn 1]) 0 4 (pairT .sfn 1) [] ∧ (pairT .sfn 1).performed = true ∧ (pairT .sfn 1).released = false ∧
      (withOps 4 [pairT .sfn 1]).lively 0 = true ∧ crc32 ((withOps 4 [pairT .sfn 1]).resultBytes 0 4 (pairT .sfn 1)) ≠
        crc32 (disturb ((withOps 4 [pairT .sfn 1]).resultBytes 0 4 (pairT .sfn 1)) 1) ∧
      (pairT .sfn 1).mismatches < 2 :=
  ⟨rfl, rfl, rfl, rfl, by decide +kernel, by decide⟩
theorem hyps_OtherOperations_10 :
    2 ≤ (pairT .sfn 2).mismatches :=
  by decide
theorem hyps_OtherOperations_11 :
    ∀ l, crc32 l = crc32 (disturb l 0) :=
  fun l => by rw [disturb_none]
theorem hyps_OtherOperations_12 :
    AtHead (withOps 0 [pairT .mlat 0]) 0 0 (pairT .mlat 0) [] ∧ CoresWf (withOps 0 [pairT .mlat 0]) ∧ (pairT .mlat 0).performed = true ∧
      (pairT .mlat 0).released = false ∧ (withOps 0 [pairT .mlat 0]).lively 0 = true ∧ Sparse.wf 0 ((withOps 0 [pairT .mlat 0]).core 0).arch.latchE = true ∧
      Sparse.wf 0 ((withOps 0 [pairT .mlat 0]).core 0).arch.latchS = true :=
  ⟨rfl, rfl, rfl, rfl, rfl, rfl, rfl⟩
theorem hyps_OtherOperations_13 :
    let o : Op := { pairT .mma 0 with claimed := true }; let s := withOps 0 [o];
      AtHead s 0 0 o [] ∧ CoresWf s ∧ o.performed = true ∧ s.lively 0 = true ∧ SpmWf (s.core 0) ∧ (s.core 0).waiters = [] ∧ NoClaim s 0 ∧
      256 ≤ cstrOf ((s.core 0).cfgOf 0) :=
  ⟨rfl, rfl, rfl, rfl, ⟨rfl, rfl, rfl⟩, rfl, noClaim _ _ rfl, by decide⟩
theorem hyps_OtherOperations_14 :
    let o : Op := { pairT .cpy 0 with held := [(1, 0x80, 9)] }; let s := withOps 2 [o];
      AtHead s 0 2 o [] ∧ o.performed = true ∧ s.lively 0 = true ∧ s.hurdle 0 o o.held = .none ∧
      ∀ x ∈ o.held, x.1 ≠ 0 ∧ Memory.wf (s.core (x.1 - 1)).scratch = true ∧ (s.core (x.1 - 1)).waiters = [] :=
  ⟨rfl, rfl, rfl, by decide +kernel, every _ (by decide +kernel)⟩

/-! ### Witnesses: arrivals, frames, contexts, launches -/

theorem free_s0 : Free s0 0 := by rintro l ⟨⟩; exact ⟨rfl, rfl⟩
/-- An event of a core's own. -/
def eventT : HeldEvent := ⟨0, 0, 0, 0x1000000000000000, 9⟩
/-- A state with that event held. -/
def eventS (n : Nat) : State :=
  { stateOf { coreT with arch := archT.setQ .eq (List.replicate n ⟨0, some 0, none, false⟩) } launchT with heldEvents := [eventT] }
/-- A core with a message in its outgoing buffer, and its target. -/
def messageS (m : Message) (past : Bool) : State :=
  { s0 with cores := [(0, { coreT with msgs := [m], wait := if m.steal then .steal 1 else .none }),
      (1, { otherT with entry := some 1, windowEnded := past })] }
/-- A core that waits behind a steal. -/
def waitingS (w : StreamWait) (past : Bool) : State :=
  { s0 with cores := [(0, { coreT with wait := w }), (1, { otherT with entry := some 1, windowEnded := past })] }
/-- A record on its way to core 1. -/
def transitS : State := { s0 with transits := [⟨1, 0, 0, 0, 5, recordT⟩] }
/-- The same while core 1 is in the window. -/
def windowS (n : Nat) : State :=
  { transitS with cores := [(0, coreT), (1, { otherT with run := .running, entry := some 1, deque := List.replicate n recordT })] }
/-- The same while core 1 takes no further entry. -/
def heirS : State := { transitS with cores := [(0, coreT), (1, { otherT with run := .ended })] }
theorem hyps_ArrivalsEnter_1 :
    CoresWf (eventS 126) ∧ Sparse.wf [] ((eventS 126).core 0).arch.qs = true ∧ ((eventS 126).nextEvents 0)[0]? = some eventT ∧
      (((eventS 126).core 0).arch.q .eq).length + 2 ≤ 128 ∧ eventT.sensitive = false :=
  ⟨rfl, rfl, by decide +kernel, by decide +kernel, rfl⟩
theorem hyps_ArrivalsEnter_2 :
    ((eventS 127).nextEvents 0)[0]? = some eventT ∧ 128 < (((eventS 127).core 0).arch.q .eq).length + 2 :=
  ⟨by decide +kernel, by decide +kernel⟩
theorem hyps_ArrivalsEnter_3 :
    let m : Message := ⟨1, true, false, 5⟩; let s := messageS m false;
      CoresWf s ∧ Sparse.wf [] (s.core m.target).arch.qs = true ∧ s.nextMessage 0 = some m ∧ (s.core 0).launch = some 0 ∧
      s.present 0 0 = true ∧ s.present m.target 0 = true ∧ Free s 0 :=
  ⟨rfl, rfl, rfl, rfl, rfl, rfl, by rintro l ⟨⟩; exact ⟨rfl, rfl⟩⟩
theorem hyps_ArrivalsEnter_4 :
    let m : Message := ⟨1, true, true, 0⟩; (messageS m false).nextMessage 0 = some m ∧ (messageS m false).endedWindow 0 1 = false :=
  ⟨rfl, rfl⟩
theorem hyps_ArrivalsEnter_5 :
    let m : Message := ⟨1, true, true, 0⟩; let s := messageS m true;
      CoresWf s ∧ s.nextMessage 0 = some m ∧ (s.core 0).launch = some 0 ∧ s.present 0 0 = true ∧ s.present 1 0 = true ∧ m.steal = true ∧
      s.endedWindow 0 1 = true :=
  ⟨rfl, rfl, rfl, rfl, rfl, rfl, rfl⟩
theorem hyps_ArrivalsEnter_6 :
    let s := waitingS (.answered none) false;
      CoresWf s ∧ s.launchOf 0 = some launchT ∧ s.lively 0 = true ∧ s.halted 0 = false ∧ (s.core 0).deferred = none ∧
      (s.core 0).wait = .answered none :=
  ⟨rfl, rfl, rfl, rfl, rfl, rfl⟩
theorem hyps_ArrivalsEnter_7 :
    ((waitingS (.answered (some recordT)) false).core 0).wait = .answered (some recordT) :=
  rfl
theorem hyps_ArrivalsEnter_8 :
    let s := waitingS (.steal 1) true;
      CoresWf s ∧ s.launchOf 0 = some launchT ∧ s.lively 0 = true ∧ (s.core 0).wait = .steal 1 ∧ s.endedWindow 0 1 = true :=
  ⟨rfl, rfl, rfl, rfl, rfl⟩
theorem hyps_ArrivalsEnter_9 :
    CoresWf transitS ∧ transitS.transits[0]? = some ⟨1, 0, 0, 0, 5, recordT⟩ ∧
      (∀ y ∈ transitS.transits.take 0, ¬ (y.target = 1 ∧ y.sender = 0)) ∧ transitS.present 1 0 = true ∧ Free transitS 0 ∧
      transitS.inWindow 1 ⟨1, 0, 0, 0, 5, recordT⟩ = false ∧ (transitS.core 1).run ≠ .ended :=
  ⟨rfl, rfl, by simp, rfl, free_s0, rfl, by decide⟩
theorem hyps_ArrivalsEnter_10 :
    Free heirS 0 ∧ heirS.present 1 0 = true ∧ (heirS.core 1).run = .ended ∧ (heirS.core 0).run = .running ∧
      heirS.inWindow 0 ⟨1, 0, 0, 0, 5, recordT⟩ = true ∧ (heirS.core 0).deque.length < 4096 :=
  ⟨free_s0, rfl, rfl, rfl, by decide +kernel, by decide⟩
theorem hyps_ArrivalsEnter_11 :
    ∀ n, n = 0 ∨ n = 4096 → let s := windowS n;
      (s.core 1).run = .running ∧ s.inWindow 1 ⟨1, 0, 0, 0, 5, recordT⟩ = true ∧ (s.core 1).deque.length = n :=
  by rintro _ (rfl | rfl) <;> exact ⟨rfl, rfl, by decide +kernel⟩
/-- A launch whose cores have ended their entries. -/
def restS (l : Launch) : State := { stateOf { coreT with run := .ended } l with cores := [(0, { coreT with run := .ended }), (1, { otherT with run := .ended })] }
/-- The same with a region in a state, its counters set so. -/
def regionS (l : Launch) (x : Region) : State := { restS l with modules := [{ moduleT with regions := [x] }] }
/-- The launch at the last tick of its frame, with one SGBEG of region 0. -/
def lastT : Launch := { launchT with tick := 9, sgBegs := [(0, 0, 0, 0)] }
/-- A region with its state and its warm-up count. -/
def stateT (n left : Nat) : Region := { regionT with block := [(1, BitVec.ofNat 8 n), (16, BitVec.ofNat 8 left)] }
theorem hyps_FramesAdvance_1 :
    CoresWf s0 ∧ SpmWf (s0.core 0) ∧ Sparse.wf 0 s0.errors = true ∧ s0.found = [] ∧ ∀ l, (restS l).found = [] :=
  ⟨rfl, ⟨rfl, rfl, rfl⟩, rfl, rfl, fun _ => rfl⟩
theorem hyps_FramesAdvance_places : 5 ≠ 0 ∧ 0x1FFFFF < 2097152 ∧ 0 < 288 ∧ 5 < 64 ∧ 335 < 336 ∧ 11 < 12 := by decide
theorem hyps_FramesAdvance_2 :
    let s := withArch { archT with marks := [(.s, 5)] }; let i : Instr := .add (a3 4 5 6 0 0);
      0 ∈ bundleT.order .execute ∧ bundleT.live s.part.preds 0 = some i ∧ (.s, 5) ∈ readsOf s.part.rb i ∧ (arch s).marked .s 5 = true :=
  ⟨by decide, by decide +kernel, by decide, by decide⟩
theorem hyps_FramesAdvance_3 :
    (restS { launchT with frcOn := false }).startsCounter { launchT with frcOn := false } = true :=
  rfl
theorem hyps_FramesAdvance_4 :
    ∀ l ∈ (restS { launchT with state := .waiting }).launches, (restS { launchT with state := .waiting }).counts l = false ∧
      (restS { launchT with state := .waiting }).launch? l.id = some l ∧ (restS { launchT with state := .waiting }).startsCounter l = false ∧
      (restS { launchT with state := .waiting }).endsFrame l = false :=
  every _ (by decide +kernel)
theorem hyps_FramesAdvance_5 :
    (∀ l ∈ s0.launches, s0.startsCounter l = false ∧ s0.endsFrame l = false ∧ ∀ c ∈ l.cores, (s0.startable c).isSome = false) ∧
      s0.launches = [launchT] ∧ s0.counts launchT = true ∧ s0.kernel? launchT = some kernelT ∧ launchT.record = false ∧ launchT.replay = false ∧
      s0.overdue launchT kernelT 1 = [] ∧ launchT.tick + 1 < kernelT.frameTicks :=
  ⟨every _ (by decide +kernel), rfl, rfl, rfl, rfl, rfl, by decide +kernel, by decide⟩
theorem hyps_FramesAdvance_6 :
    let l : Launch := { launchT with tick := 9, frameDone := true }; let s := restS l;
      (∀ l ∈ s.launches, s.startsCounter l = false ∧ s.endsFrame l = false ∧ ∀ c ∈ l.cores, (s.startable c).isSome = false) ∧
      s.counts l = true ∧ s.kernel? l = some kernelT ∧ s.overdue l kernelT 10 = [] ∧ l.tick + 1 = kernelT.frameTicks :=
  ⟨every _ (by decide +kernel), rfl, rfl, by decide +kernel, rfl⟩
theorem hyps_FramesAdvance_7 :
    let l : Launch := { launchT with tick := 9 }; let s := { stateOf coreT l with cores := [(0, coreT), (1, { otherT with run := .ended })] };
      (∀ l ∈ s.launches, s.startsCounter l = false ∧ s.endsFrame l = false ∧ ∀ c ∈ l.cores, (s.startable c).isSome = false) ∧
      s.counts l = true ∧ s.overdue l kernelT 10 ≠ [] ∧ l.slipAt ≠ some 10 :=
  ⟨every _ (by decide +kernel), rfl, by decide +kernel, by decide⟩
theorem hyps_FramesAdvance_8 :
    let l : Launch := { launchT with frcOn := false }; (restS l).launch? 0 = some l ∧ l.state = .running ∧ l.pinned = none ∧ l.startTick ≤ (restS l).gtc :=
  ⟨rfl, rfl, rfl, by decide⟩
theorem hyps_FramesAdvance_9 :
    let s := stateOf coreT { launchT with tick := 5 }; s.startable 1 = some (1, 0, ⟨1, 3, true, 5, 0x100000⟩) :=
  by decide +kernel
theorem hyps_FramesAdvance_10 :
    let x := stateT 4 0; let s := regionS lastT x;
      s.launch? 0 = some lastT ∧ s.endsFrame lastT = true ∧ s.holds lastT = true ∧ lastT.cfgs = [] ∧ lastT.samples = [] ∧ x.state = 4 ∧
      lastT.sgBegs.filter (fun b => b.1 == 0) ≠ [] ∧ x.invAt ≠ some (0, 0) :=
  ⟨rfl, by decide +kernel, rfl, rfl, rfl, by decide +kernel, by decide, by decide⟩
theorem hyps_FramesAdvance_11 :
    let x := stateT 3 2; let s := regionS lastT x;
      s.endsFrame lastT = true ∧ x.state = 3 ∧ (lastT.sgBegs.filter fun b => b.1 == 0).length < x.word64 0x10 % 2 ^ 32 :=
  ⟨by decide +kernel, by decide +kernel, by decide +kernel⟩
theorem hyps_FramesAdvance_12 :
    let x := stateT 3 1; x.state = 3 ∧ x.word64 0x10 % 2 ^ 32 ≤ (lastT.sgBegs.filter fun b => b.1 == 0).length :=
  ⟨by decide +kernel, by decide +kernel⟩
theorem hyps_FramesAdvance_13 :
    let l : Launch := { lastT with grantNo := 0 }; (restS l).endsFrame l = true ∧ (restS l).holds l = false :=
  ⟨by decide +kernel, by decide +kernel⟩
/-- A context with an event area and a post that waits. -/
def areaS : State :=
  { s0 with contexts := [(1, some { contextT with area := some ⟨0x1000, 64, 0x2000, 0x2008, 63⟩, posts := [(1, 2)] })] }
/-- The same package without a launch. -/
def idleS : State := { s0 with launches := [], cores := [] }
theorem hyps_ContextCommands_1 :
    State.reset.markhor.booted = false :=
  rfl
theorem hyps_ContextCommands_2 :
    s0.markhor.booted = true ∧ s0.asidFree 2 = true :=
  ⟨rfl, rfl⟩
theorem hyps_ContextCommands_3 :
    s0.context? 1 = some contextT ∧ contextT.live = true ∧ s0.hasLaunch 1 = true ∧ contextT.tearing = none :=
  ⟨rfl, rfl, rfl, rfl⟩
theorem hyps_ContextCommands_4 :
    idleS.hasLaunch 1 = false :=
  rfl
theorem hyps_ContextCommands_5 :
    0x1000 % 16 = 0 ∧ ∃ i, i < 11 ∧ 65536 = 2 ^ (6 + i) :=
  ⟨rfl, 10, by decide, rfl⟩
theorem hyps_ContextCommands_6 :
    ∃ c, c < 288 ∧ c ∈ [287, 300] :=
  ⟨287, by decide, by decide⟩
theorem hyps_ContextCommands_7 :
    s0.ringHeld = [] :=
  rfl
theorem hyps_ContextCommands_8 :
    let s := { s0 with slotTables := [(1, 0x80000001)], slotCycle := [(0, 1)], slotUsed := [(0, 1)] };
      Sparse.wf 0 s.slotCycle = true ∧ Sparse.wf 0 s.slotTables = true ∧ Sparse.get 0 s.slotUsed 0 = Sparse.get 0 s.slotCycle 0 ∧
      Sparse.get 0 s.slotCycle 0 % 64 ≠ 0 ∧ (Sparse.get 0 s.slotTables (64 * 0 + 1 % 64)).getLsbD 31 = true ∧
      (Sparse.get 0 s.slotTables (64 * 0 + 1 % 64)).toNat % 4096 = 1 ∧ 1 ∈ [1] ∧ s.mayRequest 1 = true :=
  ⟨rfl, rfl, rfl, by decide, rfl, by decide, by decide, by decide +kernel⟩
theorem hyps_ContextCommands_9 :
    let s := { s0 with slotCycle := [(0, 2)], slotUsed := [(0, 1)] };
      ¬ Sparse.get 0 s.slotUsed 0 = Sparse.get 0 s.slotCycle 0 ∧ (Sparse.get 0 s.slotTables (64 * 0 + 1 % 64)).getLsbD 31 = false ∧
      1 ∈ [1, 7] ∧ s.mayRequest 1 = true ∧ Sparse.get 0 s.slotServed 0 < 1 ∧
      ∀ y, (y ∈ [1, 7] ∧ s.mayRequest y = true) → Sparse.get 0 s.slotServed 0 < y → 1 ≤ y :=
  ⟨by decide, rfl, by decide, by decide +kernel, by decide, fun _ _ h => h⟩
theorem hyps_ContextCommands_10 :
    Sparse.wf 0 s0.slotCycle = true ∧ Sparse.get 0 s0.slotUsed 0 = Sparse.get 0 s0.slotCycle 0 ∧ Sparse.get 0 s0.slotCycle 0 % 64 = 0 :=
  ⟨rfl, rfl, rfl⟩
theorem hyps_ContextCommands_11 :
    s0.launch? 0 = some launchT ∧ launchT.state = .running :=
  ⟨rfl, rfl⟩
theorem hyps_ContextCommands_12 :
    let l : Launch := { launchT with debugHalted := true, state := .preempted }; (stateOf coreT l).launch? 0 = some l ∧ l.state ≠ .running :=
  ⟨rfl, by decide⟩
theorem hyps_ContextCommands_13 :
    let l : Launch := { launchT with debugHalted := true, cores := [0] };
      CoresWf (stateOf coreT l) ∧ (stateOf coreT l).launch? 0 = some l ∧ l.debugHalted = true ∧ l.cores = [0] ∧ l.state = .running ∧
      Sparse.wf [] ((stateOf coreT l).core 0).ops = true :=
  ⟨rfl, rfl, rfl, rfl, rfl, rfl⟩
theorem hyps_ContextCommands_14 :
    Memory.wf areaS.host = true ∧ areaS.ringHeld = [] ∧ areaS.context? 1 = some { contextT with
        area := some ⟨0x1000, 64, 0x2000, 0x2008, 63⟩, posts := [(1, 2)] } ∧
      (63 + 2 ^ 64 - leNat (memBytes areaS.host 0x2008 8) 8) % 2 ^ 64 ≠ 64 :=
  ⟨rfl, rfl, rfl, by decide +kernel⟩

/-! ### Witnesses: launches granted and ended -/

/-- The eight words of a record for kernel 0 of module 1 on core set 1. -/
def wordsT : List W64 := [1, 0, 0, 0, 0, 1, 0, 0]
/-- A context whose core set 1 is cores 2 and 3. -/
def setS : State := { s0 with contexts := [(1, some { contextT with coreSets := [(1, [2, 3])] })] }
/-- A launch that waits for core 0, of an address space with a rank, on its own or with the running launch. -/
def waitT (asid : Nat) : Launch := { launchT with id := 1, asid := asid, cores := [0], state := .waiting, grantNo := 0 }
/-- Launches, the cores 0 and 1 held by launch 0 or free, and two address spaces of ranks 2 and 5. -/
def grantS (l : List Launch) (k : List (Nat × Core)) : State :=
  { s0 with launches := l, cores := k, contexts := [(1, some contextT), (2, some { contextT with rank := 5 })] }
/-- A launch that is halting on its cores, and core 0 asked to halt. -/
def haltS (cores : List Nat) : State :=
  { stateOf { coreT with halt := .requested } { launchT with state := .halting, cores := cores } with ring := none }
theorem hyps_LaunchesGranted_1 :
    s0.context? 1 = some contextT ∧ contextT.live = true ∧ s0.recordStatus 1 (launchRec wordsT) ≠ 0 :=
  ⟨rfl, rfl, by decide +kernel⟩
theorem hyps_LaunchesGranted_2 :
    setS.recordStatus 1 (launchRec wordsT) = 0 :=
  by decide +kernel
theorem hyps_LaunchesGranted_3 :
    let s := grantS [waitT 2] []; CoresWf s ∧ s.launchMsgs = [] ∧ s.waiters = [waitT 2] ∧ (waitT 2).held.flatMap s.holders = [] :=
  ⟨rfl, rfl, by decide +kernel, by decide +kernel⟩
theorem hyps_LaunchesGranted_4 :
    let s := grantS [launchT, waitT 1] s0.cores;
      s.waiters = [waitT 1] ∧ ∀ h ∈ (waitT 1).held.flatMap s.holders, s.launchRank (waitT 1) ≤ s.launchRank h :=
  ⟨by decide +kernel, every _ (by decide +kernel)⟩
theorem hyps_LaunchesGranted_5 :
    let s := grantS [launchT, waitT 2] s0.cores;
      CoresWf s ∧ s.waiters = [waitT 2] ∧ (waitT 2).held.flatMap s.holders = [launchT] ∧ s.launchRank launchT < s.launchRank (waitT 2) ∧
      s.launch? 0 = some launchT ∧ launchT.state = .running :=
  ⟨rfl, by decide +kernel, by decide +kernel, by decide +kernel, rfl, rfl⟩
theorem hyps_LaunchesGranted_6 :
    let l : Launch := { waitT 1 with state := .granting }; let s := grantS [l] [];
      CoresWf s ∧ s.launch? 1 = some l ∧ s.kernel? l = some kernelT ∧ l.grantNo = 0 ∧ (∀ c ∈ l.held, (s.core c).launch = none ∧ (s.core c).retention = []) ∧
      l.replay = false ∧ l.doubles = false ∧ l.cores.Nodup :=
  ⟨rfl, rfl, rfl, rfl, every _ (by decide +kernel), rfl, rfl, by decide⟩
theorem hyps_LaunchesGranted_7 :
    ∀ cores, cores = [0, 1] ∨ cores = [0] → let l : Launch := { launchT with state := .halting, cores := cores }; let s := haltS cores;
      CoresWf s ∧ s.launchOf 0 = some l ∧ l.pinned = none ∧ (s.core 0).halt = .requested ∧ (s.core 0).stands = true ∧
      (s.core 0).opsParked = true ∧ (s.core 0).out = [] ∧ (∀ v, (s.core 0).wait ≠ .steal v) ∧ (s.core 0).offs = [] ∧
      (s.core 0).unchecked = [] ∧ (s.core 0).seg.errorAt = none ∧ (s.core 0).seg.bad = false ∧ (s.core 0).seg.commit = [] ∧
      (s.core 0).arch.accs = [] ∧ (s.core 0).side.length ≤ 256 ∧ s.banksAwake l 0 = true ∧
      (s.core 1).halt ≠ .saved := by
  rintro _ (rfl | rfl) <;> exact ⟨rfl, rfl, rfl, rfl, rfl, by decide +kernel, rfl, (fun v h => nomatch h), rfl, rfl, rfl, rfl, rfl, rfl, by decide, by decide +kernel, by decide⟩
theorem hyps_LaunchesGranted_8 :
    let l : Launch := { launchT with state := .granting, cores := [0] };
      let s := grantS [l] [(288, { coreT with halt := .saved })];
      CoresWf s ∧ s.launch? 0 = some l ∧ l.grantNo ≠ 0 ∧ (s.core 0).launch = none ∧ (s.core 0).retention = [] ∧ numCores * (0 + 1) + 0 = 288 ∧
      ∀ v, (s.core 288).wait ≠ .steal v := by
  refine ⟨rfl, rfl, by decide, rfl, rfl, rfl, ?_⟩
  exact fun v h => nomatch h
/-- A launch whose cores have finished, of a module without regions. -/
def doneS (l : Launch) : State := { restS l with modules := [{ moduleT with regions := [] }] }
theorem hyps_LaunchesEnd_1 :
    ∀ larea, larea = 0 ∨ larea = 0x100000 → let l : Launch := { launchT with larea := larea }; let s := doneS l; let u := s.processFrame 0;
      CoresWf u ∧ Memory.wf u.csm = true ∧ s.launch? 0 = some l ∧ l.state = .running ∧ l.pinned = none ∧ l.debugHalted = false ∧
      (∀ c ∈ l.cores, (s.core c).finished = true) ∧ s.kernel? l = some kernelT ∧ u.kernel? l = some kernelT ∧ l.replayLog = [] ∧
      u.digestMessage l kernelT.table kernelT.outs = (.got [], u) ∧ l.log = [] ∧ (∀ c ∈ l.cores, (u.core c).launch = some l.id) ∧
      (larea ≠ 0 → lookup kernelT.table .write l.larea = .at 0 entryT (.csm 0xA500000000) ∧ larea % 512 = 0) := by
  rintro _ (rfl | rfl) <;> exact ⟨rfl, rfl, rfl, rfl, rfl, rfl, every _ (by decide +kernel), rfl, rfl, rfl, rfl, rfl,
    every _ (by decide +kernel), by decide +kernel⟩
theorem hyps_LaunchesEnd_2 :
    (bytesOfVals (shake256 (([] : List Byte).map (·.toNat)) 32)).length = 32 :=
  by decide +kernel
theorem hyps_LaunchesEnd_3 :
    let l : Launch := { launchT with replay := true, ran := 2 ^ 20, replayLog := [(⟨2, 0, 7, 0, 0⟩, false)], holds := [⟨2, 7, 0, 0, 0⟩] };
      (restS l).launch? 0 = some l ∧ l.replay = true ∧ l.state = .running ∧ l.pinned = none ∧ l.replayLog[0]? = some (⟨2, 0, 7, 0, 0⟩, false) ∧
      ∃ h ∈ l.holds, 2 ^ 20 ≤ l.ran - h.since ∧ 2 = h.kind ∧ 7 = h.tgt :=
  ⟨rfl, rfl, rfl, rfl, rfl, _, .head _, by decide, rfl, rfl⟩
theorem hyps_LaunchesEnd_4 :
    ∀ h ∈ launchT.holds, launchT.ran - h.since < 2 ^ 20 :=
  every _ rfl
theorem hyps_LaunchesEnd_5 :
    ∀ st, st = .running ∨ st = .ending → let l : Launch := { launchT with state := st, pinned := some (5, 0), cores := [0] };
      let s := { restS l with ring := none };
      CoresWf s ∧ s.launch? 0 = some l ∧ (s.core 0).launch = some l.id ∧ l.doubles = false ∧ (s.core 0).out = [] ∧ (s.core 0).side = [] ∧
      l.larea = 0 ∧ s.ring = none := by
  rintro _ (rfl | rfl) <;> exact ⟨rfl, rfl, rfl, rfl, rfl, rfl, rfl, rfl⟩
theorem hyps_LaunchesEnd_6 :
    ∀ ls : List Launch, ls = [] ∨ ls = [waitT 1] → let s := { idleS with
        launches := ls, contexts := [(1, some { contextT with tearing := some (9, []) })], ring := none };
      s.context? 1 = some { contextT with tearing := some (9, []) } ∧ s.ring = none ∧ Sparse.wf none s.contexts = true ∧
      (∀ l ∈ s.launches, l.asid = 1 ∧ l.state ≠ .ended ∧ l.grantNo = 0) := by
  rintro _ (rfl | rfl)
  · exact ⟨rfl, rfl, rfl, fun _ h => nomatch h⟩
  · exact ⟨rfl, rfl, rfl, every _ (by decide +kernel)⟩

/-! ### Witnesses: subpages -/

/-- The kernel with its code in an entry of its own. -/
def kernelC : Kernel := { kernelT with codeEntry := 2 }
/-- A state with that kernel and the launch, and what the controller holds. -/
def movesS (code : Nat) (f : List FaultReq) (m : List Migration) (h : List HoldOff) : State :=
  { s0 with modules := [{ moduleT with kernels := [{ kernelT with codeEntry := code }] }], faults := f, migrations := m, holdOffs := h }
/-- Subpage 0 of the entry without any subpage present. -/
def subT : Sub := ⟨1, 0, 1, 0⟩
/-- Subpage 0 of the entry at 0x300000. -/
def subH : Sub := ⟨1, 0, 2, 0⟩
/-- A migration of that subpage. -/
def goesT (k : MigKind) (p : MigPhase) (w : List Nat) (old : Nat) : Migration := ⟨1, 1, 0, 1, 0, 0x10000, 0x10400, k, p, w, 0, old⟩
/-- A move of that subpage to the device. -/
def moveT (p : MigPhase) (w : List Nat) : Migration := goesT .toDevice p w 0
/-- A state in which nothing has been asked of the controller, with a kernel's code in an entry. -/
def calmS (code : Nat) : State := movesS code [] [] []
/-- The same while another address space that holds the host memory at `base` is being torn down. -/
def tornS (base : Nat) : State := { calmS 0 with
  modules := (calmS 0).modules ++ [{ moduleT with handle := 2, asid := 2, kernels := [], hostMem := [(base, 0x1000)] }]
  contexts := [(1, some contextT), (2, some { contextT with tearing := some (9, []) })] }
/-- What the two sectors of a subpage that moves give, and the states between them. -/
def gotT (s : State) (i : Nat) : (List Byte × Bool) × State := s.readPlace 1 (.hbm (0x10000 + 512 * i) 0) 512
def copiedT (s : State) : State := { (gotT s 0).2 with host := putMem (gotT s 0).2.host 0 (gotT s 0).1.1 }
theorem moves_named :
    (calmS 0).named 1 1 0x300000 = [subH].map (fun x => [x]) ∧ (calmS 0).markhor.booted = true ∧ (calmS 0).isLive 1 = true ∧
      [subH].length = 1 ∧ ∀ kind ∈ [MigKind.toDevice, .toHost, .duplicate, .unmap],
        (calmS 0).mayMove kind subH = true ∧ ¬ ((kind = .toHost ∨ kind = .duplicate) ∧ (calmS 0).givesAway 1 0 subH = true) :=
  ⟨by decide +kernel, rfl, rfl, rfl, every _ (by decide +kernel)⟩
theorem moves_refused :
    ((∀ i, i = 0x100000 → (calmS 0).named 1 1 i = [⟨1, 0, 0, 0⟩].map (fun x => [x])) ∧ (calmS 0).mayMove .toHost ⟨1, 0, 0, 0⟩ = false) ∧
      (tornS 0x8000).named 1 1 0x300000 = [subH].map (fun x => [x]) ∧ (tornS 0x8000).givesAway 1 0x8000 subH = true :=
  ⟨⟨fun _ h => h ▸ by decide +kernel, by decide +kernel⟩, by decide +kernel, by decide +kernel⟩
theorem moves_absent : ∀ code, code = 0 ∨ code = 1 → let s := calmS code;
    s.launchOf 0 = some launchT ∧ lookup (s.core 0).table .read 0x200000 = .absent 1 0 ∧ s.subEntry subT = some absentT ∧
      s.heldOff 1 false subT = false ∧ s.migrating 1 subT = false ∧ absentT.stateOf 0 ≠ 2 ∧
      s.faultOf 1 true subT = none ∧ s.faultOf 1 false subT = none ∧ s.isCode subT = decide (code = 1) := by
  rintro _ (rfl | rfl) <;> exact ⟨rfl, by decide +kernel, rfl, by decide +kernel, by decide +kernel, by decide +kernel, rfl, rfl, by decide +kernel⟩
theorem moves_asked :
    let s := calmS 0;
    s.subsAt 1 0x200000 = [subT] ∧ s.subEntry subT = some absentT ∧ absentT.movable = true ∧ s.isCode subT = false ∧
      ¬ (absentT.stateOf 0 = 1 ∧ absentT.has 0 = true) ∧ absentT.stateOf 0 ≠ 2 ∧ s.heldOff 1 true subT = false ∧ s.migrating 1 subT = false ∧
      s.faultOf 1 false subT = none ∧ s.faultOf 1 true subT = none :=
  ⟨by decide +kernel, rfl, by decide +kernel, by decide +kernel, by decide +kernel, by decide +kernel, by decide +kernel, by decide +kernel,
    rfl, rfl⟩
theorem moves_begin :
    (let m := moveT .queued []; let s := movesS 0 [] [m] [];
      s.migrations[0]? = some m ∧ s.subEntry m.at = some absentT ∧ s.mustWait 0 m = false ∧ s.atHome m absentT = false) ∧
    (let m : Migration := ⟨1, 1, 0, 2, 0, 0x20000, 0x20400, .toDevice, .queued, [], 0, 0⟩; let s := movesS 2 [] [m] [];
      s.migrations[0]? = some m ∧ s.subEntry m.at = some hbmT ∧ s.mustWait 0 m = false ∧ s.atHome m hbmT = true) ∧
    (let m := moveT .queued []; let s := movesS 0 [] [m, m] []; s.migrations[1]? = some m ∧ s.mustWait 1 m = true) :=
  ⟨⟨rfl, rfl, by decide +kernel, by decide +kernel⟩, ⟨rfl, rfl, by decide +kernel, by decide +kernel⟩, rfl, by decide +kernel⟩
theorem moves_end :
    (let m := moveT .invalidating []; let s := movesS 0 [] [m] [];
      s.migrations[0]? = some m ∧ (∀ x ∈ m.waiting, s.hasContext x = false) ∧ m.direction = none) ∧
    (let m := goesT .toDevice .invalidating [] 1; let s := movesS 0 [] [m] [];
      s.migrations[0]? = some m ∧ s.subEntry m.at = some absentT ∧ m.direction = some false ∧ Memory.wf s.host = true) ∧
    (let m := goesT .toHost .invalidating [] 0; let s := movesS 0 [] [m] [];
      s.migrations[0]? = some m ∧ s.subEntry m.at = some absentT ∧ m.direction = some true ∧ Memory.wf s.host = true ∧
      (gotT s 0).1.2 = false ∧ (gotT s 0).1.1.length = 512 ∧ (gotT (copiedT s) 1).1.1.length = 512) :=
  ⟨⟨rfl, (fun _ h => nomatch h), by decide +kernel⟩, ⟨rfl, rfl, by decide +kernel, rfl⟩,
    rfl, rfl, by decide +kernel, rfl, by decide +kernel, by decide +kernel, by decide +kernel⟩
theorem moves_invalidate :
    let m := moveT .invalidating [288]; let s := movesS 0 [] [m] [];
    let busyS : State := { s with cores := [(0, { coreT with out := [⟨6, .store [(0x200000, [1])], 0, 1, false, 0⟩] }), (1, otherT)] };
    (CoresWf s ∧ s.migrations[0]? = some m ∧ s.subEntry m.at = some absentT ∧ s.contextCode 0 = some 288 ∧ 288 ∈ m.waiting) ∧
      subT ∈ s.aliases m.asid m.lo m.hi ∧ 0 ∈ s.keysWith subT ∧
      (∀ x ∈ s.aliases m.asid m.lo m.hi, (s.subEntry x).any (fun f => (s.core 0).writesTo f x.sub) = false) ∧
      subT ∈ busyS.aliases m.asid m.lo m.hi ∧ 0 ∈ busyS.keysWith subT ∧ busyS.subEntry subT = some absentT ∧
      (busyS.core 0).writesTo absentT subT.sub = true :=
  ⟨⟨rfl, rfl, rfl, rfl, by decide⟩, by decide +kernel, by decide +kernel, every _ (by decide +kernel), by decide +kernel, by decide +kernel, rfl,
    by decide +kernel⟩
theorem hyps_SubpagesMove :
    (let g : FaultReq := ⟨1, 1, 0, 1, 0, true, false, []⟩; let s := movesS 0 [g] [] []; s.faultOf 1 true subT = some g) ∧
    (∀ b, let h : HoldOff := ⟨⟨1, 1, 0, 1, 0, b, true, []⟩⟩; let s := movesS 0 [] [] [h];
      s.holdOffs[0]? = some h ∧ s.subEntry h.entry.at = some absentT ∧
      s.faultOf h.entry.asid h.entry.byHost h.entry.at = none) ∧
    (let f : FaultReq := ⟨1, 1, 0, 1, 0, false, false, [(0, false)]⟩; let s := movesS 0 [f] [] [];
      s.markhor.booted = true ∧
      (s.faults.filter fun g => g.asid == 1 && !g.byHost && (s.subsAt 1 0x200000).any fun x => s.sameSub 1 g.at x) = [f] ∧
      s.subEntry f.at = some absentT ∧ s.launch? 0 = some launchT ∧ launchT.pinned = none) :=
  ⟨by decide +kernel, fun b => by cases b <;> exact ⟨rfl, rfl, by decide +kernel⟩, rfl, by decide +kernel, rfl, rfl, rfl⟩

/-! ### Witnesses: stacked memory -/

/-- Stack 1 with the metadata and check bytes of its first local sector, which holds physical address 0. -/
def dramT (m : List Nat) : Memory :=
  ((m.mapIdx fun i x => (2 ^ 36 + 7680 + i, BitVec.ofNat 8 x)).filter fun x => x.2 ≠ 0)
/-- A state with a stacked memory. -/
def hbmS (h : Hbm) : State := { s0 with hbm := h, ring := none }
/-- The check symbols of the poisoned zero image, and its metadata and check bytes. -/
def poisonW : List Nat := [43313, 15705, 17053, 58769, 49157, 50857, 51445, 52487, 26535, 55197] ++ imgLost
def poisonB : List Nat := [0, 0, 0, 0, 0, 0, 0, 0, 0, 0, 0, 0x80] ++ valsOf (bytesOfSymbols (poisonW.take 10))
/-- Zero bytes stored under key 5: metadata and check bytes. -/
def keyW : List Nat :=
  [32496, 21346, 24696, 4534, 46737, 26237, 45357, 33937, 60923, 50856] ++ List.replicate 256 0 ++ [6909, 21265, 56602, 937, 0, 0x500]
def keyB : List Nat := valsOf (bytesOfSymbols (keyW.drop 266)) ++ valsOf (bytesOfSymbols (keyW.take 10))
/-- A stacked memory whose physical address 0 holds an image. -/
def holdsT (b : List Nat) : Hbm := { Hbm.reset with dram := dramT b }
/-- An access to physical address 0 at reset, as its controller makes it: the state before, and the word that it receives. -/
def askT : Asker := ⟨1, 0⟩
def flippedT (h : Hbm) (flips : List (Nat × Byte)) : Hbm := (h.flipCells 1 0 flips).expect []
def touched (h : Hbm) (flips : List (Nat × Byte)) : Hbm := ((flippedT h flips).touch 1 0 askT).transfer 1 0 (rawData 0) askT
def decoded (h : Hbm) (flips : List (Nat × Byte)) : Option (List Nat × Nat) := rsDecode ((touched h flips).word 1 0)
/-- Where physical address 0 lies, and what its controller makes of it. -/
def spotT : Spot := Hbm.reset.spot 0
def foundT (h : Hbm) (flips : List (Nat × Byte)) : Option (List Nat) × Hbm := (flippedT h flips).image spotT askT
/-- What the rest of its row gives. -/
def rebuilt (h : Hbm) : Option (List Nat) × Hbm := h.reconstruct spotT askT
/-- Six symbols in error. -/
def sixFlips : List (Nat × Byte) := [(0, 1), (2, 1), (4, 1), (6, 1), (8, 1), (10, 1)]
/-- Stacks that are lost. -/
def lostT (l : List Nat) : Hbm := { Hbm.reset with lost := l }
/-- The parity delta of that sector. -/
def deltaT : Delta := ⟨0, 0, 0, 1, List.replicate 262 1, 0, 0, 1, none⟩
theorem spot_zero : spotT.data = 1 ∧ spotT.sector = 0 ∧ spotT.parity = 0 ∧ (hbmS Hbm.reset).hbmReady 0 = true ∧ State.reset.hbmReady 0 = false :=
  ⟨rfl, rfl, rfl, rfl, rfl⟩
theorem sound_zero : ∀ l ∈ [[], [(0, (1 : Byte))], sixFlips],
    (flippedT Hbm.reset l).gone 1 0 = false ∧ (touched Hbm.reset l).gone 1 0 = false := every _ (by decide +kernel)
theorem decoded_zero : decoded Hbm.reset [] = some (List.replicate 272 0, 0) := by decide +kernel
theorem decoded_flipped : decoded Hbm.reset [(0, 1)] = some (List.replicate 272 0, 1) := by decide +kernel
theorem decoded_lost : decoded Hbm.reset sixFlips = none := by decide +kernel
theorem rebuilt_zero :
    (rebuilt (touched Hbm.reset sixFlips)).1 = some imgZero ∧ (rebuilt (touched Hbm.reset sixFlips)).2.gone 1 0 = false := by decide +kernel
theorem rebuilt_none : decoded (lostT [2]) sixFlips = none ∧ (rebuilt (touched (lostT [2]) sixFlips)).1 = none := by decide +kernel
theorem rebuilt_gone : (lostT [1]).gone 1 0 = true ∧ (rebuilt (lostT [1])).1 = some imgZero ∧ (rebuilt (lostT [1])).2.gone 1 0 = true := by
  decide +kernel
theorem rebuilt_neither : (lostT [1, 2]).gone 1 0 = true ∧ (rebuilt (lostT [1, 2])).1 = none := by decide +kernel
theorem found_zero : (foundT Hbm.reset []).1 = some imgZero ∧ imgPoison imgZero = false ∧ (foundT Hbm.reset []).2.barred 0 = false ∧
    imgKey imgZero = 0 := by decide +kernel
theorem found_poison : (foundT (holdsT poisonB) []).1 = some (poisonW.drop 10) ∧ imgPoison (poisonW.drop 10) = true := by decide +kernel
theorem found_barred : (foundT { Hbm.reset with retired := [0] } []).1 = some imgZero ∧
    (foundT { Hbm.reset with retired := [0] } []).2.barred 0 = true := by decide +kernel
theorem found_key : (foundT (holdsT keyB) []).1 = some (keyW.drop 10) ∧ imgPoison (keyW.drop 10) = false ∧
    (foundT (holdsT keyB) []).2.barred 0 = false ∧ imgKey (keyW.drop 10) = 5 := by decide +kernel
theorem found_tag : (foundT (holdsT keyB) []).2.tagOf 5 0 (imgMisc (keyW.drop 10)) (imgData (keyW.drop 10)) = imgTag (keyW.drop 10) := by
  decide +kernel
theorem found_none : (foundT (lostT [1, 2]) []).1 = none := by decide +kernel
/-- A stacked memory as a write finds it: no unit lost, no error to come, the line in the cache, the cells canonical. -/
def Writable (h : Hbm) : Prop :=
  h.gone 1 0 = false ∧ h.gone 0 0 = false ∧ h.bus = [] ∧ (h.line? 1 (groupOf 0)).isSome = true ∧ Memory.wf h.dram = true
theorem found_writable : Writable (foundT Hbm.reset []).2 :=
  ⟨by decide +kernel, by decide +kernel, by decide +kernel, by decide +kernel, by decide +kernel⟩
theorem cached_zero : Hbm.reset.line? 1 (groupOf 0) = none ∧
    (Hbm.reset.cache.filter fun l => l.stack == 1 && l.group % 32 == channelOf 0).length < 128 ∧
    rsDecode ((Hbm.reset.touch 1 0 askT).word 1 0) = some (List.replicate 272 0, 0) := ⟨rfl, by decide, by decide +kernel⟩
theorem delta_applies : ({ Hbm.reset with deltas := [deltaT] } : Hbm).deltas[0]? = some deltaT ∧
    (({ Hbm.reset with deltas := [deltaT] } : Hbm).seek 0 0 askT).1 = some imgZero ∧
    ({ lostT [0] with deltas := [deltaT] } : Hbm).gone deltaT.stack deltaT.sector = true := ⟨rfl, by decide +kernel, by decide +kernel⟩
theorem hyps_StackedMemory :
    (∃ h : Hbm, h.lanes = s0.hbm.lanes ∧ h.failed = s0.hbm.failed) ∧ 5 % 16 = 5 ∧ 5 ≠ 6 % 16 ∧ (List.replicate 512 (7 : Byte)).length = 512 ∧
      Hbm.reset.barred 0 = false ∧ (List.replicate 511 (7 : Byte)).length ≠ 512 ∧ (0 : Nat) % 512 = 0 :=
  ⟨⟨s0.hbm, rfl, rfl⟩, rfl, by decide, List.length_replicate, rfl, by decide +kernel, rfl⟩
theorem hyps_StacksMaintained_1 :
    11 ∉ Hbm.reset.lost ∧ (∀ d ∈ [deltaT], d.data ≠ 11) ∧ (hbmS Hbm.reset).ring = none :=
  ⟨by decide, every _ (by decide +kernel), rfl⟩
theorem hyps_StacksMaintained_2 :
    deltaT.data = 1 ∧ deltaT.core < 288 ∧ (hbmS Hbm.reset).launch? deltaT.launch = some launchT ∧ launchT.pinned = none :=
  ⟨rfl, by decide, rfl, rfl⟩
theorem hyps_StacksMaintained_3 :
    let d := { deltaT with core := 288 }; (hbmS { Hbm.reset with deltas := [d] }).hbm.deltas = [d] ∧ d.data = 1 ∧ 288 ≤ d.core :=
  ⟨rfl, rfl, by decide⟩
theorem hyps_StacksMaintained_4 :
    let s := hbmS (lostT [11]);
      s.markhor.booted = true ∧ s.hbm.lost.length = 1 ∧ s.hbm.cursor = none ∧ s.mapsHigh = false ∧ 11 ∈ s.hbm.lost :=
  ⟨rfl, rfl, rfl, by decide +kernel, by decide⟩
theorem hyps_StacksMaintained_5 :
    ¬ Hbm.reset.lost.length = 1 :=
  by decide
theorem hyps_StacksMaintained_6 :
    let h := { lostT [11] with cursor := some 20480 }; h.deltas = [] ∧ h.bus = [] ∧ h.cursor = some 20480 ∧ 20480 ≠ 0 :=
  ⟨rfl, rfl, rfl, by decide⟩
theorem hyps_StacksMaintained_7 :
    Hbm.reset.cursor = none :=
  rfl
theorem hyps_StacksMaintained_8 :
    let s := hbmS { Hbm.reset with quarantined := [(hbmEnd, 1), (0, 1)] };
      s.hbm.quarantined[0]? = some (hbmEnd, 1) ∧ hbmEnd % 128 = 0 ∧ s.ring = none ∧ Memory.wf s.csm = true ∧
      Sparse.wf false s.csmMarks = true ∧ s.hbm.quarantined[1]? = some (0, 1) ∧ 0 < hbmEnd ∧ s.hbm.quarantined.length ≤ 2 :=
  ⟨rfl, rfl, rfl, rfl, rfl, rfl, by decide, by decide⟩
theorem hyps_StacksMaintained_9 :
    s0.markhor.booted = true ∧ s0.keyInUse 5 = false ∧ s0.keyInUse 0 = true :=
  ⟨rfl, by decide +kernel, by decide +kernel⟩

/-! ### Witnesses: modules, the package, operand forms, rules over all instructions -/

/-- A context that is being torn down. -/
def fallingT : Context := { contextT with tearing := some (9, []) }
theorem hyps_ModulesAndPackage :
    (s0.context? 1 = some contextT ∧ contextT.live = true) ∧
    (idleS.module? 1 = some moduleT ∧ idleS.markhor.booted = true ∧ idleS.inUse 1 = false ∧
      ∀ x, idleS.context? moduleT.asid = some x → x.tearing = none) ∧
    (s0.module? 1 = some moduleT ∧ s0.inUse 1 = true) ∧
    (let s := { idleS with contexts := [(1, some fallingT)] };
      s.module? 1 = some moduleT ∧ s.inUse 1 = false ∧ s.context? moduleT.asid = some fallingT ∧ fallingT.tearing ≠ none) ∧
    (moduleT.regions[0]? = some regionT ∧ s0.running 1 = true ∧ idleS.running 1 = false ∧ Memory.wf regionT.block = true ∧
      ∀ off ∈ [0, 8, 0x10, 0x18, 0x38, 0x40, 0x78, 0x80, 0xF8, 0x100, 0x37F8, 0x3800, 0x7FF8], off % 8 = 0 ∧ off < 32768) ∧
    (s0.markhor.identity = none ∧
      ({ s0 with markhor := { s0.markhor with identity := some [1] } } : State).markhor.identity = some [1] ∧ s0.markhor.booted = true) :=
  ⟨⟨rfl, rfl⟩, ⟨rfl, rfl, by decide +kernel, fun x h => Option.some.inj h ▸ rfl⟩, ⟨rfl, by decide +kernel⟩,
    ⟨rfl, by decide +kernel, rfl, by decide⟩, ⟨rfl, by decide +kernel, by decide +kernel, rfl, every _ (by decide +kernel)⟩, rfl, rfl, rfl⟩
theorem hyps_OperandForms :
    popPort 56 = some .lq0 ∧ (arch (withArch queued)).q .lq0 = [⟨0, some 9, none, false⟩] ∧ (arch s0).q .lq0 = [] ∧
    (64 ≤ (119 : BitVec 7).toNat ∧ (119 : BitVec 7).toNat < 120 ∧ 8192 % 32 = 0) ∧ (62 : BitVec 7).toNat = 62 ∧ (55 : BitVec 7).toNat < 56 ∧
    ((27 : BitVec 7).toNat < 28 ∧ s0.mine.offs = [] ∧ s0.mine.arch.marks = []) ∧
    (withArch (archT.setQ .xa [⟨0, some 9, none, false⟩])).mine.arch.q .xa = [⟨0, some 9, none, false⟩] ∧
    (∃ q, pushPort 58 = some q ∧ (archT.q q).length < q.depth ∧
      q.depth ≤ ((archT.setQ q (List.replicate q.depth ⟨0, none, none, false⟩)).q q).length) := by
  exact ⟨rfl, rfl, rfl, by decide, rfl, by decide, ⟨by decide, rfl, rfl⟩, rfl, .sq, rfl, by decide +kernel, by decide +kernel⟩
theorem hyps_StallsWithdraw :
    (CoresWf s0 ∧ Runs (.add (a3 4 56 6 0 0)) s0 ∧ s0.part.srcS 56 (arch s0) = .stall ∧ slotBody (.add (a3 4 56 6 0 0)) s0 = .stall) ∧
    (Runs (.add (a3 4 5 56 0 0)) s0 ∧ ∃ x a, Reads1 s0 5 x a ∧ s0.part.srcS 56 a = .stall) ∧
    (let s := withArch (archT.setQ .sq (List.replicate Q.sq.depth ⟨0, none, none, false⟩));
      CoresWf s ∧ Runs (.add (a3 58 5 6 0 0)) s ∧
        ∃ x y a q, Reads2 s 5 6 x y a ∧ pushPort 58 = some q ∧ q.depth ≤ (a.q q).length) :=
  ⟨⟨rfl, runsBy rfl rfl rfl, rfl, rfl⟩, ⟨runsBy rfl rfl rfl, _, _, rfl, rfl⟩,
    ⟨rfl, runsBy rfl rfl rfl, _, _, _, _, ⟨_, rfl, rfl⟩, rfl, by decide +kernel⟩⟩
/-- A full AX. -/
def fullAx : State := withArch (archT.setQ .ax (List.replicate Q.ax.depth ⟨0, none, none, false⟩))
theorem hyps_AddressStalls_1 :
    (addrOp (.aadd (a3 4 28 5 0 0))).isSome = true :=
  rfl
theorem hyps_AddressStalls_2 :
    s0.mine.srcA 28 = .stall :=
  rfl
theorem hyps_AddressStalls_3 :
    ∃ x k, ReadsA1 s0 5 x k ∧ k.srcA 28 = .stall :=
  ⟨_, _, rfl, rfl⟩
theorem hyps_AddressStalls_4 :
    ∃ x y k, ReadsA2 fullAx 4 5 x y k ∧ k.dest 29 = .stall :=
  ⟨_, _, _, ⟨_, rfl, rfl⟩, by decide +kernel⟩
theorem hyps_VectorStalls :
    (vecOp (.vadd (a3 4 56 2 0 4))).isSome = true ∧ s0.part.srcV 32 56 (arch s0) = .stall ∧
    ∃ x a, ReadsV1 s0 32 1 x a ∧ s0.part.srcV 32 56 a = .stall := ⟨rfl, rfl, _, _, rfl, rfl⟩
theorem hyps_SlotsWriteNothingAtIssue :
    CoresWf s0 ∧ (Instr.add (a3 4 5 6 0 0)).guard?.isSome = true ∧ ∃ t, exec (.add (a3 4 5 6 0 0)) s0 = .next t := ⟨rfl, rfl, _, rfl⟩
theorem hyps_StepsKeepCanonical :
    Canonical { s0 with latch := [0x0002010286000000] } ∧ ∃ t, step { s0 with latch := [0x0002010286000000] } = .next t :=
  ⟨⟨rfl, rfl, rfl, rfl, rfl⟩, _, rfl⟩
end Sys2Proof.Tests
end

/-! Proofs for spec/03 (bundle formats): the guard of a slot (R49). -/

namespace Sys2Proof.Machine

/-- Settles O7: every guarded instruction is performed through the one slot runner, and that runner leaves the state alone under a
false guard, before any defect or body is looked at (R49). -/
theorem falseGuardDoesNothing : Obligations.FalseGuardDoesNothing := by
  unfold Obligations.FalseGuardDoesNothing
  intro i g s hguard hfalse
  have hslot : i.guard?.isSome = true := Option.isSome_of_eq_some hguard
  calc exec i s = runSlot i (slotBody i) s := exec_slot hslot s
    _ = .next s := runSlot_false hguard hfalse

end Sys2Proof.Machine

/-! Proofs for spec/06 (scalar instructions): the values that the rules R107 to R117 give, as facts about the model's functions on
words, and the slots that deliver them. -/

namespace Sys2Proof.Machine

open Safety

/-! ### Words by the integer whose low 64 bits they hold -/

theorem eq_ofInt_of_toInt_bmod {v : W64} {k : Int} (h : v.toInt = k.bmod (2 ^ 64)) : v = BitVec.ofInt 64 k :=
  BitVec.eq_of_toInt_eq (h.trans (BitVec.toInt_ofInt k).symm)

theorem eq_ofInt_of_toInt {v : W64} {k : Int} (h : v.toInt = k) : v = BitVec.ofInt 64 k := h ▸ BitVec.ofInt_toInt.symm

theorem eq_ofInt_of_toNat {v : W64} {n : Nat} (h : v.toNat = n) : v = BitVec.ofInt 64 (n : Int) := by
  rw [BitVec.ofInt_natCast, ← h, BitVec.ofNat_toNat, BitVec.setWidth_eq]

/-! ### Fields of a modifier or immediate (R50) -/

theorem fld_lt {w : Nat} (x : BitVec w) (lo n : Nat) : fld x lo n < 2 ^ n := Nat.mod_lt _ (Nat.two_pow_pos n)

theorem fld_zero {w : Nat} (x : BitVec w) (n : Nat) : fld x 0 n = x.toNat % 2 ^ n := by
  unfold fld
  rw [Nat.pow_zero, Nat.div_one]

/-! ### Two-source integer instructions (R107, R108) -/

theorem mulHighU_eq (x y : W64) : mulHighU x y = BitVec.ofInt 64 (x.toNat * y.toNat / 2 ^ 64) :=
  (BitVec.ofInt_natCast 64 (x.toNat * y.toNat / 2 ^ 64)).symm

/-- The quotient wraps to -2^63 for -2^63 / -1, and all ones are the code of -1. -/
theorem divS_eq (x y : W64) : divS x y = BitVec.ofInt 64 (if y = 0 then -1 else x.toInt.tdiv y.toInt) := by
  unfold divS
  split
  · rfl
  · exact eq_ofInt_of_toInt_bmod (BitVec.toInt_sdiv x y)

theorem divU_eq (x y : W64) : divU x y = BitVec.ofInt 64 (if y = 0 then -1 else x.toNat / y.toNat) := by
  unfold divU
  split
  · rfl
  · exact eq_ofInt_of_toNat BitVec.toNat_udiv

theorem remS_eq (x y : W64) : remS x y = BitVec.ofInt 64 (if y = 0 then x.toInt else x.toInt.tmod y.toInt) := by
  unfold remS
  split
  · exact BitVec.ofInt_toInt.symm
  · exact eq_ofInt_of_toInt (BitVec.toInt_srem x y)

theorem remU_eq (x y : W64) : remU x y = BitVec.ofInt 64 (if y = 0 then x.toInt else x.toNat % y.toNat) := by
  unfold remU
  split
  · exact BitVec.ofInt_toInt.symm
  · exact eq_ofInt_of_toNat BitVec.toNat_umod

theorem minS_eq (x y : W64) : (if x.slt y then x else y) = BitVec.ofInt 64 (min x.toInt y.toInt) := by
  apply eq_ofInt_of_toInt
  by_cases h : x.toInt < y.toInt
  · rw [if_pos (BitVec.slt_iff_toInt_lt.mpr h), Int.min_eq_left (Int.le_of_lt h)]
  · rw [if_neg (mt BitVec.slt_iff_toInt_lt.mp h), Int.min_eq_right (Int.not_lt.mp h)]

theorem maxS_eq (x y : W64) : (if x.slt y then y else x) = BitVec.ofInt 64 (max x.toInt y.toInt) := by
  apply eq_ofInt_of_toInt
  by_cases h : x.toInt < y.toInt
  · rw [if_pos (BitVec.slt_iff_toInt_lt.mpr h), Int.max_eq_right (Int.le_of_lt h)]
  · rw [if_neg (mt BitVec.slt_iff_toInt_lt.mp h), Int.max_eq_left (Int.not_lt.mp h)]

theorem minU_eq (x y : W64) : (if x.ult y then x else y) = BitVec.ofInt 64 (min (x.toNat : Int) y.toNat) := by
  by_cases h : x.toNat < y.toNat
  · rw [if_pos (BitVec.ult_iff_lt.mpr h), Int.min_eq_left (Int.ofNat_le.mpr (Nat.le_of_lt h))]
    exact eq_ofInt_of_toNat rfl
  · rw [if_neg (mt BitVec.ult_iff_lt.mp h), Int.min_eq_right (Int.ofNat_le.mpr (Nat.not_lt.mp h))]
    exact eq_ofInt_of_toNat rfl

theorem maxU_eq (x y : W64) : (if x.ult y then y else x) = BitVec.ofInt 64 (max (x.toNat : Int) y.toNat) := by
  by_cases h : x.toNat < y.toNat
  · rw [if_pos (BitVec.ult_iff_lt.mpr h), Int.max_eq_right (Int.ofNat_le.mpr (Nat.le_of_lt h))]
    exact eq_ofInt_of_toNat rfl
  · rw [if_neg (mt BitVec.ult_iff_lt.mp h), Int.max_eq_left (Int.ofNat_le.mpr (Nat.not_lt.mp h))]
    exact eq_ofInt_of_toNat rfl

/-- Each two-source integer instruction computes the low 64 bits of its integer. -/
theorem slotBody_intOp {i : Instr} {o : A3} {lat : Nat} {f : W64 → W64 → Int} (h : intOp i = some (o, lat, f)) :
    ∃ g : W64 → W64 → W64, slotBody i = scalar2 (fun x y => (g x y, 0)) lat o ∧ ∀ x y, g x y = BitVec.ofInt 64 (f x y) := by
  unfold intOp at h
  split at h <;> cases h
  case h_1 => exact ⟨fun x y => x + y, rfl, fun x y => eq_ofInt_of_toInt_bmod (BitVec.toInt_add x y)⟩
  case h_2 => exact ⟨fun x y => x - y, rfl, fun x y => eq_ofInt_of_toInt_bmod BitVec.toInt_sub⟩
  case h_3 => exact ⟨fun x y => x * y, rfl, fun x y => eq_ofInt_of_toInt_bmod (BitVec.toInt_mul x y)⟩
  case h_4 => exact ⟨mulHigh, rfl, fun _ _ => rfl⟩
  case h_5 => exact ⟨mulHighU, rfl, mulHighU_eq⟩
  case h_6 => exact ⟨divS, rfl, divS_eq⟩
  case h_7 => exact ⟨divU, rfl, divU_eq⟩
  case h_8 => exact ⟨remS, rfl, remS_eq⟩
  case h_9 => exact ⟨remU, rfl, remU_eq⟩
  case h_10 => exact ⟨fun x y => if x.slt y then x else y, rfl, minS_eq⟩
  case h_11 => exact ⟨fun x y => if x.slt y then y else x, rfl, maxS_eq⟩
  case h_12 => exact ⟨fun x y => if x.ult y then x else y, rfl, minU_eq⟩
  case h_13 => exact ⟨fun x y => if x.ult y then y else x, rfl, maxU_eq⟩

/-- Settles O9: by the shared form of the two-source bodies, once each instruction's value is the low 64 bits of its integer. -/
theorem integerResults : Obligations.IntegerResults := by
  unfold Obligations.IntegerResults
  intro i o lat f hop s x y a b hruns hreads hdst
  obtain ⟨g, hbody, hg⟩ := slotBody_intOp hop
  rw [← hg x y] at hdst
  exact exec_ok hruns (hbody ▸ scalar2_ok hreads hdst)

/-! ### Bitwise instructions (R107) -/

/-- Each bitwise instruction computes a word, bit by bit from those of its sources. -/
theorem slotBody_bitOp {i : Instr} {o : A3} {f : Bool → Bool → Bool} (h : bitOp i = some (o, f)) :
    ∃ g : W64 → W64 → W64, slotBody i = scalar2 (fun x y => (g x y, 0)) 1 o ∧
      ∀ x y j, j < 64 → (g x y).getLsbD j = f (x.getLsbD j) (y.getLsbD j) := by
  unfold bitOp at h
  split at h <;> cases h
  case h_1 => exact ⟨fun x y => x &&& y, rfl, fun x y j _ => BitVec.getLsbD_and⟩
  case h_2 => exact ⟨fun x y => x ||| y, rfl, fun x y j _ => BitVec.getLsbD_or⟩
  case h_3 => exact ⟨fun x y => x ^^^ y, rfl, fun x y j _ => BitVec.getLsbD_xor⟩
  case h_4 => exact ⟨fun x y => x &&& ~~~y, rfl, fun x y j hj => by
    rw [BitVec.getLsbD_and, BitVec.getLsbD_not, decide_eq_true hj, Bool.true_and]⟩

theorem exec_bitOp {i : Instr} {o : A3} {f : Bool → Bool → Bool} (hop : bitOp i = some (o, f)) {s : State} {x y r : W64}
    {a b : Arch} (hruns : Runs i s) (hreads : Reads2 s o.s1 o.s2 x y a)
    (hbits : ∀ j : Nat, j < 64 → r.getLsbD j = f (x.getLsbD j) (y.getLsbD j))
    (hdst : s.part.dstS o.d.toNat r 1 0 a = .ok b) : exec i s = .next (s.withArch b) := by
  obtain ⟨g, hbody, hg⟩ := slotBody_bitOp hop
  obtain rfl : r = g x y := BitVec.eq_of_getLsbD_eq fun j hj => (hbits j hj).trans (hg x y j hj).symm
  exact exec_ok hruns (hbody ▸ scalar2_ok hreads hdst)

/-! ### Shifts (R109) -/

theorem shiftLeft_eq_ofInt (x : W64) (n : Nat) : x <<< n = BitVec.ofInt 64 (x.toNat * 2 ^ n) := by
  have hcast : (x.toNat : Int) * 2 ^ n = ((x.toNat * 2 ^ n : Nat) : Int) := by push_cast; rfl
  rw [hcast, BitVec.ofInt_natCast]
  exact BitVec.eq_of_toNat_eq (by rw [BitVec.toNat_shiftLeft, Nat.shiftLeft_eq, BitVec.toNat_ofNat])

theorem ushiftRight_eq_ofInt (x : W64) (n : Nat) : x >>> n = BitVec.ofInt 64 (x.toNat / 2 ^ n) := by
  have hcast : (x.toNat : Int) / 2 ^ n = ((x.toNat / 2 ^ n : Nat) : Int) := by push_cast; rfl
  rw [hcast]
  exact eq_ofInt_of_toNat (by rw [BitVec.toNat_ushiftRight, Nat.shiftRight_eq_div_pow])

theorem sshiftRight_eq_ofInt (x : W64) (n : Nat) : x.sshiftRight n = BitVec.ofInt 64 (x.toInt / 2 ^ n) :=
  eq_ofInt_of_toInt (by rw [BitVec.toInt_sshiftRight, Int.shiftRight_eq_div_pow]; push_cast; rfl)

/-- The two pieces of a rotated word, which do not overlap. -/
theorem toNat_rotateRight_eq_add (x : W64) {n : Nat} (hn : n < 64) :
    (x.rotateRight n).toNat = x.toNat / 2 ^ n + x.toNat * 2 ^ (64 - n) % 2 ^ 64 := by
  have hpow : 2 ^ n * 2 ^ (64 - n) = 2 ^ 64 := by rw [← Nat.pow_add, Nat.add_sub_cancel' (Nat.le_of_lt hn)]
  have hlow : x.toNat / 2 ^ n < 2 ^ (64 - n) := Nat.div_lt_of_lt_mul (hpow.symm ▸ x.isLt)
  have hhigh : x.toNat * 2 ^ (64 - n) % 2 ^ 64 = 2 ^ (64 - n) * (x.toNat % 2 ^ n) := by
    rw [← hpow, Nat.mul_mod_mul_right, Nat.mul_comm]
  rw [BitVec.toNat_rotateRight, Nat.mod_eq_of_lt hn, Nat.shiftRight_eq_div_pow, Nat.shiftLeft_eq, hhigh, Nat.or_comm,
    ← Nat.two_pow_add_eq_or_of_lt hlow, Nat.add_comm]

theorem rotateRight_eq_ofInt (x : W64) {n : Nat} (hn : n < 64) :
    x.rotateRight n = BitVec.ofInt 64 (x.toNat / 2 ^ n + x.toNat * 2 ^ (64 - n)) := by
  have hcast : (x.toNat : Int) / 2 ^ n + x.toNat * 2 ^ (64 - n) = ((x.toNat / 2 ^ n + x.toNat * 2 ^ (64 - n) : Nat) : Int) := by
    push_cast; rfl
  rw [hcast, BitVec.ofInt_natCast]
  apply BitVec.eq_of_toNat_eq
  calc (x.rotateRight n).toNat = (x.rotateRight n).toNat % 2 ^ 64 := (Nat.mod_eq_of_lt (x.rotateRight n).isLt).symm
    _ = (x.toNat / 2 ^ n + x.toNat * 2 ^ (64 - n)) % 2 ^ 64 := by rw [toNat_rotateRight_eq_add x hn, Nat.add_mod_mod]
    _ = (BitVec.ofNat 64 (x.toNat / 2 ^ n + x.toNat * 2 ^ (64 - n))).toNat := (BitVec.toNat_ofNat _ 64).symm

/-- Each shift computes, for every amount that its slot can give, the low 64 bits of its integer. -/
theorem slotBody_shiftOp {i : Instr} {o : A3} {f : W64 → Nat → Int} (h : shiftOp i = some (o, f)) :
    ∃ g : W64 → Nat → W64, slotBody i = shiftBody g o ∧ ∀ x n, n < 64 → g x n = BitVec.ofInt 64 (f x n) := by
  unfold shiftOp at h
  split at h <;> cases h
  case h_1 => exact ⟨fun x n => x <<< n, rfl, fun x n _ => shiftLeft_eq_ofInt x n⟩
  case h_2 => exact ⟨fun x n => x >>> n, rfl, fun x n _ => ushiftRight_eq_ofInt x n⟩
  case h_3 => exact ⟨fun x n => x.sshiftRight n, rfl, fun x n _ => sshiftRight_eq_ofInt x n⟩
  case h_4 => exact ⟨fun x n => x.rotateRight n, rfl, fun x n hn => rotateRight_eq_ofInt x hn⟩

section Shifts
variable {g : W64 → Nat → W64} {o : A3} {s : State} {x y : W64} {a b : Arch}

/-- A shift by SH. -/
theorem shiftBody_imm (hform : fld o.m 6 1 = 1) (hread : Reads1 s o.s1 x a)
    (hdst : s.part.dstS o.d.toNat (g x (fld o.m 0 6)) 1 0 a = .ok b) : shiftBody g o s = .ok (s.withArch b) := by
  unfold Reads1 at hread
  exact onPart_ok (by rw [hread]; simpa only [Got.bind_ok, if_pos hform] using hdst)

/-- A shift by the low six bits of S2. -/
theorem shiftBody_reg (hform : fld o.m 6 1 = 0) (hreads : Reads2 s o.s1 o.s2 x y a)
    (hdst : s.part.dstS o.d.toNat (g x (y.toNat % 64)) 1 0 a = .ok b) : shiftBody g o s = .ok (s.withArch b) := by
  obtain ⟨c, hx, hy⟩ := hreads
  unfold Reads1 at hx
  exact onPart_ok (by simp only [hx, hy, Got.bind_ok, hform, if_neg Nat.zero_ne_one, hdst])

variable {i : Instr} {f : W64 → Nat → Int}

theorem exec_shiftOp_imm (hop : shiftOp i = some (o, f)) (hruns : Runs i s) (hform : fld o.m 6 1 = 1) (hread : Reads1 s o.s1 x a)
    (hdst : s.part.dstS o.d.toNat (BitVec.ofInt 64 (f x (fld o.m 0 6))) 1 0 a = .ok b) : exec i s = .next (s.withArch b) := by
  obtain ⟨g, hbody, hg⟩ := slotBody_shiftOp hop
  rw [← hg x _ (fld_lt o.m 0 6)] at hdst
  exact exec_ok hruns (hbody ▸ shiftBody_imm hform hread hdst)

theorem exec_shiftOp_reg (hop : shiftOp i = some (o, f)) (hruns : Runs i s) (hform : fld o.m 6 1 = 0)
    (hreads : Reads2 s o.s1 o.s2 x y a)
    (hdst : s.part.dstS o.d.toNat (BitVec.ofInt 64 (f x (y.toNat % 64))) 1 0 a = .ok b) : exec i s = .next (s.withArch b) := by
  obtain ⟨g, hbody, hg⟩ := slotBody_shiftOp hop
  rw [← hg x _ (Nat.mod_lt _ (by decide))] at hdst
  exact exec_ok hruns (hbody ▸ shiftBody_reg hform hreads hdst)

end Shifts

/-! ### One-source integer instructions (R107, R110) -/

theorem countP_range_le (n k : Nat) : (List.range n).countP (fun i => k ≤ i) = n - k := by
  induction n with
  | zero => simp
  | succ n ih =>
    rw [List.range_succ, List.countP_append, ih, List.countP_singleton]
    simp only [decide_eq_true_eq]
    split <;> omega

theorem countP_range_lt (n k : Nat) : (List.range n).countP (fun i => i < k) = min n k := by
  induction n with
  | zero => simp
  | succ n ih =>
    rw [List.range_succ, List.countP_append, ih, List.countP_singleton]
    simp only [decide_eq_true_eq]
    split <;> omega

/-- The leading zeros are the positions above every one bit. -/
theorem clz64_eq_countP (x : W64) : clz64 x = (List.range 64).countP fun i => x.toNat < 2 ^ i := by
  unfold clz64
  split
  case isTrue h => subst h; rfl
  case isFalse h =>
    have hx : x.toNat ≠ 0 := fun e => h (BitVec.eq_of_toNat_eq e)
    simp only [← Nat.log2_lt hx, ← Nat.succ_le_iff]
    rw [countP_range_le]
    omega

theorem mod_two_pow_eq_zero_iff (x k : Nat) : x % 2 ^ k = 0 ↔ ∀ j, j < k → x.testBit j = false := by
  constructor
  · intro h j hj
    have hbit := Nat.testBit_mod_two_pow x k j
    simpa [h, hj] using hbit.symm
  · intro h
    apply Nat.eq_of_testBit_eq
    intro j
    rw [Nat.testBit_mod_two_pow, Nat.zero_testBit]
    by_cases hj : j < k
    · rw [h j hj, Bool.and_false]
    · simp [hj]

/-- The word is divisible by 2^(i+1) exactly where bit `i` lies below the lowest one bit. -/
theorem mod_two_pow_succ_eq_zero_iff_lt_ctz64 (x : W64) {i : Nat} (hi : i < 64) :
    x.toNat % 2 ^ (i + 1) = 0 ↔ i < ctz64 x := by
  rw [mod_two_pow_eq_zero_iff]
  unfold ctz64
  cases hfind : (List.range 64).find? (fun j => x.getLsbD j) with
  | none =>
    have hclear := List.find?_range_eq_none.mp hfind
    exact ⟨fun _ => hi, fun _ j hj => (Bool.not_eq_true' _).mp (hclear j (by omega))⟩
  | some t =>
    obtain ⟨hset, -, hclear⟩ := List.find?_range_eq_some.mp hfind
    rw [Option.getD_some]
    constructor
    · intro hzero
      refine Nat.lt_of_not_le fun hle => ?_
      have hbit : x.getLsbD t = false := hzero t (by omega)
      rw [hset] at hbit
      exact Bool.noConfusion hbit
    · intro hlt j hj
      exact (Bool.not_eq_true' _).mp (hclear j (by omega))

theorem ctz64_le (x : W64) : ctz64 x ≤ 64 := by
  unfold ctz64
  cases hfind : (List.range 64).find? (fun j => x.getLsbD j) with
  | none => exact Nat.le_refl 64
  | some t => exact Nat.le_of_lt (List.mem_range.mp (List.find?_range_eq_some.mp hfind).2.1)

/-- The trailing zeros are the positions below every one bit. -/
theorem ctz64_eq_countP (x : W64) : ctz64 x = (List.range 64).countP fun i => x.toNat % 2 ^ (i + 1) == 0 := by
  calc ctz64 x = min 64 (ctz64 x) := (Nat.min_eq_right (ctz64_le x)).symm
    _ = (List.range 64).countP fun i => i < ctz64 x := (countP_range_lt 64 _).symm
    _ = (List.range 64).countP fun i => x.toNat % 2 ^ (i + 1) == 0 := List.countP_congr fun i hi => by
      rw [decide_eq_true_eq, beq_iff_eq, mod_two_pow_succ_eq_zero_iff_lt_ctz64 x (List.mem_range.mp hi)]

theorem popc64_eq_countP (x : W64) : popc64 x = (List.range 64).countP fun i => x.getLsbD i := List.countP_eq_length_filter.symm

/-- A signed field is its residue nearest zero. -/
theorem sextField_eq_bmod {n : Nat} (hn : n ≠ 0) (v : Nat) : sextField n v = BitVec.ofInt 64 ((v : Int).bmod (2 ^ n)) := by
  obtain ⟨k, rfl⟩ := Nat.exists_eq_succ_of_ne_zero hn
  unfold sextField toInt
  rw [Int.bmod_def, ← Int.natCast_emod]
  have hpow : 2 ^ (k + 1) = 2 * 2 ^ k := Nat.pow_succ'
  congr 1
  simp only [Nat.succ_eq_add_one, Nat.add_sub_cancel, true_and]
  split <;> split <;> omega

theorem bmod_mod_two_pow (v n : Nat) : ((v % 2 ^ n : Nat) : Int).bmod (2 ^ n) = (v : Int).bmod (2 ^ n) := by
  rw [Int.natCast_emod, Int.emod_bmod]

/-- A field read out of a word, extended by its sign or by zeros (R110). -/
theorem bfx_eq (x : W64) (pos n signed : Nat) :
    (if signed = 1 then sextField (n + 1) (field64 x pos (n + 1)) else BitVec.ofNat 64 (field64 x pos (n + 1))) =
      BitVec.ofInt 64 (if signed = 1 then ((x.toNat / 2 ^ pos % 2 ^ (n + 1) : Nat) : Int).bmod (2 ^ (n + 1))
        else (x.toNat / 2 ^ pos % 2 ^ (n + 1) : Nat)) := by
  unfold field64
  split
  case isTrue => exact sextField_eq_bmod (Nat.succ_ne_zero n) _
  case isFalse => exact (BitVec.ofInt_natCast 64 _).symm

/-- Each one-source integer instruction computes the low 64 bits of its integer. -/
theorem slotBody_unaryOp {i : Instr} {o : A3} {f : W64 → Int} (h : unaryOp i = some (o, f)) :
    ∃ g : W64 → W64, slotBody i = scalar1 (fun x => (g x, 0)) 1 o ∧ ∀ x, g x = BitVec.ofInt 64 (f x) := by
  unfold unaryOp at h
  split at h <;> cases h
  case h_1 => exact ⟨fun x => BitVec.ofNat 64 (clz64 x), rfl, fun x => by simp only [clz64_eq_countP, BitVec.ofInt_natCast]⟩
  case h_2 => exact ⟨fun x => BitVec.ofNat 64 (ctz64 x), rfl, fun x => by simp only [ctz64_eq_countP, BitVec.ofInt_natCast]⟩
  case h_3 => exact ⟨fun x => BitVec.ofNat 64 (popc64 x), rfl, fun x => by simp only [popc64_eq_countP, BitVec.ofInt_natCast]⟩
  case h_4 =>
    exact ⟨fun x => sextField (fld o.m 0 6 + 1) (x.toNat % 2 ^ (fld o.m 0 6 + 1)), rfl, fun x =>
      (sextField_eq_bmod (Nat.succ_ne_zero _) _).trans (congrArg _ (bmod_mod_two_pow _ _))⟩
  case h_5 =>
    exact ⟨fun x => BitVec.ofNat 64 (x.toNat % 2 ^ (fld o.m 0 6 + 1)), rfl, fun x => (BitVec.ofInt_natCast 64 _).symm⟩
  case h_6 =>
    exact ⟨fun x => if fld o.m 12 1 = 1 then sextField (fld o.m 6 6 + 1) (field64 x (fld o.m 0 6) (fld o.m 6 6 + 1))
      else BitVec.ofNat 64 (field64 x (fld o.m 0 6) (fld o.m 6 6 + 1)), rfl, fun x => bfx_eq x _ _ _⟩

theorem exec_unaryOp {i : Instr} {o : A3} {f : W64 → Int} (hop : unaryOp i = some (o, f)) {s : State} {x : W64} {a b : Arch}
    (hruns : Runs i s) (hread : Reads1 s o.s1 x a) (hdst : s.part.dstS o.d.toNat (BitVec.ofInt 64 (f x)) 1 0 a = .ok b) :
    exec i s = .next (s.withArch b) := by
  obtain ⟨g, hbody, hg⟩ := slotBody_unaryOp hop
  rw [← hg x] at hdst
  exact exec_ok hruns (hbody ▸ scalar1_ok hread hdst)

/-- Settles O10: the bitwise, the shift and the one-source instructions, each through the shared form of its bodies. -/
theorem bitwiseShiftUnaryResults : Obligations.BitwiseShiftUnaryResults := by
  unfold Obligations.BitwiseShiftUnaryResults
  refine ⟨?bitwise, ?shift, ?unary⟩
  case bitwise =>
    intro i o f hop s x y r a b hruns hreads hbits hdst
    exact exec_bitOp hop hruns hreads hbits hdst
  case shift =>
    intro i o f hop s x y a b hruns
    exact ⟨exec_shiftOp_imm hop hruns, exec_shiftOp_reg hop hruns⟩
  case unary =>
    intro i o f hop s x a b hruns hread hdst
    exact exec_unaryOp hop hruns hread hdst

/-! ### BFI, SEL and the immediates (R110 to R113) -/

/-- The word around an inserted field: what lies above it, the field, what lies below it. -/
theorem sub_field_add_field (x v p n : Nat) : x - x / 2 ^ p % 2 ^ n * 2 ^ p + v * 2 ^ p =
    2 ^ p * (2 ^ n * (x / 2 ^ p / 2 ^ n) + v) + x % 2 ^ p := by
  have hx : x = x / 2 ^ p % 2 ^ n * 2 ^ p + (2 ^ p * (2 ^ n * (x / 2 ^ p / 2 ^ n)) + x % 2 ^ p) :=
    calc x = 2 ^ p * (x / 2 ^ p) + x % 2 ^ p := (Nat.div_add_mod x _).symm
      _ = 2 ^ p * (2 ^ n * (x / 2 ^ p / 2 ^ n) + x / 2 ^ p % 2 ^ n) + x % 2 ^ p := by rw [Nat.div_add_mod (x / 2 ^ p)]
      _ = _ := by rw [Nat.mul_add, Nat.mul_comm (x / 2 ^ p % 2 ^ n), Nat.add_comm (2 ^ p * _) (2 ^ p * _), Nat.add_assoc]
  rw [Nat.sub_eq_of_eq_add' hx, Nat.mul_add, Nat.mul_comm v, Nat.add_right_comm]

/-- The bits of a word with a field replaced (R110). -/
theorem insert64_getLsbD (x y : W64) (p n : Nat) {j : Nat} (hj : j < 64) :
    (insert64 x y p n).getLsbD j = if p ≤ j ∧ j < p + n then y.getLsbD (j - p) else x.getLsbD j := by
  unfold insert64 field64
  rw [BitVec.getLsbD_ofNat, decide_eq_true hj, Bool.true_and, sub_field_add_field,
    Nat.testBit_two_pow_mul_add _ (Nat.mod_lt _ (Nat.two_pow_pos p))]
  by_cases hlow : j < p
  · rw [if_pos hlow, if_neg (by omega), Nat.testBit_mod_two_pow, decide_eq_true hlow, Bool.true_and, BitVec.testBit_toNat]
  · rw [if_neg hlow, Nat.testBit_two_pow_mul_add _ (Nat.mod_lt _ (Nat.two_pow_pos n))]
    by_cases hmid : j - p < n
    · rw [if_pos hmid, if_pos (by omega), Nat.testBit_mod_two_pow, decide_eq_true hmid, Bool.true_and, BitVec.testBit_toNat]
    · rw [if_neg hmid, if_neg (by omega), Nat.testBit_div_two_pow, Nat.testBit_div_two_pow, BitVec.testBit_toNat]
      congr 1
      omega

/-- BFI delivers every word that has the bits of its field from S2 and all others from S1. -/
theorem exec_bfi {o : A3} {s : State} {x y r : W64} {a b : Arch} (hruns : Runs (.bfi o) s) (hreads : Reads2 s o.s1 o.s2 x y a)
    (hbits : ∀ j : Nat, j < 64 → r.getLsbD j =
      if fld o.m 0 6 ≤ j ∧ j ≤ fld o.m 0 6 + fld o.m 6 6 then y.getLsbD (j - fld o.m 0 6) else x.getLsbD j)
    (hdst : s.part.dstS o.d.toNat r 1 0 a = .ok b) : exec (.bfi o) s = .next (s.withArch b) := by
  obtain rfl : r = insert64 x y (fld o.m 0 6) (fld o.m 6 6 + 1) := BitVec.eq_of_getLsbD_eq fun j hj => by
    rw [hbits j hj, insert64_getLsbD x y _ _ hj]
    simp only [← Nat.add_assoc, Nat.lt_succ_iff]
  exact exec_ok hruns (scalar2_ok (f := fun x y => (insert64 x y (fld o.m 0 6) (fld o.m 6 6 + 1), 0)) hreads hdst)

/-- Both sources are read, whatever the predicate reads (R111). -/
theorem exec_sel {o : A3} {s : State} {x y : W64} {a b : Arch} (hruns : Runs (.sel o) s) (hreads : Reads2 s o.s1 o.s2 x y a)
    (hdst : s.part.dstS o.d.toNat (if s.part.srcP o.s3.toNat then x else y) 1 0 a = .ok b) :
    exec (.sel o) s = .next (s.withArch b) := by
  obtain ⟨c, hx, hy⟩ := hreads
  unfold Reads1 at hx
  exact exec_ok hruns (show bodySel o s = _ from onPart_ok (by simpa only [hx, hy, Got.bind_ok] using hdst))

theorem add_signExtend (x : W64) {n : Nat} (v : BitVec n) : x + v.signExtend 64 = BitVec.ofInt 64 (x.toInt + v.toInt) := by
  rw [BitVec.ofInt_add, BitVec.ofInt_toInt]
  rfl

theorem exec_addi {o : AI} {s : State} {x : W64} {a b : Arch} (hruns : Runs (.addi o) s) (hread : Reads1 s o.s1 x a)
    (hdst : s.part.dstS o.d.toNat (BitVec.ofInt 64 (x.toInt + o.imm.toInt)) 1 0 a = .ok b) :
    exec (.addi o) s = .next (s.withArch b) := by
  rw [← add_signExtend] at hdst
  unfold Reads1 at hread
  exact exec_ok hruns (show bodyAddi o s = _ from onPart_ok (by simpa only [hread, Got.bind_ok] using hdst))

theorem exec_movi {o : WI} {s : State} {b : Arch} (hruns : Runs (.movi o) s)
    (hdst : s.part.dstS o.d.toNat (BitVec.ofInt 64 o.imm.toInt) 1 0 (arch s) = .ok b) : exec (.movi o) s = .next (s.withArch b) := by
  exact exec_ok hruns (show bodyMovi o s = _ from onPart_ok hdst)

theorem exec_movhi {o : WI} {s : State} {x : W64} {a b : Arch} (hruns : Runs (.movhi o) s) (hread : Reads1 s o.d x a)
    (hdst : s.part.dstS o.d.toNat (BitVec.ofNat 64 (o.imm.toNat % 2 ^ 26 * 2 ^ 38 + x.toNat % 2 ^ 38)) 1 0 a = .ok b) :
    exec (.movhi o) s = .next (s.withArch b) := by
  rw [← fld_zero o.imm 26] at hdst
  unfold Reads1 at hread
  exact exec_ok hruns (show bodyMovhi o s = _ from onPart_ok (by simpa only [hread, Got.bind_ok] using hdst))

/-- Settles O11, one instruction at a time. -/
theorem insertSelectImmediate : Obligations.InsertSelectImmediate :=
  ⟨fun _ _ _ _ _ _ _ => exec_bfi, fun _ _ _ _ _ _ => exec_sel, fun _ _ _ _ _ => exec_addi, fun _ _ _ => exec_movi,
    fun _ _ _ _ _ => exec_movhi⟩

/-! ### Predicates (R114 to R117, R120) -/

/-- The model's test of a condition decides the condition (R114). -/
theorem condHolds_iff (c : Nat) (x y : W64) : condHolds c x y = true ↔ Cond c x y := by
  match c with
  | 0 => exact beq_iff_eq
  | 1 => exact bne_iff_ne
  | 2 => exact BitVec.slt_iff_toInt_lt
  | 3 => simp [condHolds, Cond, BitVec.slt_eq_decide]
  | 4 => simp [condHolds, Cond, BitVec.slt_eq_decide]
  | 5 => exact BitVec.slt_iff_toInt_lt
  | 6 => exact BitVec.ult_iff_lt
  | 7 => simp [condHolds, Cond, BitVec.ult_eq_decide]
  | 8 => simp [condHolds, Cond, BitVec.ult_eq_decide]
  | 9 => exact BitVec.ult_iff_lt
  | 10 => exact bne_iff_ne
  | _ + 11 => exact beq_iff_eq

theorem condHolds_eq {c : Nat} {x y : W64} {v : Bool} (h : v = true ↔ Cond c x y) : condHolds c x y = v :=
  Bool.eq_iff_iff.mpr ((condHolds_iff c x y).trans h.symm)

theorem exec_cmp {o : A3} {s : State} {x y : W64} {a : Arch} {v : Bool} (hruns : Runs (.cmp o) s) (hreads : Reads2 s o.s1 o.s2 x y a)
    (hcond : v = true ↔ Cond (fld o.m 0 4) x y) :
    exec (.cmp o) s = .next (s.withArch (a.fly .execute (.p (o.d.toNat - 64) v) 1 0)) := by
  rw [← condHolds_eq hcond]
  exact exec_ok hruns (scalarP_ok hreads rfl)

/-- The immediate of CMPI is extended by its sign (R115). -/
theorem exec_cmpi {o : AI} {s : State} {x : W64} {a : Arch} {v : Bool} (hruns : Runs (.cmpi o) s) (hread : Reads1 s o.s1 x a)
    (hcond : v = true ↔ Cond (fld o.imm 27 4) x (BitVec.ofInt 64 (((o.imm.toNat % 2 ^ 27 : Nat) : Int).bmod (2 ^ 27)))) :
    exec (.cmpi o) s = .next (s.withArch (a.fly .execute (.p (o.d.toNat - 64) v) 1 0)) := by
  rw [← sextField_eq_bmod (by decide), ← fld_zero] at hcond
  rw [← condHolds_eq hcond]
  unfold Reads1 at hread
  exact exec_ok hruns (show bodyCmpi o s = _ from onPart_ok (by rw [hread]; rfl))

/-- The table of PLOG is its modifier's low four bits, one for each pair of values (R116). -/
theorem truthTable_fld {w : Nat} (m : BitVec w) (x y : Bool) :
    truthTable (fld m 0 4) x y = m.getLsbD ((if x then 2 else 0) + if y then 1 else 0) := by
  unfold truthTable
  have hidx : 2 * x.toNat + y.toNat = (if x then 2 else 0) + if y then 1 else 0 := by cases x <;> cases y <;> rfl
  have hlt : ((if x then 2 else 0) + if y then 1 else 0) < 4 := by cases x <;> cases y <;> decide
  rw [hidx, fld_zero, Nat.testBit_mod_two_pow, decide_eq_true hlt, Bool.true_and, BitVec.testBit_toNat]

theorem exec_plog {o : A3} {s : State} (hruns : Runs (.plog o) s) :
    exec (.plog o) s = .next (s.withArch ((arch s).fly .execute
      (.p (o.d.toNat - 64) (o.m.getLsbD ((if s.part.srcP o.s1.toNat then 2 else 0) + if s.part.srcP o.s2.toNat then 1 else 0))) 1 0)) := by
  rw [← truthTable_fld]
  exact exec_ok hruns (show bodyPlog o s = _ from onPart_ok rfl)

theorem exec_ptst {o : A3} {s : State} {x : W64} {a : Arch} (hruns : Runs (.ptst o) s) (hread : Reads1 s o.s1 x a) :
    exec (.ptst o) s = .next (s.withArch (a.fly .execute (.p (o.d.toNat - 64) (x.getLsbD (fld o.m 0 6))) 1 0)) := by
  unfold Reads1 at hread
  exact exec_ok hruns (show bodyPtst o s = _ from onPart_ok (by rw [hread]; rfl))

theorem exec_fcmps {o : A3} {s : State} {x y : W64} {a : Arch} (hruns : Runs (.fcmps o) s) (hreads : Reads2 s o.s1 o.s2 x y a) :
    exec (.fcmps o) s = .next (s.withArch (a.fly .execute
      (.p (o.d.toNat - 64) (fCompare fp32 (fld o.m 0 3) (x.toNat % 2 ^ 32) (y.toNat % 2 ^ 32))) 2 0)) :=
  exec_ok hruns (scalarP_ok hreads rfl)

/-- Settles O12, one instruction at a time. -/
theorem predicateResults : Obligations.PredicateResults :=
  ⟨fun _ _ _ _ _ _ => exec_cmp, fun _ _ _ _ _ => exec_cmpi, fun _ _ => exec_plog, fun _ _ _ _ => exec_ptst,
    fun _ _ _ _ _ => exec_fcmps⟩

end Sys2Proof.Machine

/-! Proofs for spec/07 (vector instructions): vectors and masks by their elements and bits, then the slots of R142 to R144, R147 and
R159 to R162. -/

namespace Sys2Proof.Machine

open Safety

/-! ### The modifier of a slot that runs (R77, R132) -/

/-- No undefined modifier value is left in a slot that runs (R77). -/
theorem modOk_of_runs {i : Instr} {s : State} (hruns : Runs i s) : i.modOk = true := by
  obtain ⟨-, hdefect⟩ := hruns
  cases hmod : i.modOk with
  | true => rfl
  | false =>
    have hill : s.slotDefect i = some ecIllegal := by
      simp only [State.slotDefect, defectOf, hmod, Bool.not_false, Bool.true_or, if_true]
    exact absurd (hill.symm.trans hdefect) (Option.some_ne_none ecIllegal)

/-- The elements of a defined type fill the vector (R132). -/
theorem etWidth_dvd {et : Nat} (hdef : etDefined et = true) : etWidth et ∣ 8192 := by
  have hcases : etWidth et = 0 ∨ etWidth et = 8 ∨ etWidth et = 16 ∨ etWidth et = 32 := by unfold etWidth; split <;> decide
  have hne : etWidth et ≠ 0 := of_decide_eq_true hdef
  obtain h | h | h | h := hcases
  · exact absurd h hne
  all_goals rw [h]; decide

/-- The model and the statements read a modifier's element type alike. -/
@[simp] theorem widthOf_eq_width (o : A3) : widthOf o.m = width o := rfl
@[simp] theorem countOf_eq_count (o : A3) : countOf o.m = count o := rfl

/-- Element counts fit into the 64 bits of KPOP and KFST. -/
theorem count_lt_two_pow (o : A3) : count o < 2 ^ 64 := Nat.lt_of_le_of_lt (Nat.div_le_self 8192 _) (by decide)

/-! ### Vectors by their elements, masks by their bits -/

theorem testBit_elem (x w i n : Nat) : (elem x w i).testBit n = (decide (n < w) && x.testBit (w * i + n)) := by
  unfold elem
  rw [Nat.testBit_mod_two_pow, Nat.testBit_div_two_pow, Nat.add_comm]

/-- A vector is determined by its elements. -/
theorem eq_of_elem_eq {w : Nat} (hw : w ∣ 8192) {x y : VReg}
    (helem : ∀ j, j < 8192 / w → elem x.toNat w j = elem y.toNat w j) : x = y := by
  have hpos : 0 < w := Nat.pos_of_dvd_of_pos hw (by decide)
  have hbit : ∀ (v : VReg) (n : Nat), v.getLsbD n = (elem v.toNat w (n / w)).testBit (n % w) := fun v n => by
    rw [testBit_elem, decide_eq_true (Nat.mod_lt n hpos), Bool.true_and, Nat.div_add_mod, BitVec.testBit_toNat]
  refine BitVec.eq_of_getLsbD_eq fun n hn => ?_
  rw [hbit, hbit, helem _ (Nat.div_lt_div_of_lt_of_dvd hw hn)]

/-- The vector that a function gives is the one with its elements. -/
theorem eq_vecOf {w : Nat} (hw : w ∣ 8192) {r : VReg} {f : Nat → Nat}
    (helem : ∀ j, j < 8192 / w → elem r.toNat w j = f j % 2 ^ w) : r = vecOf w f :=
  eq_of_elem_eq hw fun j hj => (helem j hj).trans (elem_vecOf f hj).symm

/-- The elements of two vectors side by side: those of the lower, then those of the upper. -/
theorem elem_append {w c n : Nat} (hn : n = w * c) (x : BitVec n) (y k : Nat) :
    elem (x.toNat + y * 2 ^ n) w k = if k < c then elem x.toNat w k else elem y w (k - c) := by
  subst hn
  refine Nat.eq_of_testBit_eq fun n => ?_
  rw [testBit_elem, Nat.add_comm x.toNat, Nat.mul_comm y, Nat.testBit_two_pow_mul_add _ x.isLt]
  by_cases hn : n < w
  · by_cases hk : k < c
    · have hlow : w * k + n < w * c :=
        calc w * k + n < w * (k + 1) := by rw [Nat.mul_succ]; exact Nat.add_lt_add_left hn _
          _ ≤ w * c := Nat.mul_le_mul_left w hk
      rw [if_pos hlow, if_pos hk, testBit_elem]
    · have hle : w * c ≤ w * k := Nat.mul_le_mul_left w (Nat.le_of_not_lt hk)
      rw [if_neg (by omega), if_neg hk, testBit_elem, Nat.mul_sub, Nat.sub_add_comm hle]
  · rw [decide_eq_false hn, Bool.false_and]
    split <;> rw [testBit_elem, decide_eq_false hn, Bool.false_and]

/-- A mask is determined by its bits. -/
theorem eq_maskOfBits {r : KReg} {f : Nat → Bool} (hbits : ∀ j, j < 1024 → r.getLsbD j = f j) : r = maskOfBits f :=
  BitVec.eq_of_getLsbD_eq fun j hj => by
    rw [hbits j hj]
    exact ((maskBit_maskOfBits f j).trans (by rw [decide_eq_true hj, Bool.true_and])).symm

/-! ### Comparisons (R142, R147) -/

/-- The model's test of a condition decides the condition (R142). -/
theorem vcmpHolds_iff (o : A3) (c x y : Nat) : vcmpHolds (width o) (etSigned (fld o.m 0 4)) c x y = true ↔ VCond o c x y := by
  match c with
  | 0 => exact beq_iff_eq
  | 1 => exact bne_iff_ne
  | 2 => exact decide_eq_true_iff
  | 3 => exact decide_eq_true_iff
  | 4 => exact decide_eq_true_iff
  | 5 => exact decide_eq_true_iff
  | 10 => exact bne_iff_ne
  | 6 => exact beq_iff_eq
  | 7 => exact beq_iff_eq
  | 8 => exact beq_iff_eq
  | 9 => exact beq_iff_eq
  | _ + 11 => exact beq_iff_eq

/-- The mask register that a comparison leaves, from a test of its condition. -/
theorem eq_maskOfBits_of_maskOf {o : A3} {a : Arch} {r : KReg} {holds : Nat → Bool}
    (hmask : MaskOf o a (fun j => holds j = true) r) :
    r = maskOfBits fun j => decide (j < count o) &&
      if maskBit (a.maskOf o.m) j then holds j else !(fld o.m 7 1 == 1) && maskBit (a.getK o.d.toNat) j := by
  refine eq_maskOfBits fun j hj => Bool.eq_iff_iff.mpr ((hmask j hj).trans ?_)
  have hz : fld o.m 7 1 = 0 ↔ ¬ fld o.m 7 1 = 1 := by
    have hbit : fld o.m 7 1 < 2 ^ 1 := fld_lt o.m 7 1
    omega
  cases maskBit (a.maskOf o.m) j <;> simp [hz]

/-- A comparison sends the mask register that its condition leaves. -/
theorem vecCompare_ok {o : A3} {c : (Nat → Nat) → (Nat → Nat) → Nat → Bool} {s : State} {x y : VReg} {a : Arch} {r : KReg}
    (hreads : ReadsV2 s (width o) (width o) o.s1 o.s2 x y a)
    (hmask : MaskOf o a (fun j => c (elem x.toNat (width o)) (elem y.toNat (width o)) j = true) r) :
    vecCompare o c s = .ok (s.withArch (a.fly .execute (.k o.d.toNat r) 2 0)) := by
  obtain ⟨b, hx, hy⟩ := hreads
  unfold ReadsV1 at hx
  unfold vecCompare
  rw [eq_maskOfBits_of_maskOf hmask]
  exact onPart_ok (by simp only [widthOf_eq_width, countOf_eq_count, hx, hy, Got.bind_ok]; rfl)

theorem exec_vcmp {o : A3} {s : State} {x y : VReg} {a : Arch} {r : KReg} (hruns : Runs (.vcmp o) s)
    (hreads : ReadsV2 s (width o) (width o) o.s1 o.s2 x y a)
    (hmask : MaskOf o a (fun j => VCond o (fld o.m 8 4) (elem x.toNat (width o) j) (elem y.toNat (width o) j)) r) :
    exec (.vcmp o) s = .next (s.withArch (a.fly .execute (.k o.d.toNat r) 2 0)) := by
  simp only [← vcmpHolds_iff] at hmask
  exact exec_ok hruns (vecCompare_ok
    (c := fun x y j => vcmpHolds (width o) (etSigned (fld o.m 0 4)) (fld o.m 8 4) (x j) (y j)) hreads hmask)

theorem exec_vfcmp {o : A3} {s : State} {x y : VReg} {a : Arch} {r : KReg} (hruns : Runs (.vfcmp o) s)
    (hreads : ReadsV2 s (width o) (width o) o.s1 o.s2 x y a)
    (hmask : MaskOf o a (fun j =>
      fCompare (etFmt (fld o.m 0 4)) (fld o.m 8 3) (elem x.toNat (width o) j) (elem y.toNat (width o) j) = true) r) :
    exec (.vfcmp o) s = .next (s.withArch (a.fly .execute (.k o.d.toNat r) 2 0)) :=
  exec_ok hruns (vecCompare_ok (c := fun x y j => fCompare (etFmt (fld o.m 0 4)) (fld o.m 8 3) (x j) (y j)) hreads hmask)

/-! ### Mask registers (R143) and selection (R144) -/

/-- KLOG looks every bit up in its truth table (R143). -/
theorem klogVal_getLsbD (tt : Nat) (x y : KReg) {j : Nat} (hj : j < 1024) :
    (klogVal tt x y).getLsbD j = tt.testBit (2 * (x.getLsbD j).toNat + (y.getLsbD j).toNat) := by
  have hpick : ∀ (n : Nat) (v : KReg), (if tt.testBit n then v else 0).getLsbD j = (tt.testBit n && v.getLsbD j) := fun n v => by
    cases tt.testBit n
    · exact BitVec.getLsbD_zero
    · rfl
  simp only [klogVal, BitVec.getLsbD_or, hpick, BitVec.getLsbD_and, BitVec.getLsbD_not, decide_eq_true hj, Bool.true_and]
  cases x.getLsbD j <;> cases y.getLsbD j <;> simp

theorem exec_klog {o : A3} {s : State} {r : KReg} (hruns : Runs (.klog o) s)
    (hbits : ∀ j, j < 1024 → r.getLsbD j = (fld o.m 8 4).testBit
      (2 * (((arch s).getK o.s1.toNat).getLsbD j).toNat + (((arch s).getK o.s2.toNat).getLsbD j).toNat)) :
    exec (.klog o) s = .next (s.withArch ((arch s).fly .execute (.k o.d.toNat r) 1 0)) := by
  obtain rfl : r = klogVal (fld o.m 8 4) ((arch s).getK o.s1.toNat) ((arch s).getK o.s2.toNat) :=
    BitVec.eq_of_getLsbD_eq fun j hj => (hbits j hj).trans (klogVal_getLsbD _ _ _ hj).symm
  exact exec_ok hruns (show bodyKlog o s = _ from onPart_ok rfl)

theorem exec_kset {o : A3} {s : State} {x : W64} {a : Arch} {r : KReg} (hruns : Runs (.kset o) s)
    (hread : s.part.srcX o.s1.toNat (arch s) = .ok (x, a)) (hbits : ∀ j, j < 1024 → (r.getLsbD j = true ↔ j < x.toNat ∧ j < count o)) :
    exec (.kset o) s = .next (s.withArch (a.fly .execute (.k o.d.toNat r) 1 0)) := by
  obtain rfl : r = BitVec.ofNat 1024 (2 ^ min x.toNat (count o) - 1) := BitVec.eq_of_getLsbD_eq fun j hj => by
    rw [BitVec.getLsbD_ofNat, decide_eq_true hj, Bool.true_and, Nat.testBit_two_pow_sub_one]
    exact Bool.eq_iff_iff.mpr ((hbits j hj).trans (Nat.lt_min.symm.trans decide_eq_true_iff.symm))
  exact exec_ok hruns (show bodyKset o s = _ from onPart_ok (by rw [hread]; rfl))

/-- A number of 64 bits is the whole of the vector that carries it. -/
theorem vecWord_eq {n : Nat} (hn : n < 2 ^ 64) : vecWord n = BitVec.ofNat 8192 n := by
  unfold vecWord
  rw [Nat.mod_eq_of_lt hn]

theorem exec_kpop {o : A3} {s : State} {b : Arch} (hruns : Runs (.kpop o) s)
    (hdst : s.part.dstV o.d.toNat (BitVec.ofNat 8192 ((List.range (count o)).countP fun j => maskBit ((arch s).getK o.s1.toNat) j)) 1 0
      (arch s) = .ok b) : exec (.kpop o) s = .next (s.withArch b) := by
  have hlt : (List.range (count o)).countP (fun j => maskBit ((arch s).getK o.s1.toNat) j) < 2 ^ 64 :=
    Nat.lt_of_le_of_lt List.countP_le_length (by rw [List.length_range]; exact count_lt_two_pow o)
  rw [← vecWord_eq hlt, List.countP_eq_length_filter] at hdst
  exact exec_ok hruns (show bodyKpop o s = _ from onPart_ok hdst)

/-- The lowest number below a bound at which a test is true, or the bound (R143). -/
theorem find_range_getD {p : Nat → Bool} {n c : Nat} (hbelow : ∀ j, j < n → p j = false) (hat : (n < c ∧ p n = true) ∨ n = c) :
    ((List.range c).find? p).getD c = n := by
  obtain ⟨hlt, hset⟩ | rfl := hat
  · have hfind : (List.range c).find? p = some n :=
      List.find?_range_eq_some.mpr ⟨hset, List.mem_range.mpr hlt, fun j hj => by rw [hbelow j hj, Bool.not_false]⟩
    rw [hfind, Option.getD_some]
  · have hfind : (List.range n).find? p = none := List.find?_range_eq_none.mpr fun j hj => by rw [hbelow j hj, Bool.not_false]
    rw [hfind, Option.getD_none]

theorem exec_kfst {o : A3} {s : State} {b : Arch} {n : Nat} (hruns : Runs (.kfst o) s)
    (hbelow : ∀ j, j < n → maskBit ((arch s).getK o.s1.toNat) j = false)
    (hat : (n < count o ∧ maskBit ((arch s).getK o.s1.toNat) n = true) ∨ n = count o)
    (hdst : s.part.dstV o.d.toNat (BitVec.ofNat 8192 n) 1 0 (arch s) = .ok b) : exec (.kfst o) s = .next (s.withArch b) := by
  have hle : n ≤ count o := hat.elim (fun h => Nat.le_of_lt h.left) Nat.le_of_eq
  rw [← vecWord_eq (Nat.lt_of_le_of_lt hle (count_lt_two_pow o)), ← find_range_getD hbelow hat] at hdst
  exact exec_ok hruns (show bodyKfst o s = _ from onPart_ok hdst)

theorem exec_vsel {o : A3} {s : State} {x y r : VReg} {a b : Arch} (hruns : Runs (.vsel o) s)
    (hreads : ReadsV2 s (width o) (width o) o.s1 o.s2 x y a)
    (helem : ∀ j, j < count o → elem r.toNat (width o) j = elem (if maskBit (a.maskOf o.m) j then x else y).toNat (width o) j)
    (hdst : s.part.dstV o.d.toNat r 2 0 a = .ok b) : exec (.vsel o) s = .next (s.withArch b) := by
  have hmod : (Instr.vsel o).modOk = true := modOk_of_runs hruns
  have hdef : etDefined (fld o.m 0 4) = true := by
    simp only [Instr.modOk, anyEt, Bool.and_eq_true] at hmod
    obtain ⟨⟨hdef, -⟩, -⟩ := hmod
    exact hdef
  obtain rfl : r = vecOf (width o) fun j =>
      if maskBit (a.maskOf o.m) j then elem x.toNat (width o) j else elem y.toNat (width o) j :=
    eq_vecOf (w := width o) (etWidth_dvd hdef) fun j hj => by
      rw [helem j hj]
      split <;> exact (Nat.mod_eq_of_lt (elem_lt _ _ _)).symm
  obtain ⟨c, hx, hy⟩ := hreads
  unfold ReadsV1 at hx
  exact exec_ok hruns (show bodyVsel o s = _ by
    unfold bodyVsel
    exact onPart_ok (by simpa only [widthOf_eq_width, hx, hy, Got.bind_ok] using hdst))

/-- Settles O16, one instruction at a time. -/
theorem maskResults : Obligations.MaskResults :=
  ⟨fun _ _ _ _ _ _ => exec_vcmp, fun _ _ _ _ _ _ => exec_vfcmp, fun _ _ _ => exec_klog, fun _ _ _ _ _ => exec_kset,
    fun _ _ _ => exec_kpop, fun _ _ _ _ => exec_kfst, fun _ _ _ _ _ _ _ => exec_vsel⟩

/-! ### Permutes and moves (R159 to R162) -/

/-- A slot whose body ends with a result under the mask of its modifier delivers it (R134). -/
theorem delivers_of_putMasked {i : Instr} {s : State} {o : A3} {w lat : Nat} {a : Arch} {g : Nat → Nat × BitVec 5} (hruns : Runs i s)
    (hbody : ∀ b, s.part.putMasked w o lat g a = .ok b → slotBody i s = .ok (s.withArch b)) : Delivers i s o w lat a g :=
  deliversLanes_of hruns hbody

theorem delivers_vpack {o : A3} {s : State} {x y : VReg} {a : Arch} (hruns : Runs (.vpack o) s)
    (hreads : ReadsV2 s 64 64 o.s1 o.s2 x y a) :
    Delivers (.vpack o) s o 8 3 a fun j =>
      let u := fun k => if k < 1024 then elem x.toNat 8 k else elem y.toNat 8 (k - 1024)
      (u (2 * j + 1) % 16 * 16 + u (2 * j) % 16, 0) := by
  have hbytes : ∀ k, elem (x.toNat + y.toNat * 2 ^ 8192) 8 k = if k < 1024 then elem x.toNat 8 k else elem y.toNat 8 (k - 1024) :=
    elem_append (w := 8) (c := 1024) (n := 8192) rfl x y.toNat
  obtain ⟨c, hx, hy⟩ := hreads
  unfold ReadsV1 at hx
  refine delivers_of_putMasked hruns fun b hput => show bodyVpack o s = _ from onPart_ok ?_
  simpa only [hx, hy, Got.bind_ok, hbytes] using hput

/-- Four bits read as a signed number are their residue nearest zero. -/
theorem toInt_four_true (n : Nat) : toInt 4 true n = (n : Int).bmod 16 := by
  unfold toInt
  rw [Int.bmod_def]
  simp only [true_and, Nat.reduceSub, Nat.reducePow]
  split <;> split <;> omega

theorem delivers_vunpk {o : A3} {s : State} {x : VReg} {a : Arch} (hruns : Runs (.vunpk o) s) (hread : ReadsV1 s 64 o.s1 x a) :
    Delivers (.vunpk o) s o 8 3 a fun j =>
      let n := elem x.toNat 4 (1024 * fld o.m 8 1 + j)
      (if fld o.m 9 1 = 1 then ofInt 8 ((n : Int).bmod 16) else n, 0) := by
  unfold ReadsV1 at hread
  refine delivers_of_putMasked hruns fun b hput => show bodyVunpk o s = _ from onPart_ok ?_
  simpa only [hread, Got.bind_ok, toInt_four_true] using hput

/-- VPERM looks an element of S1 up by an index of S2 (R160). -/
theorem slotBody_vperm (o : A3) : slotBody (.vperm o) = vec2 (width o) (width o) 3 o fun x y j =>
    (x (if width o = 8 then j / 256 * 256 + y j else y j % count o), 0) := rfl

theorem delivers_vperm {o : A3} {s : State} {x y : VReg} {a : Arch} (hruns : Runs (.vperm o) s)
    (hreads : ReadsV2 s (width o) (width o) o.s1 o.s2 x y a) :
    Delivers (.vperm o) s o (width o) 3 a fun j =>
      (elem x.toNat (width o)
        (if width o = 8 then j / 256 * 256 + elem y.toNat 8 j else elem y.toNat (width o) j % count o), 0) := by
  refine DeliversLanes.congr (vec2_delivers hruns (congrFun (slotBody_vperm o) s) hreads) fun j _ => ?_
  by_cases hw : width o = 8
  · simp only [hw, and_self]
  · simp only [if_neg hw, and_self]

/-- VSHUF zips halves of its sources, or picks every second element of S1 followed by S2 (R160). -/
theorem slotBody_vshuf (o : A3) : slotBody (.vshuf o) = vec2 (width o) (width o) 3 o fun x y j =>
    (if fld o.m 8 2 = 0 then (if j % 2 = 0 then x (j / 2) else y (j / 2))
     else if fld o.m 8 2 = 1 then (if j % 2 = 0 then x (count o / 2 + j / 2) else y (count o / 2 + j / 2))
     else if 2 * j + fld o.m 8 2 % 2 < count o then x (2 * j + fld o.m 8 2 % 2)
     else y (2 * j + fld o.m 8 2 % 2 - count o), 0) := rfl

theorem delivers_vshuf {o : A3} {s : State} {x y : VReg} {a : Arch} (hruns : Runs (.vshuf o) s)
    (hreads : ReadsV2 s (width o) (width o) o.s1 o.s2 x y a) :
    Delivers (.vshuf o) s o (width o) 3 a fun j =>
      let u := fun k => if k < count o then elem x.toNat (width o) k else elem y.toNat (width o) (k - count o)
      (match fld o.m 8 2 with
       | 0 => elem (if j % 2 = 0 then x else y).toNat (width o) (j / 2)
       | 1 => elem (if j % 2 = 0 then x else y).toNat (width o) (count o / 2 + j / 2)
       | 2 => u (2 * j)
       | _ => u (2 * j + 1), 0) := by
  refine DeliversLanes.congr (vec2_delivers hruns (congrFun (slotBody_vshuf o) s) hreads) fun j _ => ?_
  have hpat : fld o.m 8 2 < 4 := fld_lt o.m 8 2
  generalize fld o.m 8 2 = pat at hpat ⊢
  match pat with
  | 0 => by_cases hj : j % 2 = 0 <;> simp [hj]
  | 1 => by_cases hj : j % 2 = 0 <;> simp [hj]
  | 2 => simp
  | 3 => simp

theorem delivers_vslide {o : A3} {s : State} {x y : VReg} {n : W64} {a b : Arch} (hruns : Runs (.vslide o) s)
    (hreads : ReadsV2 s (width o) (width o) o.s1 o.s2 x y a) (hn : s.part.srcX o.s3.toNat a = .ok (n, b)) :
    Delivers (.vslide o) s o (width o) 3 b fun j =>
      (if j + n.toNat < count o then elem x.toNat (width o) (j + n.toNat)
       else if j + n.toNat < 2 * count o then elem y.toNat (width o) (j + n.toNat - count o) else 0, 0) := by
  obtain ⟨c, hx, hy⟩ := hreads
  unfold ReadsV1 at hx
  refine delivers_of_putMasked hruns fun b hput => show bodyVslide o s = _ from ?_
  unfold bodyVslide
  exact onPart_ok (by simp only [widthOf_eq_width, countOf_eq_count, hx, hy, hn, Got.bind_ok]; exact hput)

theorem delivers_vbcst {o : A3} {s : State} {x : VReg} {n : W64} {a b : Arch} (hruns : Runs (.vbcst o) s)
    (hread : ReadsV1 s (width o) o.s1 x a) (hn : s.part.srcX o.s2.toNat a = .ok (n, b)) :
    Delivers (.vbcst o) s o (width o) 3 b fun _ => (elem x.toNat (width o) (n.toNat % count o), 0) := by
  unfold ReadsV1 at hread
  refine delivers_of_putMasked hruns fun b hput => show bodyVbcst o s = _ from ?_
  unfold bodyVbcst
  exact onPart_ok (by simpa only [widthOf_eq_width, countOf_eq_count, hread, hn, Got.bind_ok] using hput)

/-- The whole of D is one lane, which mask bit 0 governs (R162). -/
theorem delivers_vextr {o : A3} {s : State} {x : VReg} {n : W64} {a b : Arch} (hruns : Runs (.vextr o) s)
    (hread : ReadsV1 s (width o) o.s1 x a) (hn : s.part.srcX o.s2.toNat a = .ok (n, b)) :
    DeliversLanes (.vextr o) s o.d 8192 3 b (maskBit (b.maskOf o.m)) (fun _ => zeroing o.m o.d.toNat) fun _ =>
      (ofInt 64 (val o (elem x.toNat (width o) (n.toNat % count o))), 0) := by
  unfold ReadsV1 at hread
  refine deliversLanes_of hruns fun b hdst => show bodyVextr o s = _ from ?_
  unfold bodyVextr
  exact onPart_ok (by simp only [widthOf_eq_width, countOf_eq_count, hread, hn, Got.bind_ok]; exact hdst)

/-- The model writes the named element whether its mask bit is set or Z zeroes it, and keeps every other one (R162). -/
theorem delivers_vins {o : A3} {s : State} {v n : W64} {a b : Arch} (hruns : Runs (.vins o) s)
    (hv : s.part.srcX o.s1.toNat (arch s) = .ok (v, a)) (hn : s.part.srcX o.s2.toNat a = .ok (n, b)) :
    DeliversLanes (.vins o) s o.d (width o) 3 b
      (fun j => j == n.toNat % count o && maskBit (b.maskOf o.m) j)
      (fun j => j == n.toNat % count o && fld o.m 7 1 == 1) fun _ => (v.toNat, 0) := by
  have hmodel : DeliversLanes (.vins o) s o.d (width o) 3 b
      (fun j => j == n.toNat % count o && (maskBit (b.maskOf o.m) (n.toNat % count o) || fld o.m 7 1 == 1)) (fun _ => false)
      fun _ => (if maskBit (b.maskOf o.m) (n.toNat % count o) then v.toNat % 2 ^ width o else 0, 0) :=
    deliversLanes_of hruns fun b hdst => show bodyVins o s = _ by
      unfold bodyVins
      exact onPart_ok (by simp only [widthOf_eq_width, countOf_eq_count, hv, hn, Got.bind_ok]; exact hdst)
  obtain ⟨result, flags, lanes, raised, arrives⟩ := hmodel
  refine ⟨result, flags, fun j hj => (lanes j hj).trans ?_, fun f => (raised f).trans ?_, arrives⟩
  · by_cases hk : j = n.toNat % count o
    · subst hk
      by_cases hset : maskBit (b.maskOf o.m) (n.toNat % count o) = true <;> simp [hset]
    · simp [hk]
  · simp

theorem delivers_vmov {o : A3} {s : State} {x : VReg} {a : Arch} (hruns : Runs (.vmov o) s) (hread : ReadsV1 s (width o) o.s1 x a) :
    Delivers (.vmov o) s o (width o) 2 a fun j => (elem x.toNat (width o) j, 0) :=
  vec1_delivers hruns (show slotBody (.vmov o) s = vec1 (width o) (width o) 2 o (fun x j => (x j, 0)) s from rfl) hread

theorem exec_vmovi {o : WI} {s : State} {r : VReg} {b : Arch} (hruns : Runs (.vmovi o) s)
    (helem : ∀ j, j < 8192 / etWidth (fld o.imm 34 4) → elem r.toNat (etWidth (fld o.imm 34 4)) j =
      fld o.imm 0 32 % 2 ^ etWidth (fld o.imm 34 4))
    (hdst : s.part.dstV o.d.toNat r 2 0 (arch s) = .ok b) : exec (.vmovi o) s = .next (s.withArch b) := by
  have hmod : vmoviMod o.imm = true := modOk_of_runs hruns
  have hdef : etDefined (fld o.imm 34 4) = true := by
    simp only [vmoviMod, Bool.and_eq_true] at hmod
    obtain ⟨⟨hdef, -⟩, -⟩ := hmod
    exact hdef
  obtain rfl := eq_vecOf (f := fun _ => fld o.imm 0 32 % 2 ^ etWidth (fld o.imm 34 4)) (etWidth_dvd hdef) fun j hj => by
    rw [helem j hj, Nat.mod_mod]
  exact exec_ok hruns (show bodyVmovi o s = _ by
    unfold bodyVmovi
    exact onPart_ok hdst)

/-- Settles O21, one instruction at a time. -/
theorem permuteMoveResults : Obligations.PermuteMoveResults :=
  ⟨fun _ _ _ _ _ => delivers_vpack, fun _ _ _ _ => delivers_vunpk, fun _ _ _ _ _ => delivers_vperm, fun _ _ _ _ _ => delivers_vshuf,
    fun _ _ _ _ _ _ _ => delivers_vslide, fun _ _ _ _ _ _ => delivers_vbcst, fun _ _ _ _ _ _ => delivers_vextr,
    fun _ _ _ _ _ _ => delivers_vins, fun _ _ _ _ => delivers_vmov, fun _ _ _ _ => exec_vmovi⟩

end Sys2Proof.Machine

/-! Proofs for spec/03 and spec/04 (bundle formats, opcode map): encoder and decoder agree (R48, R50, R71 to R76). -/

namespace Sys2Proof

open Safety

/-! ### A syllable is put together from its fields -/

theorem opOf_lt (y : Syllable) : opOf y < 1024 := by
  rw [opOf_toNat]
  omega

theorem encGuard_guardOf_toNat (y : Syllable) : (encGuard (guardOf y)).toNat = y.toNat / 2 ^ 55 := by
  have hy := y.isLt
  have hbit : (y.getLsbD 55).toNat = y.toNat / 2 ^ 55 % 2 := by
    rw [← BitVec.testBit_toNat, Nat.toNat_testBit]
  rw [encGuard_toNat, guardOf, hbit, extract_toNat]
  omega

variable {y : Syllable} {op : BitVec 10}

theorem encA3_a3Of (h : opOf y = op.toNat) : encA3 op (a3Of y) = y := by
  rw [opOf_toNat] at h
  apply BitVec.eq_of_toNat_eq
  rw [a3_toNat, ← h]
  simp only [a3Of, encGuard_guardOf_toNat, extract_toNat]
  omega

theorem encEN_enOf (h : opOf y = op.toNat) : encEN op (enOf y) = y := by
  rw [opOf_toNat] at h
  apply BitVec.eq_of_toNat_eq
  rw [en_toNat, ← h]
  simp only [enOf, encGuard_guardOf_toNat, extract_toNat]
  omega

theorem encAI_aiOf (h : opOf y = op.toNat) : encAI op (aiOf y) = y := by
  rw [opOf_toNat] at h
  apply BitVec.eq_of_toNat_eq
  rw [ai_toNat, ← h]
  simp only [aiOf, encGuard_guardOf_toNat, extract_toNat]
  omega

theorem encWI_wiOf (h : opOf y = op.toNat) : encWI op (wiOf y) = y := by
  rw [opOf_toNat] at h
  apply BitVec.eq_of_toNat_eq
  rw [wi_toNat, ← h]
  simp only [wiOf, encGuard_guardOf_toNat, extract_toNat]
  omega

theorem encBR_brOf (h : opOf y = op.toNat) : encBR op (brOf y) = y := by
  rw [opOf_toNat] at h
  apply BitVec.eq_of_toNat_eq
  rw [br_toNat, ← h]
  simp only [brOf, encGuard_guardOf_toNat, extract_toNat]
  omega

/-- The opcode of a hint's number (R76). -/
theorem hint_op_toNat {n : Nat} (hlow : 0x3C0 ≤ n) (hhigh : n < 1024) :
    (0x3C0 + (BitVec.ofNat 6 (n - 0x3C0)).setWidth 10 : BitVec 10).toNat = n := by
  rw [BitVec.toNat_add, BitVec.toNat_setWidth, BitVec.toNat_ofNat]
  show (0x3C0 + _) % _ = n
  omega

/-! ### What a class assigns encodes back (R71) -/

variable {i : Instr}

theorem encode_of_controlOf (h : controlOf y = some i) : encode i = some (.control, y) := by
  unfold controlOf at h
  split at h
  case h_66 =>
    split at h
    case isTrue hint =>
      obtain rfl := Option.some.inj h
      rw [encode, encWI_wiOf (hint_op_toNat hint (opOf_lt y)).symm]
    case isFalse => cases h
  all_goals
    rename_i hop
    obtain rfl := Option.some.inj h
    simp [encode, encA3_a3Of, encAI_aiOf, encWI_wiOf, encBR_brOf, hop]

theorem encode_of_vectorOf (h : vectorOf y = some i) : encode i = some (.vector, y) := by
  unfold vectorOf at h
  split at h
  case h_59 => cases h
  all_goals
    rename_i hop
    obtain rfl := Option.some.inj h
    simp [encode, encA3_a3Of, encWI_wiOf, hop]

theorem encode_of_memoryOf (h : memoryOf y = some i) : encode i = some (.memory, y) := by
  unfold memoryOf at h
  split at h
  case h_39 => cases h
  all_goals
    rename_i hop
    obtain rfl := Option.some.inj h
    simp [encode, encA3_a3Of, encAI_aiOf, encWI_wiOf, encEN_enOf, hop]

/-! ### The encoder's syllables decode (R48, R71) -/

namespace Laws.Encoded

/-- Every instruction reads back from the syllable that the encoder makes of it. -/
theorem statement_all : ∀ i : Instr, Statement i
  | .add a => add a | .sub a => sub a | .mul a => mul a | .mulh a => mulh a | .mulhn a => mulhn a | .div a => div a
  | .divn a => divn a | .rem a => rem a | .remn a => remn a | .andS a => andS a | .orS a => orS a | .xorS a => xorS a
  | .andn a => andn a | .shl a => shl a | .shr a => shr a | .sar a => sar a | .rotr a => rotr a | .minS a => minS a
  | .maxS a => maxS a | .minn a => minn a | .maxn a => maxn a | .clz a => clz a | .ctz a => ctz a | .popc a => popc a
  | .sext a => sext a | .zext a => zext a | .bfx a => bfx a | .bfi a => bfi a | .sel a => sel a | .addi a => addi a
  | .cmpi a => cmpi a | .movi a => movi a | .movhi a => movhi a | .cmp a => cmp a | .plog a => plog a | .ptst a => ptst a
  | .fadds a => fadds a | .fmuls a => fmuls a | .fmas a => fmas a | .fcmps a => fcmps a | .fcvts a => fcvts a | .fmms a => fmms a
  | .bri a => bri a | .br a => br a | .call a => call a | .ret a => ret a | .trap a => trap a | .eret a => eret a
  | .sysr a => sysr a | .sysw a => sysw a | .brk a => brk a | .loopm a => loopm a | .lbrk a => lbrk a | .spawn a => spawn a
  | .susp a => susp a | .steal a => steal a | .launchMsg a => launchMsg a | .bend a => bend a | .qsend a => qsend a
  | .evpost a => evpost a | .bstat a => bstat a | .sgbeg a => sgbeg a | .sgend a => sgend a | .sginv a => sginv a
  | .sgcfg a => sgcfg a | .hint a b => hint a b | .vadd a => vadd a | .vsub a => vsub a | .vmul a => vmul a | .vmulh a => vmulh a
  | .vmac a => vmac a | .vdot4 a => vdot4 a | .vdot2 a => vdot2 a | .vmin a => vmin a | .vmax a => vmax a | .vabs a => vabs a
  | .vshl a => vshl a | .vshr a => vshr a | .vsar a => vsar a | .vand a => vand a | .vor a => vor a | .vxor a => vxor a
  | .vsadd a => vsadd a | .vssub a => vssub a | .vrshr a => vrshr a | .vnarw a => vnarw a | .vwide a => vwide a
  | .vcmp a => vcmp a | .klog a => klog a | .kpop a => kpop a | .kfst a => kfst a | .kset a => kset a | .vsel a => vsel a
  | .vfadd a => vfadd a | .vfsub a => vfsub a | .vfmul a => vfmul a | .vfma a => vfma a | .vfmin a => vfmin a
  | .vfmax a => vfmax a | .vfcmp a => vfcmp a | .vfsgn a => vfsgn a | .vfcls a => vfcls a | .vxdot a => vxdot a
  | .vxadd a => vxadd a | .vsum a => vsum a | .vscan a => vscan a | .vcvt a => vcvt a | .vcvt8 a => vcvt8 a | .vmxq a => vmxq a
  | .vmxdq a => vmxdq a | .vexp a => vexp a | .vpack a => vpack a | .vunpk a => vunpk a | .vperm a => vperm a
  | .vshuf a => vshuf a | .vslide a => vslide a | .vbcst a => vbcst a | .vextr a => vextr a | .vins a => vins a
  | .vmov a => vmov a | .vmovi a => vmovi a | .swr a => swr a | .srd a => srd a | .scnt a => scnt a | .aadd a => aadd a
  | .asub a => asub a | .aaddi a => aaddi a | .ashl a => ashl a | .amul a => amul a | .aand a => aand a | .amin a => amin a
  | .acmp a => acmp a | .amovi a => amovi a | .ld a => ld a | .st a => st a | .ldacq a => ldacq a | .strel a => strel a
  | .vld a => vld a | .vlds a => vlds a | .vldx a => vldx a | .vst a => vst a | .vsts a => vsts a | .vstx a => vstx a
  | .feset a => feset a | .fetst a => fetst a | .amo a => amo a | .cas a => cas a | .red a => red a | .vred a => vred a
  | .fence a => fence a | .qfence a => qfence a | .cpy a => cpy a | .cpyt a => cpyt a | .cpyn a => cpyn a | .cpym a => cpym a
  | .xlatq a => xlatq a | .mma a => mma a | .mlat a => mlat a | .mcfg a => mcfg a | .sfn a => sfn a | .gath a => gath a
  | .scat a => scat a | .streamPartIssue a b => streamPartIssue a b | .stallCountExpiry a b => stallCountExpiry a b
  | .resultLands a b => resultLands a b | .offCoreLoadReturn a b => offCoreLoadReturn a b
  | .scratchpadAccessPoint a => scratchpadAccessPoint a | .trapEntry a => trapEntry a | .segmentClose a => segmentClose a
  | .rendezvous a => rendezvous a | .sideLogReplay a b => sideLogReplay a b | .operationStart a b => operationStart a b
  | .fieldArbitration a b => fieldArbitration a b | .stepBoundary a b => stepBoundary a b
  | .benchCycleSteal a b => benchCycleSteal a b | .mmaClaim a b => mmaClaim a b | .mmaStep a b => mmaStep a b
  | .mmaWriteBack a b => mmaWriteBack a b | .mlatPerform a b => mlatPerform a b | .copyStep a b => copyStep a b
  | .copyPerformed a b => copyPerformed a b | .sfnStep a => sfnStep a | .gatherStep a => gatherStep a
  | .surrogateInvocation a => surrogateInvocation a | .eventEntry a b => eventEntry a b | .messageArrival a => messageArrival a
  | .stealAnswer a => stealAnswer a | .dequeTopDelivery a => dequeTopDelivery a
  | .remoteAtomicRequest a b => remoteAtomicRequest a b | .requestResend a b => requestResend a b | .globalTick => globalTick
  | .frameCounterStart a => frameCounterStart a | .entryStart a => entryStart a | .frameEndProcessing a => frameEndProcessing a
  | .launchMessage a b c => launchMessage a b c | .grantDecision => grantDecision | .grant a => grant a
  | .contextSave a => contextSave a | .resumption a => resumption a | .launchEnd a => launchEnd a
  | .hostEventPost a => hostEventPost a | .contextCreate a b => contextCreate a b | .contextDestroy a => contextDestroy a
  | .rankWrite a b => rankWrite a b | .slotTableWrite a b c => slotTableWrite a b c
  | .dieFabricArbitration a b c => dieFabricArbitration a b c | .debugHalt a => debugHalt a | .debugResume a => debugResume a
  | .moduleLoad a b c d => moduleLoad a b c d | .moduleUnload a => moduleUnload a
  | .registerHostEventArea a b c d e => registerHostEventArea a b c d e | .moveToDevice a b c => moveToDevice a b c
  | .moveToHost a b c d => moveToHost a b c d | .duplicate a b c d => duplicate a b c d | .unmap a b c => unmap a b c
  | .faultRequest a b c => faultRequest a b c | .declareUnresolvable a b => declareUnresolvable a b | .migration a => migration a
  | .invalidate a b => invalidate a b | .holdOffExpiry a => holdOffExpiry a | .replayHoldTimeout a => replayHoldTimeout a
  | .hbmSectorRead a b c d e => hbmSectorRead a b c d e | .hbmSectorWrite a b c d e => hbmSectorWrite a b c d e 
  | .parityDelta a => parityDelta a | .stackLost a => stackLost a | .restripe => restripe
  | .restripeCursorAdvance => restripeCursorAdvance | .keyWrite a b c => keyWrite a b c
  | .signatureCompare a b => signatureCompare a b | .resultSignatureCompare a b c => resultSignatureCompare a b c
  | .endLaunchPinned a => endLaunchPinned a | .teardown a => teardown a | .scrub a b => scrub a b
  | .fieldmaskRemove a b => fieldmaskRemove a b | .retentionEntry a => retentionEntry a | .retentionExit a => retentionExit a
  | .weightBlockAccess a b c d => weightBlockAccess a b c d | .packageReset => packageReset
  | .attestationRequest a => attestationRequest a | .hostFaultRequest a b c => hostFaultRequest a b c
  | .registerSystemEventRing a b c d => registerSystemEventRing a b c d
  | .registerCoreSetHandle a b c => registerCoreSetHandle a b c | .registerPublicKeys a b => registerPublicKeys a b

end Laws.Encoded

/-- A slot instruction, and only one, has a syllable. -/
theorem encode_isSome (i : Instr) : (encode i).isSome = i.guard?.isSome := by
  cases i <;> rfl

theorem decode_of_encode {c : SlotClass} (henc : encode i = some (c, y)) (hwf : i.wellFormed = true) : decode c y = .ok i := by
  obtain ⟨hassigned, hguard⟩ := Laws.Encoded.statement_all i c y henc
  simp only [Instr.wellFormed, hguard, Bool.and_eq_true] at hwf
  obtain ⟨⟨hok, hunused⟩, -⟩ := hwf
  unfold decode
  rw [if_neg (by rw [hok]; decide), hassigned]
  exact if_pos hunused

/-- Settles O1: the encoder gives every slot instruction a syllable, and its class reads the instruction back from it. -/
theorem encodedInstructionsDecode : Obligations.EncodedInstructionsDecode := by
  unfold Obligations.EncodedInstructionsDecode
  intro i hwf hslot
  obtain ⟨⟨c, y⟩, henc⟩ := Option.isSome_iff_exists.mp ((encode_isSome i).trans hslot)
  exact ⟨c, y, henc, decode_of_encode henc hwf⟩

/-! ### What decodes is encoded (R48, R50) -/

theorem encode_of_assigned {c : SlotClass} (h : assigned c y = some i) : encode i = some (c, y) := by
  cases c with
  | control => exact encode_of_controlOf h
  | vector => exact encode_of_vectorOf h
  | memory => exact encode_of_memoryOf h

theorem assigned_of_decode {c : SlotClass} (h : decode c y = .ok i) : assigned c y = some i := by
  unfold decode at h
  split at h
  · split at h <;> cases h
  · split at h
    · cases h
    next hassigned =>
      split at h
      · cases h; exact hassigned
      · cases h

/-- Settles O2: what decodes is what its class assigns, and that encodes back. -/
theorem decodedSyllablesEncode : Obligations.DecodedSyllablesEncode := by
  unfold Obligations.DecodedSyllablesEncode
  exact fun c y i h => encode_of_assigned (assigned_of_decode h)

/-! ### Codes without an instruction (R71) -/

theorem controlOf_isSome (y : Syllable) : (controlOf y).isSome = codeAssigned .control (opOf y) := by
  have hlt := opOf_lt y
  unfold controlOf
  generalize opOf y = n at hlt ⊢
  split
  case h_66 =>
    split
    case isTrue hint => simp [codeAssigned, hint]; omega
    case isFalse hlow =>
      symm
      rw [Option.isSome_none, Bool.eq_false_iff]
      intro hcode
      simp only [codeAssigned, Bool.or_eq_true, Bool.and_eq_true, decide_eq_true_eq, beq_iff_eq] at hcode
      simp only [imp_false] at *
      omega
  all_goals rfl

theorem vectorOf_isSome (y : Syllable) : (vectorOf y).isSome = codeAssigned .vector (opOf y) := by
  unfold vectorOf
  generalize opOf y = n
  split
  case h_59 =>
    symm
    rw [Option.isSome_none, Bool.eq_false_iff]
    intro hcode
    simp only [codeAssigned, Bool.or_eq_true, Bool.and_eq_true, decide_eq_true_eq, beq_iff_eq] at hcode
    simp only [imp_false] at *
    omega
  all_goals rfl

theorem memoryOf_isSome (y : Syllable) : (memoryOf y).isSome = codeAssigned .memory (opOf y) := by
  unfold memoryOf
  generalize opOf y = n
  split
  case h_39 =>
    symm
    rw [Option.isSome_none, Bool.eq_false_iff]
    intro hcode
    simp only [codeAssigned, Bool.or_eq_true, Bool.and_eq_true, decide_eq_true_eq, beq_iff_eq] at hcode
    simp only [imp_false] at *
    omega
  all_goals rfl

theorem assigned_isSome (c : SlotClass) (y : Syllable) : (assigned c y).isSome = codeAssigned c (opOf y) := by
  cases c with
  | control => exact controlOf_isSome y
  | vector => exact vectorOf_isSome y
  | memory => exact memoryOf_isSome y

/-- Settles O3: under a guard that is not the empty slot's, the decoder says `unassigned` where its class assigns nothing. -/
theorem unassignedCodesRefused : Obligations.UnassignedCodesRefused := by
  unfold Obligations.UnassignedCodesRefused
  intro c y hguard
  rw [← assigned_isSome c y]
  unfold decode
  rw [if_neg (by rw [hguard]; decide)]
  cases assigned c y with
  | none => simp
  | some i =>
    cases hzero : i.unusedZero <;> simp [hzero]

/-- Settles O4: each word, decoded. -/
theorem workedWordsDecode : Obligations.WorkedWordsDecode := by
  unfold Obligations.WorkedWordsDecode
  refine ⟨?_, ?_, ?_, ?_, ?_, ?_, ?_, ?_, ?_, ?_, ?_, ?_, ?_, ?_, ?_, ?_, ?_, ?_, ?_⟩ <;> rfl

end Sys2Proof

/-! Proofs for spec/28 and spec/04: what one step is (log entry 3), and the trap of a defect (R77). -/

namespace Sys2Proof.Machine

open Safety

/-- Settles O5, one source of the next step at a time. -/
theorem stepRunsInstruction : Obligations.StepRunsInstruction := by
  unfold Obligations.StepRunsInstruction
  refine ⟨fun s w rest i hlatch hdec => ?_, fun s hlatch => ⟨fun e rest hagenda hdevice => ?_, fun hagenda => ?_⟩⟩
  · simp only [step, hlatch, hdec, State.latchNext]
  · simp only [step, hlatch, hagenda, hdevice, if_true]
  · simp only [step, hlatch, hagenda]

/-- Settles O8: the defect cancels the part, which puts back the core as before it and asks for the trap. -/
theorem defectsTrap : Obligations.DefectsTrap := by
  unfold Obligations.DefectsTrap
  intro i s cause hwf hguarded hdefect
  have hslot : i.guard?.isSome = true := by
    obtain ⟨g, hg, -⟩ := hguarded
    rw [hg]; rfl
  refine ⟨s.cancelPart cause s.slotAddr, ?_, State.cancelPart_latch _ _ _, fun c hc => ?_, ?_⟩
  · rw [exec_slot hslot, runSlot_defect hguarded hdefect]
  · rw [State.cancelPart_core hwf, if_neg hc]
  · rw [State.cancelPart_core hwf, if_pos rfl]; rfl

end Sys2Proof.Machine

/-! Proofs for spec/01 and spec/06 (registers and queues, operand forms): what a source reads and a destination is sent (R6, R9, R11, R14,
R103, R131, R135, R187). -/

namespace Sys2Proof.Machine

open Safety

/-! ### Registers by their number (R6, R14) -/

theorem rot_eq_physical (rb n : Nat) : rot rb n = physical rb n := by
  unfold rot physical
  simp only [Nat.lt_succ_iff]

theorem rot_eq_zero_iff (rb n : Nat) : rot rb n = 0 ↔ n = 0 := by
  unfold rot
  split <;> omega

theorem rot_eq_iff_of_high (rb : Nat) {n m : Nat} (hm : 48 ≤ m) : rot rb n = m ↔ n = m := by
  unfold rot
  split <;> omega

theorem srcS_register (p : Part) {n : Nat} (hn : n < 56) (a : Arch) :
    p.srcS n a = .ok (if n = 0 then 0 else Sparse.get 0 a.s (physical p.rb n), a) := by
  unfold Part.srcS Arch.getS
  rw [if_pos hn, ← rot_eq_physical]
  simp only [rot_eq_zero_iff]

/-! ### Pop and push ports (R9, R11) -/

theorem srcS_popPort (p : Part) {n : Nat} {q : Q} (h : popPort n = some q) (a : Arch) : p.srcS n a = a.pop q := by
  unfold popPort at h
  split at h <;> cases h <;> rfl

theorem pop_oldest {a : Arch} {q : Q} {id : Nat} {x : W64} {rest : List QEntry} (h : a.q q = ⟨id, some x, none, false⟩ :: rest) :
    a.pop q = .ok (x, a.setQ q rest) := by
  simp [Arch.pop, h, splitMessage]

theorem pop_empty {a : Arch} {q : Q} (h : a.q q = []) : a.pop q = .stall := by
  simp [Arch.pop, h, splitMessage]

theorem dstS_pushPort (p : Part) {n : Nat} {q : Q} (h : pushPort n = some q) (v : W64) (lat : Nat) (fl : BitVec 5) (a : Arch) :
    p.dstS n v lat fl a = (a.reserve q).map fun (id, a) => a.fly .execute (.q q id v) lat fl := by
  unfold pushPort at h
  split at h <;> cases h <;> rfl

theorem reserve_room {a : Arch} {q : Q} (h : (a.q q).length < q.depth) :
    a.reserve q = .ok (a.qid, { a.setQ q (a.q q ++ [⟨a.qid, none, none, false⟩]) with qid := a.qid + 1 }) := if_pos h

theorem reserve_full {a : Arch} {q : Q} (h : q.depth ≤ (a.q q).length) : a.reserve q = .stall := if_neg (Nat.not_lt.mpr h)

theorem dstS_full (p : Part) {n : Nat} {q : Q} {a : Arch} (h : pushPort n = some q) (hfull : q.depth ≤ (a.q q).length) (v : W64)
    (lat : Nat) (fl : BitVec 5) : p.dstS n v lat fl a = .stall := by
  rw [dstS_pushPort p h, reserve_full hfull, Got.map_stall]

theorem dstS_register (p : Part) {n : Nat} (hn : n < 58) (v : W64) (lat : Nat) (fl : BitVec 5) (a : Arch) :
    p.dstS n v lat fl a = .ok (a.fly .execute (.s (physical p.rb n) v) lat fl) := by
  unfold Part.dstS
  rw [if_neg (by omega), if_neg (by omega), rot_eq_physical]

/-! ### Vector and memory sources (R131, R135, R187) -/

theorem srcV_scalar (p : Part) (w : Nat) {n : Nat} (hlow : 64 ≤ n) (hhigh : n < 120) (a : Arch) :
    p.srcV w n a = .ok (broadcast w (if n = 64 then 0 else Sparse.get 0 a.s (physical p.rb (n - 64))), a) := by
  unfold Part.srcV
  rw [if_pos hlow, srcS_register p (by omega), Got.map_ok]
  have hzero : n - 64 = 0 ↔ n = 64 := by omega
  simp only [hzero]

theorem srcV_register (p : Part) (w : Nat) {n : Nat} (hn : n < 56 ∨ n = 62) (a : Arch) :
    p.srcV w n a = .ok (if n = 62 then 0 else Sparse.get 0 a.v (physical p.rb n), a) := by
  unfold Part.srcV Arch.getV
  rw [if_neg (by omega), if_neg (by omega), if_neg (by omega), if_neg (by omega), if_neg (by omega), ← rot_eq_physical]
  simp only [rot_eq_iff_of_high _ (show 48 ≤ 62 by decide)]

theorem srcA_register {k : Core} {n : Nat} (hn : n ≠ 28) (hoffs : k.offs = []) (hmarks : k.arch.marks = []) :
    k.srcA n = .ok (if n = 0 then 0 else Sparse.get 0 k.arch.a n, k) := by
  have hheld : k.heldA n = false := by simp [Core.heldA, hoffs]
  have hmark : k.arch.marked .a n = false := by simp [Arch.marked, hmarks]
  simp [Core.srcA, hn, Core.readA, hheld, hmark, Arch.getA]

theorem srcA_pop {k : Core} {id : Nat} {x : W64} {rest : List QEntry} (h : k.arch.q .xa = ⟨id, some x, none, false⟩ :: rest) :
    k.srcA 28 = .ok (x, { k with arch := k.arch.setQ .xa rest }) := by
  unfold Core.srcA
  rw [if_pos rfl, pop_oldest h, Got.map_ok]

/-- Settles O56, one operand form at a time. -/
theorem operandForms : Obligations.OperandForms := by
  unfold Obligations.OperandForms
  refine ⟨fun s n hn => ?_, fun s n q hport => ⟨fun id x rest hq => ?_, fun hq => ?_⟩, fun s w n hlow hhigh _ _ =>
      ⟨_, srcV_scalar s.part w hlow hhigh (arch s), fun j hj => ?_⟩,
    fun s w n hn => ?_, fun s n hn hoffs hmarks => ?_, fun s id x rest hq => ?_, fun p n lat v fl a hn => ?_,
    fun p n lat v fl a q hport => ⟨fun hroom => ?_, fun hfull => ?_⟩⟩
  · unfold Reads1
    have hzero : n.toNat = 0 ↔ n = 0 := (BitVec.toNat_inj (x := n) (y := 0))
    simp only [srcS_register s.part hn, hzero]
  · unfold Reads1
    rw [srcS_popPort s.part hport, pop_oldest hq]
  · rw [srcS_popPort s.part hport, pop_empty hq]
  · rw [elem_broadcast _ hj]
    split <;> rfl
  · exact srcV_register s.part w hn (arch s)
  · unfold ReadsA1
    have hzero : n.toNat = 0 ↔ n = 0 := (BitVec.toNat_inj (x := n) (y := 0))
    simp only [srcA_register (Nat.ne_of_lt hn) hoffs hmarks, hzero]
  · exact srcA_pop hq
  · exact dstS_register p hn v lat fl a
  · rw [dstS_pushPort p hport, reserve_room hroom, Got.map_ok]
  · exact dstS_full p hport hfull v lat fl

/-- The system registers of a core as reset leaves it, in no launch: its coordinates, every unit of its cluster enabled, and quiet (R17 to
R24). -/
theorem readSys_reset {s : State} (hcore : s.core s.part.core = Core.reset) (hpart : s.part = { Part.idle with core := s.part.core })
    (hgtc : s.gtc = 0) (hmask : s.fieldmask = []) (n : Nat) : s.readSys n =
      if n = 6 then BitVec.ofNat 64 (s.part.core * 2 ^ 16 + s.part.core / 72 * 2 ^ 8 + s.part.core / 8 % 9 * 2 ^ 4 + s.part.core % 8)
      else if n = 13 then 0x1FFFF else if n = 14 then 1 else 0 := by
  have hlaunch : s.launchOf s.part.core = none := by rw [State.launchOf, hcore]; rfl
  have hquiet : s.quiet s.part.core = true := by simp [State.quiet, hlaunch]
  have hrb : s.part.rb = 0 := by rw [hpart]; rfl
  have hloop : s.part.loopOn = false := by rw [hpart]; rfl
  have hbefore : s.part.before = Core.reset := by rw [hpart]; rfl
  unfold State.readSys
  simp only [hcore, hlaunch, hquiet, hrb, hloop, hbefore, hgtc, hmask]
  match n with
  | 0 | 1 | 2 | 3 | 4 | 5 | 6 | 7 | 8 | 9 | 10 | 11 | 12 | 13 | 14 =>
    simp [bit, Core.reset, Arch.reset, coreCoord, dieOf, clusterOf, coreInCluster, coresPerDie, coresPerCluster, Sparse.get]
  | m + 15 => simp [Core.reset, Arch.reset, Sparse.get]

/-- Settles O60: the tables are empty, so that each reads its default. -/
theorem resetState : Obligations.ResetState := by
  unfold Obligations.ResetState
  have hpred : ∀ n, predBit (1 : BitVec 16) n = decide (n = 0) := fun n => by
    have hone : (1 : BitVec 16).getLsbD n = decide (n = 0) := by simp
    rw [predBit, hone]
    by_cases hn : n = 0 <;> simp [hn]
  refine ⟨⟨rfl, rfl, rfl, rfl, rfl⟩, rfl, fun c n => ⟨?_, ?_, ?_, hpred n, ?_⟩, fun c q r => ⟨rfl, rfl⟩, fun c n => ?_,
    fun c l a => ⟨rfl, rfl, rfl, rfl, rfl⟩⟩
  · exact ite_self _
  · exact ite_self _
  · exact ite_self _
  · rfl
  · exact readSys_reset (s := { State.reset with part := { Part.idle with core := c } }) rfl rfl rfl rfl n

end Sys2Proof.Machine

/-! Proofs for spec/06 and spec/09 (scalar floating point, address instructions): results and flags (R118, R119, R121, R122, R190, R191,
R217). -/

namespace Sys2Proof.Machine

open Safety

/-! ### Scalar floating point -/

/-- A field of one bit is that bit of its modifier. -/
theorem fld_one_beq_one {w : Nat} (m : BitVec w) (i : Nat) : (fld m i 1 == 1) = m.getLsbD i := by
  rw [← BitVec.testBit_toNat, Nat.testBit_eq_decide_div_mod_eq]
  rfl

theorem faddsVal_eq (o : A3) : faddsVal (fld o.m 0 1 == 1) =
    fun x y => fpResult ((if fld o.m 0 1 = 1 then fSub fp32 else fAdd fp32) (lo32 x) (lo32 y)) := by
  funext x y
  unfold faddsVal
  by_cases hsub : fld o.m 0 1 = 1 <;> simp [hsub]

/-- Each FP32 instruction of two sources computes on their low halves. -/
theorem slotBody_fpOp {i : Instr} {o : A3} {lat : Nat} {f : Nat → Nat → Nat × BitVec 5} (h : fpOp i = some (o, lat, f)) :
    slotBody i = scalar2 (fun x y => fpResult (f (lo32 x) (lo32 y))) lat o := by
  unfold fpOp at h
  split at h <;> cases h
  case h_1 => exact congrArg (fun g => scalar2 g 4 o) (faddsVal_eq o)
  case h_2 => rfl
  case h_3 => rfl

theorem exec_fpOp {i : Instr} {o : A3} {lat : Nat} {f : Nat → Nat → Nat × BitVec 5} (hop : fpOp i = some (o, lat, f)) {s : State}
    {x y : W64} {a b : Arch} (hruns : Runs i s) (hreads : Reads2 s o.s1 o.s2 x y a)
    (hdst : s.part.dstS o.d.toNat (BitVec.ofNat 64 (f (x.toNat % 2 ^ 32) (y.toNat % 2 ^ 32)).1) lat
      (f (x.toNat % 2 ^ 32) (y.toNat % 2 ^ 32)).2 a = .ok b) : exec i s = .next (s.withArch b) :=
  exec_ok hruns ((congrFun (slotBody_fpOp hop) s).trans (scalar2_ok hreads hdst))

theorem exec_fmas {o : A3} {s : State} {x y z : W64} {a b : Arch} {r : Nat × BitVec 5} (hruns : Runs (.fmas o) s)
    (hreads : Reads3 s o.s1 o.s2 o.s3 x y z a)
    (hr : r = fFma fp32 (o.m.getLsbD 0) (o.m.getLsbD 1) (x.toNat % 2 ^ 32) (y.toNat % 2 ^ 32) (z.toNat % 2 ^ 32))
    (hdst : s.part.dstS o.d.toNat (BitVec.ofNat 64 r.1) 4 r.2 a = .ok b) : exec (.fmas o) s = .next (s.withArch b) := by
  obtain ⟨c, ⟨d, hx, hy⟩, hz⟩ := hreads
  unfold Reads1 at hx
  subst hr
  rw [← fld_one_beq_one, ← fld_one_beq_one] at hdst
  exact exec_ok hruns (show bodyFmas o s = _ from onPart_ok (by simp only [hx, hy, hz, Got.bind_ok]; exact hdst))

/-- Settles O13, one instruction at a time. -/
theorem scalarFloatResults : Obligations.ScalarFloatResults :=
  ⟨fun _ _ _ _ hop _ _ _ _ _ => exec_fpOp hop, fun _ _ _ _ _ _ _ _ => exec_fmas, fun _ _ _ _ _ hruns hread hdst =>
    exec_ok hruns (scalar1_ok hread hdst)⟩

/-! ### Address arithmetic (R190, R191) -/

/-- A body over the record of the issuing core. -/
theorem onPartCore_ok {f : Part → Core → Got Core} {s : State} {k : Core} (h : f s.part s.mine = .ok k) :
    onPartCore f s = .ok (s.putMine k) := by
  have h' : f s.part (s.core s.part.core) = .ok k := h
  rw [onPartCore, h']
  rfl

/-- Each address instruction of two sources computes the low 64 bits of its integer. -/
theorem slotBody_addrOp {i : Instr} {o : A3} {lat : Nat} {f : W64 → W64 → Int} (h : addrOp i = some (o, lat, f)) :
    ∃ g : W64 → W64 → W64, slotBody i = addr2 g lat o ∧ ∀ x y, g x y = BitVec.ofInt 64 (f x y) := by
  unfold addrOp at h
  split at h <;> cases h
  case h_1 => exact ⟨fun x y => x + y, rfl, fun x y => by rw [BitVec.ofInt_add, BitVec.ofInt_natCast, BitVec.ofInt_natCast]; simp⟩
  case h_2 => exact ⟨fun x y => x - y, rfl, fun x y => eq_ofInt_of_toInt_bmod (by
    rw [BitVec.toInt_sub, BitVec.toInt_eq_toNat_bmod, BitVec.toInt_eq_toNat_bmod, Int.bmod_sub_bmod, Int.sub_bmod_bmod])⟩
  case h_3 => exact ⟨fun x y => x * y, rfl, fun x y => by rw [BitVec.ofInt_mul, BitVec.ofInt_natCast, BitVec.ofInt_natCast]; simp⟩
  case h_4 => exact ⟨fun x y => x &&& y, rfl, fun x y => eq_ofInt_of_toNat (BitVec.toNat_and x y)⟩
  case h_5 =>
    refine ⟨fun x y => if x.toNat ≤ y.toNat then x else y, rfl, fun x y => ?_⟩
    simp only []
    split
    case isTrue hle => rw [Int.min_eq_left (Int.ofNat_le.mpr hle)]; exact eq_ofInt_of_toNat rfl
    case isFalse hgt => rw [Int.min_eq_right (Int.ofNat_le.mpr (Nat.le_of_not_le hgt))]; exact eq_ofInt_of_toNat rfl

section AddressSlots
variable {o : A3} {s : State} {x y : W64} {k k' : Core} {d : Dest}

theorem addr2_ok {g : W64 → W64 → W64} {lat : Nat} (hreads : ReadsA2 s o.s1 o.s2 x y k) (hdest : k.dest o.d.toNat = .ok (d, k')) :
    addr2 g lat o s = .ok (s.putMine (sentTo k' d (g x y) lat)) := by
  obtain ⟨j, hx, hy⟩ := hreads
  unfold ReadsA1 at hx
  exact onPartCore_ok (by simp only [hx, hy, hdest, Got.bind_ok, Got.map_ok]; rfl)

theorem exec_addrOp {i : Instr} {lat : Nat} {f : W64 → W64 → Int} (hop : addrOp i = some (o, lat, f)) (hruns : Runs i s)
    (hreads : ReadsA2 s o.s1 o.s2 x y k) (hdest : k.dest o.d.toNat = .ok (d, k')) :
    exec i s = .next (s.putMine (sentTo k' d (BitVec.ofInt 64 (f x y)) lat)) := by
  obtain ⟨g, hbody, hg⟩ := slotBody_addrOp hop
  rw [← hg x y]
  exact exec_ok hruns (hbody ▸ addr2_ok hreads hdest)

theorem exec_ashl {n : Nat} (hruns : Runs (.ashl o) s)
    (hreads : if fld o.m 6 1 = 1 then ReadsA1 s o.s1 x k ∧ n = fld o.m 0 6 else ReadsA2 s o.s1 o.s2 x y k ∧ n = y.toNat % 64)
    (hdest : k.dest o.d.toNat = .ok (d, k')) :
    exec (.ashl o) s = .next (s.putMine (sentTo k' d (BitVec.ofNat 64 (x.toNat * 2 ^ n)) 1)) := by
  have hshift : ∀ m : Nat, x <<< m = BitVec.ofNat 64 (x.toNat * 2 ^ m) := fun m =>
    BitVec.eq_of_toNat_eq (by rw [BitVec.toNat_shiftLeft, Nat.shiftLeft_eq, BitVec.toNat_ofNat])
  refine exec_ok hruns (show bodyAshl o s = _ from onPartCore_ok ?_)
  by_cases hform : fld o.m 6 1 = 1
  · rw [if_pos hform] at hreads
    obtain ⟨hx, rfl⟩ := hreads
    unfold ReadsA1 at hx
    have hamount : (BitVec.ofNat 64 (fld o.m 0 6)).toNat % 64 = fld o.m 0 6 := by
      have := fld_lt o.m 0 6
      rw [BitVec.toNat_ofNat]
      omega
    simp only [hx, Got.bind_ok, if_pos hform, hdest, Got.map_ok, hamount, hshift]
    rfl
  · rw [if_neg hform] at hreads
    obtain ⟨⟨j, hx, hy⟩, rfl⟩ := hreads
    unfold ReadsA1 at hx
    simp only [hx, Got.bind_ok, if_neg hform, hy, hdest, Got.map_ok, hshift]
    rfl

/-- A truth value at an access-side predicate. -/
theorem flyA_destP (k : Core) (n : Nat) (b : Bool) (lat : Nat) :
    k.flyA (destP n) (if b then 1 else 0) lat = { k with arch := k.arch.fly .access (.p (n - 32) b) lat 0 } := by
  cases b <;> rfl

theorem exec_acmp {v : Bool} (hruns : Runs (.acmp o) s) (hreads : ReadsA2 s o.s1 o.s2 x y k)
    (hv : v = true ↔ Cond (fld o.m 0 4) x y) :
    exec (.acmp o) s = .next (s.putMine { k with arch := k.arch.fly .access (.p (o.d.toNat - 32) v) 1 0 }) := by
  obtain ⟨j, hx, hy⟩ := hreads
  unfold ReadsA1 at hx
  rw [← flyA_destP, ← condHolds_eq hv]
  exact exec_ok hruns (show bodyAcmp o s = _ from onPartCore_ok (by simp only [hx, hy, Got.bind_ok, Got.map_ok]))

theorem exec_aaddi {o : AI} (hruns : Runs (.aaddi o) s) (hread : ReadsA1 s o.s1 x k) (hdest : k.dest o.d.toNat = .ok (d, k')) :
    exec (.aaddi o) s = .next (s.putMine (sentTo k' d (BitVec.ofInt 64 (x.toNat + o.imm.toInt)) 1)) := by
  unfold ReadsA1 at hread
  have hsum : x + o.imm.signExtend 64 = BitVec.ofInt 64 (x.toNat + o.imm.toInt) := by
    rw [add_signExtend, BitVec.ofInt_add, BitVec.ofInt_add, BitVec.ofInt_toInt, BitVec.ofInt_natCast, BitVec.ofNat_toNat,
      BitVec.setWidth_eq]
  rw [← hsum]
  exact exec_ok hruns (show bodyAaddi o s = _ from onPartCore_ok (by simp only [hread, hdest, Got.bind_ok, Got.map_ok]; rfl))

theorem exec_amovi {o : WI} (hruns : Runs (.amovi o) s) (hdest : s.mine.dest o.d.toNat = .ok (d, k')) :
    exec (.amovi o) s = .next (s.putMine (sentTo k' d (BitVec.ofNat 64 o.imm.toNat) 1)) :=
  exec_ok hruns (show bodyAmovi o s = _ from onPartCore_ok (by
    rw [hdest, Got.map_ok, ← BitVec.ofNat_toNat]; rfl))

theorem exec_xlatq (hruns : Runs (.xlatq o) s) (hread : ReadsA1 s o.s1 x k) (hdest : k.dest o.d.toNat = .ok (d, k')) :
    exec (.xlatq o) s = .next (s.putMine (sentTo k' d (xlatqWord k'.table x) 3)) := by
  unfold ReadsA1 at hread
  exact exec_ok hruns (show bodyXlatq o s = _ from onPartCore_ok (by simp only [hread, hdest, Got.bind_ok, Got.map_ok]; rfl))

end AddressSlots

theorem xlatqWord_none {t : Sparse TEntry} {va : W64} (h : findEntry t va.toNat = none) : xlatqWord t va = 0 := by
  rw [xlatqWord, h]

theorem xlatqWord_some {t : Sparse TEntry} {va : W64} {n : Nat} {e : TEntry} (h : findEntry t va.toNat = some (n, e)) (hn : n < 512)
    (hkey : e.key < 16) :
    xlatqWord t va = BitVec.ofNat 64 (2 ^ 63 + (e.has (e.subOf va.toNat)).toNat * 2 ^ 62 + n * 2 ^ 53 +
      e.stateOf (e.subOf va.toNat) * 2 ^ 51 + e.attr.toNat * 2 ^ 45 + e.key * 2 ^ 41) := by
  rw [xlatqWord, h]
  simp only [Nat.mod_eq_of_lt hn, Nat.mod_eq_of_lt hkey]

/-- Settles O27, one instruction at a time. -/
theorem addressResults : Obligations.AddressResults :=
  ⟨fun _ _ _ _ hop _ _ _ _ _ _ => exec_addrOp hop, fun _ _ _ _ _ _ _ _ => exec_ashl, fun _ _ _ _ _ _ => exec_acmp,
    fun _ _ _ _ _ _ => exec_aaddi, fun _ _ _ _ => exec_amovi,
    fun _ _ _ _ _ _ hruns hread hdest =>
      ⟨fun hnone => xlatqWord_none hnone ▸ exec_xlatq hruns hread hdest,
        fun _ _ hsome hn hkey => xlatqWord_some hsome hn hkey ▸ exec_xlatq hruns hread hdest⟩⟩

end Sys2Proof.Machine

/-! Proofs for spec/07 (vector instructions): element-wise integers, accumulation, narrowing and widening (R138 to R141). -/

namespace Sys2Proof.Machine

open Safety

/-! ### Elements as integers (R132) -/

theorem ofInt_natCast (w n : Nat) : ofInt w (n : Int) = n % 2 ^ w := by
  unfold ofInt
  rw [← Int.natCast_emod, Int.toNat_natCast]

theorem ofInt_mod (w : Nat) (k : Int) : ofInt w k % 2 ^ w = ofInt w k := by
  refine Nat.mod_eq_of_lt ?_
  unfold ofInt
  have hpos : (0 : Int) < ((2 ^ w : Nat) : Int) := Int.natCast_pos.mpr (Nat.two_pow_pos w)
  exact (Int.toNat_lt (Int.emod_nonneg k (Int.ne_of_gt hpos))).mpr (Int.emod_lt_of_pos k hpos)

/-- The low bits of a code do not depend on how it is read. -/
theorem ofInt_toInt {w u : Nat} (hle : w ≤ u) (sg : Bool) (x : Nat) : ofInt w (toInt u sg x) = x % 2 ^ w := by
  have hdvd : 2 ^ w ∣ 2 ^ u := Nat.pow_dvd_pow 2 hle
  have hlow : ofInt w ((x % 2 ^ u : Nat) : Int) = x % 2 ^ w := by rw [ofInt_natCast, Nat.mod_mod_of_dvd x hdvd]
  unfold toInt
  split
  · obtain ⟨c, hc⟩ := hdvd
    have hmul : ((2 ^ u : Nat) : Int) = ((2 ^ w : Nat) : Int) * (c : Int) := by rw [hc]; push_cast; rfl
    rw [← hlow, ofInt, ofInt, hmul, Int.sub_mul_emod_self_left]
  · exact hlow

/-! ### Element-wise integers (R138) -/

section VectorIntegers
variable {i : Instr} {o : A3} {s : State} {x y : VReg} {a : Arch}

theorem slotBody_vecOp {lat : Nat} {f : Nat → Int → Int → Int} (h : vecOp i = some (o, lat, f)) :
    slotBody i = vecInt2 lat o (f (width o)) := by
  unfold vecOp at h
  split at h <;> cases h <;> rfl

theorem delivers_vecOp {lat : Nat} {f : Nat → Int → Int → Int} (hop : vecOp i = some (o, lat, f)) (hruns : Runs i s)
    (hreads : ReadsV2 s (width o) (width o) o.s1 o.s2 x y a) :
    Delivers i s o (width o) lat a fun j =>
      (ofInt (width o) (f (width o) (val o (elem x.toNat (width o) j)) (val o (elem y.toNat (width o) j))), 0) :=
  vec2_delivers (f := fun x y j => (ofInt (width o) (f (width o) (val o (x j)) (val o (y j))), 0)) hruns
    (congrFun (slotBody_vecOp hop) s) hreads

/-- Each bitwise instruction computes an element bit by bit from those of its sources. -/
theorem slotBody_vecBitOp {f : Bool → Bool → Bool} (h : vecBitOp i = some (o, f)) :
    ∃ g : Nat → Nat → Nat, slotBody i = vec2 (width o) (width o) 2 o (fun x y j => (g (x j) (y j), 0)) ∧
      ∀ x y n, (g x y).testBit n = f (x.testBit n) (y.testBit n) := by
  unfold vecBitOp at h
  split at h <;> cases h
  case h_1 => exact ⟨fun x y => x &&& y, rfl, Nat.testBit_and⟩
  case h_2 => exact ⟨fun x y => x ||| y, rfl, Nat.testBit_or⟩
  case h_3 => exact ⟨fun x y => x ^^^ y, rfl, Nat.testBit_xor⟩

theorem mod_two_pow_eq_of_testBit {x y w : Nat} (h : ∀ n, n < w → x.testBit n = y.testBit n) : x % 2 ^ w = y % 2 ^ w := by
  apply Nat.eq_of_testBit_eq
  intro n
  rw [Nat.testBit_mod_two_pow, Nat.testBit_mod_two_pow]
  by_cases hn : n < w
  · rw [h n hn]
  · simp [hn]

theorem delivers_vecBitOp {f : Bool → Bool → Bool} (hop : vecBitOp i = some (o, f)) {g : Nat → Nat} (hruns : Runs i s)
    (hreads : ReadsV2 s (width o) (width o) o.s1 o.s2 x y a)
    (hbits : ∀ j n, n < width o → (g j).testBit n = f ((elem x.toNat (width o) j).testBit n) ((elem y.toNat (width o) j).testBit n)) :
    Delivers i s o (width o) 2 a fun j => (g j, 0) := by
  obtain ⟨r, hbody, hr⟩ := slotBody_vecBitOp hop
  refine DeliversLanes.congr (vec2_delivers hruns (congrFun hbody s) hreads) fun j _ => ⟨?_, rfl⟩
  exact mod_two_pow_eq_of_testBit fun n hn => (hr _ _ n).trans (hbits j n hn).symm

theorem delivers_vabs (hruns : Runs (.vabs o) s) (hread : ReadsV1 s (width o) o.s1 x a) :
    Delivers (.vabs o) s o (width o) 2 a fun j => ((val o (elem x.toNat (width o) j)).natAbs, 0) := by
  refine DeliversLanes.congr (vec1_delivers (f := fun x j => (ofInt (width o) (val o (x j)).natAbs, 0)) hruns rfl hread)
    fun j _ => ⟨?_, rfl⟩
  simp only [widthOf_eq_width, ofInt_natCast, Nat.mod_mod]

/-! ### Shifts (R139) -/

/-- Each vector shift computes the low bits of its integer. -/
theorem slotBody_vecShiftOp {f : Nat → Nat → Int} (h : vecShiftOp i = some (o, f)) :
    ∃ g : Nat → Bool → Nat → Nat → Nat, slotBody i = vecShift o g ∧
      ∀ x n, g (width o) (etSigned (fld o.m 0 4)) x n % 2 ^ width o = ofInt (width o) (f x n) := by
  unfold vecShiftOp at h
  split at h <;> cases h
  case h_1 =>
    refine ⟨fun w _ x n => x * 2 ^ n % 2 ^ w, rfl, fun x n => ?_⟩
    have hcast : (x : Int) * 2 ^ n = ((x * 2 ^ n : Nat) : Int) := by push_cast; rfl
    simp only [hcast, ofInt_natCast, Nat.mod_mod]
  case h_2 =>
    refine ⟨fun _ _ x n => x / 2 ^ n, rfl, fun x n => ?_⟩
    have hcast : (x : Int) / 2 ^ n = ((x / 2 ^ n : Nat) : Int) := by push_cast; rfl
    simp only [hcast, ofInt_natCast]
  case h_3 => exact ⟨fun w _ x n => ofInt w (toInt w true x / 2 ^ n), rfl, fun x n => ofInt_mod _ _⟩
  case h_4 =>
    refine ⟨roundShift, rfl, fun x n => ?_⟩
    by_cases hn : n = 0
    · simp only [roundShift, if_pos hn, ofInt_natCast]
    · simp only [roundShift, if_neg hn, ofInt_mod]
      rfl

variable {f : Nat → Nat → Int}

/-- A shift by SH. -/
theorem delivers_vecShiftOp_imm (hop : vecShiftOp i = some (o, f)) (hruns : Runs i s) (hform : fld o.m 16 1 = 1)
    (hread : ReadsV1 s (width o) o.s1 x a) :
    Delivers i s o (width o) 2 a fun j => (ofInt (width o) (f (elem x.toNat (width o) j) (fld o.m 8 5)), 0) := by
  obtain ⟨g, hbody, hg⟩ := slotBody_vecShiftOp hop
  have hshape : slotBody i s = vec1 (width o) (width o) 2 o
      (fun x j => (g (width o) (etSigned (fld o.m 0 4)) (x j) (fld o.m 8 5), 0)) s := by
    rw [hbody, vecShift, if_pos hform]; rfl
  refine DeliversLanes.congr (vec1_delivers hruns hshape hread) fun j _ => ⟨?_, rfl⟩
  rw [hg, ofInt_mod]

/-- A shift by the elements of S2. -/
theorem delivers_vecShiftOp_elem (hop : vecShiftOp i = some (o, f)) (hruns : Runs i s) (hform : fld o.m 16 1 = 0)
    (hreads : ReadsV2 s (width o) (width o) o.s1 o.s2 x y a) :
    Delivers i s o (width o) 2 a fun j =>
      (ofInt (width o) (f (elem x.toNat (width o) j) (elem y.toNat (width o) j % width o)), 0) := by
  obtain ⟨g, hbody, hg⟩ := slotBody_vecShiftOp hop
  have hshape : slotBody i s = vec2 (width o) (width o) 2 o
      (fun x y j => (g (width o) (etSigned (fld o.m 0 4)) (x j) (y j % width o), 0)) s := by
    rw [hbody, vecShift, hform, if_neg Nat.zero_ne_one]; rfl
  refine DeliversLanes.congr (vec2_delivers hruns hshape hreads) fun j _ => ⟨?_, rfl⟩
  rw [hg, ofInt_mod]

end VectorIntegers

/-- Settles O14, one family at a time. -/
theorem vectorIntegerFamilyResults : Obligations.VectorIntegerFamilyResults :=
  ⟨fun _ _ _ _ hop _ _ _ _ => delivers_vecOp hop, fun _ _ _ hop _ _ _ _ _ => delivers_vecBitOp hop, fun _ _ _ _ => delivers_vabs,
    fun _ _ _ hop _ _ _ _ hruns => ⟨delivers_vecShiftOp_imm hop hruns, delivers_vecShiftOp_elem hop hruns⟩⟩

/-! ### Accumulation, narrowing and widening (R140, R141) -/

section Accumulate
variable {o : A3} {s : State} {x y : VReg} {a : Arch}

/-- A body of two v-type sources whose masked result also takes D as it stood at issue. -/
theorem delivers_accumulate {i : Instr} {w lat : Nat} {g : Nat → (Nat → Nat) → (Nat → Nat) → Nat → Nat × BitVec 5} (hruns : Runs i s)
    (hbody : slotBody i = onPart fun p a => (p.srcV (width o) o.s1.toNat a).bind fun (x, b) =>
      (p.srcV (width o) o.s2.toNat b).bind fun (y, b) =>
        p.putMasked w o lat (g (p.oldV o.d.toNat a).toNat (elem x.toNat (width o)) (elem y.toNat (width o))) b)
    (hreads : ReadsV2 s (width o) (width o) o.s1 o.s2 x y a) :
    Delivers i s o w lat a (g (s.part.oldV o.d.toNat (arch s)).toNat (elem x.toNat (width o)) (elem y.toNat (width o))) := by
  obtain ⟨c, hx, hy⟩ := hreads
  unfold ReadsV1 at hx
  refine delivers_of_putMasked hruns fun b hput => (congrFun hbody s).trans (onPart_ok ?_)
  simpa only [hx, hy, Got.bind_ok] using hput

theorem delivers_vmac (hruns : Runs (.vmac o) s) (hreads : ReadsV2 s (width o) (width o) o.s1 o.s2 x y a) :
    Delivers (.vmac o) s o (width o) 3 a fun j =>
      (elem (s.part.oldV o.d.toNat (arch s)).toNat (width o) j + elem x.toNat (width o) j * elem y.toNat (width o) j, 0) := by
  refine DeliversLanes.congr (delivers_accumulate
    (g := fun d x y j => ((elem d (width o) j + x j * y j) % 2 ^ width o, 0)) hruns rfl hreads) fun j _ => ⟨Nat.mod_mod _ _, rfl⟩

/-- The products of a lane, added one after another, are the sum of the list of them. -/
theorem dotSum_eq_sum (w : Nat) (sg : Bool) (k : Nat) (x y : Nat → Nat) (i : Nat) :
    dotSum w sg k x y i = ((List.range k).map fun n => toInt w sg (x (k * i + n)) * toInt w sg (y (k * i + n))).sum := by
  unfold dotSum
  rw [List.sum_eq_foldl, List.foldl_map]

theorem delivers_vdot {k : Nat} {i : Instr} (hi : i = .vdot4 o ∧ k = 4 ∨ i = .vdot2 o ∧ k = 2) (hruns : Runs i s)
    (hreads : ReadsV2 s (width o) (width o) o.s1 o.s2 x y a) :
    Delivers i s o 32 3 a fun j =>
      (ofInt 32 ((elem (s.part.oldV o.d.toNat (arch s)).toNat 32 j : Int) +
        ((List.range k).map fun n =>
          val o (elem x.toNat (width o) (k * j + n)) * val o (elem y.toNat (width o) (k * j + n))).sum), 0) := by
  have hbody : slotBody i = vecDot k o := by
    obtain ⟨rfl, rfl⟩ | ⟨rfl, rfl⟩ := hi <;> rfl
  refine DeliversLanes.congr (delivers_accumulate
    (g := fun d x y j => (ofInt 32 ((elem d 32 j : Nat) + dotSum (width o) (etSigned (fld o.m 0 4)) k x y j), 0)) hruns hbody hreads)
    fun j _ => ⟨?_, rfl⟩
  rw [dotSum_eq_sum]
  rfl

theorem delivers_vnarw (hruns : Runs (.vnarw o) s) (hreads : ReadsV2 s (2 * width o) (2 * width o) o.s1 o.s2 x y a) :
    Delivers (.vnarw o) s o (width o) 2 a fun j =>
      let v := if j < count o / 2 then elem x.toNat (2 * width o) j else elem y.toNat (2 * width o) (j - count o / 2)
      let n := toInt (2 * width o) (etSigned (fld o.m 0 4)) v
      (ofInt (width o) (if fld o.m 8 1 = 1 then clampInt (width o) (etSigned (fld o.m 0 4)) n else n), 0) := by
  refine DeliversLanes.congr (vec2_delivers (f := fun x y j =>
    let v := if j < count o / 2 then x j else y (j - count o / 2)
    (if fld o.m 8 1 = 1 then
      ofInt (width o) (clampInt (width o) (etSigned (fld o.m 0 4)) (toInt (2 * width o) (etSigned (fld o.m 0 4)) v))
      else v % 2 ^ width o, 0)) hruns rfl hreads) fun j _ => ⟨?_, rfl⟩
  by_cases hsat : fld o.m 8 1 = 1
  · simp only [if_pos hsat, widthOf_eq_width]
  · simp only [if_neg hsat, widthOf_eq_width, ofInt_toInt (Nat.le_mul_of_pos_left (width o) Nat.two_pos)]

theorem delivers_vwide (hruns : Runs (.vwide o) s) (hread : ReadsV1 s (width o / 2) o.s1 x a) :
    Delivers (.vwide o) s o (width o) 2 a fun j =>
      (ofInt (width o) (toInt (width o / 2) (etSigned (fld o.m 0 4)) (elem x.toNat (width o / 2) (fld o.m 8 1 * count o + j))), 0) :=
  vec1_delivers (f := fun x j => (ofInt (width o) (toInt (width o / 2) (etSigned (fld o.m 0 4)) (x (fld o.m 8 1 * count o + j))), 0))
    hruns rfl hread

end Accumulate

/-- Settles O15, one instruction at a time. -/
theorem vectorAccumulateNarrowWiden : Obligations.VectorAccumulateNarrowWiden :=
  ⟨fun _ _ _ _ _ => delivers_vmac, fun _ _ _ _ _ _ _ hi => delivers_vdot hi, fun _ _ _ _ _ => delivers_vnarw,
    fun _ _ _ _ => delivers_vwide⟩

end Sys2Proof.Machine

/-! Proofs for spec/07 (vector instructions): floating point, exact block arithmetic, reductions (R145 to R153). -/

namespace Sys2Proof.Machine

open Safety

/-! ### Lanes that are written only in one part of D -/

/-- Results need to agree only in active lanes. -/
theorem DeliversLanes.congr_active {i : Instr} {s : State} {d : BitVec 7} {w lat : Nat} {a : Arch} {active zero : Nat → Bool}
    {f g : Nat → Nat × BitVec 5} (h : DeliversLanes i s d w lat a active zero f)
    (e : ∀ j, j < 8192 / w → active j = true → (f j).1 % 2 ^ w = (g j).1 % 2 ^ w ∧ (f j).2 = (g j).2) :
    DeliversLanes i s d w lat a active zero g := by
  obtain ⟨result, flags, lanes, raised, arrives⟩ := h
  refine ⟨result, flags, fun j hj => ?_, fun n => (raised n).trans (exists_congr fun j => ?_), arrives⟩
  · rw [lanes j hj]
    by_cases hactive : active j = true
    · rw [if_pos hactive, if_pos hactive, (e j hj hactive).1]
    · rw [if_neg hactive, if_neg hactive]
  · exact and_congr_right fun hj => and_congr_right fun hactive => by rw [(e j hj hactive).2]

/-- A body that writes one part of D: a lane of the part receives its result under the mask, 0 where Z zeroes it, and the lanes outside
keep what D held. -/
theorem deliversLanes_of_part {i : Instr} {s : State} {d : BitVec 7} {w lat : Nat} {a : Arch} {part mask : Nat → Bool} {zero : Bool}
    {g : Nat → Nat × BitVec 5} (hruns : Runs i s)
    (hbody : ∀ b, s.part.dstV d.toNat
      (vecMasked w (fun j => part j && (zero || mask j)) false (s.part.oldV d.toNat a) fun j => if mask j then g j else (0, 0)).1 lat
      (vecMasked w (fun j => part j && (zero || mask j)) false (s.part.oldV d.toNat a) fun j => if mask j then g j else (0, 0)).2 a = .ok b →
      slotBody i s = .ok (s.withArch b)) :
    DeliversLanes i s d w lat a (fun j => part j && mask j) (fun j => part j && zero) g := by
  obtain ⟨result, flags, lanes, raised, arrives⟩ := deliversLanes_of hruns hbody
  refine ⟨result, flags, fun j hj => (lanes j hj).trans ?_, fun n => (raised n).trans (exists_congr fun j => ?_), arrives⟩
  · by_cases hpart : part j = true <;> by_cases hmask : mask j = true <;> simp [hpart, hmask]
  · refine and_congr_right fun _ => ?_
    by_cases hpart : part j = true <;> by_cases hmask : mask j = true <;> simp [hpart, hmask]

/-! ### Floating point (R145 to R148) -/

section VectorFloat
variable {o : A3} {s : State} {x y z : VReg} {a b : Arch}

theorem slotBody_vecFpOp {i : Instr} {lat : Nat} {f : Fmt → Nat → Nat → Nat × BitVec 5} (h : vecFpOp i = some (o, lat, f)) :
    slotBody i = vecFp2 lat o f := by
  unfold vecFpOp at h
  split at h <;> cases h <;> rfl

theorem delivers_vecFpOp {i : Instr} {lat : Nat} {f : Fmt → Nat → Nat → Nat × BitVec 5} (hop : vecFpOp i = some (o, lat, f))
    (hruns : Runs i s) (hreads : ReadsV2 s (width o) (width o) o.s1 o.s2 x y a) :
    Delivers i s o (width o) lat a fun j => f (etFmt (fld o.m 0 4)) (elem x.toNat (width o) j) (elem y.toNat (width o) j) :=
  vec2_delivers (f := fun x y j => f (etFmt (fld o.m 0 4)) (x j) (y j)) hruns (congrFun (slotBody_vecFpOp hop) s) hreads

theorem delivers_vfma (hruns : Runs (.vfma o) s) (hreads : ReadsV2 s (width o) (width o) o.s1 o.s2 x y a)
    (hz : s.part.srcV (width o) o.s3.toNat a = .ok (z, b)) :
    Delivers (.vfma o) s o (width o) 4 b fun j =>
      fFma (etFmt (fld o.m 0 4)) (o.m.getLsbD 8) (o.m.getLsbD 9) (elem x.toNat (width o) j) (elem y.toNat (width o) j)
        (elem z.toNat (width o) j) := by
  obtain ⟨c, hx, hy⟩ := hreads
  unfold ReadsV1 at hx
  refine delivers_of_putMasked hruns fun b hput => show bodyVfma o s = _ from ?_
  unfold bodyVfma
  refine onPart_ok ?_
  simp only [widthOf_eq_width, fld_one_beq_one, hx, hy, hz, Got.bind_ok]
  exact hput

/-- The top bit of an element as a number. -/
theorem elem_top_bit (x w j : Nat) : elem x w j / 2 ^ (w - 1) % 2 = ((elem x w j).testBit (w - 1)).toNat := (Nat.toNat_testBit _ _).symm

/-- VFSGN gives the magnitude of S1 the sign that OP names. -/
theorem signOp_eq (w op x y : Nat) : signOp w op x y = x % 2 ^ (w - 1) +
    (match op with | 0 => y.testBit (w - 1) | 1 => !y.testBit (w - 1) | _ => x.testBit (w - 1) != y.testBit (w - 1)).toNat * 2 ^ (w - 1) := by
  unfold signOp
  simp only [← Nat.toNat_testBit]
  match op with
  | 0 => simp
  | 1 => cases y.testBit (w - 1) <;> simp
  | n + 2 => cases x.testBit (w - 1) <;> cases y.testBit (w - 1) <;> simp

theorem delivers_vfsgn (hruns : Runs (.vfsgn o) s) (hreads : ReadsV2 s (width o) (width o) o.s1 o.s2 x y a) :
    Delivers (.vfsgn o) s o (width o) 2 a fun j =>
      let mag := elem x.toNat (width o) j % 2 ^ (width o - 1)
      let sx := (elem x.toNat (width o) j).testBit (width o - 1)
      let sy := (elem y.toNat (width o) j).testBit (width o - 1)
      (mag + (match fld o.m 8 2 with | 0 => sy | 1 => !sy | _ => sx != sy).toNat * 2 ^ (width o - 1), 0) :=
  DeliversLanes.congr (vec2_delivers (f := fun x y j => (signOp (width o) (fld o.m 8 2) (x j) (y j), 0)) hruns rfl hreads)
    fun j _ => ⟨congrArg (· % 2 ^ width o) (signOp_eq _ _ _ _), rfl⟩

theorem delivers_vfcls (hruns : Runs (.vfcls o) s) (hread : ReadsV1 s (width o) o.s1 x a) :
    Delivers (.vfcls o) s o (width o) 2 a fun j => (2 ^ fClass (etFmt (fld o.m 0 4)) (elem x.toNat (width o) j), 0) :=
  vec1_delivers (f := fun x j => (2 ^ fClass (etFmt (fld o.m 0 4)) (x j), 0)) hruns rfl hread

/-! ### Exact block arithmetic (R150, R151) -/

theorem delivers_vxdot (hruns : Runs (.vxdot o) s) (hreads : ReadsV2 s 64 64 o.s1 o.s2 x y a)
    (hz : if isMx (fld o.m 0 4) then s.part.srcV 64 o.s3.toNat a = .ok (z, b) else z = 0 ∧ b = a) :
    DeliversLanes (.vxdot o) s o.d 128 5 b (fun j => j / 32 == fld o.m 8 1 && maskBit (b.maskOf o.m) j)
      (fun j => j / 32 == fld o.m 8 1 && zeroing o.m o.d.toNat) fun j =>
        vxdotBlock (fld o.m 0 4) (blockCodes (fld o.m 0 4) x.toNat (j % 32)) (blockCodes (fld o.m 0 4) y.toNat (j % 32))
          (if isMx (fld o.m 0 4) then elem z.toNat 8 (j % 32) else 127)
          (if isMx (fld o.m 0 4) then elem z.toNat 8 (32 + j % 32) else 127) := by
  obtain ⟨c, hx, hy⟩ := hreads
  unfold ReadsV1 at hx
  have hscale : (if isMx (fld o.m 0 4) then s.part.srcV 64 o.s3.toNat a else .ok (0, a)) = .ok (z, b) := by
    by_cases hmx : isMx (fld o.m 0 4) = true
    · simpa only [if_pos hmx] using hz
    · rw [if_neg hmx] at hz ⊢
      obtain ⟨rfl, rfl⟩ := hz
      rfl
  refine DeliversLanes.congr_active (deliversLanes_of_part (part := fun j => j / 32 == fld o.m 8 1) (mask := maskBit (b.maskOf o.m))
    (g := fun j => vxdotBlock (fld o.m 0 4) (blockCodes (fld o.m 0 4) x.toNat (j - 32 * fld o.m 8 1))
      (blockCodes (fld o.m 0 4) y.toNat (j - 32 * fld o.m 8 1))
      (if isMx (fld o.m 0 4) then elem z.toNat 8 (j - 32 * fld o.m 8 1) else 127)
      (if isMx (fld o.m 0 4) then elem z.toNat 8 (32 + (j - 32 * fld o.m 8 1)) else 127))
    hruns fun b hdst => show bodyVxdot o s = _ from ?_) fun j _ hactive => ?_
  · unfold bodyVxdot
    refine onPart_ok ?_
    simp only [hx, hy, Got.bind_ok, hscale]
    exact hdst
  · simp only [Bool.and_eq_true, beq_iff_eq] at hactive
    obtain ⟨hhalf, -⟩ := hactive
    have hindex : j - 32 * fld o.m 8 1 = j % 32 := by omega
    simp only [hindex, and_self]

theorem delivers_vxadd (hruns : Runs (.vxadd o) s) (hreads : ReadsV2 s 32 64 o.s1 o.s2 x y a) :
    DeliversLanes (.vxadd o) s o.d 32 4 a (fun j => j / 64 != fld o.m 8 2 || maskBit (a.maskOf o.m) j)
      (fun _ => zeroing o.m o.d.toNat) fun j =>
        if j / 64 = fld o.m 8 2 then vxaddElem (elem x.toNat 32 j) (elem y.toNat 128 (j % 64)) else (elem x.toNat 32 j, 0) := by
  obtain ⟨c, hx, hy⟩ := hreads
  unfold ReadsV1 at hx
  refine deliversLanes_of hruns fun b hdst => show bodyVxadd o s = _ from ?_
  unfold bodyVxadd
  refine onPart_ok ?_
  simp only [hx, hy, Got.bind_ok]
  exact hdst

end VectorFloat

/-- Settles O17, one instruction at a time. -/
theorem vectorFloatResults : Obligations.VectorFloatResults :=
  ⟨fun _ _ _ _ hop _ _ _ _ => delivers_vecFpOp hop, fun _ _ _ _ _ _ _ => delivers_vfma, fun _ _ _ _ _ => delivers_vfsgn,
    fun _ _ _ _ => delivers_vfcls⟩

/-- Settles O18, one instruction at a time. -/
theorem exactBlockResults : Obligations.ExactBlockResults :=
  ⟨fun _ _ _ _ _ _ _ => delivers_vxdot, fun _ _ _ _ _ => delivers_vxadd⟩

/-! ### The fixed tree (R152) -/

/-- The node of height `n` over the leaves from `j` on. -/
def treeNode (et : Nat) (leaf : Nat → Option Nat × BitVec 5) : Nat → Nat → Option Nat × BitVec 5
  | 0, j => leaf j
  | n + 1, j => addNodes et (treeNode et leaf n j) (treeNode et leaf n (j + 2 ^ n))

theorem treeSum_eq_treeNode (et : Nat) (f : Nat → Option Nat) (n j : Nat) :
    treeSum et f n j = treeNode et (fun j => (f j, 0)) n j := by
  induction n generalizing j with
  | zero => rfl
  | succ n ih => rw [treeSum, treeNode, ih, ih]

/-- A tree over the pairs of leaves is the tree over the leaves, one level taller. -/
theorem treeNode_pairs (et : Nat) (leaf : Nat → Option Nat × BitVec 5) (n j : Nat) :
    treeNode et (fun k => addNodes et (leaf (2 * k)) (leaf (2 * k + 1))) n j = treeNode et leaf (n + 1) (2 * j) := by
  induction n generalizing j with
  | zero => rfl
  | succ n ih =>
    have hright : 2 * (j + 2 ^ n) = 2 * j + 2 ^ (n + 1) := by rw [Nat.mul_add, Nat.pow_succ']
    rw [treeNode, ih, ih, hright]
    rfl

theorem pairUp_range (et : Nat) (leaf : Nat → Option Nat × BitVec 5) (m : Nat) :
    pairUp et ((List.range (2 * m)).map leaf) = (List.range m).map fun k => addNodes et (leaf (2 * k)) (leaf (2 * k + 1)) := by
  induction m generalizing leaf with
  | zero => rfl
  | succ m ih =>
    have htwo : List.range (2 * (m + 1)) = 0 :: 1 :: (List.range (2 * m)).map (· + 2) := by
      rw [Nat.mul_succ, List.range_succ_eq_map, List.range_succ_eq_map, List.map_cons, List.map_map]
      rfl
    rw [htwo, List.range_succ_eq_map, List.map_cons, List.map_cons, List.map_map, pairUp, ih, List.map_cons, List.map_map]
    rfl

/-- `n` levels of pairing leave the nodes of height `n`. -/
theorem treeLevels_range (et : Nat) (leaf : Nat → Option Nat × BitVec 5) (n m : Nat) :
    treeLevels et n ((List.range (m * 2 ^ n)).map leaf) = (List.range m).map fun g => treeNode et leaf n (g * 2 ^ n) := by
  induction n generalizing leaf with
  | zero => simp [treeLevels, treeNode]
  | succ n ih =>
    have hsize : m * 2 ^ (n + 1) = 2 * (m * 2 ^ n) := by rw [Nat.pow_succ']; exact Nat.mul_left_comm _ _ _
    rw [treeLevels, hsize, pairUp_range, ih]
    refine List.map_congr_left fun g _ => ?_
    rw [treeNode_pairs, Nat.pow_succ', Nat.mul_left_comm]

/-- Flags ORed over a list. -/
theorem foldl_or_getLsbD {α : Type} (l : List α) (flags : α → BitVec 5) (a : BitVec 5) (n : Nat) :
    (l.foldl (fun fl r => fl ||| flags r) a).getLsbD n = (a.getLsbD n || l.any fun r => (flags r).getLsbD n) := by
  induction l generalizing a with
  | nil => simp
  | cons x l ih => rw [List.foldl_cons, ih, BitVec.getLsbD_or, List.any_cons, Bool.or_assoc]

/-- The element count of a defined type is a power of two. -/
theorem count_eq_two_pow {o : A3} (hdef : etDefined (fld o.m 0 4) = true) : ∃ k, count o = 2 ^ k := by
  have h : etWidth (fld o.m 0 4) = 8 ∨ etWidth (fld o.m 0 4) = 16 ∨ etWidth (fld o.m 0 4) = 32 := by
    generalize fld o.m 0 4 = et at hdef
    unfold etDefined at hdef
    unfold etWidth at hdef ⊢
    split at hdef <;> simp at hdef ⊢
  unfold count width
  obtain h | h | h := h <;> rw [h]
  · exact ⟨10, rfl⟩
  · exact ⟨9, rfl⟩
  · exact ⟨8, rfl⟩

theorem exec_vsum {o : A3} {s : State} {x : VReg} {a : Arch} (hruns : Runs (.vsum o) s) (hread : ReadsV1 s (width o) o.s1 x a) :
    let t := fun g => treeSum (fld o.m 0 4)
      (fun j => if maskBit (a.maskOf o.m) j then some (elem x.toNat (width o) j) else none) (fld o.m 8 4) (g * 2 ^ fld o.m 8 4)
    ∃ (r : VReg) (fl : BitVec 5),
      (∀ g, g < count o → elem r.toNat (width o) g = if g < count o / 2 ^ fld o.m 8 4 then (t g).1.getD 0 % 2 ^ width o else 0) ∧
      (∀ n, fl.getLsbD n = true ↔ ∃ g, g < count o / 2 ^ fld o.m 8 4 ∧ (t g).2.getLsbD n = true) ∧
      ∀ b, s.part.dstV o.d.toNat r 6 fl a = .ok b → exec (.vsum o) s = .next (s.withArch b) := by
  intro t
  have hmod : (Instr.vsum o).modOk = true := modOk_of_runs hruns
  simp only [Instr.modOk, anyEt, Bool.and_eq_true, decide_eq_true_eq] at hmod
  obtain ⟨⟨⟨⟨hdef, -⟩, -⟩, -⟩, hfits⟩ := hmod
  have hgroups : count o / 2 ^ fld o.m 8 4 * 2 ^ fld o.m 8 4 = count o := by
    obtain ⟨k, hk⟩ := count_eq_two_pow hdef
    have hle : 2 ^ fld o.m 8 4 ≤ 2 ^ k := hk ▸ hfits
    rw [hk]
    exact Nat.div_mul_cancel (Nat.pow_dvd_pow 2 ((Nat.pow_le_pow_iff_right (by decide)).mp hle))
  have htops : treeLevels (fld o.m 0 4) (fld o.m 8 4) ((List.range (count o)).map fun i =>
      ((if maskBit (a.maskOf o.m) i then some (elem x.toNat (width o) i) else none : Option Nat), (0 : BitVec 5))) =
      (List.range (count o / 2 ^ fld o.m 8 4)).map t := by
    conv => lhs; rw [← hgroups]
    rw [treeLevels_range]
    exact List.map_congr_left fun g _ => (treeSum_eq_treeNode _ _ _ _).symm
  let tops := (List.range (count o / 2 ^ fld o.m 8 4)).map t
  refine ⟨vecOf (width o) fun g => (((tops[g]?).map (·.1)).getD none).getD 0, tops.foldl (fun fl r => fl ||| r.2) 0,
    fun g hg => ?_, fun n => ?_, fun b hdst => exec_ok hruns (show bodyVsum o s = _ from ?_)⟩
  · rw [elem_vecOf _ hg]
    by_cases hgroup : g < count o / 2 ^ fld o.m 8 4
    · simp [tops, hgroup]
    · simp [tops, hgroup]
  · have hzero : (0 : BitVec 5).getLsbD n = false := BitVec.getLsbD_zero
    rw [foldl_or_getLsbD tops (·.2), hzero, Bool.false_or, List.any_map, List.any_eq_true]
    simp only [List.mem_range, Function.comp]
  · unfold ReadsV1 at hread
    unfold bodyVsum
    refine onPart_ok ?_
    simp only [widthOf_eq_width, countOf_eq_count, hread, Got.bind_ok, etOf, htops]
    exact hdst

/-! ### The running sum (R153) -/

/-- The scan from element `k` on, with what has been summed before it. -/
theorem scanFrom_getElem? (et : Nat) (active : Nat → Bool) (x : Nat → Nat) (n k i : Nat) (hi : i < n) :
    (scanFrom et (scanBefore et active x k) ((List.range' k n).map fun j => (active j, x j)))[i]? =
      some (if active (k + i) then scanAt et active x (k + i) else (0, 0)) := by
  induction n generalizing k i with
  | zero => omega
  | succ n ih =>
    rw [List.range'_succ, List.map_cons]
    cases hactive : active k with
    | false =>
      have hnext : scanBefore et active x (k + 1) = scanBefore et active x k := by simp [scanBefore, hactive]
      cases i with
      | zero => simp [scanFrom, hactive]
      | succ i =>
        rw [scanFrom, List.getElem?_cons_succ, ← hnext, ih (k + 1) i (by omega), Nat.add_right_comm, Nat.add_assoc]
    | true =>
      cases hbefore : scanBefore et active x k with
      | none =>
        have hnext : scanBefore et active x (k + 1) = some (x k) := by simp [scanBefore, hactive, hbefore]
        cases i with
        | zero => simp [scanFrom, scanAt, hactive, hbefore]
        | succ i =>
          simp only [scanFrom, List.getElem?_cons_succ]
          rw [← hnext, ih (k + 1) i (by omega), Nat.add_right_comm, Nat.add_assoc]
      | some u =>
        have hnext : scanBefore et active x (k + 1) = some (addElem et u (x k)).1 := by simp [scanBefore, hactive, hbefore]
        cases i with
        | zero => simp [scanFrom, scanAt, hactive, hbefore]
        | succ i =>
          simp only [scanFrom, List.getElem?_cons_succ]
          rw [← hnext, ih (k + 1) i (by omega), Nat.add_right_comm, Nat.add_assoc]

theorem delivers_vscan {o : A3} {s : State} {x : VReg} {a : Arch} (hruns : Runs (.vscan o) s) (hread : ReadsV1 s (width o) o.s1 x a) :
    Delivers (.vscan o) s o (width o) 8 a (scanAt (fld o.m 0 4) (maskBit (a.maskOf o.m)) (elem x.toNat (width o))) := by
  unfold ReadsV1 at hread
  refine DeliversLanes.congr_active (delivers_of_putMasked (g := fun i =>
    ((scanFrom (fld o.m 0 4) none ((List.range (count o)).map fun i => (maskBit (a.maskOf o.m) i, elem x.toNat (width o) i)))[i]?).getD
      (0, 0)) hruns fun b hput => show bodyVscan o s = _ from ?_) fun j hj hactive => ?_
  · unfold bodyVscan
    refine onPart_ok ?_
    simp only [widthOf_eq_width, countOf_eq_count, hread, Got.bind_ok]
    exact hput
  · have hscan := scanFrom_getElem? (fld o.m 0 4) (maskBit (a.maskOf o.m)) (elem x.toNat (width o)) (count o) 0 j hj
    rw [← List.range_eq_range', scanBefore, Nat.zero_add, if_pos hactive] at hscan
    rw [hscan]
    exact ⟨rfl, rfl⟩

/-- Settles O19, one instruction at a time. -/
theorem reductionResults : Obligations.ReductionResults :=
  ⟨fun _ _ _ _ => exec_vsum, fun _ _ _ _ => delivers_vscan⟩

end Sys2Proof.Machine

/-! Proofs for spec/07 (vector instructions): conversions (R154 to R158). -/

namespace Sys2Proof.Machine

open Safety

section Conversions
variable {o : A3} {s : State} {x y : VReg} {a : Arch}

/-! ### VCVT and VCVT8 (R154, R155) -/

theorem delivers_vcvt_narrow {ws : Nat} (hruns : Runs (.vcvt o) s) (hws : ws = etWidth (fld o.m 8 4)) (hread : ReadsV1 s ws o.s1 x a)
    (hlt : width o < ws) :
    DeliversLanes (.vcvt o) s o.d (width o) 3 a
      (fun j => j / (8192 / ws) == fld o.m 14 1 && maskBit (a.maskOf o.m) (j - fld o.m 14 1 * (8192 / ws)))
      (fun j => j / (8192 / ws) == fld o.m 14 1 && zeroing o.m o.d.toNat) fun j =>
        convertElem (fld o.m 8 4) (fld o.m 0 4) (RMode.ofCode (fld o.m 12 2))
          (elem x.toNat ws (j - fld o.m 14 1 * (8192 / ws))) := by
  subst hws
  unfold ReadsV1 at hread
  refine deliversLanes_of_part hruns fun b hdst => show bodyVcvt o s = _ from ?_
  unfold bodyVcvt
  refine onPart_ok ?_
  simp only [hread, Got.bind_ok]
  rw [if_pos (show etWidth (etOf o.m) < _ from hlt)]
  exact hdst

theorem delivers_vcvt_widen {ws : Nat} (hruns : Runs (.vcvt o) s) (hws : ws = etWidth (fld o.m 8 4)) (hread : ReadsV1 s ws o.s1 x a)
    (hle : ws ≤ width o) :
    Delivers (.vcvt o) s o (width o) 3 a fun j =>
      convertElem (fld o.m 8 4) (fld o.m 0 4) (RMode.ofCode (fld o.m 12 2))
        (elem x.toNat ws ((if ws < width o then fld o.m 14 1 * count o else 0) + j)) := by
  subst hws
  unfold ReadsV1 at hread
  refine deliversLanes_of hruns fun b hdst => show bodyVcvt o s = _ from ?_
  unfold bodyVcvt
  refine onPart_ok ?_
  simp only [hread, Got.bind_ok]
  rw [if_neg (show ¬ etWidth (etOf o.m) < _ from Nat.not_lt.mpr hle)]
  exact hdst

theorem delivers_vcvt8_expand (hruns : Runs (.vcvt8 o) s) (hform : fld o.m 8 1 = 1) (hread : ReadsV1 s 64 o.s1 x a) :
    Delivers (.vcvt8 o) s o (width o) 3 a fun j =>
      ((fConvert (if fld o.m 9 1 = 1 then e5m2 else e4m3) (etFmt (fld o.m 0 4)) .rne false
        (elem x.toNat 8 (fld o.m 13 2 * count o + j))).1, 0) := by
  unfold ReadsV1 at hread
  refine delivers_of_putMasked hruns fun b hput => show bodyVcvt8 o s = _ from ?_
  unfold bodyVcvt8
  rw [if_pos hform]
  refine onPart_ok ?_
  simp only [hread, Got.bind_ok]
  exact hput

theorem delivers_vcvt8_narrow (hruns : Runs (.vcvt8 o) s) (hform : fld o.m 8 1 = 0) (hread : ReadsV1 s (width o) o.s1 x a) :
    DeliversLanes (.vcvt8 o) s o.d 8 3 a
      (fun j => j / count o == fld o.m 13 2 && maskBit (a.maskOf o.m) (j - fld o.m 13 2 * count o))
      (fun j => j / count o == fld o.m 13 2 && zeroing o.m o.d.toNat) fun j =>
        fConvert (etFmt (fld o.m 0 4)) (if fld o.m 9 1 = 1 then e5m2 else e4m3) (RMode.ofCode (fld o.m 10 2)) (o.m.getLsbD 12)
          (elem x.toNat (width o) (j - fld o.m 13 2 * count o)) := by
  unfold ReadsV1 at hread
  refine deliversLanes_of_part hruns fun b hdst => show bodyVcvt8 o s = _ from ?_
  unfold bodyVcvt8
  rw [if_neg (by omega)]
  refine onPart_ok ?_
  simp only [widthOf_eq_width, countOf_eq_count, fld_one_beq_one, hread, Got.bind_ok]
  exact hdst

/-! ### Replaced bytes of a vector -/

theorem putBytes_testBit (x off n v j : Nat) :
    (putBytes x off n v).testBit j = if 8 * off ≤ j ∧ j < 8 * off + 8 * n then v.testBit (j - 8 * off) else x.testBit j := by
  unfold putBytes elem
  rw [Nat.mul_zero, Nat.pow_zero, Nat.div_one, sub_field_add_field, Nat.testBit_two_pow_mul_add _ (Nat.mod_lt _ (Nat.two_pow_pos _))]
  by_cases hlow : j < 8 * off
  · rw [if_pos hlow, if_neg (by omega), Nat.testBit_mod_two_pow, decide_eq_true hlow, Bool.true_and]
  · rw [if_neg hlow, Nat.testBit_two_pow_mul_add _ (Nat.mod_lt _ (Nat.two_pow_pos _))]
    by_cases hmid : j - 8 * off < 8 * n
    · rw [if_pos hmid, if_pos (by omega), Nat.testBit_mod_two_pow, decide_eq_true hmid, Bool.true_and]
    · rw [if_neg hmid, if_neg (by omega), Nat.testBit_div_two_pow, Nat.testBit_div_two_pow]
      congr 1
      omega

/-- Bytes that make up whole elements replace those elements. -/
theorem elem_putBytes {w off n first c : Nat} (hoff : 8 * off = w * first) (hn : 8 * n = w * c) (x v j : Nat) :
    elem (putBytes x off n v) w j = if first ≤ j ∧ j < first + c then elem v w (j - first) else elem x w j := by
  refine Nat.eq_of_testBit_eq fun k => ?_
  rw [testBit_elem, putBytes_testBit, hoff, hn, ← Nat.mul_add]
  by_cases hk : k < w
  · have hpos : 0 < w := Nat.zero_lt_of_lt hk
    have hlow : w * first ≤ w * j + k ↔ first ≤ j := by
      rw [← Nat.lt_succ_iff, ← Nat.lt_succ_iff (n := j)]
      constructor
      · intro h
        exact Nat.lt_of_mul_lt_mul_left (a := w) (by rw [Nat.mul_succ]; omega)
      · intro h
        exact Nat.lt_succ_of_le (Nat.le_trans (Nat.mul_le_mul_left w (Nat.le_of_lt_succ h)) (Nat.le_add_right _ k))
    have hhigh : w * j + k < w * (first + c) ↔ j < first + c := by
      constructor
      · intro h
        exact Nat.lt_of_mul_lt_mul_left (Nat.lt_of_le_of_lt (Nat.le_add_right _ k) h)
      · intro h
        have hnext : w * (j + 1) ≤ w * (first + c) := Nat.mul_le_mul_left w h
        rw [Nat.mul_succ] at hnext
        omega
    simp only [hlow, hhigh]
    split
    case isTrue h =>
      rw [testBit_elem, Nat.mul_sub, Nat.sub_add_comm (Nat.mul_le_mul_left w h.1)]
    case isFalse => rw [testBit_elem]
  · simp only [decide_eq_false hk, Bool.false_and]
    split <;> rw [testBit_elem, decide_eq_false hk, Bool.false_and]

/-- Blocks of `c` elements put side by side from element `first` on. -/
theorem elem_foldl_putBytes {w n first c : Nat} {off : Nat → Nat} (hoff : ∀ b, 8 * off b = w * (first + c * b)) (hn : 8 * n = w * c)
    (v : Nat → Nat) (x m j : Nat) :
    elem ((List.range m).foldl (fun acc b => putBytes acc (off b) n (v b)) x) w j =
      if first ≤ j ∧ j < first + c * m then elem (v ((j - first) / c)) w ((j - first) % c) else elem x w j := by
  induction m with
  | zero => rw [if_neg (by omega)]; rfl
  | succ m ih =>
    rw [List.range_succ, List.foldl_append, List.foldl_cons, List.foldl_nil, elem_putBytes (hoff m) hn, ih, Nat.mul_succ]
    by_cases hblock : first + c * m ≤ j ∧ j < first + c * m + c
    · have hdiv : (j - first) / c = m := Nat.div_eq_of_lt_le (by rw [Nat.mul_comm]; omega) (by rw [Nat.mul_comm, Nat.mul_succ]; omega)
      have hmod : (j - first) % c = j - (first + c * m) := by have := Nat.div_add_mod (j - first) c; rw [hdiv] at this; omega
      rw [if_pos hblock, if_pos (by omega), hdiv, hmod]
    · rw [if_neg hblock]
      by_cases hbefore : first ≤ j ∧ j < first + c * m
      · rw [if_pos hbefore, if_pos (by omega)]
      · rw [if_neg hbefore, if_neg (by omega)]

/-- A fold over pairs whose halves do not look at each other. -/
theorem foldl_pair {α β γ : Type} (f : α → γ → α) (g : β → γ → β) (l : List γ) (a : α) (b : β) :
    l.foldl (fun acc c => (f acc.1 c, g acc.2 c)) (a, b) = (l.foldl f a, l.foldl g b) := by
  induction l generalizing a b with
  | nil => rfl
  | cons c l ih => exact ih _ _

/-- The low elements of a number cut to the width of a vector. -/
theorem elem_ofNat {w j : Nat} (n : Nat) (hj : j < 8192 / w) : elem (BitVec.ofNat 8192 n).toNat w j = elem n w j := by
  refine Nat.eq_of_testBit_eq fun k => ?_
  rw [testBit_elem, testBit_elem, BitVec.toNat_ofNat, Nat.testBit_mod_two_pow]
  by_cases hk : k < w
  · have hin : w * j + k < 8192 :=
      calc w * j + k < w * (j + 1) := by rw [Nat.mul_succ]; omega
        _ ≤ w * (8192 / w) := Nat.mul_le_mul_left w hj
        _ ≤ 8192 := width_mul_count w
    rw [decide_eq_true hin, Bool.true_and]
  · rw [decide_eq_false hk, Bool.false_and, Bool.false_and]

/-! ### VMXQ and VMXDQ (R156, R157) -/

/-- Block `k` of a vector of FP32 values, quantised. -/
def mxBlock (mx : Nat) (x : VReg) (k : Nat) : Nat × List Nat × BitVec 5 :=
  quantise (9 + mx) ((List.range 32).map fun n => fp32.decode (elem x.toNat 32 (32 * k + n)))

theorem vmxqVal_scales (mx p : Nat) (x old : VReg) : vmxqVal mx p true x old =
    (BitVec.ofNat 8192 ((List.range 8).foldl (fun acc b => putBytes acc (8 * p + b) 1 (mxBlock mx x b).1) old.toNat), 0) := by
  show (BitVec.ofNat 8192 (((List.range 8).foldl (fun (acc : Nat × BitVec 5) b =>
    (putBytes acc.1 (8 * p + b) 1 (mxBlock mx x b).1, acc.2)) (old.toNat, 0)).1), _) = _
  rw [foldl_pair (fun acc b => putBytes acc (8 * p + b) 1 (mxBlock mx x b).1) (fun acc _ => acc)]
  rfl

theorem vmxqVal_elements (mx p : Nat) (x old : VReg) : vmxqVal mx p false x old =
    (BitVec.ofNat 8192 ((List.range 8).foldl (fun acc b =>
      putBytes acc (mxOffset mx p b) (if mx = 0 then 16 else 32) (codeBytes mx (mxBlock mx x b).2.1)) old.toNat),
      (List.range 8).foldl (fun fl b => fl ||| (mxBlock mx x b).2.2) 0) := by
  show (BitVec.ofNat 8192 (((List.range 8).foldl (fun (acc : Nat × BitVec 5) b =>
    (putBytes acc.1 (mxOffset mx p b) (if mx = 0 then 16 else 32) (codeBytes mx (mxBlock mx x b).2.1), acc.2 ||| (mxBlock mx x b).2.2))
      (old.toNat, 0)).1), _) = _
  rw [foldl_pair (fun acc b => putBytes acc (mxOffset mx p b) (if mx = 0 then 16 else 32) (codeBytes mx (mxBlock mx x b).2.1))
    (fun fl b => fl ||| (mxBlock mx x b).2.2)]
  rfl

theorem exec_vmxq_of {b : Arch} {r : VReg} {fl : BitVec 5} (hruns : Runs (.vmxq o) s) (hread : ReadsV1 s 32 o.s1 x a)
    (hval : vmxqVal (fld o.m 8 2) (fld o.m 11 4) (o.m.getLsbD 10) x (s.part.oldV o.d.toNat a) = (r, fl))
    (hdst : s.part.dstV o.d.toNat r 5 fl a = .ok b) : exec (.vmxq o) s = .next (s.withArch b) := by
  unfold ReadsV1 at hread
  refine exec_ok hruns (show bodyVmxq o s = _ from onPart_ok ?_)
  simp only [hread, Got.bind_ok, fld_one_beq_one, hval]
  exact hdst

theorem exec_vmxq_scales {r : VReg} {b : Arch} (hruns : Runs (.vmxq o) s) (hread : ReadsV1 s 32 o.s1 x a) (hform : fld o.m 10 1 = 1)
    (hr : ∀ j, j < 1024 → elem r.toNat 8 j =
      if j / 8 = fld o.m 11 4 then (mxBlock (fld o.m 8 2) x (j % 8)).1 % 2 ^ 8 else elem (s.part.oldV o.d.toNat a).toNat 8 j)
    (hdst : s.part.dstV o.d.toNat r 5 0 a = .ok b) : exec (.vmxq o) s = .next (s.withArch b) := by
  refine exec_vmxq_of hruns hread ?_ hdst
  have hbit : o.m.getLsbD 10 = true := by rw [← fld_one_beq_one, hform]; rfl
  rw [hbit, vmxqVal_scales]
  refine Prod.ext (eq_of_elem_eq (w := 8) (by decide) fun j hj => ?_) rfl
  rw [elem_ofNat _ hj, hr j hj, elem_foldl_putBytes (w := 8) (first := 8 * fld o.m 11 4) (c := 1) (fun b => by omega) rfl]
  by_cases hpart : j / 8 = fld o.m 11 4
  · have hblock : (j - 8 * fld o.m 11 4) / 1 = j % 8 := by omega
    rw [if_pos hpart, if_pos (by omega), hblock, Nat.mod_one]
    unfold elem
    rw [Nat.mul_zero, Nat.pow_zero, Nat.div_one]
  · rw [if_neg hpart, if_neg (by omega)]

/-- The bytes of a block start where its elements do. -/
theorem mxOffset_eq (mx p b : Nat) : 8 * mxOffset mx p b = (if mx = 0 then 4 else 8) * (p * 256 + 32 * b) := by
  unfold mxOffset
  split <;> omega

theorem exec_vmxq_elements {r : VReg} {fl : BitVec 5} {b : Arch} (hruns : Runs (.vmxq o) s) (hread : ReadsV1 s 32 o.s1 x a)
    (hform : fld o.m 10 1 = 0) {w first : Nat} (hw : w = if fld o.m 8 2 = 0 then 4 else 8) (hfirst : first = fld o.m 11 4 * 256)
    (hr : ∀ j, j < 8192 / w → elem r.toNat w j =
      if first ≤ j ∧ j < first + 256 then ((mxBlock (fld o.m 8 2) x ((j - first) / 32)).2.1[j % 32]?).getD 0 % 2 ^ w
      else elem (s.part.oldV o.d.toNat a).toNat w j)
    (hfl : ∀ n, fl.getLsbD n = true ↔ ∃ k, k < 8 ∧ (mxBlock (fld o.m 8 2) x k).2.2.getLsbD n = true)
    (hdst : s.part.dstV o.d.toNat r 5 fl a = .ok b) : exec (.vmxq o) s = .next (s.withArch b) := by
  refine exec_vmxq_of hruns hread ?_ hdst
  have hbit : o.m.getLsbD 10 = false := by rw [← fld_one_beq_one, hform]; rfl
  have hdvd : w ∣ 8192 := by rw [hw]; split <;> decide
  rw [hbit, vmxqVal_elements]
  refine Prod.ext (eq_of_elem_eq hdvd fun j hj => ?_) (BitVec.eq_of_getLsbD_eq fun n _ => ?_)
  · have hn : 8 * (if fld o.m 8 2 = 0 then 16 else 32) = w * 32 := by rw [hw]; split <;> rfl
    rw [elem_ofNat _ hj, hr j hj, elem_foldl_putBytes (fun k => by rw [mxOffset_eq, ← hw, ← hfirst]) hn]
    unfold codeBytes
    have hcol : (j - first) % 32 = j % 32 ∨ j < first := by omega
    by_cases hin : first ≤ j ∧ j < first + 256
    · rw [if_pos hin, if_pos hin, ← hw, elem_packElems, List.getD_eq_getElem?_getD, hcol.resolve_right (by omega)]
    · rw [if_neg hin, if_neg hin]
  · rw [Bool.eq_iff_iff, hfl n, foldl_or_getLsbD]
    simp

/-- Element `j` of part P stands at element 256 P + j of the vector. -/
theorem vmxdqElem_eq (mx p sp x sc j : Nat) : vmxdqElem mx p sp x sc j =
    roundVal fp32 .rne false (mxValue (9 + mx) (elem sc 8 (8 * sp + j / 32)) (elem x (if mx = 0 then 4 else 8) (p * 256 + j))) := by
  have hj : 32 * (j / 32) + j % 32 = j := Nat.div_add_mod j 32
  unfold vmxdqElem mxOffset mxFmt
  by_cases hmx : mx = 0
  · have hplace : 2 * (p * 128 + 16 * (j / 32)) + j % 32 = p * 256 + j := by omega
    simp only [if_pos hmx, hplace]
  · have hplace : p * 256 + 32 * (j / 32) + j % 32 = p * 256 + j := by omega
    simp only [if_neg hmx, hplace]

theorem delivers_vmxdq (hruns : Runs (.vmxdq o) s) (hreads : ReadsV2 s 64 64 o.s1 o.s2 x y a) :
    Delivers (.vmxdq o) s o 32 3 a fun j =>
      roundVal fp32 .rne false (mxValue (9 + fld o.m 8 2) (elem y.toNat 8 (8 * fld o.m 13 4 + j / 32))
        (elem x.toNat (if fld o.m 8 2 = 0 then 4 else 8) (fld o.m 10 3 * 256 + j))) := by
  obtain ⟨c, hx, hy⟩ := hreads
  unfold ReadsV1 at hx
  refine delivers_of_putMasked hruns fun b hput => show bodyVmxdq o s = _ from onPart_ok ?_
  simp only [hx, hy, Got.bind_ok, funext (vmxdqElem_eq _ _ _ _ _)]
  exact hput

/-! ### VEXP (R158) -/

theorem delivers_vexp (hruns : Runs (.vexp o) s) (hread : ReadsV1 s 64 o.s1 x a) :
    DeliversLanes (.vexp o) s o.d 8 3 a
      (fun j => j / 512 == fld o.m 10 1 && maskBit (a.maskOf o.m) (j - 512 * fld o.m 10 1))
      (fun j => j / 512 == fld o.m 10 1 && zeroing o.m o.d.toNat) fun j =>
        (expandCode (fld o.m 8 2) (elem (x.toNat / 2 ^ (1024 * fld o.m 11 3)) (if fld o.m 8 2 = 0 then 4 else 6) (j % 512)), 0) := by
  unfold ReadsV1 at hread
  refine DeliversLanes.congr_active (deliversLanes_of_part (part := fun j => j / 512 == fld o.m 10 1)
    (mask := fun j => maskBit (a.maskOf o.m) (j - 512 * fld o.m 10 1))
    (g := fun j => (expandCode (fld o.m 8 2) (vexpCode (fld o.m 8 2) (128 * fld o.m 11 3) x.toNat (j - 512 * fld o.m 10 1)), 0))
    hruns fun b hdst => show bodyVexp o s = _ from ?_) fun j _ hactive => ?_
  · unfold bodyVexp
    refine onPart_ok ?_
    have hpair : ∀ (c : Bool) (e : Nat), (if c then (e, (0 : BitVec 5)) else (0, 0)) = (if c then e else 0, 0) := by
      intro c e; cases c <;> rfl
    simp only [hread, Got.bind_ok]
    simp only [hpair] at hdst
    exact hdst
  · simp only [Bool.and_eq_true, beq_iff_eq] at hactive
    obtain ⟨hhalf, -⟩ := hactive
    have hindex : j - 512 * fld o.m 10 1 = j % 512 := by omega
    have hoff : 8 * (128 * fld o.m 11 3) = 1024 * fld o.m 11 3 := by omega
    simp only [hindex, vexpCode, hoff, and_true]
    split <;> rfl

end Conversions

/-- Settles O20, one instruction at a time. -/
theorem conversionBlockResults : Obligations.ConversionBlockResults :=
  ⟨fun _ _ _ _ _ hruns hws hread => ⟨delivers_vcvt_narrow hruns hws hread, delivers_vcvt_widen hruns hws hread⟩,
    fun _ _ _ _ => delivers_vcvt8_expand, fun _ _ _ _ => delivers_vcvt8_narrow, fun _ _ _ _ _ _ => exec_vmxq_scales,
    fun _ _ _ _ _ _ _ hruns hread hform => exec_vmxq_elements hruns hread hform rfl rfl, fun _ _ _ _ _ => delivers_vmxdq,
    fun _ _ _ _ => delivers_vexp⟩

end Sys2Proof.Machine

/-! Proofs for spec/01 (stalls): a slot that has to wait is withdrawn with its part (R11). -/

namespace Sys2Proof.Machine

open Safety

section Stalls
variable {i : Instr} {o : A3} {s : State}

theorem onPart_stall {f : Part → Arch → Got Arch} (h : f s.part (arch s) = .stall) : onPart f s = .stall := by
  have h' : f s.part (s.core s.part.core).arch = .stall := h
  rw [onPart, h', Got.map_stall]

theorem onPartCore_stall {f : Part → Core → Got Core} (h : f s.part s.mine = .stall) : onPartCore f s = .stall := by
  have h' : f s.part (s.core s.part.core) = .stall := h
  rw [onPartCore, h', Got.map_stall]

theorem guarded_isSome (hruns : Runs i s) : i.guard?.isSome = true := by
  obtain ⟨⟨g, hguard, -⟩, -⟩ := hruns
  rw [hguard]
  rfl

/-- What is withdrawn stands as before the part. -/
theorem withdrawn_withdraw (w : CoresWf s) : Withdrawn s s.withdraw := by
  have hcore : ∀ c, s.withdraw.core c = (s.setCore s.part.core s.part.before).core c := fun _ => rfl
  refine ⟨?_, fun c hc => ?_, rfl, rfl⟩
  · rw [hcore, State.core_setCore_same w]
  · rw [hcore, State.core_setCore w, if_neg hc]

/-- A slot whose body has to wait is withdrawn. -/
theorem exec_stall (hruns : Runs i s) (hbody : slotBody i s = .stall) : exec i s = .next s.withdraw := by
  rw [exec_slot (guarded_isSome hruns), runSlot_stall hruns hbody]

/-- What a slot that has to wait leaves is its part withdrawn. -/
theorem withdraws_of_stall (w : CoresWf s) (hruns : Runs i s) (hbody : slotBody i s = .stall) :
    ∃ t, exec i s = .next t ∧ Withdrawn s t :=
  ⟨s.withdraw, exec_stall hruns hbody, withdrawn_withdraw w⟩

theorem scalar2_stall {f : W64 → W64 → W64 × BitVec 5} {lat : Nat}
    (h : s.part.srcS o.s1.toNat (arch s) = .stall ∨ (∃ x a, Reads1 s o.s1 x a ∧ s.part.srcS o.s2.toNat a = .stall) ∨
      (∃ x y a q, Reads2 s o.s1 o.s2 x y a ∧ pushPort o.d.toNat = some q ∧ q.depth ≤ (a.q q).length)) :
    scalar2 f lat o s = .stall := by
  refine onPart_stall ?_
  obtain hx | ⟨x, a, hx, hy⟩ | ⟨x, y, a, q, ⟨b, hx, hy⟩, hport, hfull⟩ := h
  · rw [hx, Got.bind_stall]
  · unfold Reads1 at hx
    simp only [hx, Got.bind_ok, hy, Got.bind_stall]
  · unfold Reads1 at hx
    simp only [hx, hy, Got.bind_ok]
    exact dstS_full s.part hport hfull _ _ _

theorem addr2_stall {f : W64 → W64 → W64} {lat : Nat}
    (h : s.mine.srcA o.s1.toNat = .stall ∨ (∃ x k, ReadsA1 s o.s1 x k ∧ k.srcA o.s2.toNat = .stall) ∨
      (∃ x y k, ReadsA2 s o.s1 o.s2 x y k ∧ k.dest o.d.toNat = .stall)) :
    addr2 f lat o s = .stall := by
  refine onPartCore_stall ?_
  obtain hx | ⟨x, k, hx, hy⟩ | ⟨x, y, k, ⟨j, hx, hy⟩, hdest⟩ := h
  · rw [hx, Got.bind_stall]
  · unfold ReadsA1 at hx
    simp only [hx, Got.bind_ok, hy, Got.bind_stall]
  · unfold ReadsA1 at hx
    simp only [hx, hy, Got.bind_ok, hdest, Got.map_stall]

theorem vec2_stall {ws wd lat : Nat} {f : (Nat → Nat) → (Nat → Nat) → Nat → Nat × BitVec 5}
    (h : s.part.srcV ws o.s1.toNat (arch s) = .stall ∨ (∃ x a, ReadsV1 s ws o.s1 x a ∧ s.part.srcV ws o.s2.toNat a = .stall)) :
    vec2 ws wd lat o f s = .stall := by
  refine onPart_stall ?_
  obtain hx | ⟨x, a, hx, hy⟩ := h
  · rw [hx, Got.bind_stall]
  · unfold ReadsV1 at hx
    simp only [hx, Got.bind_ok, hy, Got.bind_stall]

end Stalls

/-- Settles O57: each family stalls in the shared form of its bodies. -/
theorem stallsWithdraw : Obligations.StallsWithdraw := by
  unfold Obligations.StallsWithdraw
  refine ⟨fun i s w hruns => withdraws_of_stall w hruns, fun i o lat f hop s w hruns hwait => ?_,
    fun i o lat f hop s w hruns hwait => ?_, fun i o lat f hop s w hruns hwait => ?_⟩
  · obtain ⟨g, hbody, -⟩ := slotBody_intOp hop
    exact withdraws_of_stall w hruns (hbody ▸ scalar2_stall hwait)
  · obtain ⟨g, hbody, -⟩ := slotBody_addrOp hop
    exact withdraws_of_stall w hruns (hbody ▸ addr2_stall hwait)
  · refine withdraws_of_stall w hruns ?_
    rw [slotBody_vecOp hop]
    unfold vecInt2
    exact vec2_stall hwait

end Sys2Proof.Machine

/-! Proofs for spec/00 and spec/28: every step of the package answers a next state (log entries 3, 5). -/

namespace Sys2Proof.Machine

open Safety

/-- A step of the device answers a next state in every branch of its meaning. -/
theorem exec_device_next {i : Instr} (hdevice : i.guard? = none) (s : State) : ∃ t, exec i s = .next t := by
  cases i
  all_goals first
    | exact absurd hdevice (Option.some_ne_none _)
    | exact ⟨_, rfl⟩
    | dsimp only [exec, execStallCountExpiry, execResultLands, execScratchpadAccessPoint, execTrapEntry, execBenchCycleSteal,
        execSegmentClose, execRendezvous, execFieldmaskRemove, execStepBoundary, execRetentionEntry, execRetentionExit, execMmaClaim,
        execMmaStep, execMmaWriteBack, execMlatPerform, execOffCoreLoadReturn, execRemoteAtomicRequest, execRequestResend,
        execSideLogReplay, execCopyStep, execCopyPerformed, execSfnStep, execGatherStep, execOperationStart, execSurrogateInvocation,
        execSignatureCompare, execResultSignatureCompare, execEventEntry, execMessageArrival, execStealAnswer, execDequeTopDelivery,
        execGlobalTick, execFrameCounterStart, execEntryStart, execFrameEndProcessing, execContextCreate, execContextDestroy,
        execRankWrite, execSlotTableWrite, execDieFabricArbitration, execRegisterHostEventArea, execRegisterSystemEventRing,
        execHostEventPost, execRegisterCoreSetHandle, execRegisterPublicKeys, execDebugHalt, execDebugResume, execLaunchMessage,
        execGrant, execContextSave, execResumption, execLaunchEnd, execReplayHoldTimeout, execEndLaunchPinned, execTeardown,
        execFaultRequest, execHostFaultRequest, execHoldOffExpiry, execDeclareUnresolvable, execMigration, execInvalidate,
        execModuleLoad, execModuleUnload, execWeightBlockAccess, execHbmSectorRead, execHbmSectorWrite, execStackLost, execRestripe,
        execRestripeCursorAdvance, execKeyWrite, execScrub, execPackageReset, execAttestationRequest]
  all_goals repeat' split
  all_goals exact ⟨_, rfl⟩

/-- No instruction stops the machine or is refused. -/
theorem exec_next (i : Instr) (s : State) : ∃ t, exec i s = .next t := by
  cases hslot : i.guard?.isSome with
  | true => exact exec_slot hslot s ▸ runSlot_next i (slotBody i) s
  | false => exact exec_device_next (Option.isNone_iff_eq_none.mp (Option.isSome_eq_false_iff.mp hslot)) s

/-- Settles O6: a syllable is performed or trapped, a step of the device is performed, and only what names none stops. -/
theorem stepsAnswer : Obligations.StepsAnswer := by
  unfold Obligations.StepsAnswer
  intro s
  cases hlatch : s.latch with
  | cons w rest =>
    left
    cases hdec : decodeWord w with
    | ok i => simpa only [step, hlatch, hdec] using exec_next i _
    | error => exact ⟨(s.latchNext w rest).cancelPart ecIllegal (s.latchNext w rest).slotAddr, by simp only [step, hlatch, hdec]⟩
  | nil =>
    cases hagenda : s.agenda with
    | cons e rest =>
      cases hdevice : deviceStep e with
      | true => exact .inl (by simpa only [step, hlatch, hagenda, hdevice, if_true] using exec_next e _)
      | false => exact .inr ⟨rfl, by simp [step, hlatch, hagenda, hdevice], .inl ⟨e, rest, rfl, hdevice⟩⟩
    | nil =>
      cases hdevice : deviceStep (Config.nextStep s.choice) with
      | true => exact .inl (by simpa only [step, hlatch, hagenda, hdevice, if_true] using exec_next _ _)
      | false => exact .inr ⟨rfl, by simp [step, hlatch, hagenda, hdevice], .inr ⟨rfl, rfl⟩⟩

end Sys2Proof.Machine

/-! Proofs for spec/06 and spec/10 (branches, traps, system registers, the modulo sequencer): R16 to R25, R53, R65, R123 to R130, R223 to
R226. -/

namespace Sys2Proof.Machine

open Safety

/-! ### Only the issuing core -/

theorem OnlyCore.refl (s : State) : OnlyCore s s s.mine := ⟨rfl, fun _ _ => rfl, rfl⟩

/-- A further change of the issuing core. -/
theorem OnlyCore.setCore {s u : State} {j : Core} (h : OnlyCore s u j) (w : CoresWf u) (k : Core) :
    OnlyCore s (u.setCore s.part.core k) k := by
  obtain ⟨-, hothers, hrest⟩ := h
  refine ⟨State.core_setCore_same w, fun c hc => ?_, hrest⟩
  rw [State.core_setCore w, if_neg hc, hothers c hc]

theorem onlyCore_withArch {s : State} (w : CoresWf s) (a : Arch) : OnlyCore s (s.withArch a) { s.mine with arch := a } :=
  OnlyCore.setCore (OnlyCore.refl s) w _

/-! ### Branches (R53, R65, R66, R226, R452) -/

/-- The address of the next bundle goes on its way to the link register of a branch (R65). -/
def Part.linkTo (p : Part) (link : Option (Nat × W64)) (a : Arch) : Got Arch :=
  match link with
  | none => .ok a
  | some (n, v) => p.dstS n v 1 0 a

/-- The part has a branch in it (R452). -/
def State.claim! (s : State) : State := { s with part := { s.part with claimed := true } }

theorem State.jump_eq (s : State) (j : Jump) : s.jump j =
    if s.part.redirected then .ok s.claim!.collide
    else (s.part.linkTo j.link s.mine.arch).map fun a =>
      if s.part.undecided then s.claim!.onCore s.part.core fun k => { k with deferred := some j }
      else { s.claim!.onArch s.part.core fun _ => a.go j with part := { s.part with claimed := true, redirected := true } } := by
  unfold State.jump Part.linkTo
  cases j.link <;> rfl

/-- A jump that starts no loop leaves the stage predicates. -/
theorem Arch.go_of_not_starts (a : Arch) {j : Jump} (h : j.starts = false) : a.go j =
    { a with pc := j.target, skip := j.skip, till := j.till, loop := j.loop, turn := none, loopOn := j.loopOn, rb := j.rb, ahead := [] } := by
  unfold Arch.go
  rw [h]
  cases j.loop <;> rfl

section Jump
variable {s u : State} {k : Core} {j : Jump}

theorem jump_suppressed (w : CoresWf u) (honly : OnlyCore s u k) (hpart : u.part = s.part) (hred : s.part.redirected = true) :
    ∃ t, u.jump j = .ok t ∧ OnlyCore s t { k with arch := k.arch.fly .execute .bcol 1 0 } := by
  have hmine : u.core s.part.core = k := honly.1
  refine ⟨u.claim!.collide, by rw [State.jump_eq, hpart, if_pos hred], ?_⟩
  have hset : u.claim!.collide =
      { u.setCore s.part.core { k with arch := k.arch.fly .execute .bcol 1 0 } with part := { s.part with claimed := true } } := by
    rw [← hmine, ← hpart]
    rfl
  rw [hset]
  exact OnlyCore.withPart (OnlyCore.setCore honly w _) _

theorem jump_taken {b : Arch} (w : CoresWf u) (honly : OnlyCore s u k) (hpart : u.part = s.part) (hred : s.part.redirected = false)
    (hdec : s.part.undecided = false) (hlink : s.part.linkTo j.link k.arch = .ok b) :
    ∃ t, u.jump j = .ok t ∧ t.part = { s.part with claimed := true, redirected := true } ∧ OnlyCore s t { k with arch := b.go j } := by
  have hmine : u.core s.part.core = k := honly.1
  have hmine' : u.mine = k := by rw [State.mine, hpart, hmine]
  refine ⟨{ u.setCore s.part.core { k with arch := b.go j } with part := { s.part with claimed := true, redirected := true } }, ?_, rfl,
    OnlyCore.withPart (OnlyCore.setCore honly w _) _⟩
  rw [State.jump_eq, hpart, if_neg (by simp [hred]), hmine', hlink, Got.map_ok, if_neg (by simp [hdec]), ← hmine]
  rfl

theorem jump_deferred {b : Arch} (w : CoresWf u) (honly : OnlyCore s u k) (hpart : u.part = s.part) (hred : s.part.redirected = false)
    (hdec : s.part.undecided = true) (hlink : s.part.linkTo j.link k.arch = .ok b) :
    ∃ t, u.jump j = .ok t ∧ OnlyCore s t { k with deferred := some j } := by
  have hmine : u.core s.part.core = k := honly.1
  have hmine' : u.mine = k := by rw [State.mine, hpart, hmine]
  refine ⟨{ u.setCore s.part.core { k with deferred := some j } with part := { s.part with claimed := true } }, ?_,
    OnlyCore.withPart (OnlyCore.setCore honly w _) _⟩
  rw [State.jump_eq, hpart, if_neg (by simp [hred]), hmine', hlink, Got.map_ok, if_pos hdec, ← hmine, State.claim!, hpart]
  rfl

end Jump

/-- The target of a branch counts in bundles of two words from its own (R53). -/
theorem brTarget_eq (pc : W64) (off : BitVec 32) : brTarget pc off = BitVec.ofInt 64 (pc.toNat + 2 * off.toInt) := by
  unfold brTarget
  rw [BitVec.ofInt_add, BitVec.ofInt_mul, BitVec.ofInt_natCast, BitVec.ofNat_toNat, BitVec.setWidth_eq]
  rfl

/-- Each branch jumps to its target once it has been read, with its link. -/
theorem slotBody_branch {i : Instr} {s : State} {target : W64} {link : Option (BitVec 7)} {a : Arch} (w : CoresWf s)
    (hbranch : Branch i s target link a) : ∃ u, CoresWf u ∧ OnlyCore s u { s.mine with arch := a } ∧ u.part = s.part ∧
      slotBody i s = u.jump (s.part.plainJump target (link.map fun n => (n.toNat, s.part.next))) := by
  unfold Branch at hbranch
  split at hbranch
  case h_1 o =>
    obtain ⟨rfl, rfl, rfl⟩ := hbranch
    exact ⟨s, w, OnlyCore.refl s, rfl, by rw [← brTarget_eq]; rfl⟩
  case h_2 o =>
    obtain ⟨rfl, rfl, rfl⟩ := hbranch
    exact ⟨s, w, OnlyCore.refl s, rfl, by rw [← brTarget_eq]; rfl⟩
  case h_3 o =>
    obtain ⟨hread, rfl⟩ := hbranch
    refine ⟨s.withArch a, State.withArch_wf w a, onlyCore_withArch w a, rfl, ?_⟩
    show bodyBr o s = _
    rw [bodyBr, State.readS_ok hread]
    rfl
  case h_4 o =>
    obtain ⟨hread, rfl⟩ := hbranch
    refine ⟨s.withArch a, State.withArch_wf w a, onlyCore_withArch w a, rfl, ?_⟩
    show bodyRet o s = _
    rw [bodyRet, State.readS_ok hread]
    rfl
  case h_5 => exact hbranch.elim

theorem linkTo_of_linked {s : State} {link : Option (BitVec 7)} {a b : Arch} (h : Linked s link a b) :
    s.part.linkTo (link.map fun n => (n.toNat, s.part.next)) a = .ok b := by
  unfold Linked at h
  cases link with
  | none => exact congrArg Got.ok h.symm
  | some n => exact h

/-- Settles O22: one jump, suppressed, taken or put off. -/
theorem takenBranches : Obligations.TakenBranches := by
  unfold Obligations.TakenBranches
  intro i s target link a b w hruns hbranch
  obtain ⟨u, wu, honly, hpart, hbody⟩ := slotBody_branch w hbranch
  refine ⟨fun hred => ?_, fun hred hlinked => ⟨fun hdec => ?_, fun hdec => ?_⟩⟩
  · obtain ⟨t, hjump, ht⟩ := jump_suppressed wu honly hpart hred
    exact ⟨t, exec_ok hruns (hbody.trans hjump), ht⟩
  · obtain ⟨t, hjump, htpart, ht⟩ := jump_taken (j := s.part.plainJump target _) wu honly hpart hred hdec (linkTo_of_linked hlinked)
    exact ⟨t, exec_ok hruns (hbody.trans hjump), htpart, ht⟩
  · obtain ⟨t, hjump, ht⟩ := jump_deferred (j := s.part.plainJump target _) wu honly hpart hred hdec (linkTo_of_linked hlinked)
    exact ⟨t, exec_ok hruns (hbody.trans hjump), ht⟩

/-! ### TRAP, BRK, the entry of their trap, ERET (R125, R126, R128) -/

theorem trapAfter_first {s : State} (w : CoresWf s) (cause code : Nat) (hfirst : s.part.trapped = false) :
    ∃ t, trapAfter cause code s = .ok t ∧ t.part = { s.part with trapped := true } ∧ OnlyCore s t
      { s.mine with arch := { arch s with trap := some ⟨cause, BitVec.ofNat 64 code, 0, true⟩ } } :=
  ⟨{ s.setCore s.part.core { s.mine with arch := { arch s with trap := some ⟨cause, BitVec.ofNat 64 code, 0, true⟩ } } with
      part := { s.part with trapped := true } }, if_neg (by simp [hfirst]), rfl, OnlyCore.withPart (OnlyCore.setCore (OnlyCore.refl s) w _) _⟩

theorem slotBody_trap {i : Instr} {o : A3} {cause : Nat} (h : i = .trap o ∧ cause = 8 ∨ i = .brk o ∧ cause = 9) :
    slotBody i = trapAfter cause (o.m.toNat % 2 ^ 16) := by
  rw [← fld_zero]
  obtain ⟨rfl, rfl⟩ | ⟨rfl, rfl⟩ := h <;> rfl

/-- The trap of TRAP or BRK is taken at the bundle where both streams stand (R126). -/
theorem trapEntry_post {s : State} {c cause : Nat} {code : W64} (hmay : s.mayTrap c = true)
    (htrap : (s.core c).arch.trap = some ⟨cause, code, 0, true⟩) (haccs : (s.core c).arch.accs = []) (hexc : (s.core c).arch.exc = false) :
    exec (.trapEntry c) s = .next (s.setCore c
      { (s.core c).askClose with arch := (s.core c).arch.enterTrap cause code (s.core c).arch.pc }) := by
  show execTrapEntry c s = _
  simp only [execTrapEntry, hmay, haccs, htrap, Bool.not_true, List.isEmpty_nil, Bool.or_self, Bool.false_eq_true, if_false, if_true,
    State.takeTrap, hexc]
  rfl

section Eret
variable {o : A3} {s : State}

theorem drainedBoth_iff (p : Part) :
    p.drainedBoth = true ↔ p.before.arch.inflX = [] ∧ p.before.arch.inflA = [] ∧ p.before.arch.accs = [] := by
  simp [Part.drainedBoth, Part.drained, and_assoc]

theorem bodyEret_stall
    (h : ¬ (s.part.before.arch.inflX = [] ∧ s.part.before.arch.inflA = [] ∧ s.part.before.arch.accs = [])) : bodyEret o s = .stall :=
  if_pos (by rw [← drainedBoth_iff] at h; simpa using h)

/-- The branch of ERET: to EPC, with the held loop, or out of any loop where no handler runs (R128). -/
def eretJump (s : State) : Jump :=
  ⟨s.mine.arch.epc, 0, none, if s.mine.arch.exc then s.mine.arch.leaveTrap.loop else none,
    s.mine.arch.exc && s.mine.arch.leaveTrap.loopOn, false, if s.mine.arch.exc then s.mine.arch.leaveTrap.rb else s.part.rb, none⟩

/-- The core as ERET leaves it before its branch: the trap left, the sequencer of the handler still there. -/
def eretCore (s : State) : Core :=
  { s.mine.askClose with arch :=
    { s.mine.arch.leaveTrap with loop := s.mine.arch.loop, loopOn := s.mine.arch.loopOn, rb := s.mine.arch.rb } }

theorem bodyEret_jump (hdrained : s.part.drainedBoth = true) :
    bodyEret o s = (s.setCore s.part.core (eretCore s)).jump (eretJump s) := by
  unfold bodyEret
  rw [hdrained]
  rfl

/-- The branch of ERET is taken. -/
theorem exec_eret (w : CoresWf s) (hruns : Runs (.eret o) s) (hdrained : s.part.drainedBoth = true) (hred : s.part.redirected = false)
    (hdec : s.part.undecided = false) : ∃ t, exec (.eret o) s = .next t ∧
      OnlyCore s t { eretCore s with arch := (eretCore s).arch.go (eretJump s) } := by
  obtain ⟨t, hjump, -, ht⟩ := jump_taken (j := eretJump s) (State.setCore_coresWf w) (OnlyCore.setCore (OnlyCore.refl s) w (eretCore s))
    rfl hred hdec rfl
  exact ⟨t, exec_ok hruns ((bodyEret_jump (o := o) hdrained).trans hjump), ht⟩

theorem leaveTrap_held {a : Arch} {h : Held} (hexc : a.exc = true) (hheld : a.held = some h) : a.leaveTrap =
    { a with
      exc := false, held := none, inflX := h.inflX ++ a.inflX, inflA := h.inflA ++ a.inflA, cycX := h.cycX, cycA := h.cycA
      waitX := h.waitX, waitA := h.waitA, loop := h.loop, loopOn := h.loopOn, rb := h.rb } := by
  unfold Arch.leaveTrap
  rw [hexc, hheld]

theorem leaveTrap_none {a : Arch} (hexc : a.exc = false) : a.leaveTrap = { a with exc := false } := by
  unfold Arch.leaveTrap
  rw [hexc]

end Eret

/-- Settles O23: TRAP and BRK, the entry of their trap, and ERET. -/
theorem trapsTaken : Obligations.TrapsTaken := by
  unfold Obligations.TrapsTaken
  refine ⟨fun i o cause s hi w hruns => ⟨fun hsecond => ?_, fun hfirst => ?_⟩, fun s c cause code w hmay htrap haccs hexc hturn => ?_,
    fun o s w hruns => ⟨fun h => ?_, fun hx ha haccs hred hdec => ⟨fun h hexc hheld => ?_, fun hexc => ?_⟩⟩⟩
  · exact exec_ok hruns (slotBody_trap hi ▸ if_pos hsecond)
  · obtain ⟨t, hbody, ht⟩ := trapAfter_first w cause (o.m.toNat % 2 ^ 16) hfirst
    exact ⟨t, exec_ok hruns (slotBody_trap hi ▸ hbody), ht⟩
  · rw [trapEntry_post hmay htrap haccs hexc]
    have hturned : (s.core c).arch.turned = (s.core c).arch := by rw [Arch.turned, hturn]
    simp only [Arch.enterTrap, hturned, Core.askClose]
  · exact exec_stall hruns (bodyEret_stall (o := o) h)
  · obtain ⟨t, hexec, ht⟩ := exec_eret w hruns ((drainedBoth_iff _).mpr ⟨hx, ha, haccs⟩) hred hdec
    refine ⟨t, hexec, ?_⟩
    rw [Arch.go_of_not_starts _ rfl] at ht
    simpa only [eretJump, eretCore, Core.askClose, hexc, leaveTrap_held hexc hheld, if_true, Bool.true_and] using ht
  · obtain ⟨t, hexec, ht⟩ := exec_eret w hruns ((drainedBoth_iff _).mpr ⟨hx, ha, haccs⟩) hred hdec
    refine ⟨t, hexec, ?_⟩
    rw [Arch.go_of_not_starts _ rfl] at ht
    simpa only [eretJump, eretCore, Core.askClose, hexc, leaveTrap_none hexc, Bool.false_eq_true, if_false, Bool.false_and] using ht

end Sys2Proof.Machine

/-! Proofs for spec/01, spec/06 and spec/10 (system registers, loops, HINT): R16 to R25, R76, R129, R130, R223 to R226. -/

namespace Sys2Proof.Machine

open Safety

/-! ### System registers (R16 to R25, R129, R130) -/

section SystemRegisters
variable {o : AI} {s : State} {x : W64} {a b : Arch}

theorem exec_sysr (hruns : Runs (.sysr o) s) (hdst : s.part.dstS o.d.toNat (s.readSys o.imm.toNat) 2 0 (arch s) = .ok b) :
    exec (.sysr o) s = .next (s.withArch b) := by
  have h : s.part.dstS o.d.toNat (s.readSys o.imm.toNat) 2 0 (s.core s.part.core).arch = .ok b := hdst
  exact exec_ok hruns (show bodySysr o s = _ by rw [bodySysr, h, Got.map_ok])

/-- A slot whose body traps before issue cancels its part (R453). -/
theorem exec_trap {i : Instr} {cause : Nat} (hruns : Runs i s) (hbody : slotBody i s = .trap cause x) :
    exec i s = .next (s.cancelPart cause x) := by
  rw [exec_slot (guarded_isSome hruns), runSlot_runs hruns, hbody]
  rfl

/-- A cancelled part stands as before it, whatever its slots had read. -/
theorem cancelPart_withArch (w : CoresWf s) (cause : Nat) (addr : W64) : (s.withArch a).cancelPart cause addr = s.cancelPart cause addr := by
  have h : (s.withArch a).withdraw = s.withdraw := by
    unfold State.withdraw
    rw [State.withArch_part, State.withArch_eq, State.setCore_setCore w]
  unfold State.cancelPart
  rw [h]

theorem exec_sysw_reserved (w : CoresWf s) (hruns : Runs (.sysw o) s) (hread : Reads1 s o.s1 x a)
    (hcode : 0x10 ≤ o.imm.toNat ∧ 0xD ≤ x.toNat % 16) : exec (.sysw o) s = .next ((s.withArch a).cancelPart 2 x) := by
  rw [cancelPart_withArch w]
  exact exec_trap hruns (show bodySysw o s = _ by rw [bodySysw, State.readS_ok hread, Got.bind_ok]; exact if_pos hcode)

theorem exec_sysw (w : CoresWf s) (hruns : Runs (.sysw o) s) (hread : Reads1 s o.s1 x a)
    (hcode : ¬ (0x10 ≤ o.imm.toNat ∧ 0xD ≤ x.toNat % 16)) : ∃ t, exec (.sysw o) s = .next t ∧ OnlyCore s t
      { s.mine with arch := a.flySys s.part.before.arch.inflX.length (.sys o.imm.toNat x) } := by
  have hcore : (s.withArch a).core s.part.core = { s.mine with arch := a } := State.withArch_core w a
  refine ⟨(s.withArch a).onArch s.part.core fun a => a.flySys s.part.before.arch.inflX.length (.sys o.imm.toNat x), ?_, ?_⟩
  · exact exec_ok hruns (show bodySysw o s = _ by rw [bodySysw, State.readS_ok hread, Got.bind_ok]; exact if_neg hcode)
  · rw [State.onArch, State.onCore, hcore]
    exact OnlyCore.setCore (onlyCore_withArch w a) (State.withArch_wf w a) _

/-- A system register with a field that SYSW writes; the bank formats are sixteen (R16, R24). -/
theorem writeSys_bank {n : Nat} (hn : n < 16) (v : W64) : (a.writeSys (0x10 + n) v).bfmt = Sparse.set 0 a.bfmt n (v.toNat % 16) := by
  unfold Arch.writeSys
  rw [if_neg (by omega), if_neg (by omega), if_neg (by omega), if_neg (by omega), if_neg (by omega), if_neg (by omega),
    if_neg (by omega), if_pos (by omega), Nat.add_sub_cancel_left]

/-- The read-only system registers keep what they hold (R16). -/
theorem writeSys_readOnly {n : Nat} (hn : n ∈ [6, 7, 8, 9, 0xA, 0xC, 0xD, 0xE]) (v : W64) : a.writeSys n v = a := by
  simp only [List.mem_cons, List.not_mem_nil, or_false] at hn
  unfold Arch.writeSys
  rw [if_neg (by omega), if_neg (by omega), if_neg (by omega), if_neg (by omega), if_neg (by omega), if_neg (by omega),
    if_neg (by omega), if_neg (by omega)]

theorem readSys_bank {n : Nat} (hn : n < 16) : s.readSys (0x10 + n) = BitVec.ofNat 64 (Sparse.get 0 (arch s).bfmt n % 16) := by
  unfold State.readSys
  have hne : ∀ k, k < 16 → 0x10 + n ≠ k := by omega
  simp only [hne, Nat.reduceLT, if_false, Nat.add_sub_cancel_left]
  rfl

/-- QUIET outside a debugger's halt (R351). -/
theorem quiet_eq (c : Nat) : s.quiet c =
    (!(((s.launchOf c).map (·.debugHalted)).getD false && s.halted c) || (s.core c).landed) := rfl

end SystemRegisters

/-- Settles O24: each register read and written by its fields. -/
theorem systemRegisterAccess : Obligations.SystemRegisterAccess := by
  unfold Obligations.SystemRegisterAccess
  refine ⟨fun o s b => exec_sysr, fun s => ⟨rfl, rfl, rfl, rfl, rfl, ?fflags, rfl, rfl, ?coord, fun l x hl hx => ?rank, ?mask, fun h => ?quiet,
    fun l hl hdebug hhalt => ?landed, fun n => readSys_bank, fun l hl => ⟨?seed, ?frc, ?pair⟩⟩,
    fun o s x a w hruns hread => ⟨exec_sysw_reserved w hruns hread, exec_sysw w hruns hread⟩,
    fun a v => ⟨?bcol, rfl, rfl, rfl, rfl, rfl, rfl, fun w n hn m => ?bank, fun n hn => writeSys_readOnly hn v⟩⟩
  case fflags =>
    show (arch s).fflags.setWidth 64 = _
    rw [BitVec.ofNat_toNat]
  case coord =>
    show BitVec.ofNat 64 (coreCoord _ _) = _
    simp only [coreCoord, dieOf, clusterOf, coreInCluster, coresPerDie, coresPerCluster]
    rfl
  case rank =>
    show BitVec.ofNat 64 ((((s.launchOf s.part.core).bind fun l => s.context? l.asid).map (·.rank)).getD 0 % 8) = _
    rw [hl, Option.bind_some, hx]
    rfl
  case mask =>
    show (s.maskOf (s.part.core / 8)).setWidth 64 = _
    rw [BitVec.ofNat_toNat]
  case quiet =>
    show BitVec.ofNat 64 (s.quiet s.part.core).toNat = 1
    have hfree : ((s.launchOf s.part.core).map (·.debugHalted)).getD false = false := by
      cases hlaunch : s.launchOf s.part.core with
      | none => rfl
      | some l => exact h l hlaunch
    rw [quiet_eq, hfree]
    rfl
  case landed =>
    show BitVec.ofNat 64 (s.quiet s.part.core).toNat = _
    rw [quiet_eq, hl, Option.map_some, Option.getD_some, hdebug, hhalt]
    rfl
  case seed =>
    show ((s.launchOf s.part.core).map (·.seed)).getD 0 = _
    rw [hl]
    rfl
  case frc =>
    show ((s.launchOf s.part.core).map fun l => BitVec.ofNat 64 (l.frame % 2 ^ 32 * 2 ^ 32 + l.tick % 2 ^ 32)).getD 0 = _
    rw [hl]
    rfl
  case pair =>
    show BitVec.ofNat 64 (((s.launchOf s.part.core).map (·.doubles)).getD false).toNat = _
    rw [hl]
    rfl
  case bcol =>
    show (if v.getLsbD 7 then { a with bcol := false } else a).bcol = _
    cases v.getLsbD 7 <;> simp
  case bank =>
    show Sparse.get 0 (a.writeSys (0x10 + n) v).bfmt m = _
    rw [writeSys_bank hn, Sparse.get_set w]

/-! ### Predicates as bits, stage predicates (R224) -/

theorem predBit_predSet (p : BitVec 16) {n m : Nat} (hn : n < 16) (b : Bool) :
    predBit (predSet p n b) m = if m = n ∧ n ≠ 0 then b else predBit p m := by
  have hshift : ∀ i, (BitVec.shiftLeft (1 : BitVec 16) n).getLsbD i = decide (i = n) := fun i => by
    show ((1#16) <<< n).getLsbD i = _
    rw [BitVec.getLsbD_shiftLeft, BitVec.getLsbD_one, Bool.eq_iff_iff]
    simp only [Bool.and_eq_true, decide_eq_true_eq, Bool.not_eq_true', decide_eq_false_iff_not]
    omega
  unfold predSet predBit
  generalize BitVec.shiftLeft (1 : BitVec 16) n = y at hshift ⊢
  by_cases hzero : n = 0
  · simp [hzero]
  · rw [if_neg hzero]
    by_cases hm : m = n
    · subst hm
      cases b <;> simp [hzero, hshift, BitVec.getLsbD_not, hn]
    · have hin : p.getLsbD m = (p.getLsbD m && decide (m < 16)) := by
        by_cases hlt : m < 16
        · simp [hlt]
        · simp [hlt, BitVec.getLsbD_of_ge p m (Nat.not_lt.mp hlt)]
      cases b
      · simp [hm, hshift, BitVec.getLsbD_not, ← hin]
      · simp [hm, hshift]

/-- The first `n` stage predicates set. -/
theorem predBit_foldl_predSet (p : BitVec 16) (f : Nat → Bool) {n m : Nat} (hn : n ≤ 4) :
    predBit ((List.range n).foldl (fun p j => predSet p (12 + j) (f j)) p) m =
      if 12 ≤ m ∧ m < 12 + n then f (m - 12) else predBit p m := by
  induction n with
  | zero => rw [if_neg (by omega)]; rfl
  | succ n ih =>
    rw [List.range_succ, List.foldl_append, List.foldl_cons, List.foldl_nil, predBit_predSet _ (by omega), ih (by omega)]
    by_cases hm : m = 12 + n
    · rw [if_pos ⟨hm, by omega⟩, if_pos (by omega), hm, Nat.add_sub_cancel_left]
    · rw [if_neg (fun h => hm h.1)]
      by_cases hstage : 12 ≤ m ∧ m < 12 + n
      · rw [if_pos hstage, if_pos (by omega)]
      · rw [if_neg hstage, if_neg (by omega)]

theorem predBit_stagePreds (l : Loop) (p : BitVec 16) (m : Nat) : predBit (l.stagePreds p) m =
    if 12 ≤ m ∧ m < 12 + 4 then decide (m - 12 < l.stages) && decide (m - 12 ≤ l.pass) && decide (l.pass - (m - 12) < l.limit)
    else predBit p m :=
  predBit_foldl_predSet p (fun j => decide (j < l.stages) && decide (j ≤ l.pass) && decide (l.pass - j < l.limit)) (Nat.le_refl 4)

/-! ### LOOPM, LBRK, HINT (R76, R223 to R225) -/

section Loops
variable {o : A3} {s : State} {t : W64} {a : Arch}

/-- The jump of LOOPM: into its loop, or past its body. -/
def loopmJump (o : A3) (s : State) (t : W64) : Jump :=
  if t = 0 then ⟨s.part.next, fld o.m 0 6 + 1, none, none, false, false, 0, none⟩
  else ⟨s.part.next, 0, none, some ⟨s.part.next, fld o.m 0 6 + 1, fld o.m 6 2 + 1, t.toNat, 0, 0⟩, true, true, 0, none⟩

theorem slotBody_loopm (hread : Reads1 s o.s1 t a) : slotBody (.loopm o) s = (s.withArch a).jump (loopmJump o s t) := by
  show bodyLoopm o s = _
  rw [bodyLoopm, State.readS_ok hread, Got.bind_ok, loopmJump]
  dsimp only [State.withArch_part]
  split <;> rfl

theorem go_loopmJump : a.go (loopmJump o s t) =
    { a with
      pc := s.part.next, till := none, rb := 0, ahead := [], turn := none
      skip := if t = 0 then fld o.m 0 6 + 1 else 0
      loop := if t = 0 then none else some ⟨s.part.next, fld o.m 0 6 + 1, fld o.m 6 2 + 1, t.toNat, 0, 0⟩
      loopOn := t != 0
      p := if t = 0 then a.p else Loop.stagePreds ⟨s.part.next, fld o.m 0 6 + 1, fld o.m 6 2 + 1, t.toNat, 0, 0⟩ a.p } := by
  unfold loopmJump
  by_cases ht : t = 0
  · simp only [if_pos ht, Arch.go]
    simp [ht]
  · simp only [if_neg ht, Arch.go, bne_iff_ne.mpr ht]

theorem exec_loopm (w : CoresWf s) (hruns : Runs (.loopm o) s) (hread : Reads1 s o.s1 t a) (hred : s.part.redirected = false)
    (hdec : s.part.undecided = false) :
    ∃ u, exec (.loopm o) s = .next u ∧ OnlyCore s u { s.mine with arch := a.go (loopmJump o s t) } := by
  have hlink : s.part.linkTo (loopmJump o s t).link a = .ok a := by unfold loopmJump; split <;> rfl
  obtain ⟨u, hjump, -, hu⟩ := jump_taken (State.withArch_wf w a) (onlyCore_withArch w a) rfl hred hdec hlink
  exact ⟨u, exec_ok hruns ((slotBody_loopm hread).trans hjump), hu⟩

theorem exec_lbrk_now {l : Loop} (w : CoresWf s) (hruns : Runs (.lbrk o) s) (hloop : s.part.loop = some l) (hnow : fld o.m 0 1 = 1)
    (hred : s.part.redirected = false) (hdec : s.part.undecided = false) :
    ∃ u, exec (.lbrk o) s = .next u ∧ OnlyCore s u
      { s.mine with arch := (arch s).go ⟨s.part.next, l.ii - 1 - l.pos, none, none, false, false, s.part.rb, none⟩ } := by
  have hbody : slotBody (.lbrk o) s = s.jump ⟨s.part.next, l.ii - 1 - l.pos, none, none, false, false, s.part.rb, none⟩ := by
    show bodyLbrk o s = _
    rw [bodyLbrk, hloop]
    exact if_pos hnow
  obtain ⟨u, hjump, -, hu⟩ := jump_taken (j := ⟨s.part.next, l.ii - 1 - l.pos, none, none, false, false, s.part.rb, none⟩) w
    (OnlyCore.refl s) rfl hred hdec rfl
  exact ⟨u, exec_ok hruns (hbody.trans hjump), hu⟩

theorem exec_lbrk_limit {l : Loop} (w : CoresWf s) (hruns : Runs (.lbrk o) s) (hloop : s.part.loop = some l) (hform : fld o.m 0 1 = 0) :
    ∃ u, exec (.lbrk o) s = .next u ∧ OnlyCore s u { s.mine with arch := (arch s).lowerLimit l.pass s.part.next } := by
  refine ⟨s.setCore s.part.core { s.mine with arch := (arch s).lowerLimit l.pass s.part.next },
    exec_ok hruns (show bodyLbrk o s = _ from ?_), onlyCore_setCore w⟩
  rw [bodyLbrk, hloop]
  exact if_neg (by omega)

/-- The limit of a loop comes down to the pass in which LBRK stands (R225); the loop goes on while a pass is owed. -/
theorem lowerLimit_goesOn {m : Loop} {k : Nat} {fall : W64} (hloop : a.loop = some m)
    (h : m.pos ≠ 0 ∨ m.pass < min m.limit (k + 1) + m.stages - 1) : a.lowerLimit k fall =
      { a with
        loop := some { m with limit := min m.limit (k + 1) }
        turn := a.turn.map fun n => { n with limit := min n.limit (k + 1) } } := by
  unfold Arch.lowerLimit
  rw [hloop]
  refine if_neg ?_
  simp only [Loop.passes, not_and]
  omega

theorem lowerLimit_ends {m : Loop} {k : Nat} {fall : W64} (hloop : a.loop = some m)
    (h : m.pos = 0 ∧ min m.limit (k + 1) + m.stages - 1 ≤ m.pass) : a.lowerLimit k fall =
      { a with loop := none, pc := fall, turn := a.turn.map fun n => { n with limit := min n.limit (k + 1) } } := by
  unfold Arch.lowerLimit
  rw [hloop]
  exact if_pos h

/-- The end of a pass (R224). -/
theorem turned_some {n : Loop} (h : a.turn = some n) : a.turned =
    if n.pass + 1 < n.passes then
      { a with rb := (a.rb + 15) % 16, turn := none, p := { n with pass := n.pass + 1 }.stagePreds a.p }
    else { a with rb := (a.rb + 15) % 16, turn := none, loopOn := false } := by
  unfold Arch.turned
  rw [h]

end Loops

/-- Settles O25: LOOPM, the two forms of LBRK, the end of a pass, HINT. -/
theorem loopControl : Obligations.LoopControl := by
  unfold Obligations.LoopControl
  refine ⟨fun o s t a w hruns hread hred hdec => ?loopm, fun o s l w hruns hloop hnow hred hdec => ?now,
    fun o s l m w hruns hloop hform hm => ?limit, fun a n hturn => ?turned,
    fun n o s hruns => exec_ok hruns (show bodyHint n o s = _ from rfl)⟩
  case loopm =>
    rw [← go_loopmJump]
    exact exec_loopm w hruns hread hred hdec
  case now =>
    obtain ⟨u, hexec, hu⟩ := exec_lbrk_now w hruns hloop hnow hred hdec
    rw [Arch.go_of_not_starts _ rfl] at hu
    exact ⟨u, hexec, hu⟩
  case limit =>
    obtain ⟨u, hexec, hu⟩ := exec_lbrk_limit w hruns hloop hform
    exact ⟨u, hexec, _, hu, lowerLimit_goesOn hm, lowerLimit_ends hm⟩
  case turned =>
    rw [turned_some hturn]
    refine ⟨?_, fun j hj hpass => ?_, fun hpass => ?_⟩
    · split <;> rfl
    · rw [if_pos (show n.pass + 1 < n.passes from hpass), predBit_stagePreds, if_pos (by omega), Nat.add_sub_cancel_left]
    · rw [if_neg (show ¬ n.pass + 1 < n.passes from Nat.not_lt.mpr hpass)]
      exact ⟨rfl, rfl⟩

end Sys2Proof.Machine

/-! Proofs for spec/07 (conditional streams): R163 to R165. -/

namespace Sys2Proof.Machine

open Safety

/-! ### The launch of a core, choices that nothing logs or forces (R371, R374) -/

section Launches
variable {s : State} {c : Nat} {l : Launch}

theorem launch?_id {id : Nat} (h : s.launch? id = some l) : l.id = id := by
  have hbeq : (l.id == id) = true := List.find?_some (p := fun m : Launch => m.id == id) h
  exact beq_iff_eq.mp hbeq

theorem launch?_of_launchOf (h : s.launchOf c = some l) : s.launch? l.id = some l := by
  obtain ⟨id, -, hl⟩ := Option.bind_eq_some_iff.mp h
  rwa [launch?_id hl]

theorem launchOf_withArch (w : CoresWf s) (a : Arch) : (s.withArch a).launchOf s.part.core = s.launchOf s.part.core := by
  unfold State.launchOf
  rw [State.withArch_core w]
  rfl

theorem recorded_withArch (w : CoresWf s) (a : Arch) : (s.withArch a).recorded? = s.recorded? := by
  have hmine : (s.withArch a).mine = { s.mine with arch := a } := State.withArch_core w a
  unfold State.recorded?
  rw [hmine]
  rfl

/-- A launch that neither records nor replays leaves the choice free. -/
theorem choose_free {id kind tgt src aux : Nat} {auxFixed : Bool} (hl : s.launch? id = some l) (hrecord : l.record = false)
    (hreplay : l.replay = false) : s.choose id kind tgt src aux auxFixed = .made s := by
  unfold State.choose
  simp only [hl, hrecord, hreplay, Bool.false_eq_true, if_false, Bool.not_false, if_true]

theorem chooseGot_free {id kind tgt src aux : Nat} {auxFixed : Bool} {go : State → Got State} (hl : s.launch? id = some l)
    (hrecord : l.record = false) (hreplay : l.replay = false) : s.chooseGot id kind tgt src aux auxFixed go = go s := by
  unfold State.chooseGot
  rw [choose_free hl hrecord hreplay]

end Launches

/-! ### SWR (R163) -/

section Streams
variable {o : A3} {s : State} {x : VReg} {a : Arch} {l : Launch}

/-- The active elements of a vector, ascending (R163). -/
theorem runOf_eq (x : VReg) (mask : KReg) :
    runOf x mask = ((List.range 256).filter fun j => maskBit mask j).map (fun j => BitVec.ofNat 32 (elem x.toNat 32 j)) := by
  unfold runOf
  induction List.range 256 with
  | nil => rfl
  | cons j js ih => by_cases hj : maskBit mask j = true <;> simp [hj, ih]

/-- What SWR does once it has read S1. -/
theorem slotBody_swr (w : CoresWf s) (hread : ReadsV1 s 32 o.s1 x a) (hrec : s.recorded? = none)
    (hl : s.launchOf s.part.core = some l) (hrecord : l.record = false) (hreplay : l.replay = false) :
    slotBody (.swr o) s =
      if (runOf x ((arch s).maskOf o.m)).isEmpty then .ok (s.withArch a)
      else if streamDepth < (l.stream (streamKey s.part.core o.m)).length + (runOf x ((arch s).maskOf o.m)).length then .stall
      else .ok (((s.withArch a).setStream l.id (streamKey s.part.core o.m)
        (l.stream (streamKey s.part.core o.m) ++ runOf x ((arch s).maskOf o.m))).onCore s.part.core fun k =>
          (s.withArch a).keepValue k none) := by
  have hmask : s.mine.arch = arch s := rfl
  have hlaunch : (s.withArch a).launch? l.id = some l := launch?_of_launchOf (s := s) hl
  unfold ReadsV1 at hread
  show bodySwr o s = _
  rw [bodySwr, hmask, hread]
  simp only [Got.bind_ok, recorded_withArch w, hrec, launchOf_withArch w, hl, Option.isSome_none, Bool.or_false,
    chooseGot_free hlaunch hrecord hreplay]

/-- The records that SWR appends. -/
theorem setStream_launches (s : State) (id key : Nat) (r : List W32) : (s.setStream id key r).launches =
    s.launches.map fun m => if m.id = id then { m with streams := Sparse.set [] m.streams key r } else m := rfl

theorem exec_swr_full (w : CoresWf s) (hruns : Runs (.swr o) s) (hread : ReadsV1 s 32 o.s1 x a) (hrec : s.recorded? = none)
    (hl : s.launchOf s.part.core = some l) (hrecord : l.record = false) (hreplay : l.replay = false)
    (hne : runOf x ((arch s).maskOf o.m) ≠ [])
    (hfull : 4096 < (l.stream (streamKey s.part.core o.m)).length + (runOf x ((arch s).maskOf o.m)).length) :
    exec (.swr o) s = .next s.withdraw := by
  refine exec_stall hruns ?_
  rw [slotBody_swr w hread hrec hl hrecord hreplay, if_neg (by simpa using hne)]
  exact if_pos hfull

theorem exec_swr_room (w : CoresWf s) (hruns : Runs (.swr o) s) (hread : ReadsV1 s 32 o.s1 x a) (hrec : s.recorded? = none)
    (hl : s.launchOf s.part.core = some l) (hrecord : l.record = false) (hreplay : l.replay = false)
    (hne : runOf x ((arch s).maskOf o.m) ≠ [])
    (hroom : (l.stream (streamKey s.part.core o.m)).length + (runOf x ((arch s).maskOf o.m)).length ≤ 4096) :
    ∃ t, exec (.swr o) s = .next t ∧
      t.launches = s.launches.map (fun m => if m.id = l.id then
        { m with streams := Sparse.set [] m.streams (streamKey s.part.core o.m) <|
            l.stream (streamKey s.part.core o.m) ++ runOf x ((arch s).maskOf o.m) } else m) ∧
      (t.core s.part.core).arch = a := by
  have hwf : CoresWf ((s.withArch a).setStream l.id (streamKey s.part.core o.m)
      (l.stream (streamKey s.part.core o.m) ++ runOf x ((arch s).maskOf o.m))) := State.withArch_wf w a
  refine ⟨((s.withArch a).setStream l.id (streamKey s.part.core o.m)
      (l.stream (streamKey s.part.core o.m) ++ runOf x ((arch s).maskOf o.m))).onCore s.part.core fun k =>
        (s.withArch a).keepValue k none, exec_ok hruns ?_, setStream_launches (s.withArch a) _ _ _, ?_⟩
  · rw [slotBody_swr w hread hrec hl hrecord hreplay, if_neg (by simpa using hne)]
    exact if_neg (Nat.not_lt.mpr hroom)
  · rw [State.core_onCore hwf, if_pos rfl]
    exact congrArg Core.arch (State.withArch_core w a)

theorem exec_swr_empty (w : CoresWf s) (hruns : Runs (.swr o) s) (hread : ReadsV1 s 32 o.s1 x a) (hrec : s.recorded? = none)
    (hl : s.launchOf s.part.core = some l) (hrecord : l.record = false) (hreplay : l.replay = false)
    (hempty : runOf x ((arch s).maskOf o.m) = []) : exec (.swr o) s = .next (s.withArch a) := by
  refine exec_ok hruns ?_
  rw [slotBody_swr w hread hrec hl hrecord hreplay, hempty]
  rfl

/-! ### SRD and SCNT (R164) -/

/-- The vector of the `n` oldest records, 0 behind them. -/
theorem eq_vecOfRecords {old : List W32} {n : Nat} {r : VReg}
    (hr : ∀ j, j < 256 → elem r.toNat 32 j = if j < n then ((old[j]?).getD 0).toNat else 0) : r = vecOfRecords (old.take n) := by
  refine eq_vecOf (w := 32) (by decide) fun j hj => ?_
  rw [hr j hj, List.getElem?_take]
  by_cases hlt : j < n
  · rw [if_pos hlt, if_pos hlt, Nat.mod_eq_of_lt (BitVec.isLt _)]
  · rw [if_neg hlt, if_neg hlt]
    rfl

/-- The state in which SRD has removed its records and kept them for a rewind. -/
def srdTaken (o : A3) (s : State) (l : Launch) (n : Nat) (r : VReg) : State :=
  (s.setStream l.id (streamKey s.part.core o.m) ((l.stream (streamKey s.part.core o.m)).drop n)).onCore s.part.core fun k =>
    k.keep ⟨s.part.bundle, s.part.slot, none, false, [(0, r)], none⟩

theorem slotBody_srd (hrec : s.recorded? = none) (hl : s.launchOf s.part.core = some l) (hrecord : l.record = false)
    (hreplay : l.replay = false) : slotBody (.srd o) s =
      if fld o.m 12 1 = 0 ∧ (l.stream (streamKey s.part.core o.m)).length < 256 then .stall
      else
        let n := min (l.stream (streamKey s.part.core o.m)).length 256
        let r := vecOfRecords ((l.stream (streamKey s.part.core o.m)).take n)
        (s.part.dstV o.d.toNat r 3 0 ((srdTaken o s l n r).core s.part.core).arch).map fun a =>
          (srdTaken o s l n r).onArch s.part.core fun _ => a := by
  show bodySrd o s = _
  unfold bodySrd
  simp only [hrec, hl, chooseGot_free (launch?_of_launchOf hl) hrecord hreplay]
  rfl

theorem srdTaken_core (w : CoresWf s) (n : Nat) (r : VReg) : (srdTaken o s l n r).core s.part.core =
    s.mine.keep ⟨s.part.bundle, s.part.slot, none, false, [(0, r)], none⟩ := by
  have hwf : CoresWf (s.setStream l.id (streamKey s.part.core o.m) ((l.stream (streamKey s.part.core o.m)).drop n)) := w
  unfold srdTaken
  rw [State.core_onCore hwf, if_pos rfl]
  rfl

theorem exec_srd {r : VReg} {b : Arch} {n : Nat} (w : CoresWf s) (hruns : Runs (.srd o) s) (hrec : s.recorded? = none)
    (hl : s.launchOf s.part.core = some l) (hrecord : l.record = false) (hreplay : l.replay = false)
    (hn : n = min (l.stream (streamKey s.part.core o.m)).length 256)
    (hr : r = vecOfRecords ((l.stream (streamKey s.part.core o.m)).take n))
    (hready : ¬ (fld o.m 12 1 = 0 ∧ (l.stream (streamKey s.part.core o.m)).length < 256))
    (hdst : s.part.dstV o.d.toNat r 3 0 (arch s) = .ok b) :
    ∃ t, exec (.srd o) s = .next t ∧ (t.core s.part.core).arch = b ∧
      t.launches = s.launches.map fun m => if m.id = l.id then
        { m with streams := Sparse.set [] m.streams (streamKey s.part.core o.m) ((l.stream (streamKey s.part.core o.m)).drop n) }
        else m := by
  have hwf : CoresWf (srdTaken o s l n r) := State.setCore_coresWf (s := s.setStream l.id _ _) w
  have hsent : s.part.dstV o.d.toNat r 3 0 ((srdTaken o s l n r).core s.part.core).arch = .ok b := by
    rw [srdTaken_core w]
    exact hdst
  refine ⟨(srdTaken o s l n r).onArch s.part.core fun _ => b, exec_ok hruns ?_, ?_, rfl⟩
  · rw [slotBody_srd hrec hl hrecord hreplay, if_neg hready]
    dsimp only
    rw [← hn, ← hr, hsent, Got.map_ok]
  · rw [State.core_onArch hwf, if_pos rfl]

theorem exec_scnt {b : Arch} (hruns : Runs (.scnt o) s) (hl : s.launchOf s.part.core = some l)
    (hdst : s.part.dstV o.d.toNat (BitVec.ofNat 8192 (l.stream (streamKey s.part.core o.m)).length) 2 0 (arch s) = .ok b) :
    exec (.scnt o) s = .next (s.withArch b) := by
  have hmine : s.mine.arch = arch s := rfl
  refine exec_ok hruns (show bodyScnt o s = _ from ?_)
  simp only [bodyScnt, hl, Option.map_some, Option.getD_some, hmine, hdst, Got.map_ok]

end Streams

/-- Settles O26: SWR, SRD and SCNT on the records of their stream. -/
theorem conditionalStreams : Obligations.ConditionalStreams := by
  unfold Obligations.ConditionalStreams
  refine ⟨fun o s x a l run w hruns hread hrec hl hrecord hreplay hrun => ?swr,
    fun o s l old n r b w hruns hrec hl hrecord hreplay hold hn hr => ⟨fun hwait => ?wait, fun hready hdst => ?srd⟩,
    fun o s l b => exec_scnt⟩
  case swr =>
    rw [← runOf_eq] at hrun
    subst hrun
    exact ⟨fun hfull hne => exec_swr_full w hruns hread hrec hl hrecord hreplay hne hfull,
      fun hroom hne => exec_swr_room w hruns hread hrec hl hrecord hreplay hne hroom, exec_swr_empty w hruns hread hrec hl hrecord hreplay⟩
  case wait =>
    subst hold
    exact exec_stall hruns ((slotBody_srd hrec hl hrecord hreplay).trans (if_pos hwait))
  case srd =>
    subst hold
    exact exec_srd w hruns hrec hl hrecord hreplay hn (eq_vecOfRecords hr) hready hdst

end Sys2Proof.Machine

/-! Proofs for spec/09 (memory slots): loads and stores of the scratchpad and off core (R188, R192 to R202). -/

namespace Sys2Proof.Machine

open Safety

/-! ### Attempts that succeed -/

theorem Got.bind_eq_ok {α β : Type} {x : Got α} {f : α → Got β} {b : β} : x.bind f = .ok b ↔ ∃ a, x = .ok a ∧ f a = .ok b := by
  cases x <;> simp [Got.bind]

theorem Got.map_eq_ok {α β : Type} {x : Got α} {f : α → β} {b : β} : x.map f = .ok b ↔ ∃ a, x = .ok a ∧ f a = b := by
  cases x <;> simp [Got.map, Got.bind]

/-! ### Addresses and their checks (R192, R194, R200) -/

theorem scalarEa_eq (o : A3) (b x : W64) : scalarEa b x o.m = scalarAddr o b x := by
  unfold scalarEa scalarAddr
  have hsigned : toInt 7 true (fld o.m 0 7) = ((fld o.m 0 7 : Nat) : Int).bmod (2 ^ 7) := by
    have hlt : fld o.m 0 7 < 2 ^ 7 := fld_lt o.m 0 7
    unfold toInt
    rw [Int.bmod_def]
    simp only [true_and, Nat.reduceSub, Nat.reducePow, Int.reducePow] at hlt ⊢
    split <;> split <;> omega
  rw [hsigned, BitVec.ofInt_add, BitVec.ofInt_add, BitVec.ofInt_natCast, BitVec.ofInt_natCast, BitVec.ofNat_toNat, BitVec.ofNat_toNat,
    BitVec.setWidth_eq, BitVec.setWidth_eq]

theorem scratchOk_iff (a : W64) (n : Nat) : scratchOk a n = true ↔ a.toNat % n = 0 ∧ a.toNat + n ≤ 2097152 := by
  simp only [scratchOk, Bool.and_eq_true, beq_iff_eq, decide_eq_true_eq]
  exact Iff.rfl

theorem lookupAll_ok {t : Sparse TEntry} {need : Need} {l : List Nat} (h : ∀ a ∈ l, lookup t need a ≠ .stray) :
    lookupAll t need l = .ok () := by
  have hfind : l.find? (fun a => lookup t need a == .stray) = none :=
    List.find?_eq_none.mpr fun a ha => by simpa using h a ha
  unfold lookupAll
  rw [hfind]

/-! ### What a memory slot leaves in its core -/

section Pending
variable {s t : State} {k : Core} {kind : AccKind} {w : WriteKind} {ch : Nat} {released : Bool}

/-- A place in program order can be given before or after newer writes supersede older ones. -/
theorem supersede_accSeq (a : Arch) (n : Nat) (f : Option (RFile × Nat)) :
    ({ a with accSeq := n } : Arch).supersede f = { a.supersede f with accSeq := n } := by
  unfold Arch.supersede
  split <;> rfl

theorem supersede_keeps_accSeq (a : Arch) (f : Option (RFile × Nat)) : (a.supersede f).accSeq = a.accSeq := by
  unfold Arch.supersede
  split <;> rfl

theorem access_nextSeq : k.nextSeq.2.access s.part kind k.nextSeq.1 released = accessPending s k kind released := by
  unfold Core.nextSeq Core.access accessPending
  simp only [supersede_accSeq, supersede_keeps_accSeq]

theorem offLoad_eq {okind : OffKind} {acq rel : Bool} {d : Dest} {old : Option Recorded} :
    k.offLoad s.part okind ch acq rel d old = requestSent s k okind ch acq rel d old := by
  unfold Core.offLoad Core.nextSeq Core.nextId requestSent
  simp only [supersede_accSeq, supersede_keeps_accSeq]

theorem fits_iff (k : Core) : k.fits = true ↔ k.side.length ≤ 256 := decide_eq_true_iff

/-- A write with release ordering is kept in the commit buffer only after the others; without, it goes there. -/
theorem write_held (hrec : s.recorded? = none) : s.write k w ch false = .ok (writeHeld s k w ch) := by
  unfold State.write
  rw [hrec]
  rfl

theorem write_sent (hrec : s.recorded? = none) (hroom : (writeSent s k w ch).side.length ≤ 256) :
    s.write k w ch true = .ok (writeSent s k w ch) := by
  unfold State.write
  rw [hrec]
  exact if_pos ((fits_iff _).mpr hroom)

theorem write_full (hrec : s.recorded? = none) (hfull : 256 < (writeSent s k w ch).side.length) :
    s.write k w ch true = .stall := by
  unfold State.write
  rw [hrec]
  exact if_neg fun h => Nat.not_le.mpr hfull ((fits_iff _).mp h)

theorem allPerformed_iff (k : Core) : k.allPerformed = true ↔ k.offs = [] ∧ k.out = [] ∧ ∀ w ∈ k.side, w.own = false := by
  simp [Core.allPerformed, and_assoc]

theorem fillAccess_pends (hfree : s.writesFree = true) : s.fillAccess k kind false = .ok (s.putMine (accessPending s k kind false)) := by
  rw [← access_nextSeq]
  unfold State.fillAccess
  rw [hfree]
  rfl

theorem fillAccess_released (hfree : s.writesFree = true) (hrec : s.recorded? = none) (hperformed : s.part.before.allPerformed = true) :
    s.fillAccess k kind true = .ok (s.putMine (kept s (accessPending s k kind true) none)) := by
  rw [← access_nextSeq]
  unfold State.fillAccess
  rw [hfree, hrec, hperformed]
  rfl

theorem fillAccess_waits (hfree : s.writesFree = true) (hrec : s.recorded? = none) (hperformed : s.part.before.allPerformed = false) :
    s.fillAccess k kind true = .stall := by
  unfold State.fillAccess
  rw [hfree, hrec, hperformed]
  rfl

/-- Does a write of the bundle's other slot leave the commit buffer with an access of these ranges (R197)? -/
def State.leavesWith (s : State) (ch : Nat) (ranges : List (Nat × Nat)) (load : Bool) (w : Write) : Bool :=
  decide (s.part.before.arch.accSeq ≤ w.seq) &&
    ((w.ch == ch && !load) || ((!load || w.kind.isRed) && ranges.any fun r => w.kind.touches r.1 r.2))

theorem flushBundle_eq (s : State) (k : Core) (ch : Nat) (ranges : List (Nat × Nat)) (load : Bool) : s.flushBundle k ch ranges load =
    (k.seg.commit.filter (s.leavesWith ch ranges load)).foldl
      (fun k w => ((k.release w).keep ⟨s.part.bundle, slotMem0, none, false, [], none⟩).gate s.part.bundle slotMem0 w.seq)
      { k with seg := { k.seg with commit := k.seg.commit.filter (!s.leavesWith ch ranges load ·) } } := rfl

/-- Nothing of the bundle's other slot is in the commit buffer: nothing leaves with an access (R197). -/
theorem flushBundle_none {ranges : List (Nat × Nat)} {load : Bool} (h : ∀ w ∈ k.seg.commit, w.seq < s.part.before.arch.accSeq) :
    s.flushBundle k ch ranges load = k := by
  have hmiss : ∀ w ∈ k.seg.commit, s.leavesWith ch ranges load w = false := fun w hw => by
    rw [State.leavesWith, decide_eq_false (Nat.not_le.mpr (h w hw)), Bool.false_and]
  have hnone : k.seg.commit.filter (s.leavesWith ch ranges load) = [] := List.filter_eq_nil_iff.mpr fun w hw => by simp [hmiss w hw]
  have hall : k.seg.commit.filter (!s.leavesWith ch ranges load ·) = k.seg.commit :=
    List.filter_eq_self.mpr fun w hw => by simp [hmiss w hw]
  rw [flushBundle_eq, hnone, hall]
  rfl

end Pending

/-! ### The element addresses of a vector access (R200) -/

section VectorAddresses
variable {i : Instr} {o : A3} {s : State} {c : Bool} {base : W64} {addrs : List W64} {j k : Core}

theorem vpops_length {q : VQ} {n : Nat} {l : List VReg} (h : j.vpops q n = .ok (l, k)) : l.length = n := by
  induction n generalizing j l with
  | zero =>
    cases h
    rfl
  | succ n ih =>
    obtain ⟨r, -, hrest⟩ := Got.bind_eq_ok.mp (show (j.arch.vpop q).bind _ = _ from h)
    obtain ⟨t, ht, hl⟩ := Got.map_eq_ok.mp hrest
    cases hl
    exact congrArg Nat.succ (ih ht)

/-- The indices of index vectors one behind the other. -/
theorem getElem?_indices (l : List VReg) (n : Nat) (hn : n < 256 * l.length) :
    (l.flatMap fun x => (List.range 256).map (elem x.toNat 32))[n]? = some (elem ((l[n / 256]?).getD 0).toNat 32 (n % 256)) := by
  induction l generalizing n with
  | nil => simp at hn
  | cons x l ih =>
    rw [List.flatMap_cons]
    by_cases hfirst : n < 256
    · rw [List.getElem?_append_left (by simpa using hfirst), Nat.div_eq_of_lt hfirst, Nat.mod_eq_of_lt hfirst]
      simp [hfirst]
    · obtain ⟨m, rfl⟩ := Nat.exists_eq_add_of_le (Nat.not_lt.mp hfirst)
      have hm : m < 256 * l.length := by rw [List.length_cons] at hn; omega
      rw [List.getElem?_append_right (by simp), List.length_map, List.length_range, Nat.add_sub_cancel_left, ih m hm]
      have hdiv : (256 + m) / 256 = m / 256 + 1 := by omega
      have hmod : (256 + m) % 256 = m % 256 := by omega
      rw [hdiv, hmod, List.getElem?_cons_succ]

theorem indexed_eq (b : W64) (w c : Nat) (l : List VReg) (hc : c ≤ 256 * l.length) : indexed b w (indicesOf l c) =
    (List.range c).map fun n => b + BitVec.ofNat 64 (elem ((l[n / 256]?).getD 0).toNat 32 (n % 256) * w) := by
  unfold indexed indicesOf
  refine List.ext_getElem? fun n => ?_
  rw [List.getElem?_map, List.getElem?_take, List.getElem?_map]
  by_cases hn : n < c
  · rw [if_pos hn, getElem?_indices l n (by omega), List.getElem?_range hn]
    rfl
  · rw [if_neg hn, List.getElem?_eq_none (by simpa using Nat.not_lt.mp hn)]
    rfl

theorem strided_width (b : W64) (w c : Nat) :
    strided b (BitVec.ofNat 64 w) c = (List.range c).map fun n => b + BitVec.ofNat 64 (n * w) :=
  List.map_congr_left fun n _ => by rw [BitVec.ofNat_mul]

theorem strided_step (b x : W64) (c : Nat) : strided b x c = (List.range c).map fun n => b + BitVec.ofNat 64 (n * x.toNat) := by
  rw [← strided_width, BitVec.ofNat_toNat, BitVec.setWidth_eq]

/-- The index vectors that an access pops hold an index for each element. -/
theorem memCount_le (o : A3) {l : List VReg} (hlen : l.length = (memCount o + 255) / 256) : memCount o ≤ 256 * l.length := by omega

theorem slotBody_vecLoad (hi : i = .vld o ∨ i = .vlds o ∨ i = .vldx o) (haddrs : VecAddrs i s o c base addrs k) :
    slotBody i s = loadVector o base c addrs k s := by
  obtain rfl | rfl | rfl := hi
  · obtain ⟨-, rfl, b, x, ⟨j, hb, hx⟩, rfl, rfl⟩ := haddrs
    unfold ReadsA1 at hb
    show bodyVld o s = _
    simp only [bodyVld, hb, hx, Got.bind_ok, strided_width]
    rfl
  · obtain ⟨-, rfl, x, ⟨j, hb, hx⟩, rfl⟩ := haddrs
    unfold ReadsA1 at hb
    show bodyVlds o s = _
    simp only [bodyVlds, hb, hx, Got.bind_ok, strided_step]
    rfl
  · obtain ⟨-, rfl, j, l, hb, hpops, rfl⟩ := haddrs
    unfold ReadsA1 at hb
    have hpops' : j.vpops (vqOf o.s2.toNat) (indexPops o.m) = .ok (l, k) := hpops
    show bodyVldx o s = _
    simp only [bodyVldx, hb, hpops', Got.bind_ok]
    rw [indexed_eq _ _ (accCount o.m) l (memCount_le o (vpops_length hpops))]
    rfl

theorem slotBody_vecStore {x : VReg} {a : Arch} (hi : i = .vst o ∨ i = .vsts o ∨ i = .vstx o) (haddrs : VecAddrs i s o c base addrs j)
    (hpop : j.arch.vpop (vqOf o.s3.toNat) = .ok (x, a)) : slotBody i s = storeVector o base c addrs x { j with arch := a } s := by
  obtain rfl | rfl | rfl := hi
  · obtain ⟨-, rfl, b, x, ⟨j', hb, hx⟩, rfl, rfl⟩ := haddrs
    unfold ReadsA1 at hb
    show bodyVst o s = _
    simp only [bodyVst, hb, hx, hpop, Got.bind_ok, strided_width]
    rfl
  · obtain ⟨-, rfl, x, ⟨j', hb, hx⟩, rfl⟩ := haddrs
    unfold ReadsA1 at hb
    show bodyVsts o s = _
    simp only [bodyVsts, hb, hx, hpop, Got.bind_ok, strided_step]
    rfl
  · obtain ⟨-, rfl, j', l, hb, hpops, rfl⟩ := haddrs
    unfold ReadsA1 at hb
    have hpops' : j'.vpops (vqOf o.s2.toNat) (indexPops o.m) = .ok (l, j) := hpops
    show bodyVstx o s = _
    simp only [bodyVstx, hb, hpops', hpop, Got.bind_ok]
    rw [indexed_eq _ _ (accCount o.m) l (memCount_le o (vpops_length hpops))]
    rfl

/-- Taking an entry out of a vector queue, or reserving one, leaves the bank formats. -/
theorem vpop_bfmt {a b : Arch} {q : VQ} {x : VReg} (h : a.vpop q = .ok (x, b)) : b.bfmt = a.bfmt := by
  unfold Arch.vpop at h
  split at h
  · cases h
  · split at h
    · cases h
    · split at h <;> cases h
      rfl

theorem destVQ_bfmt {n : Nat} {d : Dest} (h : j.destVQ n = .ok (d, k)) : k.arch.bfmt = j.arch.bfmt := by
  unfold Core.destVQ Arch.vreserve at h
  split at h <;> cases h
  rfl

end VectorAddresses

end Sys2Proof.Machine

/-! Proofs for spec/09: what scalar and vector loads and stores, fills, FESET and FETST leave at issue (R188, R192 to R202). -/

namespace Sys2Proof.Machine

open Safety

/-! ### Scalar loads (R193, R194, R199) -/

section ScalarLoads
variable {o : A3} {s : State} {acq : Bool} {b x : W64} {k k' : Core} {d : Dest}

theorem slotBody_scalarLoad {i : Instr} (hi : i = .ld o ∧ acq = false ∨ i = .ldacq o ∧ acq = true) :
    slotBody i s = loadScalar acq o s := by
  obtain ⟨rfl, rfl⟩ | ⟨rfl, rfl⟩ := hi <;> rfl

theorem loadScalar_scratch_trap (hreads : ReadsA2 s o.s1 o.s2 b x k) (hspm : fld o.m 16 1 = 0)
    (hbad : ¬ ((scalarAddr o b x).toNat % scalarSize o = 0 ∧ (scalarAddr o b x).toNat + scalarSize o ≤ 2097152)) :
    loadScalar acq o s = .trap 6 (scalarAddr o b x) := by
  obtain ⟨j, hb, hx⟩ := hreads
  unfold ReadsA1 at hb
  have hok : scratchOk (scalarAddr o b x) (2 ^ fld o.m 12 2) = false :=
    Bool.eq_false_iff.mpr fun h => hbad ((scratchOk_iff _ _).mp h)
  simp only [loadScalar, hb, hx, Got.bind_ok, scalarEa_eq, if_pos hspm, hok, Bool.not_false, if_true]
  rfl

theorem loadScalar_scratch (hreads : ReadsA2 s o.s1 o.s2 b x k) (hspm : fld o.m 16 1 = 0)
    (hgood : (scalarAddr o b x).toNat % scalarSize o = 0 ∧ (scalarAddr o b x).toNat + scalarSize o ≤ 2097152)
    (hfree : s.loadsFree = true) (hdest : k.dest o.d.toNat = .ok (d, k')) :
    loadScalar acq o s = .ok (s.putMine
      (let p := accessPending s k' (.ld (scalarAddr o b x).toNat (fld o.m 12 2) (fld o.m 11 1 == 1) (fld o.m 10 1 == 1) d) false
       if acq then { p with arch := { p.arch with fences := p.arch.fences ++ [⟨k'.arch.accSeq + 1, true, false, false, false⟩] } }
       else p)) := by
  obtain ⟨j, hb, hx⟩ := hreads
  unfold ReadsA1 at hb
  have hok : scratchOk (scalarAddr o b x) (2 ^ fld o.m 12 2) = true := (scratchOk_iff _ _).mpr hgood
  simp only [loadScalar, hb, hx, Got.bind_ok, scalarEa_eq, if_pos hspm, hok, hfree, Bool.not_true, Bool.false_eq_true, if_false, hdest,
    Got.map_ok, ← access_nextSeq]
  rfl

theorem loadScalar_misaligned (hreads : ReadsA2 s o.s1 o.s2 b x k) (hoff : fld o.m 16 1 = 1)
    (hbad : (scalarAddr o b x).toNat % scalarSize o ≠ 0) : loadScalar acq o s = .trap 6 (scalarAddr o b x) := by
  obtain ⟨j, hb, hx⟩ := hreads
  unfold ReadsA1 at hb
  simp only [loadScalar, hb, hx, Got.bind_ok, scalarEa_eq]
  rw [if_neg (by omega)]
  exact if_pos hbad

/-- An off-core load whose checks pass, up to the room in the side log. -/
theorem loadScalar_offCore (hreads : ReadsA2 s o.s1 o.s2 b x k) (hoff : fld o.m 16 1 = 1)
    (hgood : (scalarAddr o b x).toNat % scalarSize o = 0) (hmap : lookup k.table .read (scalarAddr o b x).toNat ≠ .stray)
    (hfree : s.loadsFree = true) (hdest : k.dest o.d.toNat = .ok (d, k')) : loadScalar acq o s =
      let f := s.flushBundle k' (fld o.m 14 2) [((scalarAddr o b x).toNat, scalarSize o)] true
      if f.fits then .ok (s.putMine (requestSent s f (.ld (scalarAddr o b x).toNat (fld o.m 12 2) (fld o.m 11 1 == 1)) (fld o.m 14 2)
        acq false d none)) else .stall := by
  obtain ⟨j, hb, hx⟩ := hreads
  unfold ReadsA1 at hb
  have hlook : lookupAll k.table .read [(scalarAddr o b x).toNat] = .ok () := lookupAll_ok (by simpa using hmap)
  have haligned : ¬ (scalarAddr o b x).toNat % 2 ^ fld o.m 12 2 ≠ 0 := not_not_intro hgood
  simp only [loadScalar, hb, hx, Got.bind_ok, scalarEa_eq]
  rw [if_neg (by omega), if_neg haligned, hlook]
  simp only [Got.bind_ok, hfree, Bool.not_true, Bool.false_eq_true, if_false, hdest, offLoad_eq]
  rfl

end ScalarLoads

/-! ### FETST (R202) -/

theorem bodyFetst_trap {o : A3} {s : State} {x : W64} {k : Core} (hread : ReadsA1 s o.s1 x k) (hbad : 2097152 ≤ x.toNat) :
    bodyFetst o s = .trap 6 x := by
  unfold ReadsA1 at hread
  rw [bodyFetst, hread, Got.bind_ok]
  exact if_pos hbad

theorem bodyFetst_pends {o : A3} {s : State} {x : W64} {k : Core} (hread : ReadsA1 s o.s1 x k) (hgood : x.toNat < 2097152)
    (hfree : s.loadsFree = true) :
    bodyFetst o s = .ok (s.putMine (accessPending s k (.fetst (x.toNat / 128) (.p (o.d.toNat - 32))) false)) := by
  unfold ReadsA1 at hread
  rw [bodyFetst, hread, Got.bind_ok, ← access_nextSeq]
  dsimp only
  rw [if_neg (show ¬ scratchSize ≤ x.toNat from Nat.not_le.mpr hgood), hfree]
  rfl

/-! ### Vector loads (R200, R201, R252) -/

section VectorLoads
variable {o : A3} {s : State} {c : Bool} {base : W64} {addrs : List W64} {k k' : Core} {d : Dest}

/-- The bank formats of the element addresses as of issue (R25). -/
theorem fmts_eq (k : Core) (addrs : List W64) : (addrs.map (·.toNat)).map k.arch.fmtAt =
    addrs.map fun y => Sparse.get 0 k.arch.bfmt (y.toNat / 131072 % 16) := by
  rw [List.map_map]
  rfl

theorem loadVector_trap {y : W64} (hspm : fld o.m 16 1 = 0)
    (hbreach : vecBreach k.arch (fld o.m 10 4) (memWidth o k base) base c addrs = some y) :
    loadVector o base c addrs k s = .trap 6 y := by
  have hbreach' : vecBreach k.arch (accEt o.m) (accWidth k.arch o.m base) base c addrs = some y := hbreach
  unfold loadVector
  simp only [if_pos hspm, hbreach']
  rfl

theorem loadVector_pends (hspm : fld o.m 16 1 = 0)
    (hbreach : vecBreach k.arch (fld o.m 10 4) (memWidth o k base) base c addrs = none) (hfree : s.loadsFree = true)
    (hdest : k.destVQ o.d.toNat = .ok (d, k')) :
    loadVector o base c addrs k s = .ok (s.putMine (accessPending s k' (.vld (fld o.m 10 4) (addrs.map (·.toNat))
        (addrs.map fun y => Sparse.get 0 k.arch.bfmt (y.toNat / 131072 % 16)) (fld o.m 9 1 == 1) d) false)) := by
  have hbreach' : vecBreach k.arch (accEt o.m) (accWidth k.arch o.m base) base c addrs = none := hbreach
  have hfmt : k'.arch.bfmt = k.arch.bfmt := destVQ_bfmt hdest
  rw [← access_nextSeq, ← hfmt, ← fmts_eq]
  unfold loadVector
  simp only [if_pos hspm, hbreach', hfree, Bool.not_true, Bool.false_eq_true, if_false, hdest, Got.map_ok]
  rfl

/-- A contiguous access off its 128 bytes. -/
theorem loadVector_base (hoff : fld o.m 16 1 = 1) (hc : c = true) (hbad : base.toNat % 128 ≠ 0) :
    loadVector o base c addrs k s = .trap 6 base := by
  unfold loadVector
  dsimp only
  rw [if_neg (by omega), if_pos (by simpa [hc] using hbad)]
  rfl

theorem aligned_base (hc : c = true → base.toNat % 128 = 0) : ¬ (c && base.toNat % 128 ≠ 0) = true := by
  simpa using hc

theorem loadVector_element {y : W64} (hoff : fld o.m 16 1 = 1) (hc : c = true → base.toNat % 128 = 0)
    (hfind : (addrs.find? fun x => decide (x.toNat % memWidth o k base ≠ 0)) = some y) :
    loadVector o base c addrs k s = .trap 6 y := by
  have hfind' : (addrs.find? fun x => decide (x.toNat % accWidth k.arch o.m base ≠ 0)) = some y := hfind
  unfold loadVector
  dsimp only
  rw [if_neg (by omega), if_neg (aligned_base hc), hfind']
  rfl

theorem find?_aligned {w : Nat} (haligned : ∀ y ∈ addrs, y.toNat % w = 0) : (addrs.find? fun x => decide (x.toNat % w ≠ 0)) = none :=
  List.find?_eq_none.mpr fun y hy => by simp [haligned y hy]

theorem lookupAll_toNat_ok {t : Sparse TEntry} {need : Need} (h : ∀ y ∈ addrs, lookup t need y.toNat ≠ .stray) :
    lookupAll t need (addrs.map (·.toNat)) = .ok () := by
  refine lookupAll_ok fun a ha => ?_
  obtain ⟨y, hy, rfl⟩ := List.mem_map.mp ha
  exact h y hy

theorem loadVector_offCore (hoff : fld o.m 16 1 = 1) (hc : c = true → base.toNat % 128 = 0)
    (haligned : ∀ y ∈ addrs, y.toNat % memWidth o k base = 0) (hmap : ∀ y ∈ addrs, lookup k.table .read y.toNat ≠ .stray)
    (hfree : s.loadsFree = true) (hdest : k.destVQ o.d.toNat = .ok (d, k')) : loadVector o base c addrs k s =
      let f := s.flushBundle k' (fld o.m 14 2) (addrs.map fun y => (y.toNat, memWidth o k base)) true
      if f.fits then .ok (s.putMine (requestSent s f (.vld (fld o.m 10 4) (addrs.map (·.toNat))) (fld o.m 14 2) false false d none))
      else .stall := by
  have haligned' : (addrs.find? fun x => decide (x.toNat % accWidth k.arch o.m base ≠ 0)) = none := find?_aligned haligned
  have hranges : ((addrs.map (·.toNat)).map fun a => (a, accWidth k.arch o.m base)) =
      addrs.map fun y => (y.toNat, memWidth o k base) := by rw [List.map_map]; rfl
  unfold loadVector
  dsimp only
  rw [if_neg (by omega), if_neg (aligned_base hc), haligned']
  simp only [lookupAll_toNat_ok hmap, Got.bind_ok, hfree, Bool.not_true, Bool.false_eq_true, if_false, hdest, hranges, offLoad_eq]
  rfl

end VectorLoads

/-- Settles O28: each load trapped by its checks, or pending. -/
theorem scratchpadLoadsPend : Obligations.ScratchpadLoadsPend := by
  unfold Obligations.ScratchpadLoadsPend
  refine ⟨fun i o acq s b x k k' d hi hruns hreads hspm => ⟨fun hbad => ?_, fun hgood hfree hdest => ?_⟩,
    fun o s x k hruns hread => ⟨fun hbad => exec_trap hruns (show bodyFetst o s = _ from bodyFetst_trap hread hbad),
      fun hgood hfree => exec_ok hruns (show bodyFetst o s = _ from bodyFetst_pends hread hgood hfree)⟩,
    fun i o s c base addrs k k' d hi hruns haddrs hspm => ⟨fun y hbreach => ?_, fun hbreach hfree hdest => ?_⟩⟩
  · exact exec_trap hruns ((slotBody_scalarLoad hi).trans (loadScalar_scratch_trap hreads hspm hbad))
  · exact exec_ok hruns ((slotBody_scalarLoad hi).trans (loadScalar_scratch hreads hspm hgood hfree hdest))
  · exact exec_trap hruns ((slotBody_vecLoad hi haddrs).trans (loadVector_trap hspm hbreach))
  · exact exec_ok hruns ((slotBody_vecLoad hi haddrs).trans (loadVector_pends hspm hbreach hfree hdest))

/-! ### Stores and fills of the scratchpad (R192 to R196, R202, R300) -/

section Stores
variable {i : Instr} {o : A3} {s t : State} {b x v : W64} {j k : Core} {rel c : Bool} {base : W64} {addrs : List W64} {y : VReg}

theorem slotBody_scalarStore (hi : i = .st o ∧ rel = false ∨ i = .strel o ∧ rel = true) : slotBody i s = storeScalar rel o s := by
  obtain ⟨rfl, rfl⟩ | ⟨rfl, rfl⟩ := hi <;> rfl

theorem storeScalar_scratch_trap (hreads : ReadsA2 s o.s1 o.s2 b x j) (hv : j.srcSd o.s3.toNat = .ok (v, k)) (hspm : fld o.m 16 1 = 0)
    (hbad : ¬ ((scalarAddr o b x).toNat % scalarSize o = 0 ∧ (scalarAddr o b x).toNat + scalarSize o ≤ 2097152)) :
    storeScalar rel o s = .trap 6 (scalarAddr o b x) := by
  obtain ⟨k₁, hb, hx⟩ := hreads
  unfold ReadsA1 at hb
  have hok : scratchOk (scalarAddr o b x) (2 ^ fld o.m 12 2) = false :=
    Bool.eq_false_iff.mpr fun h => hbad ((scratchOk_iff _ _).mp h)
  simp only [storeScalar, hb, hx, hv, Got.bind_ok, scalarEa_eq, if_pos hspm, hok, Bool.not_false, if_true]
  rfl

theorem storeScalar_scratch (hreads : ReadsA2 s o.s1 o.s2 b x j) (hv : j.srcSd o.s3.toNat = .ok (v, k)) (hspm : fld o.m 16 1 = 0)
    (hgood : (scalarAddr o b x).toNat % scalarSize o = 0 ∧ (scalarAddr o b x).toNat + scalarSize o ≤ 2097152) :
    storeScalar rel o s =
      s.fillAccess k (.st (scalarAddr o b x).toNat (fld o.m 12 2) v (fld o.m 10 1 == 1)) (fld o.m 10 1 == 1 || rel) := by
  obtain ⟨k₁, hb, hx⟩ := hreads
  unfold ReadsA1 at hb
  have hok : scratchOk (scalarAddr o b x) (2 ^ fld o.m 12 2) = true := (scratchOk_iff _ _).mpr hgood
  simp only [storeScalar, hb, hx, hv, Got.bind_ok, scalarEa_eq, if_pos hspm, hok, Bool.not_true, Bool.false_eq_true, if_false]

theorem storeVector_trap {z : W64} (hspm : fld o.m 16 1 = 0)
    (hbreach : vecBreach k.arch (fld o.m 10 4) (memWidth o k base) base c addrs = some z) :
    storeVector o base c addrs y k s = .trap 6 z := by
  have hbreach' : vecBreach k.arch (accEt o.m) (accWidth k.arch o.m base) base c addrs = some z := hbreach
  unfold storeVector
  simp only [if_pos hspm, hbreach']
  rfl

theorem storeVector_scratch (hspm : fld o.m 16 1 = 0)
    (hbreach : vecBreach k.arch (fld o.m 10 4) (memWidth o k base) base c addrs = none) :
    storeVector o base c addrs y k s = s.fillAccess k (.vst (fld o.m 10 4) (addrs.map (·.toNat))
      (addrs.map fun y => Sparse.get 0 k.arch.bfmt (y.toNat / 131072 % 16)) y (fld o.m 9 1 == 1)) (fld o.m 9 1 == 1 && c) := by
  have hbreach' : vecBreach k.arch (accEt o.m) (accWidth k.arch o.m base) base c addrs = none := hbreach
  rw [← fmts_eq]
  unfold storeVector
  simp only [if_pos hspm, hbreach']
  rfl

theorem bodyFeset_trap {n : W64} (hreads : ReadsA2 s o.s1 o.s2 x n k)
    (hbad : ¬ (x.toNat % 128 = 0 ∧ 1 ≤ n.toNat ∧ n.toNat ≤ 16384 ∧ x.toNat + 128 * n.toNat ≤ 2097152)) :
    bodyFeset o s = .trap 6 x := by
  obtain ⟨k₁, hx, hn⟩ := hreads
  unfold ReadsA1 at hx
  simp only [bodyFeset, hx, hn, Got.bind_ok]
  exact if_pos (by unfold scratchSize; omega)

theorem bodyFeset_fill {n : W64} (hreads : ReadsA2 s o.s1 o.s2 x n k)
    (hgood : x.toNat % 128 = 0 ∧ 1 ≤ n.toNat ∧ n.toNat ≤ 16384 ∧ x.toNat + 128 * n.toNat ≤ 2097152) :
    bodyFeset o s = s.fillAccess k (.feset (x.toNat / 128) n.toNat (fld o.m 0 1 == 1)) (fld o.m 0 1 == 1) := by
  obtain ⟨k₁, hx, hn⟩ := hreads
  unfold ReadsA1 at hx
  simp only [bodyFeset, hx, hn, Got.bind_ok]
  exact if_neg (by unfold scratchSize; omega)

/-- What a store or fill that breaks no check leaves: pending, kept, or withdrawn until earlier accesses have performed. -/
theorem exec_fill {kind : AccKind} {released : Bool} (hruns : Runs i s) (hbody : slotBody i s = s.fillAccess k kind released)
    (hfree : s.writesFree = true) (hrec : s.recorded? = none) :
    let performed := s.part.before.offs = [] ∧ s.part.before.out = [] ∧ ∀ w ∈ s.part.before.side, w.own = false
    (released = false → exec i s = .next (s.putMine (accessPending s k kind false))) ∧
    (released = true → performed → exec i s = .next (s.putMine (kept s (accessPending s k kind true) none))) ∧
    (released = true → ¬ performed → exec i s = .next s.withdraw) := by
  refine ⟨fun hrel => ?_, fun hrel hperformed => ?_, fun hrel hperformed => ?_⟩
  all_goals subst hrel
  · exact exec_ok hruns (hbody.trans (fillAccess_pends hfree))
  · exact exec_ok hruns (hbody.trans (fillAccess_released hfree hrec ((allPerformed_iff _).mpr hperformed)))
  · refine exec_stall hruns (hbody.trans (fillAccess_waits hfree hrec ?_))
    exact Bool.eq_false_iff.mpr fun h => hperformed ((allPerformed_iff _).mp h)

end Stores

/-- Settles O29: each store, fill and FESET trapped by its checks, or pending as a fill. -/
theorem scratchpadStoresPend : Obligations.ScratchpadStoresPend := by
  unfold Obligations.ScratchpadStoresPend
  refine ⟨fun i s k kind released hruns hfree hrec hform => ?fill,
    fun i o s b x v j k hi hruns hreads hv hspm hbad => ?scalar,
    fun i o s c base y addrs j x a hi hruns haddrs hpop hspm hbreach => ?vector,
    fun o s x n k hruns hreads hbad => exec_trap hruns (show bodyFeset o s = _ from bodyFeset_trap hreads hbad)⟩
  case fill =>
    obtain ⟨o, b, x, v, j, hi, hreads, hv, hspm, haligned, hinside, rfl⟩ |
      ⟨o, c, base, addrs, j, x, a, hi, rfl, haddrs, hpop, rfl, hspm, hbreach, rfl⟩ |
      ⟨o, x, n, rfl, rfl, hreads, hline, hpos, hcount, hinside, rfl⟩ := hform
    · obtain ⟨rfl, rfl⟩ | ⟨rfl, rfl⟩ := hi
      · refine exec_fill hruns (((slotBody_scalarStore (.inl ⟨rfl, rfl⟩)).trans
          (storeScalar_scratch hreads hv hspm ⟨haligned, hinside⟩)).trans ?_) hfree hrec
        rw [Bool.or_false]
      · refine exec_fill hruns (((slotBody_scalarStore (.inr ⟨rfl, rfl⟩)).trans
          (storeScalar_scratch hreads hv hspm ⟨haligned, hinside⟩)).trans ?_) hfree hrec
        rw [Bool.or_true]
    · exact exec_fill hruns ((slotBody_vecStore hi haddrs hpop).trans (storeVector_scratch hspm hbreach)) hfree hrec
    · exact exec_fill hruns (show bodyFeset o s = _ from bodyFeset_fill hreads ⟨hline, hpos, hcount, hinside⟩) hfree hrec
  case scalar =>
    obtain rfl | rfl := hi
    · exact exec_trap hruns ((slotBody_scalarStore (.inl ⟨rfl, rfl⟩)).trans (storeScalar_scratch_trap hreads hv hspm hbad))
    · exact exec_trap hruns ((slotBody_scalarStore (.inr ⟨rfl, rfl⟩)).trans (storeScalar_scratch_trap hreads hv hspm hbad))
  case vector =>
    exact exec_trap hruns ((slotBody_vecStore hi haddrs hpop).trans (storeVector_trap hspm hbreach))

/-! ### Stores off the core (R197 to R201) -/

section OffCoreStores
variable {i : Instr} {o : A3} {s t : State} {b x v : W64} {j k : Core} {rel c : Bool} {base : W64} {addrs : List W64} {y : VReg}

theorem storeScalar_misaligned (hreads : ReadsA2 s o.s1 o.s2 b x j) (hv : j.srcSd o.s3.toNat = .ok (v, k)) (hoff : fld o.m 16 1 = 1)
    (hbad : (scalarAddr o b x).toNat % scalarSize o ≠ 0) : storeScalar rel o s = .trap 6 (scalarAddr o b x) := by
  obtain ⟨k₁, hb, hx⟩ := hreads
  unfold ReadsA1 at hb
  simp only [storeScalar, hb, hx, hv, Got.bind_ok, scalarEa_eq]
  rw [if_neg (by omega)]
  exact if_pos hbad

theorem storeScalar_offCore (hreads : ReadsA2 s o.s1 o.s2 b x j) (hv : j.srcSd o.s3.toNat = .ok (v, k)) (hoff : fld o.m 16 1 = 1)
    (hgood : (scalarAddr o b x).toNat % scalarSize o = 0) (hmap : lookup k.table .write (scalarAddr o b x).toNat ≠ .stray)
    (hfree : s.writesFree = true) (hcheck : s.checkStepped [((scalarAddr o b x).toNat, scalarSize o)] = .ok t) :
    storeScalar rel o s =
      (s.write k (.store [((scalarAddr o b x).toNat, leBytes v.toNat (scalarSize o))]) (fld o.m 14 2) rel).map t.putMine := by
  obtain ⟨k₁, hb, hx⟩ := hreads
  unfold ReadsA1 at hb
  have hlook : lookupAll k.table .write [(scalarAddr o b x).toNat] = .ok () := lookupAll_ok (by simpa using hmap)
  have haligned : ¬ (scalarAddr o b x).toNat % 2 ^ fld o.m 12 2 ≠ 0 := not_not_intro hgood
  have hcheck' : s.checkStepped [((scalarAddr o b x).toNat, 2 ^ fld o.m 12 2)] = .ok t := hcheck
  simp only [storeScalar, hb, hx, hv, Got.bind_ok, scalarEa_eq]
  rw [if_neg (by omega), if_neg haligned, hlook]
  simp only [Got.bind_ok, hfree, Bool.not_true, Bool.false_eq_true, if_false, hcheck']
  rfl

theorem storeVector_base (hoff : fld o.m 16 1 = 1) (hc : c = true) (hbad : base.toNat % 128 ≠ 0) :
    storeVector o base c addrs y k s = .trap 6 base := by
  unfold storeVector
  dsimp only
  rw [if_neg (by omega), if_pos (by simpa [hc] using hbad)]
  rfl

theorem storeVector_element {z : W64} (hoff : fld o.m 16 1 = 1) (hc : c = true → base.toNat % 128 = 0)
    (hfind : (addrs.find? fun x => decide (x.toNat % memWidth o k base ≠ 0)) = some z) :
    storeVector o base c addrs y k s = .trap 6 z := by
  have hfind' : (addrs.find? fun x => decide (x.toNat % accWidth k.arch o.m base ≠ 0)) = some z := hfind
  unfold storeVector
  dsimp only
  rw [if_neg (by omega), if_neg (aligned_base hc), hfind']
  rfl

/-- The pieces of a vector store, one for each element address. -/
theorem pieces_eq (addrs : List W64) (y : VReg) (w : Nat) :
    ((addrs.map (·.toNat)).mapIdx fun n a => (a, leBytes (elem y.toNat (8 * w) n) w)) =
      (List.range addrs.length).map fun n => (((addrs[n]?).getD 0).toNat, leBytes (elem y.toNat (8 * w) n) w) := by
  refine List.ext_getElem (by simp) fun n h₁ h₂ => ?_
  have hn : n < addrs.length := by simpa using h₁
  simp [hn]

theorem storeVector_offCore (hoff : fld o.m 16 1 = 1) (hc : c = true → base.toNat % 128 = 0)
    (haligned : ∀ y ∈ addrs, y.toNat % memWidth o k base = 0) (hmap : ∀ y ∈ addrs, lookup k.table .write y.toNat ≠ .stray)
    (hfree : s.writesFree = true) (hrec : s.recorded? = none)
    (hcheck : s.checkStepped (addrs.map fun y => (y.toNat, memWidth o k base)) = .ok t) :
    storeVector o base c addrs y k s = .ok (t.putMine (writeHeld s k (.store ((List.range addrs.length).map fun n =>
      (((addrs[n]?).getD 0).toNat, leBytes (elem y.toNat (8 * memWidth o k base) n) (memWidth o k base)))) (fld o.m 14 2))) := by
  have haligned' : (addrs.find? fun x => decide (x.toNat % accWidth k.arch o.m base ≠ 0)) = none := find?_aligned haligned
  have hcheck' : s.checkStepped ((addrs.map (·.toNat)).map fun a => (a, accWidth k.arch o.m base)) = .ok t := by
    rw [List.map_map]
    exact hcheck
  unfold storeVector
  dsimp only
  rw [if_neg (by omega), if_neg (aligned_base hc), haligned']
  simp only [lookupAll_toNat_ok hmap, Got.bind_ok, hfree, Bool.not_true, Bool.false_eq_true, if_false, hcheck', pieces_eq, write_held hrec,
    Got.map_ok]
  rfl

/-- The two outcomes of an access that needs room in the side log (R362). -/
theorem exec_of_fits {f : Core} {u : State} (hruns : Runs i s) (hbody : slotBody i s = if f.fits then .ok u else .stall) :
    (f.side.length ≤ 256 → exec i s = .next u) ∧ (256 < f.side.length → exec i s = .next s.withdraw) :=
  ⟨fun hroom => exec_ok hruns (hbody.trans (if_pos ((fits_iff f).mpr hroom))),
    fun hfull => exec_stall hruns (hbody.trans (if_neg fun h => Nat.not_le.mpr hfull ((fits_iff f).mp h)))⟩

end OffCoreStores

/-- Settles O30: loads and stores off the core, by their checks and what they leave. -/
theorem offCoreAccesses : Obligations.OffCoreAccesses := by
  unfold Obligations.OffCoreAccesses
  refine ⟨fun i o acq s b x k k' d hi hruns hreads hoff => ⟨fun hbad => ?_, fun hgood hmap hfree hdest => ?_⟩,
    fun i o s c base addrs k k' d hi hruns haddrs hoff hc haligned hmap hfree hdest => ?_,
    fun i o s c base addrs k hi hruns haddrs hoff => ?_,
    fun i o s b x v j k hi hruns hreads hv hoff hbad => ?_,
    fun i o rel s t b x v j k hi hruns hreads hv hoff hgood hmap hfree hrec hcheck => ?_,
    fun i o s t c base addrs j k x a hi hruns haddrs hpop hk hoff hc haligned hmap hfree hrec hcheck => ?_,
    fun s k ch ranges load => flushBundle_none⟩
  · exact exec_trap hruns ((slotBody_scalarLoad hi).trans (loadScalar_misaligned hreads hoff hbad))
  · exact exec_of_fits hruns ((slotBody_scalarLoad hi).trans (loadScalar_offCore hreads hoff hgood hmap hfree hdest))
  · exact exec_of_fits hruns ((slotBody_vecLoad hi haddrs).trans (loadVector_offCore hoff hc haligned hmap hfree hdest))
  · obtain hload | hload | hload | ⟨hstore, x, a, hpop⟩ := hi
    case inr.inr.inr =>
      have hbody := slotBody_vecStore hstore haddrs hpop
      have hwidth : memWidth o { k with arch := a } base = memWidth o k base := by
        unfold memWidth accWidth
        rw [if_pos hoff, if_pos hoff]
      exact ⟨fun hc hbad => exec_trap hruns (hbody.trans (storeVector_base hoff hc hbad)),
        fun y hc hfind => exec_trap hruns (hbody.trans (storeVector_element hoff hc (by rw [hwidth]; exact hfind)))⟩
    all_goals
      have hbody := slotBody_vecLoad (o := o) (by simp [hload]) haddrs
      exact ⟨fun hc hbad => exec_trap hruns (hbody.trans (loadVector_base hoff hc hbad)),
        fun y hc hfind => exec_trap hruns (hbody.trans (loadVector_element hoff hc hfind))⟩
  · obtain rfl | rfl := hi
    · exact exec_trap hruns ((slotBody_scalarStore (.inl ⟨rfl, rfl⟩)).trans (storeScalar_misaligned hreads hv hoff hbad))
    · exact exec_trap hruns ((slotBody_scalarStore (.inr ⟨rfl, rfl⟩)).trans (storeScalar_misaligned hreads hv hoff hbad))
  · have hbody := (slotBody_scalarStore hi).trans (storeScalar_offCore hreads hv hoff hgood hmap hfree hcheck)
    refine ⟨fun hrel => ?_, fun hrel hroom => ?_, fun hrel hfull => ?_⟩
    · exact exec_ok hruns (hbody.trans (by rw [hrel, write_held hrec]; rfl))
    · exact exec_ok hruns (hbody.trans (by rw [hrel, write_sent hrec hroom]; rfl))
    · exact exec_stall hruns (hbody.trans (by rw [hrel, write_full hrec hfull]; rfl))
  · subst hk
    exact exec_ok hruns ((slotBody_vecStore hi haddrs hpop).trans (storeVector_offCore hoff hc haligned hmap hfree hrec hcheck))

end Sys2Proof.Machine

/-! Proofs for spec/09: atomics, reductions, fences (R203 to R208). -/

namespace Sys2Proof.Machine

open Safety

/-! ### AMO and CAS (R203, R204) -/

section Atomics
variable {i : Instr} {o : A3} {s t : State} {x v : W64} {j k k' : Core} {d : Dest} {n : Nat}

/-- AMO and CAS, once their sources are read. -/
theorem slotBody_returning {c : W64} {kind : OffKind}
    (hi : i = .amo o ∧ ReadsA2 s o.s1 o.s2 x v k ∧ n = (if fld o.m 13 4 = 11 ∨ fld o.m 13 4 = 12 then 64 else 2 ^ fld o.m 11 2) ∧
        kind = .amo (fld o.m 13 4) (fld o.m 11 2) x.toNat v ∨
      i = .cas o ∧ ReadsA2 s o.s1 o.s2 x c j ∧ j.srcA o.s3.toNat = .ok (v, k) ∧ n = 2 ^ fld o.m 11 2 ∧
        kind = .cas (fld o.m 11 2) x.toNat c v) : slotBody i s = returning o kind x n k s := by
  obtain ⟨rfl, ⟨k₁, hx, hv⟩, rfl, rfl⟩ | ⟨rfl, ⟨k₁, hx, hc⟩, hv, rfl, rfl⟩ := hi
  · unfold ReadsA1 at hx
    show bodyAmo o s = _
    simp only [bodyAmo, hx, hv, Got.bind_ok]
    rfl
  · unfold ReadsA1 at hx
    show bodyCas o s = _
    simp only [bodyCas, hx, hc, hv, Got.bind_ok]
    rfl

theorem returning_misaligned {kind : OffKind} (hbad : x.toNat % n ≠ 0) : returning o kind x n k s = .trap 6 x := if_pos hbad

theorem returning_sent {kind : OffKind} (hgood : x.toNat % n = 0) (hmap : lookup k.table .both x.toNat ≠ .stray)
    (hfree : s.writesFree = true) (hcheck : s.checkStepped [(x.toNat, n)] = .ok t) (hdest : k.dest o.d.toNat = .ok (d, k')) :
    returning o kind x n k s =
      let f := s.flushBundle k' (fld o.m 9 2) [(x.toNat, n)] false
      if f.fits then .ok (t.putMine ((requestSent s f kind (fld o.m 9 2) (fld o.m 4 1 == 1) (fld o.m 5 1 == 1) d s.recorded?).gate
        s.part.bundle s.part.slot f.arch.accSeq)) else .stall := by
  have hlook : lookupAll k.table .both [x.toNat] = .ok () := lookupAll_ok (by simpa using hmap)
  unfold returning
  rw [if_neg (not_not_intro hgood), hlook]
  simp only [Got.bind_ok, hfree, Bool.not_true, Bool.false_eq_true, if_false, hcheck, hdest, offLoad_eq]
  rfl

/-! ### RED and VRED (R203 to R206) -/

theorem bodyRed_misaligned (hreads : ReadsA2 s o.s1 o.s2 x v k)
    (hn : n = (if fld o.m 13 4 = 11 ∨ fld o.m 13 4 = 12 then 64 else 2 ^ fld o.m 11 2)) (hbad : x.toNat % n ≠ 0) :
    bodyRed o s = .trap 6 x := by
  obtain ⟨k₁, hx, hv⟩ := hreads
  unfold ReadsA1 at hx
  subst hn
  simp only [bodyRed, hx, hv, Got.bind_ok]
  exact if_pos hbad

theorem bodyRed_write (hreads : ReadsA2 s o.s1 o.s2 x v k)
    (hn : n = (if fld o.m 13 4 = 11 ∨ fld o.m 13 4 = 12 then 64 else 2 ^ fld o.m 11 2)) (hgood : x.toNat % n = 0)
    (hmap : lookup k.table .write x.toNat ≠ .stray) (hfree : s.writesFree = true) (hcheck : s.checkStepped [(x.toNat, n)] = .ok t) :
    bodyRed o s = (s.write k (.red (fld o.m 13 4) (fld o.m 11 2) x.toNat v) (fld o.m 9 2) (fld o.m 5 1 == 1)).map t.putMine := by
  obtain ⟨k₁, hx, hv⟩ := hreads
  unfold ReadsA1 at hx
  have hlook : lookupAll k.table .write [x.toNat] = .ok () := lookupAll_ok (by simpa using hmap)
  have hsize : atomicBytes (amoOp o.m) (amoSz o.m) = n := hn.symm
  simp only [bodyRed, hx, hv, Got.bind_ok, hsize]
  rw [if_neg (not_not_intro hgood), hlook]
  simp only [Got.bind_ok, hfree, Bool.not_true, Bool.false_eq_true, if_false, hcheck]
  rfl

theorem bodyVred_misaligned {y : VReg} {a : Arch} (hread : ReadsA1 s o.s1 x j) (hpop : j.arch.vpop (vqOf o.s2.toNat) = .ok (y, a))
    (hbad : x.toNat % 128 ≠ 0) : bodyVred o s = .trap 6 x := by
  unfold ReadsA1 at hread
  simp only [bodyVred, hread, hpop, Got.bind_ok]
  exact if_pos hbad

theorem bodyVred_write {y : VReg} {a : Arch} (hread : ReadsA1 s o.s1 x j) (hpop : j.arch.vpop (vqOf o.s2.toNat) = .ok (y, a))
    (hgood : x.toNat % 128 = 0)
    (hmap : ∀ z ∈ (List.range 8).map fun n => (x + BitVec.ofNat 64 (128 * n)).toNat, lookup j.table .write z ≠ .stray)
    (hfree : s.writesFree = true) (hrec : s.recorded? = none)
    (hcheck : s.checkStepped (((List.range 8).map fun n => (x + BitVec.ofNat 64 (128 * n)).toNat).map fun z => (z, 128)) = .ok t) :
    bodyVred o s = .ok (t.putMine (writeHeld s { j with arch := a }
      (.vred (fld o.m 13 4) (fld o.m 9 4) x.toNat (leBytes y.toNat 1024)) (fld o.m 7 2))) := by
  unfold ReadsA1 at hread
  simp only [bodyVred, hread, hpop, Got.bind_ok]
  rw [if_neg (not_not_intro hgood), lookupAll_ok hmap]
  simp only [Got.bind_ok, hfree, Bool.not_true, Bool.false_eq_true, if_false, hcheck, write_held hrec, Got.map_ok]
  rfl

end Atomics

/-- Settles O31: AMO and CAS sent, RED and VRED buffered, each trapped when misaligned. -/
theorem atomicsIssue : Obligations.AtomicsIssue := by
  unfold Obligations.AtomicsIssue
  refine ⟨fun o s t x v c j k k' d i n kind hi hruns => ⟨fun hbad => ?_, fun hgood hmap hfree hcheck hdest => ?_⟩,
    fun o s t x v k n hruns hreads hn => ⟨fun hbad => ?_, fun hgood hmap hfree hrec hcheck => ?_⟩,
    fun o s t x y j k a hruns hread hpop hk => ⟨fun hbad => ?_, fun hgood hmap hfree hrec hcheck => ?_⟩⟩
  · exact exec_trap hruns ((slotBody_returning hi).trans (returning_misaligned hbad))
  · exact exec_of_fits hruns ((slotBody_returning hi).trans (returning_sent hgood hmap hfree hcheck hdest))
  · exact exec_trap hruns (show bodyRed o s = _ from bodyRed_misaligned hreads hn hbad)
  · have hbody : slotBody (.red o) s = _ := bodyRed_write hreads hn hgood hmap hfree hcheck
    refine ⟨fun hrel => ?_, fun hrel hroom => ?_, fun hrel hfull => ?_⟩
    · exact exec_ok hruns (hbody.trans (by rw [hrel, show ((0 : Nat) == 1) = false from rfl, write_held hrec]; rfl))
    · exact exec_ok hruns (hbody.trans (by rw [hrel, beq_self_eq_true, write_sent hrec hroom]; rfl))
    · exact exec_stall hruns (hbody.trans (by rw [hrel, beq_self_eq_true, write_full hrec hfull]; rfl))
  · exact exec_trap hruns (show bodyVred o s = _ from bodyVred_misaligned hread hpop hbad)
  · subst hk
    exact exec_ok hruns (show bodyVred o s = _ from bodyVred_write hread hpop hgood hmap hfree hrec hcheck)

/-! ### FENCE and QFENCE (R207, R208) -/

section Queues
variable {k : Core} {m q r n : Nat}

theorem mem_queuesOf : q ∈ queuesOf m ↔ q < 7 ∧ m.testBit q = true := by
  rw [queuesOf, List.mem_filter, List.mem_range, Nat.testBit_eq_decide_div_mod_eq, decide_eq_true_iff, beq_iff_eq]

theorem queuesOf_getLsbD {o : A3} : q ∈ queuesOf (fld o.m 0 7) ↔ q < 7 ∧ o.m.getLsbD q = true := by
  rw [mem_queuesOf, fld_zero, Nat.testBit_mod_two_pow, BitVec.testBit_toNat, Bool.and_eq_true, decide_eq_true_iff]
  exact and_congr_right fun hq => and_iff_right hq

/-- The joins of the queues that a mask names. -/
theorem mem_joinQueues (q r n : Nat) : (q, r, n) ∈ (k.joinQueues m).qfence ↔
    if q ∈ queuesOf m ∧ r ∈ queuesOf m then n = Sparse.get 0 k.opCount r else (q, r, n) ∈ k.qfence := by
  have hpairs : ∀ q r n, (q, r, n) ∈ (queuesOf m).flatMap (fun q => (queuesOf m).map fun r => (q, r, Sparse.get 0 k.opCount r)) ↔
      q ∈ queuesOf m ∧ r ∈ queuesOf m ∧ n = Sparse.get 0 k.opCount r := fun q r n => by
    simp only [List.mem_flatMap, List.mem_map, Prod.mk.injEq]
    constructor
    · rintro ⟨_, hq, _, hr, rfl, rfl, rfl⟩
      exact ⟨hq, hr, rfl⟩
    · rintro ⟨hq, hr, rfl⟩
      exact ⟨q, hq, r, hr, rfl, rfl, rfl⟩
  have hjoined : (((queuesOf m).flatMap fun q => (queuesOf m).map fun r => (q, r, Sparse.get 0 k.opCount r)).any fun y =>
      q == y.1 && r == y.2.1) = true ↔ q ∈ queuesOf m ∧ r ∈ queuesOf m := by
    rw [List.any_eq_true]
    constructor
    · rintro ⟨⟨q', r', n'⟩, hmem, heq⟩
      simp only [Bool.and_eq_true, beq_iff_eq] at heq
      obtain ⟨rfl, rfl⟩ := heq
      obtain ⟨hq, hr, -⟩ := (hpairs _ _ _).mp hmem
      exact ⟨hq, hr⟩
    · rintro ⟨hq, hr⟩
      exact ⟨(q, r, Sparse.get 0 k.opCount r), (hpairs _ _ _).mpr ⟨hq, hr, rfl⟩, by simp⟩
  unfold Core.joinQueues
  rw [List.mem_append, List.mem_filter, hpairs, Bool.not_eq_true', ← Bool.not_eq_true, hjoined]
  by_cases h : q ∈ queuesOf m ∧ r ∈ queuesOf m
  · simp [h]
  · rw [if_neg h]
    constructor
    · rintro (⟨hmem, -⟩ | ⟨hq, hr, -⟩)
      · exact hmem
      · exact absurd ⟨hq, hr⟩ h
    · exact fun hmem => .inl ⟨hmem, h⟩

/-- QFENCE with W waits for the operations of the queues that it names. -/
theorem qfence_waits_iff {o : A3} {k : Core} :
    (fld o.m 7 1 = 1 ∧ (queuesOf (fld o.m 0 7)).any (fun q => !(k.opsOf q).isEmpty) = true) ↔
      fld o.m 7 1 = 1 ∧ ∃ q, q < 7 ∧ o.m.getLsbD q = true ∧ Sparse.get [] k.ops q ≠ [] := by
  refine and_congr_right fun _ => ?_
  simp only [List.any_eq_true, queuesOf_getLsbD, Core.opsOf, Bool.not_eq_true', List.isEmpty_eq_false_iff, and_assoc]

end Queues

/-- Settles O32: the fence of each kind, the joins of QFENCE. -/
theorem fencesIssue : Obligations.FencesIssue := by
  unfold Obligations.FencesIssue
  refine ⟨fun o s hruns => ?_, fun o s hruns => ⟨fun hwait => ?_, fun hready => ?_⟩⟩
  · have hbody : slotBody (.fence o) s = .ok (s.putMine { s.mine with arch := { s.mine.arch with
        accSeq := s.mine.arch.accSeq + 1, fences := s.mine.arch.fences ++ [fenceOf (fld o.m 3 2) s.mine.arch.accSeq] } }) :=
      show bodyFence o s = _ from onPartCore_ok rfl
    have hkind : fld o.m 3 2 < 4 := fld_lt o.m 3 2
    rw [exec_ok hruns hbody]
    generalize fld o.m 3 2 = kind at hkind
    match kind, hkind with
    | 0, _ => rfl
    | 1, _ => rfl
    | 2, _ => rfl
    | 3, _ => rfl
  · exact exec_stall hruns (show bodyQfence o s = _ from if_pos (qfence_waits_iff.mpr hwait))
  · refine ⟨s.mine.joinQueues (fld o.m 0 7), exec_ok hruns (show bodyQfence o s = _ from if_neg (mt qfence_waits_iff.mp hready)), rfl,
      fun q r n => ?_⟩
    rw [mem_joinQueues]
    have hand : (q < 7 ∧ o.m.getLsbD q = true) ∧ r < 7 ∧ o.m.getLsbD r = true ↔
        q < 7 ∧ r < 7 ∧ o.m.getLsbD q = true ∧ o.m.getLsbD r = true :=
      ⟨fun ⟨⟨hq, hmq⟩, hr, hmr⟩ => ⟨hq, hr, hmq, hmr⟩, fun ⟨hq, hr, hmq, hmr⟩ => ⟨⟨hq, hmq⟩, hr, hmr⟩⟩
    simp only [queuesOf_getLsbD, hand]

end Sys2Proof.Machine

/-! Proofs for spec/08, spec/09 and spec/10: the issue of engine commands (R170, R172, R208, R211, R218, R220, R236). -/

namespace Sys2Proof.Machine

open Safety

section EngineCommands
variable {i : Instr} {code : OpCode} {q : Nat} {o : EN} {s : State} {w1 w2 w3 : W64} {recA recB : List W64} {k k' : Core} {d : Dest}

/-- The copies read their two records and, but for CPY, a third operand (R211). -/
theorem readCopy_ok {third : Bool} (hb : s.mine.group o.o1.toNat = .ok recB) (ha : s.mine.group o.o2.toNat = .ok recA)
    (hthird : if third then ReadsA1 s o.o3 w3 k else w3 = 0 ∧ k = s.mine) :
    readCopy o third s.mine = .ok (⟨0, 0, w3, recA, recB⟩, k) := by
  cases third with
  | true =>
    have hw : s.mine.srcA o.o3.toNat = .ok (w3, k) := hthird
    simp only [readCopy, hb, ha, Got.bind_ok, if_true, hw, Got.map_ok]
  | false =>
    obtain ⟨rfl, rfl⟩ : w3 = 0 ∧ k = s.mine := hthird
    simp [readCopy, hb, ha]

theorem readGather_ok (ha : s.mine.group o.o1.toNat = .ok recA) (hreads : ReadsA2 s o.o2 o.o3 w2 w3 k) :
    readGather o s.mine = .ok (⟨0, w2, w3, recA, []⟩, k) := by
  obtain ⟨j, hp, hi⟩ := hreads
  unfold ReadsA1 at hp
  simp only [readGather, ha, hp, hi, Got.bind_ok, Got.map_ok]

/-- Each engine command issues one operation with the operands that it captures. -/
theorem slotBody_engineCmd (hcmd : engineCmd i = some (code, q, o)) (hcap : Captures i s w1 w2 w3 recA recB k) :
    q < 6 ∧ ∃ read, slotBody i = issueOp code q o read ∧ read s.mine = .ok (⟨w1, w2, w3, recA, recB⟩, k) := by
  have hbit : ∀ n, fld o.em n 1 < 2 := fun n => fld_lt o.em n 1
  unfold engineCmd at hcmd
  split at hcmd <;> cases hcmd
  case h_1 =>
    obtain ⟨rfl, j, hcb, hrec, hco, hat⟩ := hcap
    unfold ReadsA1 at hcb
    refine ⟨Nat.lt_trans (hbit 4) (by decide), _, show bodyMma o = issueOp .mma _ o _ from rfl, ?_⟩
    simp only [hcb, hrec, hco, Got.bind_ok]
    split at hat
    case isTrue htile => rw [if_pos htile, hat, Got.map_ok]
    case isFalse htile => rw [if_neg htile, hat, Got.map_ok]
  case h_2 =>
    obtain ⟨rfl, rfl, rfl, hrec, hco⟩ := hcap
    unfold ReadsA1 at hco
    exact ⟨Nat.lt_trans (hbit 4) (by decide), _, show bodyMlat o = issueOp .mlat _ o _ from rfl,
      by simp only [hrec, hco, Got.bind_ok, Got.map_ok]⟩
  case h_3 =>
    obtain ⟨rfl, rfl, rfl, rfl, hw⟩ := hcap
    unfold ReadsA1 at hw
    exact ⟨Nat.lt_trans (hbit 4) (by decide), _, show bodyMcfg o = issueOp .mcfg _ o _ from rfl, by simp only [hw, Got.map_ok]⟩
  case h_4 =>
    obtain ⟨rfl, rfl, rfl, hb, ha, rfl⟩ := hcap
    exact ⟨by have := hbit 4; omega, _, rfl, readCopy_ok (third := false) hb ha ⟨rfl, rfl⟩⟩
  case h_5 | h_6 | h_7 =>
    obtain ⟨rfl, rfl, hb, ha, hw⟩ := hcap
    exact ⟨by have := hbit 4; omega, _, rfl, readCopy_ok (third := true) hb ha hw⟩
  case h_8 =>
    obtain ⟨rfl, rfl, j, ⟨l, h1, h2⟩, h3⟩ := hcap
    unfold ReadsA1 at h1
    exact ⟨by decide, _, show bodySfn o = issueOp .sfn 4 o _ from rfl, by simp only [h1, h2, h3, Got.bind_ok, Got.map_ok]⟩
  case h_9 | h_10 =>
    obtain ⟨rfl, rfl, ha, hreads⟩ := hcap
    exact ⟨by decide, _, rfl, readGather_ok ha hreads⟩

/-- An engine command once its operands are read and the destination of its tag is there. -/
theorem issueOp_eq {read : Core → Got (Captured × Core)} {x : Captured} (hread : read s.mine = .ok (x, k)) (hfree : s.writesFree = true)
    (hdest : k.dest o.tag.toNat = .ok (d, k')) : issueOp code q o read s =
      match s.recorded? with
      | some r => .ok (s.putMine (sentTo k' d (r.value.getD 0) 1))
      | none =>
        if !k'.hasRoom q then .stall
        else
          let p := k'.append (Op.fresh code o.em x.o1 x.o2 x.o3 x.recA x.recB) q s.part.bundle s.frameNow
          .ok (s.putMine (kept s (sentTo p.2 d p.1 1) (some p.1))) := by
  unfold issueOp
  rw [hread, Got.bind_ok]
  dsimp only
  rw [hfree, Bool.not_true, if_neg Bool.false_ne_true, hdest, Got.bind_ok]
  cases s.recorded? <;> rfl

theorem hasRoom_iff (hq : q < 6) : k.hasRoom q = true ↔ (Sparse.get [] k.ops q).length < 8 := by
  have hdepth : engineDepth q = 8 := if_neg (by omega)
  rw [Core.hasRoom, hdepth, decide_eq_true_iff]
  exact Iff.rfl

end EngineCommands

/-- Settles O33: each command captures its operands and issues one operation. -/
theorem engineCommandsAppend : Obligations.EngineCommandsAppend := by
  unfold Obligations.EngineCommandsAppend
  intro i code q o s w1 w2 w3 recA recB k k' d hcmd hruns hcap hfree hdest
  obtain ⟨hq, read, hissue, hread⟩ := slotBody_engineCmd hcmd hcap
  have hbody : slotBody i s = _ := (congrFun hissue s).trans (issueOp_eq (code := code) (q := q) hread hfree hdest)
  refine ⟨fun r hrec => ?_, fun hrec hfull => ?_, fun hrec hroom => ?_⟩
  · rw [hrec] at hbody
    exact exec_ok hruns hbody
  · rw [if_neg (by omega)] at hfull
    have hno : k'.hasRoom q = false := Bool.eq_false_iff.mpr fun h => Nat.not_lt.mpr hfull ((hasRoom_iff hq).mp h)
    rw [hrec, hno] at hbody
    exact exec_stall hruns hbody
  · rw [hrec, (hasRoom_iff hq).mpr hroom] at hbody
    have htag : tagOf q (Sparse.get 0 k'.opCount q + 1) =
        BitVec.ofNat 64 (2 ^ 40 + q * 2 ^ 37 + (Sparse.get 0 k'.opCount q + 1) % 2 ^ 32) := by
      rw [tagOf, Nat.mod_eq_of_lt (by omega : q < 8)]
    dsimp only
    rw [← htag]
    refine ⟨_, rfl, rfl, rfl, rfl, rfl, rfl, rfl, rfl, rfl, rfl, rfl, rfl, rfl, rfl, rfl, exec_ok hruns hbody⟩

end Sys2Proof.Machine

/-! Proofs for spec/10 (strands): SPAWN where a request waits (R229, R231). -/

namespace Sys2Proof.Machine

open Safety

/-! ### A table of queues that is not in canonical form

Nothing in the statement says that the issuing core's table of queues is in canonical form. In one that is not, taking the last request
out of MB uncovers an entry of the table for XA that had not been read before, and the push of the spawn index finds XA full. -/

/-- MB holds a request of core 1; behind it stands, out of order, a full XA. -/
def uncoveredQueues : Sparse (List QEntry) := [(6, [⟨0, none, some 1, false⟩]), (3, List.replicate 8 ⟨0, none, none, false⟩)]

/-- Core 0 runs a launch and issues a part, with those queues. -/
def uncoveredState : State :=
  { State.reset with
    cores := [(0, { Core.reset with launch := some 0, arch := { Arch.reset with qs := uncoveredQueues } })]
    launches := [default] }

/-- SPAWN at PC `s0` with arguments from `s1` on, its index pushed to XA. -/
def spawnToXa : A3 := ⟨⟨0, false⟩, 59, 0, 1, 0, 0⟩

theorem uncovered_stalls : bodySpawn spawnToXa uncoveredState = .stall := by decide +kernel

theorem uncovered_coresWf : CoresWf uncoveredState := show Sparse.wf Core.reset uncoveredState.cores = true by decide +kernel

theorem uncovered_runs : Runs (.spawn spawnToXa) uncoveredState := ⟨⟨⟨0, false⟩, rfl, by decide⟩, by decide⟩

/-- Refutes O34: with a table of queues out of canonical form, a SPAWN that answers a request can find the queue of its result full, which
is withdrawn, so that the thief is not answered. -/
theorem not_spawnAndStrandEnds : ¬ Obligations.SpawnAndStrandEnds := by
  unfold Obligations.SpawnAndStrandEnds
  intro h
  obtain ⟨b, hb⟩ : ∃ b, uncoveredState.part.dstS 59 0 1 0 (arch uncoveredState) = .ok b := ⟨_, rfl⟩
  obtain ⟨t, hexec, hthief, -⟩ := ((h.1 spawnToXa uncoveredState 0 (arch uncoveredState) uncovered_coresWf uncovered_runs rfl).2 rfl
    (by decide) default b rfl rfl rfl rfl hb).2 1 [] rfl (by decide)
  rw [exec_stall uncovered_runs uncovered_stalls] at hexec
  obtain rfl : uncoveredState.withdraw = t := by injection hexec
  have hwait : (uncoveredState.withdraw.core 1).wait = .none := rfl
  rw [hthief] at hwait
  cases hwait

/-! ### A table of cores that is not in canonical form

The clause about an EVPOST that waits does not ask that the table of cores is in canonical form. In one that lists core 0 twice, a pop that
leaves its first record equal to the reset record takes that one away, and what the slot goes on with is the second record. -/

/-- The first record of core 0: as at reset but for one word in LQ0. -/
def poppedCore : Core := { Core.reset with arch := { Arch.reset with qs := [(0, [⟨0, some 0, none, false⟩])] } }

/-- The second one: the slot has been recorded in it. -/
def recordedCore : Core := { Core.reset with seg := { Core.reset.seg with recorded := [⟨0, 0, none, false, [], none⟩] } }

/-- Core 0 is listed twice; a load that it had sent before the part is still out. -/
def twiceState : State :=
  { State.reset with
    cores := [(0, poppedCore), (0, recordedCore)]
    latch := [0]
    part := { Part.idle with before :=
      { Core.reset with offs := [default], seg := { Core.reset.seg with checkpoint := { Arch.reset with accSeq := 1 } } } } }

/-- EVPOST to the core that LQ0 names, with the word 0. -/
def evpostPop : A3 := ⟨⟨0, false⟩, 0, 56, 0, 0, 0⟩

theorem twice_goesOn : slotBody (.evpost evpostPop) twiceState = .ok { twiceState with cores := [(0, recordedCore)] } := by
  decide +kernel

theorem twice_runs : Runs (.evpost evpostPop) twiceState := ⟨⟨⟨0, false⟩, rfl, by decide⟩, by decide⟩

/-- Refutes O35: with a core listed twice, an EVPOST whose earlier accesses have not performed can meet the other record, in which it has
been recorded, and goes on. -/
theorem not_messagesEventsStatus : ¬ Obligations.MessagesEventsStatus := by
  unfold Obligations.MessagesEventsStatus
  intro h
  obtain ⟨-, -, -, -, hwaits, -⟩ := h
  have hreads : Reads2 twiceState evpostPop.s1 evpostPop.s2 0 0 Arch.reset := ⟨Arch.reset, rfl, rfl⟩
  have hexec := hwaits evpostPop twiceState 0 0 Arch.reset twice_runs hreads rfl (by decide +kernel)
  rw [exec_ok twice_runs twice_goesOn] at hexec
  have hlatch : ({ twiceState with cores := [(0, recordedCore)] } : State).latch = twiceState.withdraw.latch := by
    injection hexec with hstate
    rw [hstate]
  cases hlatch

end Sys2Proof.Machine

/-! Proofs for spec/10 (surrogate instructions): what SGBEG notes of its invocation (R239, R240, R383). -/

namespace Sys2Proof.Machine

open Safety

/-! ### Two launches under one name

Nothing in the statement says that no two launches have one name. Where two do, SGBEG notes its invocation in each with that launch's own
frame, while the statement gives the frame of the first one to both. -/

/-- A launch that holds its module, in frame `n`. -/
def heldLaunch (n : Nat) : Launch := { (default : Launch) with grantNo := 1, frame := n }

/-- Core 0 runs the launch named 0; a second one has the same name. -/
def twinLaunches : State :=
  { State.reset with
    cores := [(0, { Core.reset with launch := some 0 })]
    launches := [heldLaunch 0, heldLaunch 1]
    modules := [{ (default : Module) with regions := [default] }] }

/-- SGBEG of region 0. -/
def sgbegFirst : A3 := ⟨⟨0, false⟩, 0, 0, 0, 0, 0⟩

/-- What SGBEG notes in the two launches. -/
def begunTwins : List Launch :=
  [{ heldLaunch 0 with sgBegs := [(0, 0, 0, 0)] }, { heldLaunch 1 with sgBegs := [(0, 1, 0, 0)] }]

/-- The launches after an attempt that succeeds. -/
def launchesAfter : Got State → Option (List Launch)
  | .ok t => some t.launches
  | _ => none

theorem twins_runs : Runs (.sgbeg sgbegFirst) twinLaunches := ⟨⟨⟨0, false⟩, rfl, by decide⟩, by decide +kernel⟩

theorem twins_begin : launchesAfter (slotBody (.sgbeg sgbegFirst) twinLaunches) = some begunTwins := by decide +kernel

/-- Refutes O36: with two launches under one name, SGBEG notes in the second the frame of the second. -/
theorem not_surrogateSlots : ¬ Obligations.SurrogateSlots := by
  unfold Obligations.SurrogateSlots
  intro h
  obtain ⟨hopens, -⟩ := h.1 sgbegFirst twinLaunches (heldLaunch 0) default rfl twins_runs ⟨rfl, rfl, rfl, rfl⟩ rfl rfl rfl rfl rfl
  obtain ⟨t, hexec, -, hlaunches⟩ := hopens (by decide)
  have hafter := twins_begin
  cases hbody : slotBody (.sgbeg sgbegFirst) twinLaunches with
  | ok u =>
    rw [hbody] at hafter
    rw [exec_ok twins_runs hbody] at hexec
    obtain rfl : u = t := by injection hexec
    have hbegun : u.launches = begunTwins := Option.some.inj hafter
    rw [hbegun] at hlaunches
    exact absurd hlaunches (by decide)
  | _ => rw [hbody] at hafter; cases hafter

end Sys2Proof.Machine

/-! Proofs for spec/14 (streams): the issue of the two parts of a bundle (R11, R54, R58, R224, R278 to R282). -/

namespace Sys2Proof.Machine

open Safety

/-! ### The sequencer between bundles (R54, R224) -/

section Sequencer
variable {a : Arch}

theorem tick_eq_cycled (side : Side) : a.tick side = cycled a side := by cases side <;> rfl

theorem turned_ahead : a.turned.ahead = a.ahead := by
  unfold Arch.turned
  split
  · rfl
  · split <;> rfl

theorem turned_loop : a.turned.loop = a.loop := by
  unfold Arch.turned
  split
  · rfl
  · split <;> rfl

/-- Only RB, the stage predicates, LOOP and the turn itself change where a pass ends. -/
theorem turned_eq : a.turned = { a with turn := none, p := a.turned.p, rb := a.turned.rb, loopOn := a.turned.loopOn } := by
  unfold Arch.turned
  split
  case h_1 h => simp only [← h]
  case h_2 => split <;> rfl

theorem advance_eq (next : W64) : a.advance next = { a with pc := (behind a.loop next).1, loop := (behind a.loop next).2 } := by
  unfold Arch.advance behind
  cases hloop : a.loop with
  | none => simp only [← hloop]
  | some l =>
    dsimp only
    by_cases hpos : l.pos + 1 < l.ii
    · rw [if_pos hpos, if_pos hpos]
    · rw [if_neg hpos, if_neg hpos]
      by_cases hpass : l.pass + 1 < l.passes
      · rw [if_pos hpass, if_pos (show l.pass + 1 < l.limit + l.stages - 1 from hpass)]
      · rw [if_neg hpass, if_neg (show ¬ l.pass + 1 < l.limit + l.stages - 1 from hpass)]

theorem enter_eq (l : Option Loop) : a.enter l =
    { a with p := a.turned.p, rb := a.turned.rb, loopOn := a.turned.loopOn, turn := l.filter fun x => x.pos + 1 == x.ii } := by
  unfold Arch.enter
  rw [turned_eq]
  cases l with
  | none => rfl
  | some x =>
    dsimp only [Option.filter]
    by_cases h : x.pos + 1 = x.ii
    · rw [if_pos h, if_pos (beq_iff_eq.mpr h)]
    · rw [if_neg h, if_neg (mt beq_iff_eq.mp h)]

/-- A stream cycle and the end of a pass do not meet. -/
theorem turned_cycled (side : Side) : (cycled a side).turned.p = a.turned.p ∧ (cycled a side).turned.rb = a.turned.rb ∧
    (cycled a side).turned.loopOn = a.turned.loopOn := by
  cases side <;> (unfold Arch.turned; dsimp only [cycled]; cases a.turn <;> (dsimp only; try split) <;> exact ⟨rfl, rfl, rfl⟩)

end Sequencer

/-! ### The issue of a part -/

section Issue
variable {s u v : State} {c : Nat} {k : Core}

/-- A core whose rewind flag is not up has none to lower (R295). -/
theorem onCore_lowerFlag (w : CoresWf s) (h : (s.core c).rewindFlag = false) : s.onCore c Core.lowerFlag = s := by
  have hlower : (s.core c).lowerFlag = s.core c := by
    unfold Core.lowerFlag
    rw [h]
    rfl
  unfold State.onCore State.setCore
  rw [hlower, State.core, Sparse.set_get w]

theorem core_of_cores (h : u.cores = s.cores) (c : Nat) : u.core c = s.core c := by
  unfold State.core
  rw [h]

/-- The access part issues (R278): its slots can be performed, and nothing needs the two parts to stand together. -/
theorem meetBundle_issues {b : Bundle} {next : W64} {preds : BitVec 16}
    (hpreds : preds = (u.core c).arch.turned.predsBehind (u.core c).arch.ahead (u.core c).arch.loop)
    (hboth : b.needsBoth (u.core c).arch.turned (u.regionCount c) = false) (hbench : (u.core c).benchTurn .access b preds = false)
    (htry : (u.setupAccess c b next preds).tryPart b .access = .ok v) (hfill : (u.core c).overfills (v.core c) = false) :
    u.meetBundle c b next = (u.setupAccess c b next preds).latchPart b .access := by
  unfold State.meetBundle
  dsimp only
  rw [turned_ahead, turned_loop, ← hpreds, hboth]
  unfold State.performAccess
  dsimp only
  simp only [hbench, htry, hfill, Bool.not_false, if_true, Bool.false_and, Bool.or_self, Bool.and_false, Bool.false_eq_true, if_false]

theorem issueAccess_issues {l : Launch} {b : Bundle} {next : W64} (w : CoresWf s) (hlaunch : s.launchOf c = some l)
    (hcan : s.canIssue c = true) (hwait : (s.core c).wait = .none) (hclose : (s.core c).mustClose = false)
    (hflag : (s.core c).rewindFlag = false) (hhalt : s.haltAsked c = false) (htrap : (s.core c).arch.trap = none)
    (hconflicts : (s.core c).conflicts = []) (hcount : (s.core c).arch.waitA = 0) (hsettled : (s.core c).arch.settled .access = true)
    (hahead : (s.core c).arch.ahead.length < 64) (hblocked : (s.core c).arch.blocked = false) (hheld : (s.core c).holdsAccess = false)
    (hskip : (s.core c).arch.skip = 0) (htill : (s.core c).arch.till = none) (hodd : (s.core c).arch.pc.getLsbD 0 = false)
    (hfetch : s.fetch c l.asid (s.dictOf c) (s.core c).arch.pc = (.bundle b next, u)) :
    s.issueAccess c = u.meetBundle c b next := by
  unfold State.issueAccess
  rw [onCore_lowerFlag w hflag]
  dsimp only
  rw [hlaunch]
  dsimp only
  rw [if_neg (by simp [hcan, hwait, hclose, Core.trapDue, htrap, hconflicts, hcount, hsettled, hahead, hblocked, hheld, hhalt]),
    if_neg (by simp [hskip, htill]), if_neg (by rw [hodd]; exact Bool.false_ne_true), hfetch]

theorem setupAccess_core {b : Bundle} {next : W64} {preds : BitVec 16} (w : CoresWf u) :
    (u.setupAccess c b next preds).core c = ({ u.core c with
      closedFor := false, rvPassed := false
      unchecked := if u.doubled c then (u.core c).unchecked ++ [(u.core c).shadow] else (u.core c).unchecked
      arch := { cycled (u.core c).arch .access with
        pc := (behind (u.core c).arch.loop next).1, loop := (behind (u.core c).arch.loop next).2
        issued := (u.core c).arch.issued + 1, waitA := b.wait
        ahead := (u.core c).arch.ahead ++ [⟨b, (u.core c).arch.pc, next, (u.core c).arch.loop, preds, 0⟩]
        fences := (u.core c).arch.fences.filter fun f => !u.fenceDone c f } } : Core).countBench .access b preds := by
  have hset : ∀ k, (u.setCore c k).core c = k := fun k => State.core_setCore_same w
  show (u.setCore c _).core c = _
  rw [hset, tick_eq_cycled, advance_eq]
  rfl

theorem issueExecute_issues {h : Ahead} {rest : List Ahead} (w : CoresWf s) (hahead : (s.core c).arch.ahead = h :: rest)
    (hcan : s.canIssue c = true) (hwait : (s.core c).wait = .none) (hclose : (s.core c).mustClose = false)
    (hflag : (s.core c).rewindFlag = false) (hcount : (s.core c).arch.waitX = 0) (hsettled : (s.core c).arch.settled .execute = true)
    (hbench : (s.core c).benchTurn .execute h.bundle (mergePreds (s.core c).arch.turned.p h.preds) = false)
    (hdrain : (s.core c).arch.drain? (h.bundle.lives (mergePreds (s.core c).arch.turned.p h.preds) [0, 1, 2, 3]) = none)
    (htry : (s.setupExecute c h rest).tryPart h.bundle .execute = .ok v) :
    s.issueExecute c = (s.setupExecute c h rest).latchPart h.bundle .execute := by
  have hpreds : (s.setupExecute c h rest).part.preds = mergePreds (s.core c).arch.turned.p h.preds := rfl
  unfold State.issueExecute
  rw [onCore_lowerFlag w hflag]
  dsimp only
  rw [hahead]
  dsimp only
  rw [if_neg (by simp [hcan, hwait, hclose, hcount, hsettled]), hpreds, if_neg (by simp [hbench]), hdrain]
  dsimp only
  rw [htry]

theorem setupExecute_core {h : Ahead} {rest : List Ahead} (w : CoresWf s) :
    let a := (s.core c).arch
    let arch : Arch := { cycled a .execute with
      ahead := rest, waitX := h.bundle.wait, p := a.turned.p, rb := a.turned.rb, loopOn := a.turned.loopOn
      turn := h.loop.filter fun x => x.pos + 1 == x.ii }
    (s.setupExecute c h rest).core c = ({ s.core c with
      unchecked := if s.doubled c then (s.core c).unchecked ++ [(s.core c).shadow] else (s.core c).unchecked
      arch := if h.flags = 0 then arch else arch.fly .execute .flagsOnly 1 h.flags } : Core).countBench .execute h.bundle
        (mergePreds a.turned.p h.preds) := by
  have hset : ∀ k, (s.setCore c k).core c = k := fun k => State.core_setCore_same w
  obtain ⟨hp, hrb, hloop⟩ := turned_cycled (a := (s.core c).arch) .execute
  show (s.setCore c _).core c = _
  rw [hset, tick_eq_cycled, enter_eq, hp, hrb, hloop]
  rfl

end Issue

/-- Settles O37: the access part, then the execute part. -/
theorem streamsIssue : Obligations.StreamsIssue := by
  unfold Obligations.StreamsIssue
  refine ⟨fun s u v c k a l b next preds w hk ha hpreds hlaunch hcan hwait hclose hflag hhalt htrap hconflicts hcount hsettled hahead
    hblocked hheld hskip htill hodd hfetch hcores hboth hbench htry hfill => ?_,
    fun s v c k a h rest preds w hk ha hahead hcan hwait hclose hflag hcount hsettled hpreds hbench hdrain htry => ?_⟩
  · subst hk ha
    have hcore : u.core c = s.core c := core_of_cores hcores c
    have wu : CoresWf u := by
      unfold CoresWf
      rw [hcores]
      exact w
    refine ⟨(u.setupAccess c b next preds).latchPart b .access, ?_, rfl, ?_, ?_, fun d hd => ?_, rfl⟩
    · show Host.Outcome.next (s.issueAccess c) = _
      rw [issueAccess_issues w hlaunch hcan hwait hclose hflag hhalt htrap hconflicts hcount hsettled hahead hblocked hheld hskip htill
        hodd hfetch]
      rw [← hcore] at hpreds hboth hbench hfill
      rw [meetBundle_issues hpreds hboth hbench htry hfill]
    · rw [← hcore]
      rfl
    · rw [← hcore]
      exact setupAccess_core wu
    · rw [← core_of_cores hcores d]
      exact (State.core_setCore wu d).trans (if_neg hd)
  · subst hk ha hpreds
    refine ⟨(s.setupExecute c h rest).latchPart h.bundle .execute, ?_, rfl, rfl, setupExecute_core w, fun d hd => ?_, rfl⟩
    · show Host.Outcome.next (s.issueExecute c) = _
      rw [issueExecute_issues w hahead hcan hwait hclose hflag hcount hsettled hbench hdrain htry]
    · exact (State.core_setCore w d).trans (if_neg hd)

end Sys2Proof.Machine

/-! Proofs for spec/03 (stream cycles, results land) and spec/13 (bench): WAIT cycles, landings, bench cycles (R58, R59, R272). -/

namespace Sys2Proof.Machine

open Safety

/-! ### What a landing writes (R59) -/

section Landing
variable {a : Arch}

theorem marked_unmark (f : RFile) (n : Nat) : Marked a (a.unmark f n) f n false := by
  intro g m
  unfold Arch.marked Arch.unmark
  by_cases h : g = f ∧ m = n
  · simp [h]
  · simpa [h] using fun _ => not_and_or.mp h

theorem marked_mark (f : RFile) (n : Nat) : Marked a (a.mark f n) f n true := by
  intro g m
  unfold Arch.marked Arch.mark Arch.unmark
  by_cases h : g = f ∧ m = n
  · simp [h]
  · simpa [h] using fun _ => not_and_or.mp h

/-- A set or cleared predicate, whether or not the number names one. -/
theorem predBit_setP (p : BitVec 16) (n : Nat) (b : Bool) {m : Nat} (hm : m < 16) :
    predBit (predSet p n b) m = if m = n ∧ n ≠ 0 then b else predBit p m := by
  by_cases hn : n < 16
  · exact predBit_predSet p hn b
  · have hzero : BitVec.shiftLeft (1 : BitVec 16) n = 0 := BitVec.shiftLeft_eq_zero (Nat.not_lt.mp hn)
    have hpred : predSet p n b = p := by
      unfold predSet
      rw [hzero]
      cases b
      · simpa using fun _ => BitVec.and_allOnes (x := p)
      · simp
    rw [hpred, if_neg (by omega)]

theorem q_code_inj {q r : Q} (h : r.code = q.code) : r = q := by
  revert h
  cases q <;> cases r <;> decide

theorem vq_code_inj {q r : VQ} (h : r.code = q.code) : r = q := by
  revert h
  cases q <;> cases r <;> decide

theorem filled_fillQ (w : Sparse.wf [] a.qs = true) (q : Q) (id : Nat) (v : W64) (bad : Bool) : Filled a (a.fillQ q id v bad) q id v bad := by
  refine ⟨fun r => ?_, rfl⟩
  show Sparse.get [] (Sparse.set [] a.qs q.code _) r.code = _
  rw [Sparse.get_set w]
  by_cases h : r = q
  · rw [if_pos (congrArg Q.code h), if_pos h]
  · rw [if_neg (mt q_code_inj h), if_neg h]
    rfl

theorem vfilled_fillVQ (w : Sparse.wf [] a.vqs = true) (q : VQ) (id : Nat) (x : VReg) (bad : Bool) :
    VFilled a (a.fillVQ q id x bad) q id x bad := by
  refine ⟨fun r => ?_, rfl⟩
  show Sparse.get [] (Sparse.set [] a.vqs q.code _) r.code = _
  rw [Sparse.get_set w]
  by_cases h : r = q
  · rw [if_pos (congrArg VQ.code h), if_pos h]
  · rw [if_neg (mt vq_code_inj h), if_neg h]
    rfl

/-- A register table with one register that reads a fixed value `z` whatever stands there, written at another. -/
theorem hardwired_set {α : Type} [DecidableEq α] {d z x : α} {t : Sparse α} {n i m : Nat} (w : Sparse.wf d t = true) (hn : n ≠ i) :
    (if m = i then z else Sparse.get d (Sparse.set d t n x) m) = if m = n then x else if m = i then z else Sparse.get d t m := by
  rw [Sparse.get_set w]
  by_cases hi : m = i
  · rw [if_pos hi, if_neg (fun h => hn (h.symm.trans hi)), if_pos hi]
  · rw [if_neg hi, if_neg hi]

theorem landed_spoil (w : ArchWf a) (d : Dest) : Landed a (a.spoil d) (.bad d) := by
  obtain ⟨-, -, -, -, hq, hvq⟩ := w
  cases d with
  | a n =>
    dsimp only [Landed, Arch.spoil]
    split
    · rfl
    · exact ⟨marked_mark .a n, rfl⟩
  | q q id => exact filled_fillQ hq q id 0 true
  | vq q id => exact vfilled_fillVQ hvq q id 0 true
  | p _ => rfl
  | nowhere => rfl

/-- A landing writes what the rules say (R59, R431). -/
theorem landed_land (w : ArchWf a) (l : Landing) : Landed a (a.land l) l := by
  have wa := w
  obtain ⟨hs, ha, hv, hk, hq, hvq⟩ := w
  cases l with
  | s n v =>
    dsimp only [Landed, Arch.land, Arch.setS]
    by_cases h : n = 0
    · rw [if_pos h, if_pos h]
    · rw [if_neg h, if_neg h]
      exact ⟨fun m => hardwired_set hs h, marked_unmark .s n, rfl⟩
  | a n v =>
    dsimp only [Landed, Arch.land, Arch.setA]
    by_cases h : n = 0
    · rw [if_pos h, if_pos h]
    · rw [if_neg h, if_neg h]
      exact ⟨fun m => hardwired_set ha h, marked_unmark .a n, rfl⟩
  | v n x =>
    dsimp only [Landed, Arch.land, Arch.setV]
    by_cases h : n = 62
    · rw [if_pos h, if_pos h]
    · rw [if_neg h, if_neg h]
      exact ⟨fun m => hardwired_set hv h, marked_unmark .v n, rfl⟩
  | k n x =>
    dsimp only [Landed, Arch.land, Arch.setK]
    by_cases h : n = 0
    · rw [if_pos h, if_pos h]
    · rw [if_neg h, if_neg h]
      exact ⟨fun m => hardwired_set hk h, marked_unmark .k n, rfl⟩
  | p n b => exact ⟨fun m hm => predBit_setP a.p n b hm, rfl⟩
  | q q id v => exact filled_fillQ hq q id v false
  | vq q id x => exact vfilled_fillVQ hvq q id x false
  | sys n v => rfl
  | bcol => rfl
  | flagsOnly => rfl
  | bad d => exact landed_spoil wa d

end Landing

/-! ### The result that lands (R59) -/

section Lands
variable {s : State} {c : Nat} {side : Side} {a : Arch} {x z : List InFlight} {e : InFlight}

theorem splitFirst_append {f : InFlight → Bool} (hx : ∀ y ∈ x, f y = false) (he : f e = true) :
    splitFirst f (x ++ e :: z) = some (x, e, z) := by
  induction x with
  | nil => simp only [List.nil_append, splitFirst, he, if_true]
  | cons y x ih =>
    have hy : f y = false := hx y List.mem_cons_self
    simp only [List.cons_append, splitFirst, hy, Bool.false_eq_true, if_false]
    rw [ih fun y' hy' => hx y' (List.mem_cons_of_mem _ hy')]
    rfl

theorem landNext_eq (h : a.infl side = x ++ e :: z) (hx : ∀ y ∈ x, y.left ≠ 0) (he : e.left = 0) :
    a.landNext side = (a.setInfl side (x ++ z)).landOne e := by
  unfold Arch.landNext
  rw [h, splitFirst_append (fun y hy => beq_false_of_ne (hx y hy)) (beq_iff_eq.mpr he)]

theorem due_iff : a.due side = true ↔ ∃ e ∈ a.infl side, e.left = 0 := by
  unfold Arch.due
  simp only [List.any_eq_true, beq_iff_eq]

theorem archWf_setInfl (w : ArchWf a) (l : List InFlight) : ArchWf (a.setInfl side l) := by cases side <;> exact w

/-- The least of a list of numbers that begins a fold as its own first element. -/
theorem foldl_min_eq {l : List InFlight} {m n : Nat} (hle : ∀ y ∈ l, m ≤ y.left) (hn : m ≤ n) (hmem : n = m ∨ ∃ y ∈ l, y.left = m) :
    l.foldl (fun n e => min n e.left) n = m := by
  induction l generalizing n with
  | nil =>
    obtain h | ⟨y, hy, -⟩ := hmem
    · exact h
    · exact absurd hy List.not_mem_nil
  | cons y l ih =>
    have hy := hle y List.mem_cons_self
    refine ih (fun y' hy' => hle y' (List.mem_cons_of_mem _ hy')) (Nat.le_min.mpr ⟨hn, hy⟩) ?_
    obtain h | ⟨y', hy', h⟩ := hmem
    · exact .inl (by rw [h]; exact Nat.min_eq_left hy)
    · obtain rfl | hy' := List.mem_cons.mp hy'
      · exact .inl ((Nat.min_eq_right (h ▸ hn)).trans h)
      · exact .inr ⟨y', hy', h⟩

/-- The first of the queue entries among the results that lands the soonest is filled (log entry 19). -/
theorem fillNext_eq (h : a.infl side = x ++ e :: z) (he : e.what.entry?.isSome = true)
    (hx : ∀ y ∈ x, y.what.entry?.isSome = true → e.left < y.left) (hz : ∀ y ∈ z, y.what.entry?.isSome = true → e.left ≤ y.left) :
    a.fillNext side = (a.setInfl side (x ++ { e with what := .flagsOnly } :: z)).land e.what := by
  have hle : ∀ y ∈ (a.infl side).filter (·.what.entry?.isSome), e.left ≤ y.left := by
    intro y hy
    obtain ⟨hy, hsome⟩ := List.mem_filter.mp hy
    rw [h, List.mem_append, List.mem_cons] at hy
    obtain hy | rfl | hy := hy
    · exact Nat.le_of_lt (hx y hy hsome)
    · exact Nat.le_refl _
    · exact hz y hy hsome
  have hmem : e ∈ (a.infl side).filter (·.what.entry?.isSome) := List.mem_filter.mpr ⟨h ▸ List.mem_append_right _ List.mem_cons_self, he⟩
  unfold Arch.fillNext
  dsimp only
  have hfirst : ((a.infl side).filter (·.what.entry?.isSome)).foldl (fun n e => min n e.left)
      ((((a.infl side).filter (·.what.entry?.isSome)).head?.map (·.left)).getD 0) = e.left := by
    refine foldl_min_eq hle ?_ (.inr ⟨e, hmem, rfl⟩)
    cases hl : (a.infl side).filter (·.what.entry?.isSome) with
    | nil => exact absurd (hl ▸ hmem) List.not_mem_nil
    | cons y l => exact hle y (hl ▸ List.mem_cons_self)
  rw [hfirst, h, splitFirst_append (fun y hy => ?_) (by simp [he])]
  rw [Bool.and_eq_false_imp]
  exact fun hsome => beq_false_of_ne (Nat.ne_of_gt (hx y hy hsome))

end Lands

/-! ### The bench (R272) -/

section Bench
variable {k : Core} {side : Side} {q : Nat} {o : Op} {rest : List Op}

theorem headOp_eq_some (h : Sparse.get [] k.ops q = o :: rest) : k.headOp q = some o := by
  unfold Core.headOp Core.opsOf
  rw [h, List.head?_cons]

theorem headOp_iff : k.headOp q = some o ↔ ∃ rest, Sparse.get [] k.ops q = o :: rest := by
  refine ⟨fun h => ?_, fun ⟨rest, h⟩ => headOp_eq_some h⟩
  unfold Core.headOp Core.opsOf at h
  exact List.head?_eq_some_iff.mp h

theorem setHead_eq (h : Sparse.get [] k.ops q = o :: rest) (p : Op) : k.setHead q p = { k with ops := Sparse.set [] k.ops q (p :: rest) } := by
  unfold Core.setHead Core.setOps Core.opsOf
  rw [h, List.drop_one, List.tail_cons]

theorem mem_benchQueues : q ∈ k.benchQueues side ↔ q < 7 ∧ (side = .access ↔ q = 2 ∨ q = 3) ∧
    ∃ o rest, Sparse.get [] k.ops q = o :: rest ∧ o.state = .bench ∧ o.code ≠ .mlat := by
  unfold Core.benchQueues
  rw [List.mem_filter, List.mem_range, Bool.and_eq_true]
  refine and_congr_right fun _ => and_congr ?_ ?_
  · rw [beq_iff_eq, Bool.eq_iff_iff, Bool.or_eq_true, beq_iff_eq, beq_iff_eq, beq_iff_eq]
    exact Iff.comm
  · cases hhead : k.headOp q with
    | none =>
      refine iff_of_false Bool.false_ne_true ?_
      rintro ⟨o, rest, h, -⟩
      rw [headOp_eq_some h] at hhead
      exact Option.some_ne_none _ hhead
    | some o =>
      obtain ⟨rest, h⟩ := headOp_iff.mp hhead
      dsimp only
      rw [Bool.and_eq_true, beq_iff_eq, decide_eq_true_iff]
      refine ⟨fun ho => ⟨o, rest, h, ho⟩, ?_⟩
      rintro ⟨o', rest', h', ho⟩
      rw [h] at h'
      injection h' with h'
      exact h' ▸ ho

theorem benchQueues_pairwise (k : Core) (side : Side) : (k.benchQueues side).Pairwise (· < ·) := List.pairwise_lt_range.filter _

/-- In a list that ascends, the first that a test accepts is below every other that it accepts. -/
theorem find?_ascending {l : List Nat} {f : Nat → Bool} (h : l.Pairwise (· < ·)) (hq : q ∈ l) (hf : f q = true)
    (hleast : ∀ r ∈ l, f r = true → q ≤ r) : l.find? f = some q := by
  induction l with
  | nil => exact absurd hq List.not_mem_nil
  | cons r l ih =>
    obtain ⟨hr, hl⟩ := List.pairwise_cons.mp h
    rw [List.find?_cons]
    cases hfr : f r with
    | true =>
      obtain rfl | hq := List.mem_cons.mp hq
      · rfl
      · exact absurd (hr q hq) (Nat.not_lt.mpr (hleast r List.mem_cons_self hfr))
    | false =>
      obtain rfl | hq := List.mem_cons.mp hq
      · exact Bool.noConfusion (hf.symm.trans hfr)
      · exact ih hl hq fun r' hr' => hleast r' (List.mem_cons_of_mem _ hr')

/-- The bench's cycle goes to the queue whose turn it is. -/
theorem benchCycle_turn (hturn : ((k.benchQueues side).find? (k.benchLast side < ·)).or (k.benchQueues side).head? = some q)
    (h : Sparse.get [] k.ops q = o :: rest) : k.benchCycle side =
      ({ k with ops := Sparse.set [] k.ops q ({ o with cycles := o.cycles + 1 } :: rest) } : Core).setBench side 0 q := by
  unfold Core.benchCycle
  dsimp only
  rw [hturn]
  dsimp only
  rw [headOp_eq_some h]
  dsimp only
  rw [setHead_eq h]

theorem bench_turn (hq : q ∈ k.benchQueues side)
    (hturn : (k.benchLast side < q ∧ (∀ r ∈ k.benchQueues side, r ≤ k.benchLast side ∨ q ≤ r)) ∨
      ∀ r ∈ k.benchQueues side, r ≤ k.benchLast side ∧ q ≤ r) :
    ((k.benchQueues side).find? (k.benchLast side < ·)).or (k.benchQueues side).head? = some q := by
  have hasc := benchQueues_pairwise k side
  obtain ⟨hlast, hleast⟩ | hall := hturn
  · rw [find?_ascending hasc hq (decide_eq_true hlast) fun r hr hf => (hleast r hr).resolve_left (by simpa using hf)]
    rfl
  · have hnone : (k.benchQueues side).find? (k.benchLast side < ·) = none :=
      List.find?_eq_none.mpr fun r hr => by simpa using (hall r hr).1
    have hhead : (k.benchQueues side).find? (fun _ => true) = some q := find?_ascending hasc hq rfl fun r hr _ => (hall r hr).2
    rw [hnone, Option.none_or]
    cases hl : k.benchQueues side with
    | nil => exact absurd (hl ▸ hq) List.not_mem_nil
    | cons r l =>
      rw [hl] at hhead
      exact hhead

end Bench

/-- Settles O38. -/
theorem resultsLand : Obligations.ResultsLand := by
  unfold Obligations.ResultsLand
  refine ⟨?wait, ?lands, ?nothing, ?fills, ?steals, ?steps, fun k side q => mem_benchQueues, ?turn⟩
  case wait =>
    intro s c side hcan hwait hsettled hheld
    have hpasses : s.waitPasses c side = true := by
      unfold State.waitPasses
      cases side with
      | execute => simpa [hcan, hsettled] using hwait
      | access => simpa [hcan, hsettled, hheld rfl] using hwait
    show execStallCountExpiry c side s = _
    unfold execStallCountExpiry
    dsimp only
    rw [if_pos hpasses]
    cases side <;> rfl
  case lands =>
    intro s c side x z e hlive hwf hin hx he
    refine ⟨_, landed_land (archWf_setInfl hwf _) e.what, ?_⟩
    have hdue : (s.core c).arch.due side = true := due_iff.mpr ⟨e, hin ▸ List.mem_append_right _ List.mem_cons_self, he⟩
    show execResultLands c side s = _
    unfold execResultLands
    rw [if_neg (by simp [hlive]), if_pos hdue]
    unfold State.onArch State.onCore
    dsimp only
    rw [landNext_eq hin hx he]
    rfl
  case nothing =>
    intro s c side _ hleft hstall
    have hdue : ¬ (s.core c).arch.due side = true := fun h => by
      obtain ⟨e, he, hzero⟩ := due_iff.mp h
      exact hleft e he hzero
    show execResultLands c side s = _
    unfold execResultLands
    rw [if_neg hdue, hstall, if_neg Bool.false_ne_true, ite_self]
  case fills =>
    intro s c side x z e hlive hwf hstall hleft hin he hx hz
    refine ⟨_, landed_land (archWf_setInfl hwf _) e.what, ?_⟩
    have hdue : ¬ (s.core c).arch.due side = true := fun h => by
      obtain ⟨e, he, hzero⟩ := due_iff.mp h
      exact hleft e he hzero
    show execResultLands c side s = _
    unfold execResultLands
    rw [if_neg (by simp [hlive]), if_neg hdue, if_pos hstall]
    unfold State.onArch State.onCore
    dsimp only
    rw [fillNext_eq hin he hx hz]
  case steals =>
    intro s c side hbench hwhen
    show execBenchCycleSteal c side s = _
    unfold execBenchCycleSteal
    dsimp only
    rw [if_pos (by simpa [hbench] using hwhen)]
  case steps =>
    intro s c side hwhen
    show execBenchCycleSteal c side s = _
    unfold execBenchCycleSteal
    dsimp only
    rw [if_neg]
    rintro h
    rw [Bool.and_eq_true, Bool.or_eq_true, decide_eq_true_iff] at h
    obtain hbench | ⟨hidle, hstill⟩ := hwhen
    · exact Bool.false_ne_true (hbench.symm.trans h.1)
    · exact h.2.elim (Nat.not_le.mpr hidle) fun hs => Bool.false_ne_true (hstill.symm.trans hs)
  case turn =>
    intro k side q o rest hq h hturn
    exact benchCycle_turn (bench_turn hq hturn) h

end Sys2Proof.Machine

/-! Proofs for spec/04 and spec/06 (traps): the entry into the trap handler (R78, R126, R311). -/

namespace Sys2Proof.Machine

open Safety

section TrapEntry
variable {s : State} {c : Nat}

theorem mayTrap_iff : s.mayTrap c = true ↔ s.canIssue c = true ∧ (s.core c).wait = .none ∧ (s.core c).mustClose = false ∧
    (s.core c).arch.ahead = [] ∧ (s.core c).arch.waitX = 0 ∧ (s.core c).arch.settled .execute = true ∧
    (s.core c).arch.settled .access = true ∧ (s.core c).arch.skip = 0 ∧ (s.core c).arch.till = none := by
  simp [State.mayTrap, and_assoc]

theorem trapEntry_waits (h : ¬ (s.mayTrap c = true ∧ (s.core c).arch.accs = [])) : exec (.trapEntry c) s = .next s := by
  show execTrapEntry c s = _
  unfold execTrapEntry
  dsimp only
  rw [if_pos]
  rw [Bool.or_eq_true, Bool.not_eq_true', Bool.not_eq_true', List.isEmpty_eq_false_iff]
  rw [Classical.not_and_iff_not_or_not, Bool.not_eq_true] at h
  exact h

theorem trapEntry_asked {r : TrapReq} (hmay : s.mayTrap c = true) (haccs : (s.core c).arch.accs = []) (htrap : (s.core c).arch.trap = some r) :
    exec (.trapEntry c) s = .next (s.takeTrap c r.cause r.addr (if r.post then (s.core c).arch.pc else r.epc)) := by
  show execTrapEntry c s = _
  simp only [execTrapEntry, hmay, haccs, htrap, Bool.not_true, List.isEmpty_nil, Bool.or_self, Bool.false_eq_true, if_false]

theorem trapEntry_conflict {v : W64} {rest : List W64} (hmay : s.mayTrap c = true) (haccs : (s.core c).arch.accs = [])
    (htrap : (s.core c).arch.trap = none) (hconflicts : (s.core c).conflicts = v :: rest) (hexc : (s.core c).arch.exc = false) :
    exec (.trapEntry c) s = .next (if (s.core c).closedFor then
      (s.onCore c fun k => { k with conflicts := rest }).takeTrap c ecStepped v (s.core c).arch.pc else s.onCore c Core.askClose) := by
  show execTrapEntry c s = _
  simp only [execTrapEntry, hmay, haccs, htrap, hconflicts, hexc, Bool.not_true, List.isEmpty_nil, Bool.or_self, Bool.false_eq_true, if_false]
  cases (s.core c).closedFor <;> rfl

theorem takeTrap_pins {cause : Nat} {addr epc : W64} (hexc : (s.core c).arch.exc = true) :
    s.takeTrap c cause addr epc = s.pinCore c causeHandlerTrap := if_pos hexc

theorem takeTrap_enters {cause : Nat} {addr epc : W64} (hexc : (s.core c).arch.exc = false) :
    s.takeTrap c cause addr epc =
      s.setCore c { (s.core c).askClose with arch := (s.core c).arch.enterTrap cause addr epc } :=
  if_neg (by rw [hexc]; exact Bool.false_ne_true)

end TrapEntry

/-- Settles O40. -/
theorem trapEntryTakes : Obligations.TrapEntryTakes := by
  unfold Obligations.TrapEntryTakes
  intro taken s c w k a ready
  have hready : ready ↔ s.mayTrap c = true ∧ a.accs = [] := by
    rw [mayTrap_iff]
    simp only [ready, k, a, and_assoc]
  refine ⟨fun r htrap h hexc => ?_, fun r htrap h hexc => ?_, fun v rest htrap hconflicts h hexc => ?_, fun h => trapEntry_waits (mt hready.mpr h)⟩
  · obtain ⟨hmay, haccs⟩ := hready.mp h
    rw [trapEntry_asked hmay haccs htrap, takeTrap_enters hexc]
    rfl
  · obtain ⟨hmay, haccs⟩ := hready.mp h
    rw [trapEntry_asked hmay haccs htrap, takeTrap_pins hexc]
    rfl
  · obtain ⟨hmay, haccs⟩ := hready.mp h
    rw [trapEntry_conflict hmay haccs htrap hconflicts hexc]
    refine ⟨fun hclosed => ?_, fun hclosed => ?_⟩
    · rw [if_neg (by rw [hclosed]; exact Bool.false_ne_true)]
      rfl
    · rw [if_pos hclosed]
      unfold State.onCore
      rw [takeTrap_enters (by rw [State.core_setCore_same w]; exact hexc), State.core_setCore_same w, State.setCore_setCore w]
      rfl

end Sys2Proof.Machine

/-! Proofs for spec/12 (scratchpad): a fill at an offset far beyond the scratchpad (R195, R254). -/

namespace Sys2Proof.Machine

open Safety

/-! ### A fill whose line has the name of another core's line

Nothing in the statement keeps the offset of a pending store within the scratchpad. `lineKey` names a line by its space and its number
below `2 ^ 64`: line `2 ^ 64` of core 0 has the name of line 0 of core 1, so its fill serves the load of core 1 that waits there. -/

/-- A filling store of one byte at line `2 ^ 64`, at its access point. -/
def farFill : Acc := { kind := .st (128 * 2 ^ 64) 0 0 true, left := 0, bundle := 0, seq := 0, stale := false, released := false }

/-- Core 0 runs a launch and stands at the access point of the store; a load of core 1 waits on its line 0. -/
def farFillState : State :=
  { State.reset with
    cores := [(0, { Core.reset with launch := some 0, arch := { Arch.reset with accs := [farFill] } }),
      (1, { Core.reset with waiters := [(0, readerLoad)] })]
    launches := [{ (default : Launch) with grantNo := 1 }] }

/-- The waiting readers of core 1 after a step. -/
def waitersOfCore1 : Out → Option (List (Nat × Nat))
  | .next t => some (t.core 1).waiters
  | _ => none

theorem farFillState_coresWf : CoresWf farFillState := by
  unfold CoresWf
  decide +kernel

theorem farFill_serves : waitersOfCore1 (exec (.scratchpadAccessPoint 0) farFillState) = some [] := by decide +kernel

theorem farFill_atAccessPoint : AtAccessPoint farFillState 0 farFill := by
  refine ⟨farFillState_coresWf, by decide +kernel, by decide +kernel, rfl, by decide +kernel, by decide +kernel, nofun, nofun, rfl, ?_⟩
  intro q o hq
  cases hq

/-- Refutes O39: the fill of line `2 ^ 64` of core 0 changes core 1. -/
theorem not_scratchpadAccessesPerform : ¬ Obligations.ScratchpadAccessesPerform := by
  unfold Obligations.ScratchpadAccessesPerform
  intro h
  obtain ⟨-, -, -, -, -, hstore, -⟩ := h
  obtain ⟨k, l, hexec, -⟩ := hstore farFillState 0 farFill (128 * 2 ^ 64) 0 0 true ⟨rfl, rfl, rfl⟩ farFill_atAccessPoint rfl
  have hkept : (farFillState.setCore 0 k).core 1 = farFillState.core 1 := by
    rw [State.core_setCore farFillState_coresWf]
    rfl
  have hserved := farFill_serves
  rw [hexec] at hserved
  have hwaiters : ((farFillState.setCore 0 k).core 1).waiters = [] := Option.some.inj hserved
  rw [hkept] at hwaiters
  exact absurd hwaiters (by decide +kernel)

end Sys2Proof.Machine

/-! Proofs for spec/14 (segments) and spec/26 (doubles): the close of a segment, rewinds, the comparison of signatures (R290 to R295,
R427, R428). -/

namespace Sys2Proof.Machine

open Safety

/-! ### The commit buffer leaves (R197, R293, R362) -/

/-- What the statement notes of a write that has left the core. -/
def Write.noted (w : Write) : WriteKind × Nat × Nat × Bool × Nat := (w.kind, w.ch, w.seq, w.rel, w.frame)

/-- From `k` to `t` writes have left the core, and nothing else has changed. -/
def LeftBy (k t : Core) (l : List (WriteKind × Nat × Nat × Bool × Nat)) : Prop :=
  t.out.map Write.noted = k.out.map Write.noted ++ l ∧ { t with out := k.out, offId := k.offId } = k

section Leaving
variable {k t u : Core} {l m : List (WriteKind × Nat × Nat × Bool × Nat)}

theorem LeftBy.refl (k : Core) : LeftBy k k [] := ⟨(List.append_nil _).symm, rfl⟩

theorem LeftBy.trans (h : LeftBy k t l) (h' : LeftBy t u m) : LeftBy k u (l ++ m) := by
  obtain ⟨hout, hrest⟩ := h
  obtain ⟨hout', hrest'⟩ := h'
  refine ⟨by rw [hout', hout, List.append_assoc], ?_⟩
  rw [← hrest, ← hrest']

theorem LeftBy.side (h : LeftBy k t l) : t.side = k.side := by
  have hside := congrArg Core.side h.2
  exact hside
theorem LeftBy.table (h : LeftBy k t l) : t.table = k.table := by
  have htable := congrArg Core.table h.2
  exact htable

/-- A write that meets no absent subpage goes out where the side log is empty. -/
theorem send_leaves {w : Write} (hside : k.side = []) (hhere : ∀ r ∈ w.kind.ranges, meetsAbsent k.table .write r.1 = false) :
    LeftBy k (k.send w) [w.noted] := by
  have hstays : k.strays w = false := by
    unfold Core.strays
    rw [hside, List.any_nil, Bool.or_false]
    exact List.any_eq_false.mpr fun r hr => Bool.eq_false_iff.mp (hhere r hr)
  unfold Core.send
  rw [if_neg (by rw [hstays]; exact Bool.false_ne_true)]
  exact ⟨by rw [List.map_append]; rfl, rfl⟩

/-- What a write leaves with, line by line. -/
def Write.leaves (w : Write) : List (WriteKind × Nat × Nat × Bool × Nat) := w.kind.split.map fun x => (x, w.ch, w.seq, w.rel, w.frame)

theorem nextId_leaves (k : Core) : LeftBy k k.nextId.2 [] := ⟨(List.append_nil _).symm, rfl⟩

theorem splits_leave {w : Write} (kinds : List WriteKind) (hside : k.side = [])
    (hhere : ∀ x ∈ kinds, ∀ r ∈ x.ranges, meetsAbsent k.table .write r.1 = false) :
    LeftBy k (kinds.foldl (fun k x => let (i, k) := k.nextId; k.send { w with id := i, kind := x }) k)
      (kinds.map fun x => (x, w.ch, w.seq, w.rel, w.frame)) := by
  induction kinds generalizing k with
  | nil => exact LeftBy.refl k
  | cons x kinds ih =>
    have hid := nextId_leaves k
    have hsend : LeftBy k (k.nextId.2.send { w with id := k.nextId.1, kind := x }) [(x, w.ch, w.seq, w.rel, w.frame)] :=
      hid.trans (send_leaves (hid.side.trans hside) fun r hr => by rw [hid.table]; exact hhere x List.mem_cons_self r hr)
    exact hsend.trans (ih (hsend.side.trans hside) fun y hy r hr => by
      rw [hsend.table]
      exact hhere y (List.mem_cons_of_mem _ hy) r hr)

theorem releases_leave (ws : List Write) (hside : k.side = [])
    (hhere : ∀ w ∈ ws, ∀ x ∈ w.kind.split, ∀ r ∈ x.ranges, meetsAbsent k.table .write r.1 = false) :
    LeftBy k (ws.foldl Core.release k) (ws.flatMap Write.leaves) := by
  induction ws generalizing k with
  | nil => exact LeftBy.refl k
  | cons w ws ih =>
    have hfirst : LeftBy k (k.release w) w.leaves := splits_leave _ hside (hhere w List.mem_cons_self)
    exact hfirst.trans (ih (hfirst.side.trans hside) fun y hy x hx r hr => by
      rw [hfirst.table]
      exact hhere y (List.mem_cons_of_mem _ hy) x hx r hr)

theorem meetsAbsent_false {table : Sparse TEntry} {need : Need} {va : Nat} (h : ∀ i n, lookup table need va ≠ .absent i n) :
    meetsAbsent table need va = false := by
  unfold meetsAbsent
  split
  next i n hl => exact absurd hl (h i n)
  next => rfl

theorem leave_leaves (hside : k.side = [])
    (hhere : ∀ w ∈ k.seg.commit, ∀ x ∈ w.kind.split, ∀ r ∈ x.ranges, ∀ i n, lookup k.table .write r.1 ≠ .absent i n) :
    LeftBy { k with seg := { k.seg with commit := [], leaving := true } } k.leave (k.seg.commit.flatMap Write.leaves) :=
  releases_leave (k := { k with seg := { k.seg with commit := [], leaving := true } }) _ hside fun w hw x hx r hr =>
    meetsAbsent_false (hhere w hw x hx r hr)

end Leaving

/-! ### The close -/

section Close
variable {s : State} {c : Nat}

/-- A close that is asked for goes on. -/
theorem segmentClose_goes (hmust : (s.core c).mustClose = true) (hlive : s.lively c = true) (hhalted : s.halted c = false)
    (hat : (s.core c).seg.errorAt ≠ none ∨ (s.core c).arch.ahead = [] ∧ (s.core c).arch.waitX = 0 ∧ (s.core c).arch.waitA = 0) :
    exec (.segmentClose c) s = .next ((s.closeSegment c false).getD s) := by
  show execSegmentClose c s = _
  unfold execSegmentClose
  dsimp only
  rw [if_pos]
  rw [hmust, hlive, hhalted]
  obtain herror | ⟨hahead, hx, ha⟩ := hat
  · simp [Option.isSome_iff_ne_none.mpr herror]
  · simp [hahead, hx, ha]

/-- Nothing that a close waits for is under way. -/
theorem closeSegment_leaving (hoffs : (s.core c).offs = []) (hunchecked : (s.core c).unchecked = []) (hleaving : (s.core c).seg.leaving = true)
    (hout : (s.core c).out = []) : s.closeSegment c false = some (s.setCore c (s.core c).commit) := by
  unfold State.closeSegment
  simp only [hoffs, hunchecked, hleaving, hout, List.isEmpty_nil, Bool.not_true, Bool.or_self, Bool.false_eq_true, if_false, if_true]

theorem closeSegment_error (hoffs : (s.core c).offs = []) (hunchecked : (s.core c).unchecked = []) (hleaving : (s.core c).seg.leaving = false)
    (herror : ((s.core c).seg.bad || (s.core c).seg.errorAt.isSome) = true) (hdecided : (s.core c).undecided false = false) :
    s.closeSegment c false = some (s.rewindCore c) := by
  unfold State.closeSegment
  simp only [hoffs, hunchecked, hleaving, herror, hdecided, List.isEmpty_nil, Bool.not_true, Bool.or_self, Bool.false_eq_true, if_false, if_true]

theorem closeSegment_good (hoffs : (s.core c).offs = []) (hunchecked : (s.core c).unchecked = []) (hleaving : (s.core c).seg.leaving = false)
    (hbad : (s.core c).seg.bad = false) (herror : (s.core c).seg.errorAt = none) (haccs : (s.core c).arch.accs = [])
    (hfits : (s.core c).leave.fits = true) : s.closeSegment c false =
      if (s.core c).leave.out.isEmpty then some (s.setCore c (s.core c).leave.commit) else some (s.setCore c (s.core c).leave) := by
  unfold State.closeSegment
  simp only [hoffs, hunchecked, hleaving, hbad, herror, haccs, hfits, List.isEmpty_nil, List.any_nil, Option.isSome_none, Bool.not_true,
    Bool.or_self, Bool.false_eq_true, if_false]

/-- The commit of a core that waits for nothing, at a bundle boundary. -/
theorem commit_eq {k : Core} (hahead : k.arch.ahead = []) (hwait : k.wait = .none) : k.commit = { k with
    seg := { Segment.openAt k.arch with
      closedFor := true, deferred := k.deferred, errorAt := k.seg.errorAt, bad := k.seg.bad
      recorded := k.seg.recorded.filter fun r => decide (k.arch.issued ≤ r.bundle) }
    mustClose := false, closedFor := true } := by
  unfold Core.commit
  simp only [hahead, hwait, List.isEmpty_nil, List.length_nil, Nat.add_zero, ne_eq, not_true_eq_false, decide_false, Bool.false_and,
    Bool.or_false]
  rfl

theorem leave_fits {k : Core} (hside : k.side = [])
    (hhere : ∀ w ∈ k.seg.commit, ∀ x ∈ w.kind.split, ∀ r ∈ x.ranges, ∀ i n, lookup k.table .write r.1 ≠ .absent i n) :
    k.leave.fits = true := by
  rw [fits_iff, (leave_leaves hside hhere).side, hside]
  exact Nat.zero_le _

end Close

/-! ### Rewinds (R294) -/

section Rewind
variable {k : Core}

/-- What an undo buffer gives back at a byte: its earliest record of it. -/
def undoneByte (l : List Undo) (a : Nat) (now : Byte) : Byte :=
  match l.find? (fun u => match u with | .byte x _ => x == a | _ => false) with
  | some (.byte _ old) => old
  | _ => now

/-- The same of the full bit of a line. -/
def undoneFull (l : List Undo) (line : Nat) (now : Bool) : Bool :=
  match l.find? (fun u => match u with | .full x _ => x == line | _ => false) with
  | some (.full _ old) => old
  | _ => now

theorem undoneByte_byte (x : Nat) (old : Byte) (l : List Undo) (a : Nat) (now : Byte) :
    undoneByte (.byte x old :: l) a now = if a = x then old else undoneByte l a now := by
  unfold undoneByte
  by_cases h : a = x
  · simp [h]
  · simp [h, Ne.symm h]

theorem undoneFull_full (x : Nat) (old : Bool) (l : List Undo) (a : Nat) (now : Bool) :
    undoneFull (.full x old :: l) a now = if a = x then old else undoneFull l a now := by
  unfold undoneFull
  by_cases h : a = x
  · simp [h]
  · simp [h, Ne.symm h]

/-- The undo buffer undone in reverse order. -/
def Core.undone (k : Core) (l : List Undo) : Core := l.foldr (fun u k => k.undoOne u) k

theorem undoOne_spmWf (w : SpmWf k) (u : Undo) : SpmWf (k.undoOne u) := by
  obtain ⟨hscratch, hfull, hmarks⟩ := w
  cases u with
  | byte a old => exact ⟨putMem_wf hscratch, hfull, hmarks⟩
  | full line old => exact ⟨hscratch, Sparse.set_wf hfull, hmarks⟩
  | mark w => exact ⟨hscratch, hfull, Sparse.set_wf hmarks⟩

theorem undone_spmWf (w : SpmWf k) (l : List Undo) : SpmWf (k.undone l) := by
  induction l with
  | nil => exact w
  | cons u l ih => exact undoOne_spmWf ih u

theorem spmByte_undone (w : SpmWf k) (l : List Undo) (a : Nat) : spmByte (k.undone l) a = undoneByte l a (spmByte k a) := by
  induction l with
  | nil => rfl
  | cons u l ih =>
    obtain ⟨hscratch, -, -⟩ := undone_spmWf w l
    cases u with
    | byte x old =>
      rw [undoneByte_byte, ← ih]
      exact Sparse.get_set hscratch a
    | full x old => exact ih
    | mark x => exact ih

theorem isFull_undone (w : SpmWf k) (l : List Undo) (line : Nat) : (k.undone l).isFull line = undoneFull l line (k.isFull line) := by
  induction l with
  | nil => rfl
  | cons u l ih =>
    obtain ⟨-, hfull, -⟩ := undone_spmWf w l
    cases u with
    | byte x old => exact ih
    | full x old =>
      rw [undoneFull_full, ← ih]
      exact Sparse.get_set hfull line
    | mark x => exact ih

/-- Undoing changes bytes, full bits and marks of the scratchpad only. -/
theorem undone_eq (k : Core) (l : List Undo) :
    k.undone l = { k with scratch := (k.undone l).scratch, full := (k.undone l).full, marks := (k.undone l).marks } := by
  induction l with
  | nil => rfl
  | cons u l ih =>
    have hcons : k.undone (u :: l) = (k.undone l).undoOne u := rfl
    rw [hcons]
    generalize k.undone l = t at ih ⊢
    rw [ih]
    cases u <;> rfl

theorem undone_out (k : Core) (l : List Undo) : (k.undone l).out = k.out := by rw [undone_eq]

theorem undone_side (k : Core) (l : List Undo) : (k.undone l).side = k.side := by rw [undone_eq]

theorem restore_eq (cp now : Arch) (arrived : List (Q × QEntry)) : cp.restore now arrived =
    { cp with
      qs := (cp.restore now arrived).qs, qid := now.qid
      accs := cp.accs ++ now.accs.filter fun c => c.released && !cp.accs.contains c
      latchE := now.latchE, latchS := now.latchS, latchMarks := now.latchMarks, trap := cp.trap.filter (·.post) } := by
  have hfold : ∀ (f : Arch → Q × QEntry → List QEntry) (a : Arch),
      arrived.foldl (fun a x => a.setQ x.1 (f a x)) a = { a with qs := (arrived.foldl (fun a x => a.setQ x.1 (f a x)) a).qs } := by
    intro f
    induction arrived with
    | nil => exact fun a => rfl
    | cons x l ih => exact fun a => (ih _).trans rfl
  unfold Arch.restore
  dsimp only
  rw [hfold]

/-- A stream that waited for nothing at the opening boundary waits for nothing again. -/
theorem waitAgain_free (h : k.seg.wait = .none) : k.waitAgain = { k with deferred := k.seg.deferred, wait := .none } := by
  unfold Core.waitAgain
  dsimp only
  rw [h]
  cases k.seg.recorded.find? fun r => decide (r.slot < 2) && decide (r.bundle < k.arch.issued) with
  | none => rfl
  | some r =>
    dsimp only
    split <;> rfl

end Rewind

/-! ### Rendezvous and signatures -/

section Meetings
variable {s : State} {c : Nat}

/-- The rewound core, where it waited for nothing at the opening boundary, with the records that it keeps. -/
def rewound (k : Core) (recorded : List Recorded) (run : RunState) : Core :=
  { k.undone k.seg.undo with
    arch := k.seg.checkpoint.restore k.arch k.seg.arrived
    waiters := (k.undone k.seg.undo).waiters.filter fun x => 2 ≤ x.2
    caught := []
    seg :=
      { k.seg with
        commit := [], undo := [], recorded := recorded, rewinds := k.seg.rewinds + 1, errorAt := none, bad := false }
    mustClose := false, closedFor := k.seg.closedFor, rvPassed := false, rewindFlag := true
    rewindTo := k.seg.errorAt.getD k.arch.issued, redoTo := max k.redoTo k.arch.issued, run := run
    unchecked := [], gated := [], deferred := k.seg.deferred, wait := .none }

theorem rewind_eq {k : Core} (h : k.seg.wait = .none) : ∃ recorded run, k.rewind = rewound k recorded run := by
  have hundone : k.seg.undo.reverse.foldl Core.undoOne k = k.undone k.seg.undo := List.foldl_reverse
  have hfields := undone_eq k k.seg.undo
  unfold rewound Core.rewind
  rw [hundone]
  generalize k.undone k.seg.undo = u at hfields ⊢
  rw [hfields]
  exact ⟨_, _, waitAgain_free h⟩

theorem rendezvous_passes {l : Launch} {b : Bundle} {next : W64} (hlaunch : s.launchOf c = some l) (hcan : s.canIssue c = true)
    (hpoised : (s.core c).poised = true) (hmust : (s.core c).mustClose = false) (hflags : ∀ d ∈ s.group c, (s.core d).rewindFlag = false)
    (hfetch : (s.fetch c l.asid (s.dictOf c) (s.core c).arch.pc).1 = .bundle b next)
    (hseg : b.seg = 2 ∨ 2 ≤ b.seg ∧ (s.core c).closedFor = true) :
    exec (.rendezvous c) s = .next (s.setCore c { s.core c with rvPassed := true }) := by
  have hany : ((s.group c).any fun d => (s.core d).rewindFlag) = false :=
    List.any_eq_false.mpr fun d hd => Bool.eq_false_iff.mp (hflags d hd)
  show execRendezvous c s = _
  unfold execRendezvous
  dsimp only
  rw [hlaunch]
  dsimp only
  rw [if_neg (by rw [hcan, hpoised, hmust, hany]; exact Bool.false_ne_true), hfetch]
  dsimp only
  rw [if_pos]
  · rfl
  · obtain h | ⟨h, hclosed⟩ := hseg
    · exact ⟨Nat.le_of_eq h.symm, .inl h⟩
    · exact ⟨h, .inr hclosed⟩

/-- Equal signatures (R427). -/
theorem signatures_match {fault : Nat} {x : Shadow} {rest : List Shadow} (hdoubled : s.doubled c = true)
    (hunchecked : (s.core c).unchecked = x :: rest)
    (heq : crc32 (effects x ((rest.head?).getD (s.core c).shadow)) = crc32 (disturb (effects x ((rest.head?).getD (s.core c).shadow)) fault)) :
    exec (.signatureCompare c fault) s = .next ((s.setCore c
      ({ s.core c with unchecked := rest, base := (rest.head?).getD (s.core c).shadow } : Core).openGates).onCore (c + 1) fun f =>
        f.followTo (s.core c).base ((rest.head?).getD (s.core c).shadow)) := by
  show execSignatureCompare c fault s = _
  unfold execSignatureCompare
  dsimp only
  rw [hunchecked]
  dsimp only
  rw [if_neg (by rw [hdoubled]; exact Bool.false_ne_true), if_pos heq]

/-- A mismatch (R428). -/
theorem signatures_differ {fault : Nat} {x : Shadow} {rest : List Shadow} (hdoubled : s.doubled c = true)
    (hunchecked : (s.core c).unchecked = x :: rest)
    (hne : crc32 (effects x ((rest.head?).getD (s.core c).shadow)) ≠ crc32 (disturb (effects x ((rest.head?).getD (s.core c).shadow)) fault)) :
    exec (.signatureCompare c fault) s = .next (s.setCore c
      ({ s.core c with
        unchecked := [], mustClose := true, seg := { (s.core c).seg with errorAt := some (s.core c).arch.issued } } : Core).dropGated) := by
  show execSignatureCompare c fault s = _
  unfold execSignatureCompare
  dsimp only
  rw [hunchecked]
  dsimp only
  rw [if_neg (by rw [hdoubled]; exact Bool.false_ne_true), if_neg hne]

end Meetings

/-- Settles O41. -/
theorem segmentsClose : Obligations.SegmentsClose := by
  unfold Obligations.SegmentsClose
  intro closing boundary
  refine ⟨?leaves, ?commits, ?rewinds, ?rendezvous, ?signatures⟩
  case leaves =>
    intro s c ⟨hlive, hhalted, hmust, hoffs, hunchecked⟩ hboundary hleaving hbad herror haccs hside k leaves hhere hsome
    obtain ⟨hout, hrest⟩ := leave_leaves hside hhere
    refine ⟨k.leave, ?_, hout, hrest⟩
    have hne : ¬ k.leave.out.isEmpty = true := fun h => by
      rw [List.isEmpty_iff.mp h, List.map_nil] at hout
      obtain ⟨hnone, hnil⟩ := List.append_eq_nil_iff.mp hout.symm
      exact hsome.elim (· (List.map_eq_nil_iff.mp hnone)) (· hnil)
    rw [segmentClose_goes hmust hlive hhalted (.inr hboundary),
      closeSegment_good hoffs hunchecked hleaving hbad herror haccs (leave_fits hside hhere), if_neg hne]
    rfl
  case commits =>
    intro s c ⟨hlive, hhalted, hmust, hoffs, hunchecked⟩ hboundary hout hwait hcase k
    have hahead := hboundary.1
    rw [segmentClose_goes hmust hlive hhalted (.inr hboundary)]
    obtain hleaving | ⟨hbad, herror, hcommit, haccs, hside⟩ := hcase
    · rw [closeSegment_leaving hoffs hunchecked hleaving hout, commit_eq hahead hwait]
      rfl
    · cases hleaving : (s.core c).seg.leaving with
      | true =>
        rw [closeSegment_leaving hoffs hunchecked hleaving hout, commit_eq hahead hwait]
        rfl
      | false =>
        have hleave : k.leave = { k with seg := { k.seg with commit := [], leaving := true } } := by
          unfold Core.leave
          rw [hcommit]
          rfl
        have hfits : k.leave.fits = true := by
          rw [fits_iff, hleave]
          exact Nat.le_trans (Nat.le_of_eq (congrArg List.length hside)) (Nat.zero_le _)
        rw [closeSegment_good hoffs hunchecked hleaving hbad herror haccs hfits, hleave]
        dsimp only
        rw [if_pos (List.isEmpty_iff.mpr hout),
          commit_eq (k := { k with seg := { k.seg with commit := [], leaving := true } }) hahead hwait]
        rfl
  case rewinds =>
    intro s c w ⟨hlive, hhalted, hmust, hoffs, hunchecked⟩ hleaving hdecided herror
    have hfound : ((s.core c).seg.bad || (s.core c).seg.errorAt.isSome) = true := by
      obtain herror | ⟨hbad, -⟩ := herror
      · rw [Option.isSome_iff_ne_none.mpr herror, Bool.or_true]
      · rw [hbad, Bool.true_or]
    rw [segmentClose_goes hmust hlive hhalted (herror.imp_right And.right),
      closeSegment_error hoffs hunchecked hleaving hfound hdecided]
    unfold State.rewindCore
    refine ⟨fun hthird => by rw [if_pos hthird]; rfl, fun hfirst hwait => ?_⟩
    obtain ⟨recorded, run, hrewind⟩ := rewind_eq hwait
    have hrestore := restore_eq (s.core c).seg.checkpoint (s.core c).arch (s.core c).seg.arrived
    refine ⟨rewound (s.core c) recorded run, ?_, rfl, rfl, rfl, rfl, rfl, rfl, rfl, rfl, rfl, rfl, ?_⟩
    · rw [if_neg (Nat.not_le.mpr hfirst), ← hrewind]
      rfl
    · have harch : (rewound (s.core c) recorded run).arch = (s.core c).seg.checkpoint.restore (s.core c).arch (s.core c).seg.arrived := rfl
      rw [harch, hrestore]
      exact ⟨rfl, rfl, rfl, rfl, rfl, rfl, rfl, rfl, rfl, rfl, rfl, rfl, rfl, rfl, undone_out _ _, undone_side _ _,
        spmByte_undone w _, isFull_undone w _⟩
  case rendezvous =>
    intro s c l b next hlaunch hcan hpoised hmust hflags hfetch hseg
    exact rendezvous_passes hlaunch hcan hpoised hmust hflags hfetch hseg
  case signatures =>
    intro s c fault l x rest w hlaunch hdoubles hunchecked y
    have hdoubled : s.doubled c = true := by
      unfold State.doubled
      rw [hlaunch, Option.map_some, Option.getD_some, hdoubles]
    refine ⟨fun heq => ⟨_, signatures_match hdoubled hunchecked heq, ?_⟩, fun hne => ⟨_, signatures_differ hdoubled hunchecked hne, ?_⟩⟩
    · have hset : ∀ k, (s.setCore c k).core c = k := fun k => State.core_setCore_same w
      have hleader : ∀ (k : Core) (f : Core → Core), ((s.setCore c k).onCore (c + 1) f).core c = k := fun k f => by
        rw [State.core_onCore (State.setCore_coresWf w), if_neg (Nat.ne_of_lt (Nat.lt_succ_self c)), hset]
      rw [hleader]
      refine ⟨rfl, rfl, rfl, ?_, fun d hd hd' => ?_⟩
      · rw [State.core_onCore (State.setCore_coresWf w), if_pos rfl]
        rfl
      · rw [State.core_onCore (State.setCore_coresWf w), if_neg hd', State.core_setCore w, if_neg hd]
    · rw [State.core_setCore_same w]
      refine ⟨rfl, rfl, rfl, fun e he => ?_, fun d hd => by rw [State.core_setCore w, if_neg hd]⟩
      obtain ⟨-, hfree⟩ := List.mem_filter.mp he
      exact hfree

end Sys2Proof.Machine

/-! Proofs for spec/09 and spec/15 (off-core accesses): what loads and answered atomics deliver (R188, R197, R204, R431). -/

namespace Sys2Proof.Machine

open Safety

/-! ### Arrivals at a destination (R188) -/

section Arrivals
variable {k : Core}

/-- Without poison a value arrives as a result lands. -/
theorem arriveAt_scalar {d : Dest} (hd : scalarDest d) (v : W64) (x : VReg) :
    k.arriveAt d v x false = { k with arch := k.arch.land (d.landing v) } := by
  cases d with
  | a n => rfl
  | p n => exact hd.elim
  | q q id => rfl
  | vq q id => exact hd.elim
  | nowhere => rfl

theorem arriveAt_vector (q : VQ) (id : Nat) (v : W64) (x : VReg) :
    k.arriveAt (.vq q id) v x false = { k with arch := k.arch.land (.vq q id x) } := rfl

theorem arriveAt_poison {n : Nat} (hn : n ≠ 0) (v : W64) (x : VReg) : k.arriveAt (.a n) v x true =
    { k with arch := (k.arch.setA n v).mark .a n, seg := { k.seg with bad := true } } := by
  unfold Core.arriveAt
  simp [hn]

end Arrivals

/-! ### The return of a load or of an answer -/

section Returns
variable {s u : State} {c req : Nat} {r : OffReq}

theorem return_load {va sz : Nat} {sx bad : Bool} {b : List Byte} (hkind : r.kind = .ld va sz sx)
    (hfind : (s.core c).offs.find? (fun x => x.id == req) = some r) (horder : (s.core c).inOrder r.seq r.ch r.kind.ranges true = true)
    (hload : s.loadBytes c r.seq va (2 ^ sz) = some ((b, bad), u)) :
    exec (.offCoreLoadReturn c req) s = .next (u.onCore c fun k =>
      (k.arriveAt r.dest (if sx then signExt (2 ^ sz) (wordOf b) else wordOf b) 0 bad).dropOff req) := by
  show execOffCoreLoadReturn c req s = _
  unfold execOffCoreLoadReturn
  dsimp only
  rw [hfind]
  dsimp only
  rw [horder, hkind]
  dsimp only
  rw [if_neg (by decide), hload]

theorem return_vector {et : Nat} {addrs l : List Nat} {bad : Bool} (hkind : r.kind = .vld et addrs)
    (hfind : (s.core c).offs.find? (fun x => x.id == req) = some r) (horder : (s.core c).inOrder r.seq r.ch r.kind.ranges true = true)
    (hload : s.loadElems c r.seq (etWidth et / 8) addrs = some ((l, bad), u)) :
    exec (.offCoreLoadReturn c req) s = .next (u.onCore c fun k =>
      (k.arriveAt r.dest 0 (BitVec.ofNat 8192 (packElems (etWidth et) l)) bad).dropOff req) := by
  show execOffCoreLoadReturn c req s = _
  unfold execOffCoreLoadReturn
  dsimp only
  rw [hfind]
  dsimp only
  rw [horder, hkind]
  dsimp only
  rw [if_neg (by decide), hload]

theorem return_answer {v : W64} (hld : ∀ va sz sx, r.kind ≠ .ld va sz sx) (hvld : ∀ et l, r.kind ≠ .vld et l)
    (hfind : (s.core c).offs.find? (fun x => x.id == req) = some r) (hanswer : r.answer = some v)
    (hnew : ∀ y ∈ ((s.core c).arriveAt r.dest v 0 r.poison).seg.recorded, ¬ (y.bundle = r.bundle ∧ y.slot = r.slot)) :
    exec (.offCoreLoadReturn c req) s = .next (s.setCore c
      ((((s.core c).arriveAt r.dest v 0 r.poison).dropOff req).keep ⟨r.bundle, r.slot, some v, r.poison, [], none⟩)) := by
  have hany : (((s.core c).arriveAt r.dest v 0 r.poison).dropOff req).seg.recorded.any
      (fun x => x.bundle == r.bundle && x.slot == r.slot) = false :=
    List.any_eq_false.mpr fun y hy h => hnew y hy (by simpa using h)
  show execOffCoreLoadReturn c req s = _
  unfold execOffCoreLoadReturn
  dsimp only
  rw [hfind]
  dsimp only
  split
  next va sz sx hkind => exact absurd hkind (hld va sz sx)
  next et l hkind => exact absurd hkind (hvld et l)
  next =>
    rw [hanswer]
    unfold State.onCore
    dsimp only
    rw [if_neg (by rw [hany]; exact Bool.false_ne_true)]

/-- A load of bytes in chip shared memory that nothing spoils: what stands there, the core's own stores forwarded. -/
theorem loadBytes_csm {seq va n pa : Nat} {l : Launch} (hlaunch : s.launchOf c = some l) (hat : AtCsm s c .read va pa)
    (hcollapse : (s.core c).collapsing va = false) (hgood : s.csmBad pa n = false) :
    s.loadBytes c seq va n = some (((List.range n).map fun i =>
      ((s.core c).forwarded seq (va + i)).getD (csmByte s (pa + i)), false), s) := by
  obtain ⟨i, e, hlookup, hstepped, -⟩ := hat
  have hplain : (!e.stepped) = true := by rw [hstepped]; rfl
  unfold State.loadBytes
  dsimp only
  rw [hcollapse, if_neg Bool.false_ne_true, hlookup, hlaunch]
  simp only [State.readPlace, State.stepView, State.stepPoison, hplain, if_true, hgood, Bool.false_and]
  rw [memBytes, List.zipWith_map, List.zipWith_self]
  rfl

end Returns

end Sys2Proof.Machine

/-! Proofs for spec/25 (stacked memory): what the work of the controllers leaves as it is (R406 to R422). -/

namespace Sys2Proof.Machine

open Safety

/-- What no access of stacked memory changes: the lost stacks, the keys, the layout, the quarantined and retired ranges. -/
def Hbm.fixed (h : Hbm) : List Nat × Sparse (BitVec 512) × Sparse (BitVec 256) × Option Nat × List Nat × List Nat × List (Nat × Nat) ×
    List Nat × Option (List Byte) :=
  (h.lost, h.keyXts, h.keyMac, h.cursor, h.layout, h.listed, h.quarantined, h.retired, h.returned)

/-- From `h` to `h'` controllers have worked: the raw bytes stay in canonical form, and what no access changes is as it was. -/
structure Hbm.Worked (h h' : Hbm) : Prop where
  wf : Memory.wf h.dram = true → Memory.wf h'.dram = true
  fixed : h'.fixed = h.fixed

namespace Hbm.Worked
variable {h h' h'' : Hbm}

theorem refl (h : Hbm) : Worked h h := ⟨id, rfl⟩
theorem trans (a : Worked h h') (b : Worked h' h'') : Worked h h'' := ⟨b.wf ∘ a.wf, b.fixed.trans a.fixed⟩
/-- Only the raw bytes and what no access changes matter. -/
theorem of_eq (hdram : h'.dram = h.dram) (hfixed : h'.fixed = h.fixed) : Worked h h' := ⟨fun w => hdram ▸ w, hfixed⟩

theorem foldl {α : Type} (l : List α) {f : Hbm → α → Hbm} (hf : ∀ h x, Worked h (f h x)) (h : Hbm) : Worked h (l.foldl f h) := by
  induction l generalizing h with
  | nil => exact refl h
  | cons x l ih => exact (hf h x).trans (ih _)

/-- The same of a fold that carries something else along. -/
theorem foldlSnd {α β : Type} (l : List α) {f : β × Hbm → α → β × Hbm} (hf : ∀ p x, Worked p.2 (f p x).2) (p : β × Hbm) :
    Worked p.2 (l.foldl f p).2 := by
  induction l generalizing p with
  | nil => exact refl p.2
  | cons x l ih => exact (hf p x).trans (ih _)

theorem lost (w : Worked h h') : h'.lost = h.lost := congrArg Prod.fst w.fixed
theorem cursor (w : Worked h h') : h'.cursor = h.cursor := congrArg (fun p => p.2.2.2.1) w.fixed
theorem layout (w : Worked h h') : h'.layout = h.layout := congrArg (fun p => p.2.2.2.2.1) w.fixed

/-! ### Raw bytes, logs and transfers -/

variable {s : Hbm}

theorem putRaw (stack a : Nat) (l : List Byte) (h : Hbm) : Worked h (h.putRaw stack a l) := by
  induction l generalizing h a with
  | nil => exact refl h
  | cons b l ih =>
    exact Worked.trans (h' := { h with dram := Sparse.set 0 h.dram (stack * 2 ^ 36 + a) b }) ⟨fun w => Sparse.set_wf w, rfl⟩ (ih _ _)

theorem log (transfer : Bool) (kind stack q nsym lane retries raw : Nat) (w : Asker) (h : Hbm) :
    Worked h (h.log transfer kind stack q nsym lane retries raw w) := by
  unfold Hbm.log
  dsimp only
  split <;> exact of_eq rfl rfl

theorem logArray (kind stack q nsym : Nat) (w : Asker) (h : Hbm) : Worked h (h.logArray kind stack q nsym w) := log ..

theorem slip (stack raw : Nat) (a : List (Nat × BitVec 64)) (h : Hbm) : Worked h (h.slip stack raw a) :=
  foldl a (fun h _ => putRaw _ _ _ h) h

theorem meet (q : Nat) (b : BusFault) (w : Asker) (h : Hbm) : Worked h (h.meet q b w) := by
  unfold Hbm.meet
  dsimp only
  have hslip := slip b.stack b.raw ((b.attempts[(((b.attempts.take 5).map failingGroups).takeWhile fun g => !g.isEmpty).length]?).getD []) h
  split
  · exact hslip
  · split
    · exact hslip.trans (log ..)
    · split
      · exact (log true 10 b.stack q 0 127 4 b.raw w h).trans ⟨id, rfl⟩
      · refine foldl _ (fun h x => ?_) h
        exact (log true 9 b.stack q 0 x.1 4 b.raw w h).trans ⟨id, rfl⟩

theorem transfer (stack q raw : Nat) (w : Asker) (h : Hbm) : Worked h (h.transfer stack q raw w) := by
  unfold Hbm.transfer
  split
  · exact refl h
  · next b _ => exact Worked.trans (h' := { h with bus := h.bus.erase b }) (of_eq rfl rfl) (meet ..)

/-! ### The check-bit caches and images -/

theorem evict (stack ch : Nat) (w : Asker) (h : Hbm) : Worked h (h.evict stack ch w) := by
  unfold Hbm.evict
  dsimp only
  split
  · exact refl h
  · split
    · exact refl h
    · next l _ _ =>
      have herase : Worked h { h with cache := h.cache.erase l } := ⟨id, rfl⟩
      split
      · exact herase.trans ((putRaw l.stack (rawArea l.group) l.bytes _).trans (transfer ..))
      · exact herase

theorem touch (stack q : Nat) (w : Asker) (h : Hbm) : Worked h (h.touch stack q w) := by
  unfold Hbm.touch
  dsimp only
  split
  · exact refl h
  · exact (evict ..).trans ((transfer ..).trans (of_eq rfl rfl))

theorem putBlock (stack q : Nat) (b : List Byte) (w : Asker) (h : Hbm) : Worked h (h.putBlock stack q b w) :=
  (touch stack q w h).trans (of_eq rfl rfl)

theorem putImage (stack q : Nat) (img : List Nat) (w : Asker) (h : Hbm) : Worked h (h.putImage stack q img w) :=
  (putRaw ..).trans ((transfer ..).trans (putBlock ..))

theorem putIn (stack q : Nat) (img : List Nat) (w : Asker) (h : Hbm) : Worked h (h.putIn stack q img w) := by
  unfold Hbm.putIn
  split
  · exact refl h
  · exact putImage ..

theorem noteShadow (parity : Nat) (e : Option WindowEntry) (h : Hbm) : Worked h (h.noteShadow parity e) := by
  cases e <;> exact of_eq rfl rfl

theorem settleRow (parity q : Nat) (h : Hbm) : Worked h (h.settleRow parity q) :=
  Worked.trans (h' := { h with deltas := h.deltas.filter fun d => !(d.stack == parity && d.sector == q) }) ⟨id, rfl⟩
    (foldl (α := Delta) _ (fun h d => noteShadow parity d.request h) _)

theorem carry (pa : Nat) (e : WindowEntry) (h : Hbm) : Worked h (h.carry pa e) := by
  unfold Hbm.carry
  dsimp only
  split
  · split
    · exact of_eq rfl rfl
    · split
      · exact refl h
      · exact noteShadow ..
  · split
    · exact refl h
    · exact noteShadow ..

/-! ### Reads and writes of a sector -/

theorem seek (stack q : Nat) (w : Asker) (h : Hbm) : Worked h (h.seek stack q w).2 := by
  unfold Hbm.seek
  dsimp only
  have hread : Worked h ((h.touch stack q w).transfer stack q (rawData q) w) := (touch ..).trans (transfer ..)
  split
  · exact refl h
  · split
    · exact hread
    · split
      · exact hread
      · exact hread
      · exact hread.trans ((putImage ..).trans (logArray ..))

theorem reconstruct (sp : Spot) (w : Asker) (h : Hbm) : Worked h (h.reconstruct sp w).2 := by
  unfold Hbm.reconstruct
  refine foldlSnd (p := (some imgZero, h)) _ fun p st => ?_
  exact seek st sp.sector w p.2

theorem image (sp : Spot) (w : Asker) (h : Hbm) : Worked h (h.image sp w).2 := by
  unfold Hbm.image
  have hseek := seek sp.data sp.sector w h
  split
  · next hs => rw [hs] at hseek; exact hseek
  · next h₁ hs =>
    rw [hs] at hseek
    have hrec := reconstruct sp w h₁
    split
    · next hr => rw [hr] at hrec; dsimp only at hrec ⊢; exact hseek.trans (hrec.trans (logArray ..))
    · next hr =>
      rw [hr] at hrec
      split
      · exact hseek.trans hrec
      · dsimp only at hrec ⊢; exact hseek.trans (hrec.trans ((putImage ..).trans (logArray ..)))

theorem read (pa key : Nat) (w : Asker) (h : Hbm) : Worked h (h.read pa key w).2 := by
  unfold Hbm.read
  dsimp only
  have himage := image (h.spot pa) w h
  split
  · next hi => rw [hi] at himage; exact himage
  · next hi =>
    rw [hi] at himage
    split
    · exact himage
    · split
      · exact himage
      · split
        · dsimp only at himage ⊢; exact himage.trans (logArray ..)
        · exact himage

theorem recompute (sp : Spot) (own : Option (List Nat)) (w : Asker) (h : Hbm) : Worked h (h.recompute sp own w) := by
  unfold Hbm.recompute
  refine Worked.trans (foldlSnd (p := (imgZero, h)) _ (fun p st => ?_)) ((settleRow ..).trans (putIn ..))
  have hseek := seek st sp.sector w p.2
  split
  · exact refl _
  · split
    · next hs => rw [hs] at hseek; exact hseek
    · next hs => rw [hs] at hseek; dsimp only at hseek ⊢; exact hseek.trans ((putIn ..).trans (logArray ..))

theorem replaceImage (pa : Nat) (sp : Spot) (old new : List Nat) (w : Writer) (h : Hbm) : Worked h (h.replaceImage pa sp old new w) := by
  unfold Hbm.replaceImage
  dsimp only
  have hput := putIn sp.data sp.sector new w.asker h
  split
  · have hseek := seek sp.parity sp.sector w.asker (h.putIn sp.data sp.sector new w.asker)
    split
    · next hs => rw [hs] at hseek; exact hput.trans hseek
    · next hs => rw [hs] at hseek; exact hput.trans (hseek.trans ((settleRow ..).trans (putIn ..)))
  · split
    · exact hput
    · exact hput.trans (of_eq rfl rfl)

theorem overwrite (pa : Nat) (new : List Nat) (w : Writer) (h : Hbm) : Worked h (h.overwrite pa new w) := by
  unfold Hbm.overwrite
  dsimp only
  have himage := image (h.spot pa) w.asker h
  split
  · next hi =>
    rw [hi] at himage
    split
    · exact himage.trans ((putIn ..).trans (recompute ..))
    · exact himage.trans (replaceImage ..)
  · next hi => rw [hi] at himage; exact himage.trans ((putIn ..).trans (recompute ..))

theorem write (pa key : Nat) (bytes : List Byte) (w : Writer) (h : Hbm) : Worked h (h.write pa key bytes w).2 := by
  unfold Hbm.write
  dsimp only
  have himage := image (h.spot pa) w.asker h
  split
  · dsimp only
    split
    · exact himage.trans ((putIn ..).trans (recompute ..))
    · exact himage.trans ((putIn ..).trans ((logArray ..).trans (recompute ..)))
  · split
    · dsimp only at himage ⊢; exact himage.trans (logArray ..)
    · exact himage.trans (replaceImage ..)

theorem poison (pa tick : Nat) (h : Hbm) : Worked h (h.poison pa tick) := overwrite ..
theorem clear (pa tick : Nat) (h : Hbm) : Worked h (h.clear pa tick) := overwrite ..

theorem scrubRead (pa tick : Nat) (h : Hbm) : Worked h (h.scrubRead pa tick).2 := by
  unfold Hbm.scrubRead
  have himage := image (h.spot pa) ⟨0, tick⟩ h
  split
  · next hi => rw [hi] at himage; exact himage
  · next hi => rw [hi] at himage; exact himage

theorem applyDelta (i tick : Nat) (h : Hbm) : Worked h (h.applyDelta i tick) := by
  unfold Hbm.applyDelta
  split
  · exact refl h
  · next d _ =>
    dsimp only
    have hseek := seek d.stack d.sector ⟨d.asid, tick⟩ h
    split
    · next h₁ hs =>
      rw [hs] at hseek
      exact hseek.trans (Worked.trans (h' := { h₁ with deltas := h₁.deltas.eraseIdx i }) (of_eq rfl rfl) ((putIn ..).trans (noteShadow ..)))
    · next hs =>
      rw [hs] at hseek
      split
      · exact hseek.trans (of_eq rfl rfl)
      · exact hseek.trans (recompute ..)

theorem retire (h : Hbm) : Worked h h.retire := foldl _ (fun h a => poison a 0 h) h

theorem readBytes (key : Nat) (w : Asker) (fuel pa n : Nat) (h : Hbm) : Worked h (h.readBytes key w fuel pa n).2 := by
  induction fuel generalizing h pa n with
  | zero => exact refl h
  | succ fuel ih =>
    unfold Hbm.readBytes
    split
    · exact refl h
    · have hall := (read pa key w h).trans (ih (pa + min n (512 - pa % 512)) (n - min n (512 - pa % 512)) _)
      dsimp only
      split <;> exact hall

theorem writeBytes (key : Nat) (w : Writer) (fuel pa : Nat) (l : List Byte) (h : Hbm) : Worked h (h.writeBytes key w fuel pa l).2 := by
  induction fuel generalizing h pa l with
  | zero => exact refl h
  | succ fuel ih =>
    unfold Hbm.writeBytes
    split
    · exact refl h
    · exact (write pa key (l.take (512 - pa % 512)) w h).trans (ih _ _ _)

end Hbm.Worked

/-- Where a sector lies is not changed by accesses. -/
theorem spot_of_worked {h h' : Hbm} (w : Hbm.Worked h h') (pa : Nat) : h'.spot pa = h.spot pa := by
  unfold Hbm.spot Hbm.restriped Hbm.newSpot
  rw [w.cursor, w.layout]

theorem unitOf_of_worked {h h' : Hbm} (w : Hbm.Worked h h') (p : Place) : h'.unitOf p = h.unitOf p := by
  cases p with
  | hbm pa key => exact congrArg (fun sp : Spot => 256 + sp.data) (spot_of_worked w pa)
  | csm pa => rfl
  | host a => rfl

end Sys2Proof.Machine

/-! Proofs for spec/09, spec/12 and spec/15 (off-core accesses): what atomics, reductions and stores do at their place, once
(R197, R204 to R206, R257, R260, R364, R419, R423). -/

namespace Sys2Proof.Machine

open Safety

/-! ### What accesses of stacked memory leave as it is -/

/-- From `s` to `t` stacked memory has been accessed: no core, no byte of another memory and no number of a request has changed. -/
structure FarWork (s t : State) : Prop where
  stores : (t.cores, t.csm, t.csmMarks, t.host, t.stepMeta, t.tags) = (s.cores, s.csm, s.csmMarks, s.host, s.stepMeta, s.tags)
  wf : Memory.wf s.hbm.dram = true → Memory.wf t.hbm.dram = true
  layout : t.hbm.cursor = s.hbm.cursor ∧ t.hbm.layout = s.hbm.layout

namespace FarWork
variable {s t u : State}

theorem refl (s : State) : FarWork s s := ⟨rfl, id, rfl, rfl⟩
theorem trans (a : FarWork s t) (b : FarWork t u) : FarWork s u :=
  ⟨b.stores.trans a.stores, b.wf ∘ a.wf, b.layout.1.trans a.layout.1, b.layout.2.trans a.layout.2⟩

theorem foldl {α : Type} (l : List α) {f : State → α → State} (hf : ∀ s x, FarWork s (f s x)) (s : State) : FarWork s (l.foldl f s) := by
  induction l generalizing s with
  | nil => exact refl s
  | cons x l ih => exact (hf s x).trans (ih _)

theorem cores (w : FarWork s t) : t.cores = s.cores := congrArg Prod.fst w.stores
theorem csm (w : FarWork s t) : t.csm = s.csm := congrArg (fun p => p.2.1) w.stores
theorem csmMarks (w : FarWork s t) : t.csmMarks = s.csmMarks := congrArg (fun p => p.2.2.1) w.stores
theorem host (w : FarWork s t) : t.host = s.host := congrArg (fun p => p.2.2.2.1) w.stores
theorem tags (w : FarWork s t) : t.tags = s.tags := congrArg (fun p => p.2.2.2.2.2) w.stores
theorem core (w : FarWork s t) (c : Nat) : t.core c = s.core c := core_of_cores w.cores c

theorem unitOf (w : FarWork s t) (p : Place) : t.hbm.unitOf p = s.hbm.unitOf p := by
  obtain ⟨hcursor, hlayout⟩ := w.layout
  cases p with
  | hbm pa key =>
    refine congrArg (fun sp : Spot => 256 + sp.data) ?_
    unfold Hbm.spot Hbm.restriped Hbm.newSpot
    rw [hcursor, hlayout]
  | csm pa => rfl
  | host a => rfl

theorem onLaunch (id : Nat) (f : Launch → Launch) (s : State) : FarWork s (s.onLaunch id f) :=
  ⟨rfl, fun w => w, rfl, rfl⟩

theorem pin (id cause addr : Nat) (s : State) : FarWork s (s.pin id cause addr) := onLaunch ..

theorem onContext (asid : Nat) (f : Context → Context) (s : State) : FarWork s (s.onContext asid f) := by
  unfold State.onContext
  split
  · exact refl s
  · exact ⟨rfl, id, rfl, rfl⟩

theorem tearDown (asid cause : Nat) (ranges : List Nat) (s : State) : FarWork s (s.tearDown asid cause ranges) := onContext ..

theorem tear (asid : Nat) (bad : List Nat) (s : State) : FarWork s (s.tear asid bad) := by
  unfold State.tear
  split
  · exact refl s
  · exact tearDown ..

theorem loseUnits (gone : Nat → Nat → Bool) (s : State) : FarWork s (s.loseUnits gone) := by
  have hpins := foldl ((s.hbm.deltas.filter fun d => gone d.data d.sector).filter fun d => decide (d.core < numCores))
    (fun s d => pin d.launch causeNotDurable d.core s) s
  exact ⟨hpins.stores, hpins.wf, hpins.layout⟩

theorem loseStack (stack : Nat) (s : State) : FarWork s (s.loseStack stack) := by
  have hlost := loseUnits (fun st _ => st == stack) { s with
    hbm := { s.hbm with lost := s.hbm.lost ++ [stack] }
    windows := s.windows.filter fun w => w.target ≠ 256 + stack }
  exact ⟨hlost.stores, hlost.wf, hlost.layout⟩

/-- What accesses have made of the stacked memory takes its place. -/
theorem settleHbm {h : Hbm} (w : Hbm.Worked s.hbm h) : FarWork s (s.settleHbm h) := by
  have hset : ∀ m, FarWork s { s with hbm := h, markhor := m } := fun m => ⟨rfl, w.wf, w.cursor, w.layout⟩
  unfold State.settleHbm
  refine (hset _).trans (foldl _ (fun s x => ?_) _)
  dsimp only
  split
  · exact (loseUnits ..).trans (loseStack ..)
  · exact loseUnits ..

theorem readPlace (asid : Nat) (p : Place) (n : Nat) (s : State) : FarWork s (s.readPlace asid p n).2 := by
  cases p with
  | csm pa => exact refl s
  | host a => exact refl s
  | hbm pa key => exact (settleHbm (Hbm.Worked.readBytes key ⟨asid, s.gtc⟩ (n / 512 + 2) pa n s.hbm)).trans (tear ..)

theorem writePlace_hbm (asid core launch pa key : Nat) (l : List Byte) (s : State) :
    FarWork s (s.writePlace asid core launch (.hbm pa key) l) := 
  (settleHbm (Hbm.Worked.writeBytes key ⟨core, launch, asid, s.gtc⟩ (l.length / 512 + 2) pa l s.hbm)).trans (tear ..)

end FarWork

/-! ### Reading, changing and writing in one action (R204, R257) -/

section Atomics
variable {s u v : State} {c : Nat} {e : TEntry} {p : Place} {l : Launch}

theorem report_unwatched {va n : Nat} (h : e.watch = false) : s.report c e va n = s := by
  unfold State.report
  rw [h]
  rfl

theorem atomicAt_plain {asid launch frame va n : Nat} {f : List Byte → List Byte × W64} (hstepped : e.stepped = false)
    (hwatch : e.watch = false) : s.atomicAt c asid launch frame va n e p f =
      let r := s.readPlace asid p n
      (((f r.1.1).2, r.1.2), (r.2.writePlace asid (flat c) launch p (f r.1.1).1).remark r.2.csmMarks p n) := by
  have hplain : (!e.stepped) = true := by rw [hstepped]; rfl
  unfold State.atomicAt
  simp only [State.stepView, State.stepPoison, hplain, if_true]
  rw [report_unwatched hwatch]

theorem remark_far {marks : Sparse Bool} {n : Nat} (h : ∀ pa, p ≠ .csm pa) : s.remark marks p n = s := by
  cases p with
  | csm pa => exact absurd rfl (h pa)
  | _ => rfl

theorem remark_marks_only {marks : Sparse Bool} {n : Nat} : { s.remark marks p n with csmMarks := s.csmMarks } = s := by
  cases p with
  | csm pa =>
    unfold State.remark
    dsimp only
    split <;> rfl
  | _ => rfl

/-- `v` is `u` with bytes written at a place; what is written with what has been computed from words keeps their marks. -/
def WrittenAt (u v : State) (asid core launch : Nat) (p : Place) (new : List Byte) : Prop :=
  v = u.writePlace asid core launch p new ∨ ∃ marks n, v = (u.writePlace asid core launch p new).remark marks p n

theorem csmPut_putMem {t : State} {pa : Nat} {new : List Byte} (w : Memory.wf s.csm = true) (h : t.csm = putMem s.csm pa new) :
    CsmPut s t pa new := by
  intro a
  unfold csmByte
  rw [h, get_putMem w, List.getD_eq_getElem?_getD]

theorem hostPut_putMem {t : State} {x : Nat} {new : List Byte} (w : Memory.wf s.host = true) (h : t.host = putMem s.host x new) :
    HostPut s t x new := by
  intro a
  rw [h, get_putMem w, List.getD_eq_getElem?_getD]

/-- A write in chip shared memory changes its bytes, and marks. -/
theorem writtenAt_csm {asid core launch pa : Nat} {new : List Byte} (h : WrittenAt u v asid core launch (.csm pa) new) :
    v.csm = putMem u.csm pa new ∧ v.cores = u.cores ∧ v.tags = u.tags ∧ v.windows = u.windows ∧
      { v with csm := u.csm, csmMarks := u.csmMarks } = u := by
  obtain rfl | ⟨marks, n, rfl⟩ := h
  · exact ⟨rfl, rfl, rfl, rfl, rfl⟩
  · have hrest := remark_marks_only (s := u.putCsm pa new) (p := .csm pa) (marks := marks) (n := n)
    have hwrite : u.writePlace asid core launch (.csm pa) new = u.putCsm pa new := rfl
    rw [hwrite]
    generalize (u.putCsm pa new).remark marks (.csm pa) n = w at hrest ⊢
    have hcsm := congrArg State.csm hrest
    have hcores := congrArg State.cores hrest
    have htags := congrArg State.tags hrest
    have hwindows := congrArg State.windows hrest
    refine ⟨hcsm, hcores, htags, hwindows, ?_⟩
    have hu := congrArg (fun x : State => { x with csm := u.csm, csmMarks := u.csmMarks }) hrest
    exact hu

theorem writtenAt_far {asid core launch : Nat} {new : List Byte} (hfar : ∀ pa, p ≠ .csm pa) (h : WrittenAt u v asid core launch p new) :
    v = u.writePlace asid core launch p new := by
  obtain h | ⟨marks, n, h⟩ := h
  · exact h
  · exact h.trans (remark_far hfar)

end Atomics

/-! ### The windows (R260, R419, R423) -/

section Windows
variable {s : State} {c req ch : Nat} {p : Place} {ack : Option W64}

/-- The entry of a request that is applied. -/
def appliedEntry (s : State) (c req ch : Nat) (p : Place) (ack : Option W64) : WindowEntry :=
  ⟨(s.core c).launch.getD 0, req, 8 * flat c + ch, s.hbm.unitOf p, s.nextTag (8 * flat c + ch) (s.hbm.unitOf p) % 65536, ack⟩

theorem enterWindow_getLast? {α : Type} (same : α → Bool) (l : List α) (x : α) : (enterWindow same l x).getLast? = some x := by
  unfold enterWindow
  rw [List.getLast?_concat]

theorem noteApplied_csm {pa : Nat} : (s.noteApplied c req ch (.csm pa) ack).windows.getLast? = some (appliedEntry s c req ch (.csm pa) ack) ∧
    { s.noteApplied c req ch (.csm pa) ack with windows := s.windows, tags := s.tags, resends := s.resends } = s :=
  ⟨enterWindow_getLast? .., rfl⟩

/-- The request is kept at its target, or by the parity controller that stands in for a lost one. -/
theorem noteApplied_kept : appliedEntry s c req ch p ack ∈ (s.noteApplied c req ch p ack).keptRequests := by
  have hentered : ∀ (same : WindowEntry → Bool), appliedEntry s c req ch p ack ∈ enterWindow same s.windows (appliedEntry s c req ch p ack) :=
    fun same => List.mem_of_getLast? (enterWindow_getLast? ..)
  unfold State.keptRequests
  rw [List.mem_append]
  cases p with
  | csm pa => exact .inl (hentered _)
  | host a => exact .inl (hentered _)
  | hbm pa key =>
    unfold State.noteApplied
    dsimp only
    cases s.hbm.standIn pa with
    | none => exact .inl (hentered _)
    | some parity =>
      refine .inr (List.mem_map.mpr ⟨(parity, appliedEntry s c req ch (.hbm pa key) ack), ?_, rfl⟩)
      exact List.mem_of_getLast? (enterWindow_getLast? ..)

/-- Noting a request changes no memory, log, context or core. -/
theorem noteApplied_keeps : let t := s.noteApplied c req ch p ack
    t.cores = s.cores ∧ t.csm = s.csm ∧ t.host = s.host ∧ t.hbm.dram = s.hbm.dram ∧ t.hbm.cache = s.hbm.cache ∧ t.hbm.logs = s.hbm.logs ∧
      t.contexts = s.contexts := by
  cases p with
  | csm pa => exact ⟨rfl, rfl, rfl, rfl, rfl, rfl, rfl⟩
  | host a => exact ⟨rfl, rfl, rfl, rfl, rfl, rfl, rfl⟩
  | hbm pa key =>
    unfold State.noteApplied
    dsimp only
    cases s.hbm.standIn pa with
    | some parity => exact ⟨rfl, rfl, rfl, rfl, rfl, rfl, rfl⟩
    | none =>
      have hcarry : ∀ e, (s.hbm.carry pa e).dram = s.hbm.dram ∧ (s.hbm.carry pa e).cache = s.hbm.cache ∧
          (s.hbm.carry pa e).logs = s.hbm.logs := by
        intro e
        unfold Hbm.carry
        dsimp only
        split
        · split
          · exact ⟨rfl, rfl, rfl⟩
          · split <;> exact ⟨rfl, rfl, rfl⟩
        · split <;> exact ⟨rfl, rfl, rfl⟩
      obtain ⟨hdram, hcache, hlogs⟩ := hcarry (appliedEntry s c req ch (.hbm pa key) ack)
      exact ⟨rfl, rfl, rfl, hdram, hcache, hlogs, rfl⟩

end Windows

end Sys2Proof.Machine

/-! Proofs for spec/09, spec/12 and spec/20 (off-core accesses): requests at their home unit and side-log entries (R204 to R206, R257,
R260, R364). -/

namespace Sys2Proof.Machine

open Safety

/-! ### Bytes that are read -/

section Bytes

theorem leNat_of_length_le {l : List Byte} {m n : Nat} (hm : l.length ≤ m) (hn : m ≤ n) : leNat l n = leNat l m := by
  induction n with
  | zero => rw [Nat.le_zero.mp hn]
  | succ n ih =>
    obtain rfl | hlt := Nat.eq_or_lt_of_le hn
    · rfl
    · have hzero : byteAt l n = 0 := by
        unfold byteAt
        rw [List.getElem?_eq_none (by omega)]
        rfl
      rw [leNat, hzero, ih (by omega)]
      simp

theorem leNat_lt (l : List Byte) (n : Nat) : leNat l n < 256 ^ n := by
  induction n with
  | zero => exact Nat.one_pos
  | succ n ih =>
    have hbyte : (byteAt l n).toNat < 256 := (byteAt l n).isLt
    have hmul : (byteAt l n).toNat * 256 ^ n ≤ 255 * 256 ^ n := Nat.mul_le_mul_right _ (by omega)
    rw [leNat, Nat.pow_succ]
    omega

theorem readBytes_length_le (key : Nat) (w : Asker) (fuel pa n : Nat) (h : Hbm) : (h.readBytes key w fuel pa n).1.1.length ≤ n := by
  induction fuel generalizing h pa n with
  | zero => exact Nat.zero_le _
  | succ fuel ih =>
    unfold Hbm.readBytes
    split
    · exact Nat.zero_le _
    · have hrest := ih (pa + min n (512 - pa % 512)) (n - min n (512 - pa % 512)) (h.read pa key w).2
      dsimp only
      split
      · rw [List.length_append, List.length_take]
        omega
      all_goals
        rw [List.length_append, List.length_replicate]
        omega

theorem readPlace_length_le (s : State) (asid : Nat) (p : Place) (n : Nat) : (s.readPlace asid p n).1.1.length ≤ n := by
  cases p with
  | csm pa => exact Nat.le_of_eq (by simp [State.readPlace, memBytes])
  | host a => exact Nat.le_of_eq (by simp [State.readPlace, memBytes])
  | hbm pa key => exact readBytes_length_le key ⟨asid, s.gtc⟩ (n / 512 + 2) pa n s.hbm

/-- The comparison of CAS, on the number that its bytes give. -/
theorem wordOf_eq_iff {old : List Byte} {n : Nat} (hlen : old.length ≤ n) (hn : n ≤ 8) (cmp : W64) :
    wordOf old = BitVec.ofNat 64 (cmp.toNat % 2 ^ (8 * n)) ↔ leNat old n = cmp.toNat % 2 ^ (8 * n) := by
  have hpow : (256 : Nat) ^ n = 2 ^ (8 * n) := by rw [Nat.pow_mul]
  have hle : 2 ^ (8 * n) ≤ 2 ^ 64 := Nat.pow_le_pow_right (by decide) (by omega)
  have hold : leNat old n < 2 ^ 64 := Nat.lt_of_lt_of_le (hpow ▸ leNat_lt old n) hle
  have hcmp : cmp.toNat % 2 ^ (8 * n) < 2 ^ 64 := Nat.lt_of_lt_of_le (Nat.mod_lt _ (Nat.two_pow_pos _)) hle
  unfold wordOf
  rw [← leNat_of_length_le (Nat.le_refl _) hlen]
  refine ⟨fun h => ?_, fun h => by rw [h]⟩
  have hnat := congrArg BitVec.toNat h
  rwa [BitVec.toNat_ofNat, BitVec.toNat_ofNat, Nat.mod_eq_of_lt hold, Nat.mod_eq_of_lt hcmp] at hnat

end Bytes

/-! ### AMO and CAS (R204) -/

section Returning
variable {s : State} {c req n va i : Nat} {r : OffReq} {l : Launch} {e : TEntry} {p : Place}

/-- The state in which an atomic has written its new bytes. -/
def atomicWritten (s : State) (c : Nat) (l : Launch) (p : Place) (n : Nat) (new : List Byte) : State :=
  ((s.readPlace l.asid p n).2.writePlace l.asid (flat c) l.id p new).remark (s.readPlace l.asid p n).2.csmMarks p n

theorem atomicWritten_writtenAt (new : List Byte) :
    WrittenAt (s.readPlace l.asid p n).2 (atomicWritten s c l p n new) l.asid (flat c) l.id p new := .inr ⟨_, n, rfl⟩

/-- A returning atomic is applied at its place and answered there. -/
theorem applyReturning_plain {f : List Byte → List Byte × W64} (hlookup : lookup (s.core c).table .both va = .at i e p)
    (hstepped : e.stepped = false) (hwatch : e.watch = false) (hlaunch : s.launchOf c = some l) (hrecord : l.record = false)
    (hreplay : l.replay = false) (hspan : s.spanFull c r.ch (s.hbm.unitOf p) = false) (hgood : (s.readPlace l.asid p n).1.2 = false) :
    s.applyReturning c r va n f =
      ((atomicWritten s c l p n (f (s.readPlace l.asid p n).1.1).1).noteApplied c r.id r.ch p
        (some (f (s.readPlace l.asid p n).1.1).2)).onCore c fun k =>
          { k with offs := k.offs.map fun x =>
            if x.id = r.id then { x with answer := some (f (s.readPlace l.asid p n).1.1).2, poison := false } else x } := by
  unfold State.applyReturning State.chooseThen
  rw [hlookup, hlaunch]
  dsimp only
  rw [hspan, if_neg Bool.false_ne_true, choose_free (launch?_of_launchOf hlaunch) hrecord hreplay]
  dsimp only
  rw [atomicAt_plain hstepped hwatch]
  dsimp only
  rw [hgood]
  rfl

/-- What AMO and CAS compute from the old bytes. -/
theorem request_returning {old new : List Byte} {answer : W64}
    (hfind : (s.core c).offs.find? (fun x => x.id == req && x.answer.isNone) = some r) (hready : (s.core c).readyAtomic r = true)
    (hlen : old.length ≤ n)
    (hkind : (∃ op sz v, r.kind = .amo op sz va v ∧ n = atomicBytes op sz ∧ (new, answer) = atomicDo op sz old v) ∨
      ∃ sz cmp w, r.kind = .cas sz va cmp w ∧ sz ≤ 3 ∧ n = 2 ^ sz ∧ answer = BitVec.ofNat 64 (leNat old n) ∧
        new = if leNat old n = cmp.toNat % 2 ^ (8 * n) then leBytes w.toNat n else old) :
    ∃ f, f old = (new, answer) ∧ exec (.remoteAtomicRequest c req) s = .next (s.applyReturning c r va n f) := by
  obtain ⟨op, sz, v, hk, hn, hdo⟩ | ⟨sz, cmp, w, hk, hsz, hn, hanswer, hnew⟩ := hkind
  · refine ⟨fun old => atomicDo op sz old v, hdo.symm, ?_⟩
    show execRemoteAtomicRequest c req s = _
    unfold execRemoteAtomicRequest
    dsimp only
    rw [hfind]
    dsimp only
    rw [hready, hk, hn]
    rfl
  · have hpow : 2 ^ sz ≤ 8 := Nat.pow_le_pow_right (n := 2) (by decide) hsz
    refine ⟨fun old => (if wordOf old = BitVec.ofNat 64 (cmp.toNat % 2 ^ (8 * 2 ^ sz)) then bytesOf (2 ^ sz) w else old, wordOf old), ?_, ?_⟩
    · subst hn
      dsimp only
      rw [hnew, hanswer, ite_congr (propext (wordOf_eq_iff hlen hpow cmp)) (fun _ => rfl) fun _ => rfl]
      unfold wordOf bytesOf
      rw [leNat_of_length_le (Nat.le_refl _) hlen]
    · show execRemoteAtomicRequest c req s = _
      unfold execRemoteAtomicRequest
      dsimp only
      rw [hfind]
      dsimp only
      rw [hready, hk, hn]
      rfl

end Returning

/-! ### Stores and reductions (R197, R204, R206) -/

section Writing
variable {s : State} {c va i : Nat} {w : Write} {l : Launch} {e : TEntry} {p : Place}

/-- What a write of one piece, a RED or the part of a VRED for a line puts at its place, and the state behind its read. -/
def WriteGives (s u : State) (asid : Nat) (p : Place) (va : Nat) (new : List Byte) : WriteKind → Prop
  | .store pieces => pieces = [(va, new)] ∧ u = s
  | .red op sz a v => a = va ∧ u = (s.readPlace asid p (atomicBytes op sz)).2 ∧
      new = (atomicDo op sz (s.readPlace asid p (atomicBytes op sz)).1.1 v).1
  | .vred op et a b => a = va ∧ u = (s.readPlace asid p 128).2 ∧ new = vredLine op et (s.readPlace asid p 128).1.1 b
  | _ => False

theorem writeGives_first {u : State} {asid : Nat} {new : List Byte} {k : WriteKind} (h : WriteGives s u asid p va new k) : k.first = va := by
  cases k with
  | store pieces =>
    obtain ⟨rfl, -⟩ := h
    rfl
  | red op sz a v => exact h.1
  | vred op et a b => exact h.1
  | pieceCpyn => exact h.elim
  | enqueueCpyn => exact h.elim

/-- Reading at a place changes no core and no byte of chip shared or host memory. -/
theorem writeGives_farWork {u : State} {asid : Nat} {new : List Byte} {k : WriteKind} (h : WriteGives s u asid p va new k) : FarWork s u := by
  cases k with
  | store pieces => exact h.2 ▸ FarWork.refl s
  | red op sz a v => exact h.2.1 ▸ FarWork.readPlace ..
  | vred op et a b => exact h.2.1 ▸ FarWork.readPlace ..
  | pieceCpyn => exact h.elim
  | enqueueCpyn => exact h.elim

theorem perform_plain {u : State} {new : List Byte} (hlaunch : s.launchOf c = some l) (hlookup : lookup (s.core c).table .write va = .at i e p)
    (hstepped : e.stepped = false) (hwatch : e.watch = false) (hgives : WriteGives s u l.asid p va new w.kind) :
    ∃ v, s.perform c w = some v ∧ WrittenAt u v l.asid (flat c) l.id p new := by
  unfold State.perform
  rw [hlaunch]
  dsimp only
  cases hkind : w.kind with
  | store pieces =>
    rw [hkind] at hgives
    obtain ⟨rfl, rfl⟩ := hgives
    dsimp only [List.foldl, Option.bind]
    rw [hlookup]
    dsimp only
    rw [report_unwatched hwatch]
    exact ⟨_, rfl, .inl rfl⟩
  | red op sz a v =>
    rw [hkind] at hgives
    obtain ⟨rfl, rfl, rfl⟩ := hgives
    dsimp only
    rw [hlookup]
    dsimp only
    rw [atomicAt_plain hstepped hwatch]
    exact ⟨_, rfl, .inr ⟨_, _, rfl⟩⟩
  | vred op et a b =>
    rw [hkind] at hgives
    obtain ⟨rfl, rfl, rfl⟩ := hgives
    dsimp only
    rw [hlookup]
    dsimp only
    rw [atomicAt_plain hstepped hwatch]
    exact ⟨_, rfl, .inr ⟨_, _, rfl⟩⟩
  | pieceCpyn => rw [hkind] at hgives; exact hgives.elim
  | enqueueCpyn => rw [hkind] at hgives; exact hgives.elim

/-- A write at its target: performed, noted if it is a reduction, and taken out of the place where it stood. -/
theorem applyWrite_plain {u : State} {new : List Byte} {drop : State → State} (hlaunch : s.launchOf c = some l) (hrecord : l.record = false)
    (hreplay : l.replay = false) (hlookup : lookup (s.core c).table .write va = .at i e p)
    (hstepped : e.stepped = false) (hwatch : e.watch = false) (hgives : WriteGives s u l.asid p va new w.kind)
    (hspan : w.kind.isRed = true → s.spanFull c w.ch (s.hbm.unitOf p) = false) :
    ∃ v, WrittenAt u v l.asid (flat c) l.id p new ∧
      s.applyWrite c w drop = drop (if w.kind.isRed then v.noteApplied c w.id w.ch p none else v) := by
  obtain ⟨v, hperform, hwritten⟩ := perform_plain hlaunch hlookup hstepped hwatch hgives
  have hplace : s.placeFor c .write w.kind.first = some p := by
    unfold State.placeFor
    rw [writeGives_first hgives, hlookup]
  obtain ⟨id, hid, hl⟩ := Option.bind_eq_some_iff.mp hlaunch
  have hfull : (w.kind.isRed && s.spanFull c w.ch (s.hbm.unitOf p)) = false := Bool.and_eq_false_imp.mpr hspan
  refine ⟨v, hwritten, ?_⟩
  unfold State.applyWrite State.chooseThen
  rw [hplace, hid]
  dsimp only
  rw [hfull, if_neg Bool.false_ne_true, choose_free hl hrecord hreplay]
  dsimp only
  rw [hperform, ite_self]

/-- A write that has left its core and is ready is applied. -/
theorem request_write {req : Nat} (hnone : (s.core c).offs.find? (fun x => x.id == req && x.answer.isNone) = none)
    (hfind : (s.core c).out.find? (fun x => x.id == req) = some w) (hready : (s.core c).ready w = true) :
    exec (.remoteAtomicRequest c req) s =
      .next (s.applyWrite c w fun s => s.onCore c fun k => { k with out := k.out.filter (·.id ≠ req) }) := by
  show execRemoteAtomicRequest c req s = _
  unfold execRemoteAtomicRequest
  dsimp only
  rw [hnone]
  dsimp only
  rw [hfind]
  dsimp only
  rw [if_pos hready]

end Writing

/-! ### What is left behind them -/

section Outcomes
variable {s u v : State} {c : Nat} {p : Place} {new : List Byte} {f : Core → Core}

/-- A request applied in chip shared memory. -/
theorem csm_applied {asid core launch pa req ch : Nat} {ack : Option W64} (w : CoresWf s) (hcsm : Memory.wf s.csm = true)
    (hwritten : WrittenAt s v asid core launch (.csm pa) new) :
    let t := (v.noteApplied c req ch (.csm pa) ack).onCore c f
    CsmPut s t pa new ∧ t.core c = f (s.core c) ∧ (∀ d, d ≠ c → t.core d = s.core d) ∧
      t.windows.getLast? = some (appliedEntry s c req ch (.csm pa) ack) ∧
      { t with
        csm := s.csm, csmMarks := s.csmMarks, cores := s.cores, windows := s.windows, tags := s.tags, resends := s.resends } = s := by
  obtain ⟨hbytes, hcores, htags, -, hrest⟩ := writtenAt_csm hwritten
  have wv : CoresWf v := by
    unfold CoresWf
    rw [hcores]
    exact w
  have wn : CoresWf (v.noteApplied c req ch (.csm pa) ack) := wv
  have hlast := (noteApplied_csm (s := v) (c := c) (req := req) (ch := ch) (pa := pa) (ack := ack)).1
  have hentry : appliedEntry v c req ch (.csm pa) ack = appliedEntry s c req ch (.csm pa) ack := by
    unfold appliedEntry State.nextTag
    rw [core_of_cores hcores, htags]
    rfl
  have hcore : ∀ d, (v.noteApplied c req ch (.csm pa) ack).core d = s.core d := core_of_cores hcores
  refine ⟨csmPut_putMem hcsm hbytes, ?_, fun d hd => ?_, hentry ▸ hlast, ?_⟩
  · rw [State.core_onCore wn, if_pos rfl, hcore]
  · rw [State.core_onCore wn, if_neg hd, hcore]
  · have hall := congrArg (fun x : State => { x with windows := s.windows, tags := s.tags, resends := s.resends, cores := s.cores }) hrest
    exact hall

/-- A plain store performed in chip shared memory. -/
theorem csm_stored {asid core launch pa : Nat} (w : CoresWf s) (hcsm : Memory.wf s.csm = true)
    (hwritten : WrittenAt s v asid core launch (.csm pa) new) :
    let t := v.onCore c f
    CsmPut s t pa new ∧ t.core c = f (s.core c) ∧ (∀ d, d ≠ c → t.core d = s.core d) ∧ t.windows = s.windows ∧
      { t with csm := s.csm, csmMarks := s.csmMarks, cores := s.cores } = s := by
  obtain ⟨hbytes, hcores, -, hwindows, hrest⟩ := writtenAt_csm hwritten
  have wv : CoresWf v := by
    unfold CoresWf
    rw [hcores]
    exact w
  have hcore : ∀ d, v.core d = s.core d := core_of_cores hcores
  refine ⟨csmPut_putMem hcsm hbytes, ?_, fun d hd => ?_, hwindows, ?_⟩
  · rw [State.core_onCore wv, if_pos rfl, hcore]
  · rw [State.core_onCore wv, if_neg hd, hcore]
  · have hall := congrArg (fun x : State => { x with cores := s.cores }) hrest
    exact hall

/-- Writing at a place outside chip shared memory changes no core and no number of a request. -/
theorem writePlace_far {asid core launch : Nat} (hfar : ∀ pa, p ≠ .csm pa) (hwork : FarWork s u) :
    let t := u.writePlace asid core launch p new
    t.cores = s.cores ∧ t.tags = s.tags ∧ t.hbm.unitOf p = s.hbm.unitOf p := by
  cases p with
  | csm pa => exact absurd rfl (hfar pa)
  | host a => exact ⟨hwork.cores, hwork.tags, hwork.unitOf _⟩
  | hbm pa key =>
    have hall := hwork.trans (FarWork.writePlace_hbm asid core launch pa key new u)
    exact ⟨hall.cores, hall.tags, hall.unitOf _⟩

theorem hostPut_writePlace {asid core launch x : Nat} (hhost : Memory.wf s.host = true) (hwork : FarWork s u) (hx : p = .host x) :
    HostPut s (u.writePlace asid core launch p new) x new := by
  subst hx
  exact hostPut_putMem hhost (congrArg (putMem · x new) hwork.host)

/-- A request applied outside chip shared memory. -/
theorem far_applied {asid core launch req ch : Nat} {ack : Option W64} (w : CoresWf s) (hhost : Memory.wf s.host = true)
    (hfar : ∀ pa, p ≠ .csm pa) (hwork : FarWork s u) (hwritten : WrittenAt u v asid core launch p new) :
    let t := (v.noteApplied c req ch p ack).onCore c f
    SameMemories (u.writePlace asid core launch p new) t c ∧ (∀ x, p = .host x → HostPut s t x new) ∧
      KeptFor s t c req ch (s.hbm.unitOf p) ack ∧ t.core c = f (s.core c) := by
  obtain rfl := writtenAt_far hfar hwritten
  obtain ⟨hcores, htags, hunit⟩ := writePlace_far (asid := asid) (core := core) (launch := launch) (new := new) hfar hwork
  obtain ⟨kcores, kcsm, khost, kdram, kcache, klogs, kcontexts⟩ :=
    noteApplied_keeps (s := u.writePlace asid core launch p new) (c := c) (req := req) (ch := ch) (p := p) (ack := ack)
  have hkept := noteApplied_kept (s := u.writePlace asid core launch p new) (c := c) (req := req) (ch := ch) (p := p) (ack := ack)
  have wn : CoresWf ((u.writePlace asid core launch p new).noteApplied c req ch p ack) := by
    unfold CoresWf
    rw [kcores, hcores]
    exact w
  refine ⟨⟨kcsm, khost, kdram, kcache, klogs, kcontexts, fun d hd => ?_⟩, fun x hx a => ?_, ?_, ?_⟩
  · rw [State.core_onCore wn, if_neg hd, core_of_cores kcores]
  · have hput := hostPut_writePlace (asid := asid) (core := core) (launch := launch) (new := new) hhost hwork hx a
    rw [← khost] at hput
    exact hput
  · refine ⟨_, hkept, rfl, rfl, hunit, ?_, rfl⟩
    unfold appliedEntry State.nextTag
    rw [hunit, htags]
  · rw [State.core_onCore wn, if_pos rfl, core_of_cores kcores, core_of_cores hcores]

/-- A plain store performed outside chip shared memory. -/
theorem far_stored {asid core launch : Nat} (w : CoresWf s) (hhost : Memory.wf s.host = true) (hfar : ∀ pa, p ≠ .csm pa)
    (hwork : FarWork s u) (hwritten : WrittenAt u v asid core launch p new) :
    let t := v.onCore c f
    SameMemories (u.writePlace asid core launch p new) t c ∧ (∀ x, p = .host x → HostPut s t x new) ∧ t.core c = f (s.core c) := by
  obtain rfl := writtenAt_far hfar hwritten
  obtain ⟨hcores, -, -⟩ := writePlace_far (asid := asid) (core := core) (launch := launch) (new := new) hfar hwork
  have wv : CoresWf (u.writePlace asid core launch p new) := by
    unfold CoresWf
    rw [hcores]
    exact w
  refine ⟨⟨rfl, rfl, rfl, rfl, rfl, rfl, fun d hd => ?_⟩, fun x hx => hostPut_writePlace hhost hwork hx, ?_⟩
  · rw [State.core_onCore wv, if_neg hd]
  · rw [State.core_onCore wv, if_pos rfl, core_of_cores hcores]

end Outcomes

end Sys2Proof.Machine

/-! Proofs for spec/09 (atomics) and spec/12 (exact accumulators): the results of atomics and reductions bit by bit (R204, R206, R259). -/

namespace Sys2Proof.Machine

open Safety

/-! ### Little-endian bytes -/

section Bytes

theorem leNat_cons (b : Byte) (l : List Byte) (n : Nat) : leNat (b :: l) (n + 1) = b.toNat + 256 * leNat l n := by
  induction n with
  | zero => simp [leNat, byteAt]
  | succ n ih =>
    have hnext : byteAt (b :: l) (n + 1) = byteAt l n := by simp [byteAt]
    rw [leNat, ih, hnext, leNat, Nat.pow_succ, Nat.mul_add]
    ac_rfl

theorem leNat_leBytes (x n : Nat) : leNat (leBytes x n) n = x % 256 ^ n := by
  induction n generalizing x with
  | zero => simp [leNat, Nat.mod_one]
  | succ n ih =>
    have hbyte : (BitVec.ofNat 8 x).toNat = x % 256 := BitVec.toNat_ofNat x 8
    rw [leBytes, leNat_cons, ih, hbyte, Nat.pow_succ', Nat.mod_mul]

theorem leBytes_mod (x n : Nat) : leBytes (x % 256 ^ n) n = leBytes x n := by
  induction n generalizing x with
  | zero => rfl
  | succ n ih =>
    have hdvd : (256 : Nat) ∣ 256 ^ (n + 1) := ⟨256 ^ n, Nat.pow_succ'⟩
    have hbyte : BitVec.ofNat 8 (x % 256 ^ (n + 1)) = BitVec.ofNat 8 x :=
      BitVec.eq_of_toNat_eq (by rw [BitVec.toNat_ofNat, BitVec.toNat_ofNat]; exact Nat.mod_mod_of_dvd x hdvd)
    have hrest : x % 256 ^ (n + 1) / 256 = x / 256 % 256 ^ n := by rw [Nat.pow_succ', Nat.mod_mul_right_div_self]
    rw [leBytes, leBytes, hbyte, hrest, ih]

end Bytes

/-! ### Integers of a width as bit vectors -/

section Codes
variable {w : Nat}

theorem toInt_eq_ofNat (hw : 0 < w) (n : Nat) : toInt w true n = (BitVec.ofNat w n).toInt := by
  have hpow : 2 ^ w = 2 * 2 ^ (w - 1) := by rw [← Nat.pow_succ', Nat.succ_eq_add_one, Nat.sub_add_cancel hw]
  unfold toInt
  rw [BitVec.toInt_eq_toNat_cond, BitVec.toNat_ofNat]
  simp only [true_and]
  by_cases h : 2 ^ (w - 1) ≤ n % 2 ^ w
  · rw [if_pos h, if_neg (by omega)]
  · rw [if_neg h, if_pos (by omega)]

/-- The smaller, or the larger, of two codes read as signed numbers. -/
theorem ofNat_signed (hw : 0 < w) (x v c d : Nat) :
    BitVec.ofNat w (if toInt w true x < toInt w true v then c else d) =
      if (BitVec.ofNat w x).slt (BitVec.ofNat w v) then BitVec.ofNat w c else BitVec.ofNat w d := by
  rw [toInt_eq_ofNat hw, toInt_eq_ofNat hw, BitVec.slt_eq_decide, apply_ite (BitVec.ofNat w)]
  exact ite_congr (propext decide_eq_true_iff.symm) (fun _ => rfl) fun _ => rfl

theorem ofNat_min (x v : Nat) : BitVec.ofNat w (min (x % 2 ^ w) (v % 2 ^ w)) =
    if (BitVec.ofNat w v).ult (BitVec.ofNat w x) then BitVec.ofNat w v else BitVec.ofNat w x := by
  refine BitVec.eq_of_toNat_eq ?_
  rw [BitVec.ult_eq_decide, apply_ite BitVec.toNat, BitVec.toNat_ofNat, BitVec.toNat_ofNat, BitVec.toNat_ofNat,
    ite_congr (propext decide_eq_true_iff) (fun _ => rfl) fun _ => rfl, Nat.min_def]
  by_cases h : x % 2 ^ w ≤ v % 2 ^ w
  · rw [if_pos h, if_neg (Nat.not_lt.mpr h), Nat.mod_mod]
  · rw [if_neg h, if_pos (Nat.not_le.mp h), Nat.mod_mod]

theorem ofNat_max (x v : Nat) : BitVec.ofNat w (max (x % 2 ^ w) (v % 2 ^ w)) =
    if (BitVec.ofNat w x).ult (BitVec.ofNat w v) then BitVec.ofNat w v else BitVec.ofNat w x := by
  refine BitVec.eq_of_toNat_eq ?_
  rw [BitVec.ult_eq_decide, apply_ite BitVec.toNat, BitVec.toNat_ofNat, BitVec.toNat_ofNat, BitVec.toNat_ofNat,
    ite_congr (propext decide_eq_true_iff) (fun _ => rfl) fun _ => rfl, Nat.max_def]
  by_cases h : x % 2 ^ w < v % 2 ^ w
  · rw [if_pos (Nat.le_of_lt h), if_pos h, Nat.mod_mod]
  · rw [if_neg h]
    split
    · rw [Nat.mod_mod]; omega
    · rw [Nat.mod_mod]

theorem ofNat_mod (n : Nat) : BitVec.ofNat w (n % 2 ^ w) = BitVec.ofNat w n := by
  refine BitVec.eq_of_toNat_eq ?_
  rw [BitVec.toNat_ofNat, BitVec.toNat_ofNat, Nat.mod_mod]

end Codes

/-! ### Atomics (R204) -/

section Atomics
variable {n : Nat}

/-- The low bits of what an atomic computes. -/
theorem ofNat_atomicNew (hn : n ≤ 8) (k : Nat) : BitVec.ofNat (8 * n) (BitVec.ofNat 64 (k % 2 ^ (8 * n))).toNat = BitVec.ofNat (8 * n) k := by
  have hle : 2 ^ (8 * n) ≤ 2 ^ 64 := Nat.pow_le_pow_right (by decide) (by omega)
  rw [BitVec.toNat_ofNat, Nat.mod_eq_of_lt (Nat.lt_of_lt_of_le (Nat.mod_lt k (Nat.two_pow_pos _)) hle), ofNat_mod]

theorem atomicDo_integer {op sz : Nat} (h11 : op ≠ 11) (h12 : op ≠ 12) (old : List Byte) (v : W64) : atomicDo op sz old v =
    (leBytes (atomicNew op (2 ^ sz) (BitVec.ofNat 64 (leNat old old.length)) v).toNat (2 ^ sz), BitVec.ofNat 64 (leNat old old.length)) := by
  unfold atomicDo
  dsimp only
  rw [if_neg h11, if_neg h12]

theorem pow_256 (n : Nat) : (256 : Nat) ^ n = 2 ^ (8 * n) := by rw [Nat.pow_mul]

/-- The result of an atomic on `n` bytes, as a word of their width. -/
theorem leBytes_ofNat (y n : Nat) : leBytes (BitVec.ofNat (8 * n) y).toNat n = leBytes y n := by
  rw [BitVec.toNat_ofNat, ← pow_256, leBytes_mod]

theorem atomicNew_integer (hn : n ≤ 8) (hpos : 0 < n) (x : Nat) (hx : x < 2 ^ (8 * n)) (v : W64) :
    let w := 8 * n
    let y := BitVec.ofNat w x
    let u := v.setWidth w
    let r := fun op => BitVec.ofNat w (atomicNew op n (BitVec.ofNat 64 x) v).toNat
    r 0 = y + u ∧ r 1 = y &&& u ∧ r 2 = y ||| u ∧ r 3 = y ^^^ u ∧ r 4 = (if u.slt y then u else y) ∧ r 5 = (if y.slt u then u else y) ∧
      r 6 = (if u.ult y then u else y) ∧ r 7 = (if y.ult u then u else y) ∧ r 8 = u := by
  have hw : 0 < 8 * n := by omega
  have hle : 2 ^ (8 * n) ≤ 2 ^ 64 := Nat.pow_le_pow_right (by decide) (by omega)
  have hxnat : (BitVec.ofNat 64 x).toNat = x := by rw [BitVec.toNat_ofNat, Nat.mod_eq_of_lt (Nat.lt_of_lt_of_le hx hle)]
  have hy : (BitVec.ofNat 64 x).setWidth (8 * n) = BitVec.ofNat (8 * n) x := by rw [← BitVec.ofNat_toNat, hxnat]
  have hu : v.setWidth (8 * n) = BitVec.ofNat (8 * n) v.toNat := (BitVec.ofNat_toNat (8 * n) v).symm
  refine ⟨(ofNat_atomicNew hn _).trans ?_, (ofNat_atomicNew hn _).trans ?_, (ofNat_atomicNew hn _).trans ?_,
    (ofNat_atomicNew hn _).trans ?_, (ofNat_atomicNew hn _).trans ?_, (ofNat_atomicNew hn _).trans ?_, (ofNat_atomicNew hn _).trans ?_,
    (ofNat_atomicNew hn _).trans ?_, (ofNat_atomicNew hn _).trans ?_⟩
  · rw [hxnat, BitVec.ofNat_add, hu]
  · rw [BitVec.ofNat_toNat, BitVec.setWidth_and, hy]
  · rw [BitVec.ofNat_toNat, BitVec.setWidth_or, hy]
  · rw [BitVec.ofNat_toNat, BitVec.setWidth_xor, hy]
  · rw [hxnat, ofNat_signed hw, ofNat_mod, ofNat_mod, hu]
  · rw [hxnat, ofNat_signed hw, ofNat_mod, ofNat_mod, hu]
  · rw [hxnat, ofNat_min, hu]
  · rw [hxnat, ofNat_max, hu]
  · rw [ofNat_mod, hu]

/-- The float reductions of 4 and 2 bytes. -/
theorem atomicDo_float {op sz : Nat} {f : Nat → Nat → Nat} {old : List Byte} {v : W64} (h11 : op ≠ 11) (h12 : op ≠ 12) (hsz : sz ≤ 3)
    (hlen : old.length = 2 ^ sz)
    (hf : ∀ n x, atomicNew op n x v = BitVec.ofNat 64 (f (x.toNat % 2 ^ (8 * n)) (v.toNat % 2 ^ (8 * n)) % 2 ^ (8 * n))) :
    atomicDo op sz old v = (leBytes (f (leNat old (2 ^ sz)) (v.toNat % 2 ^ (8 * 2 ^ sz))) (2 ^ sz), BitVec.ofNat 64 (leNat old (2 ^ sz))) := by
  have hpow : 2 ^ sz ≤ 8 := Nat.pow_le_pow_right (n := 2) (by decide) hsz
  have hold : leNat old (2 ^ sz) < 2 ^ (8 * 2 ^ sz) := pow_256 (2 ^ sz) ▸ leNat_lt old (2 ^ sz)
  have hle : 2 ^ (8 * 2 ^ sz) ≤ 2 ^ 64 := Nat.pow_le_pow_right (by decide) (by omega)
  have hnat : (BitVec.ofNat 64 (leNat old (2 ^ sz))).toNat = leNat old (2 ^ sz) := by
    rw [BitVec.toNat_ofNat, Nat.mod_eq_of_lt (Nat.lt_of_lt_of_le hold hle)]
  rw [atomicDo_integer h11 h12, hlen, hf, hnat, Nat.mod_eq_of_lt hold]
  refine Prod.ext ?_ rfl
  dsimp only
  rw [BitVec.toNat_ofNat, Nat.mod_eq_of_lt (Nat.lt_of_lt_of_le (Nat.mod_lt _ (Nat.two_pow_pos _)) hle), ← pow_256, leBytes_mod]

end Atomics

/-! ### Accumulator cells (R258, R259) -/

section Cells

/-- A bit that is not set is added. -/
theorem add_two_pow_eq_or {x k : Nat} (h : x / 2 ^ k % 2 = 0) : x + 2 ^ k = x ||| 2 ^ k := by
  have hlow : x % 2 ^ k < 2 ^ k := Nat.mod_lt _ (Nat.two_pow_pos k)
  have hodd : x / 2 ^ k + 1 = x / 2 ^ k ||| 1 := by
    have hhalf := Nat.two_pow_add_eq_or_of_lt (i := 1) (b := 1) (by decide) (x / 2 ^ k / 2)
    rwa [Nat.pow_one, show 2 * (x / 2 ^ k / 2) = x / 2 ^ k by omega] at hhalf
  have hshift : 2 ^ k * (x / 2 ^ k ||| 1) = 2 ^ k * (x / 2 ^ k) ||| 2 ^ k := by
    have hdistrib := Nat.shiftLeft_or_distrib (a := x / 2 ^ k) (b := 1) (i := k)
    simpa only [Nat.shiftLeft_eq, Nat.one_mul, Nat.mul_comm] using hdistrib
  calc x + 2 ^ k = 2 ^ k * (x / 2 ^ k + 1) + x % 2 ^ k := by
        have hdiv := Nat.div_add_mod x (2 ^ k)
        rw [Nat.mul_succ]
        omega
    _ = (2 ^ k * (x / 2 ^ k) ||| 2 ^ k) ||| x % 2 ^ k := by rw [Nat.two_pow_add_eq_or_of_lt hlow, hodd, hshift]
    _ = (2 ^ k * (x / 2 ^ k) ||| x % 2 ^ k) ||| 2 ^ k := by rw [Nat.or_assoc, Nat.or_assoc, Nat.or_comm (2 ^ k)]
    _ = x ||| 2 ^ k := by rw [← Nat.two_pow_add_eq_or_of_lt hlow, Nat.div_add_mod]

theorem setBit_eq_or (x k : Nat) : setBit x (2 ^ k) = x ||| 2 ^ k := by
  unfold setBit
  by_cases h : x / 2 ^ k % 2 = 1
  · rw [if_pos h]
    refine Nat.eq_of_testBit_eq fun i => ?_
    rw [Nat.testBit_or, Nat.testBit_two_pow]
    by_cases hi : k = i
    · subst hi
      rw [Nat.testBit_eq_decide_div_mod_eq, decide_eq_true h, Bool.true_or]
    · rw [decide_eq_false hi, Bool.or_false]
  · rw [if_neg h, add_two_pow_eq_or (by omega)]

theorem cellAdd_cases (cell v : Nat) :
    (fp32.decode v = .nan → cellAdd cell v = cell ||| 2 ^ 388) ∧
    (∀ b, fp32.decode v = .inf b → cellAdd cell v = cell ||| 2 ^ (if b then 390 else 389)) ∧
    (∀ b m e, fp32.decode v = .fin b m e → cellAdd cell v / 2 ^ 384 = cell / 2 ^ 384 ∧
      ((cellAdd cell v % 2 ^ 384 : Nat) : Int) = ((cell % 2 ^ 384 : Nat) + (fp32.decode v).atExp (-149)) % 2 ^ 384) := by
  refine ⟨fun h => ?_, fun b h => ?_, fun b m e h => ?_⟩
  · unfold cellAdd
    rw [h]
    exact setBit_eq_or cell 388
  · unfold cellAdd
    rw [h]
    cases b
    · exact setBit_eq_or cell 389
    · exact setBit_eq_or cell 390
  · have hadd : cellAdd cell v = (cell - cell % 2 ^ 384) + ofInt 384 (((cell % 2 ^ 384 : Nat) : Int) + (fp32.decode v).atExp (-149)) := by
      unfold cellAdd
      rw [h]
    generalize (fp32.decode v).atExp (-149) = z at hadd ⊢
    have hpos : (0 : Int) < ((2 ^ 384 : Nat) : Int) := Int.natCast_pos.mpr (Nat.two_pow_pos 384)
    have hlow : ofInt 384 (((cell % 2 ^ 384 : Nat) : Int) + z) < 2 ^ 384 := by
      rw [← ofInt_mod]
      exact Nat.mod_lt _ (Nat.two_pow_pos 384)
    have hhigh : cell - cell % 2 ^ 384 = 2 ^ 384 * (cell / 2 ^ 384) := by
      have hdiv := Nat.div_add_mod cell (2 ^ 384)
      omega
    rw [hhigh] at hadd
    rw [hadd]
    refine ⟨?_, ?_⟩
    · rw [Nat.mul_add_div (Nat.two_pow_pos 384), Nat.div_eq_of_lt hlow, Nat.add_zero]
    · rw [Nat.mul_add_mod, Nat.mod_eq_of_lt hlow]
      unfold ofInt
      rw [Int.toNat_of_nonneg (Int.emod_nonneg _ (Int.ne_of_gt hpos))]
      rfl

end Cells

/-! ### Vector reductions (R206) -/

section VectorReductions
variable {op et i : Nat} {old new : List Byte}

/-- The low elements of a number cut to the width of a line. -/
theorem elem_line {w : Nat} (n : Nat) (hi : i < 1024 / w) : elem (n % 2 ^ 1024) w i = elem n w i := by
  refine Nat.eq_of_testBit_eq fun k => ?_
  rw [testBit_elem, testBit_elem, Nat.testBit_mod_two_pow]
  by_cases hk : k < w
  · have hin : w * i + k < 1024 :=
      calc w * i + k < w * (i + 1) := by rw [Nat.mul_succ]; omega
        _ ≤ w * (1024 / w) := Nat.mul_le_mul_left w hi
        _ ≤ 1024 := Nat.mul_div_le 1024 w
    rw [decide_eq_true hin, Bool.true_and]
  · rw [decide_eq_false hk, Bool.false_and, Bool.false_and]

/-- Element `i` of a line after its part of a VRED. -/
theorem elem_vredLine (hi : i < 1024 / etWidth et) : elem (leNat (vredLine op et old new) 128) (etWidth et) i =
    vredElem op et (elem (leNat old 128) (etWidth et) i) (elem (leNat new 128) (etWidth et) i) % 2 ^ etWidth et := by
  have hpack : vredLine op et old new = leBytes (packElems (etWidth et) ((List.range (1024 / etWidth et)).map fun i =>
      vredElem op et (elem (leNat old 128) (etWidth et) i) (elem (leNat new 128) (etWidth et) i))) 128 := by
    unfold vredLine packElems
    rw [List.foldr_map]
    rfl
  rw [hpack, leNat_leBytes, pow_256, elem_line _ hi, elem_packElems]
  simp [List.getD, hi]

/-- One element of a VRED, of elements within their width. -/
theorem vredElem_integer (hw : 0 < etWidth et) {x v : Nat} (hx : x < 2 ^ etWidth et) (hv : v < 2 ^ etWidth et) :
    let w := etWidth et
    let y := BitVec.ofNat w x
    let u := BitVec.ofNat w v
    let r := fun op => BitVec.ofNat w (vredElem op et x v)
    r 0 = y + u ∧ r 1 = y &&& u ∧ r 2 = y ||| u ∧ r 3 = y ^^^ u ∧ r 4 = (if u.slt y then u else y) ∧ r 5 = (if y.slt u then u else y) ∧
      r 6 = (if u.ult y then u else y) ∧ r 7 = (if y.ult u then u else y) := by
  have hmin : min x v = min (x % 2 ^ etWidth et) (v % 2 ^ etWidth et) := by rw [Nat.mod_eq_of_lt hx, Nat.mod_eq_of_lt hv]
  have hmax : max x v = max (x % 2 ^ etWidth et) (v % 2 ^ etWidth et) := by rw [Nat.mod_eq_of_lt hx, Nat.mod_eq_of_lt hv]
  exact ⟨(ofNat_mod _).trans (BitVec.ofNat_add ..), BitVec.ofNat_and, BitVec.ofNat_or, BitVec.ofNat_xor, ofNat_signed hw v x v x,
    ofNat_signed hw x v v x, (congrArg _ hmin).trans (ofNat_min x v), (congrArg _ hmax).trans (ofNat_max x v)⟩

end VectorReductions

end Sys2Proof.Machine

/-! Proofs for spec/09, spec/12, spec/15 and spec/20: off-core accesses act once (R188, R204 to R206, R260, R364). -/

namespace Sys2Proof.Machine

open Safety

/-! ### Requests that are sent again (R260) -/

section Resends
variable {s : State} {c req : Nat}

theorem resend_sent (h : s.sentOn c req = true) : exec (.requestResend c req) s =
    .next { s with resends := s.resends ++ [⟨((s.core c).launch).getD 0, c, req, none⟩] } := by
  show execRequestResend c req s = _
  unfold execRequestResend
  dsimp only
  rw [if_pos h]

theorem resend_applied {w : WindowEntry} (hsent : s.sentOn c req = false) (hwindow : s.windowed c req = some w) (hlack : s.mayLack w = true) :
    exec (.requestResend c req) s =
      .next { s with resends := s.resends ++ [⟨((s.core c).launch).getD 0, c, req, some (w.source, w.target, w.tag)⟩] } := by
  show execRequestResend c req s = _
  unfold execRequestResend
  dsimp only
  rw [hsent, if_neg Bool.false_ne_true, hwindow]
  dsimp only
  rw [if_pos hlack]

/-- The only request of a core, with none sent again, is one that it has sent. -/
theorem sentOn_only {x : Nat × Nat × Nat × Nat} (hrequests : s.requests c = [x]) (hname : x.1 = req) (hresends : s.resends = []) :
    s.sentOn c req = true := by
  have hfind : [x].find? (fun y => y.1 == req) = some x := by simp [hname]
  have hself : ([x].filter fun y => y.2.2 == x.2.2 && decide (y.2.1 < x.2.1)) = [] := by simp
  unfold State.sentOn
  dsimp only
  rw [hrequests, hfind, hresends]
  dsimp only
  rw [hself]
  rfl

/-- The second copy of a request is answered out of the window. -/
theorem request_again {r : Resend} {w : WindowEntry} (hoffs : ∀ x ∈ (s.core c).offs, x.id = req → x.answer ≠ none)
    (hout : ∀ x ∈ (s.core c).out, x.id ≠ req)
    (hresend : s.resends.find? (fun r => r.core == c && r.req == req && r.sent.isSome) = some r)
    (hkept : s.keptRequests.find? (fun w => r.sent == some (w.source, w.target, w.tag)) = some w)
    (hlaunch : (s.core c).launch = some w.launch) :
    exec (.remoteAtomicRequest c req) s = .next { s.setCore c { s.core c with
      offs := (s.core c).offs.map fun x => if x.id = w.req then { x with answer := w.ack.or x.answer } else x } with
      resends := s.resends.erase r } := by
  have hnoOff : (s.core c).offs.find? (fun x => x.id == req && x.answer.isNone) = none := by
    refine List.find?_eq_none.mpr fun x hx h => ?_
    rw [Bool.and_eq_true, beq_iff_eq, Option.isNone_iff_eq_none] at h
    exact hoffs x hx h.1 h.2
  have hnoOut : (s.core c).out.find? (fun x => x.id == req) = none :=
    List.find?_eq_none.mpr fun x hx h => hout x hx (beq_iff_eq.mp h)
  show execRemoteAtomicRequest c req s = _
  unfold execRemoteAtomicRequest
  dsimp only
  rw [hnoOff]
  dsimp only
  rw [hnoOut]
  dsimp only
  rw [hresend]
  dsimp only
  rw [hkept]
  unfold State.answerAgain State.onCore
  dsimp only
  rw [if_pos hlaunch]

end Resends

/-! ### The side log (R364) -/

section SideLog
variable {s : State} {c idx key i : Nat} {w : Write} {l : Launch} {x : Context}

/-- An entry whose turn it is is performed as its access would have been. -/
theorem sideLog_applies {drop : State → State} (hentry : (s.sideEntries c)[idx]? = some (key, i)) (hside : (s.core key).side[i]? = some w)
    {pieces : List (Nat × List Byte)} (hkind : w.kind = .store pieces) (hfirst : ∀ y ∈ (s.core key).side.take i, y.ch ≠ w.ch)
    (hlaunch : s.launchOf key = some l) (hcontext : s.context? l.asid = some x) (halive : x.tombstone = false)
    (hready : ({ s.core key with side := (s.core key).side.eraseIdx i } : Core).ready w = true)
    (hdrop : drop = fun s => s.onCore key fun k => { k with side := k.side.eraseIdx i }) :
    exec (.sideLogReplay c idx) s = .next (s.applyWrite key w drop) := by
  have hahead : ((s.core key).side.take i).any (fun y => y.ch == w.ch) = false :=
    List.any_eq_false.mpr fun y hy h => hfirst y hy (beq_iff_eq.mp h)
  show execSideLogReplay c idx s = _
  unfold execSideLogReplay
  rw [hentry]
  dsimp only
  unfold State.replayEntry
  dsimp only
  rw [hside]
  dsimp only
  rw [hahead, hlaunch, Option.bind_some, hcontext]
  dsimp only
  rw [if_neg (by rw [halive, hready]; simp), hkind, hdrop]

/-- A plain store is no choice of the order log: it is performed, and taken out of the place where it stood. -/
theorem storeApplied {u : State} {va j : Nat} {e : TEntry} {p : Place} {new : List Byte} {drop : State → State} (hlaunch : s.launchOf c = some l)
    (hlookup : lookup (s.core c).table .write va = .at j e p) (hstepped : e.stepped = false) (hwatch : e.watch = false)
    (hgives : WriteGives s u l.asid p va new w.kind) (hred : w.kind.isRed = false) (hlogged : w.kind.logged = false) :
    ∃ v, WrittenAt u v l.asid (flat c) l.id p new ∧ s.applyWrite c w drop = drop v := by
  obtain ⟨v, hperform, hwritten⟩ := perform_plain hlaunch hlookup hstepped hwatch hgives
  have hplace : s.placeFor c .write w.kind.first = some p := by
    unfold State.placeFor
    rw [writeGives_first hgives, hlookup]
  obtain ⟨id, hid, -⟩ := Option.bind_eq_some_iff.mp hlaunch
  refine ⟨v, hwritten, ?_⟩
  unfold State.applyWrite
  rw [hplace, hid]
  dsimp only
  rw [hred, hlogged, Bool.false_and, if_neg Bool.false_ne_true, if_neg Bool.false_ne_true, hperform]
  dsimp only
  rw [if_neg Bool.false_ne_true]

end SideLog

/-! ### Elements of a vector reduction (R206) -/

section VectorReductions
variable {op et : Nat} {x v : Nat}

theorem vredElem_fp32 : vredElem 9 8 x v = (fAdd fp32 x v).1 := rfl

theorem vredElem_bf16 (h : etWidth et = 16) : vredElem 10 et x v = (fAdd bf16 x v).1 := by
  have het : et ≠ 8 := by
    rintro rfl
    exact absurd h (by decide)
  show (fAdd (if et = 8 then fp32 else bf16) x v).1 = _
  rw [if_neg het]

theorem vredLine_elements {i : Nat} {old new : List Byte} (hw : etWidth et ∈ [8, 16, 32]) (hi : i < 1024 / etWidth et) :
    let w := etWidth et
    let x := BitVec.ofNat w (elem (leNat old 128) w i)
    let u := BitVec.ofNat w (elem (leNat new 128) w i)
    let r := BitVec.ofNat w (elem (leNat (vredLine op et old new) 128) w i)
    (op = 0 → r = x + u) ∧ (op = 1 → r = x &&& u) ∧ (op = 2 → r = x ||| u) ∧ (op = 3 → r = x ^^^ u) ∧
    (op = 4 → r = if u.slt x then u else x) ∧ (op = 5 → r = if x.slt u then u else x) ∧
    (op = 6 → r = if u.ult x then u else x) ∧ (op = 7 → r = if x.ult u then u else x) ∧
    (op = 9 → et = 8 → r = BitVec.ofNat w (fAdd fp32 x.toNat u.toNat).1) ∧
    (op = 10 → w = 16 → r = BitVec.ofNat w (fAdd bf16 x.toNat u.toNat).1) := by
  have hpos : 0 < etWidth et := by
    simp only [List.mem_cons, List.not_mem_nil, or_false] at hw
    omega
  have hx := elem_lt (leNat old 128) (etWidth et) i
  have hv := elem_lt (leNat new 128) (etWidth et) i
  dsimp only
  rw [elem_vredLine hi, ofNat_mod, BitVec.toNat_ofNat, BitVec.toNat_ofNat, Nat.mod_eq_of_lt hx, Nat.mod_eq_of_lt hv]
  generalize elem (leNat old 128) (etWidth et) i = x at hx ⊢
  generalize elem (leNat new 128) (etWidth et) i = v at hv ⊢
  obtain ⟨h0, h1, h2, h3, h4, h5, h6, h7⟩ := vredElem_integer hpos hx hv
  refine ⟨by rintro rfl; exact h0, by rintro rfl; exact h1, by rintro rfl; exact h2, by rintro rfl; exact h3, by rintro rfl; exact h4,
    by rintro rfl; exact h5, by rintro rfl; exact h6, by rintro rfl; exact h7, ?_, ?_⟩
  · rintro rfl rfl
    rw [vredElem_fp32]
  · rintro rfl h
    rw [vredElem_bf16 h]

end VectorReductions

/-! ### Reductions of a cell and of floats (R204, R259) -/

theorem atomicDo_cells (sz : Nat) (old : List Byte) (v : W64) (hlen : old.length = 64) :
    (atomicDo 11 sz old v = (leBytes (cellAdd (leNat old 64) (v.toNat % 2 ^ 32)) 64, 0)) ∧
    atomicDo 12 sz old v = (if v.getLsbD 0 then List.replicate 64 0 else old, BitVec.ofNat 64 (cellRead (leNat old 64))) := by
  unfold atomicDo
  rw [hlen]
  exact ⟨rfl, rfl⟩

theorem atomicNew_fp32 (n : Nat) (x v : W64) : atomicNew 9 n x v =
    BitVec.ofNat 64 ((fAdd fp32 (x.toNat % 2 ^ (8 * n)) (v.toNat % 2 ^ (8 * n))).1 % 2 ^ (8 * n)) := rfl

theorem atomicNew_bf16 (n : Nat) (x v : W64) : atomicNew 10 n x v =
    BitVec.ofNat 64 ((fAdd bf16 (x.toNat % 2 ^ (8 * n)) (v.toNat % 2 ^ (8 * n))).1 % 2 ^ (8 * n)) := rfl

theorem atomicDo_fp32 (old : List Byte) (v : W64) (hlen : old.length = 4) :
    atomicDo 9 2 old v = (leBytes (fAdd fp32 (leNat old 4) (v.toNat % 2 ^ 32)).1 4, BitVec.ofNat 64 (leNat old 4)) :=
  atomicDo_float (sz := 2) (f := fun x y => (fAdd fp32 x y).1) (by decide) (by decide) (by decide) hlen fun n x => atomicNew_fp32 n x v

theorem atomicDo_bf16 (old : List Byte) (v : W64) (hlen : old.length = 2) :
    atomicDo 10 1 old v = (leBytes (fAdd bf16 (leNat old 2) (v.toNat % 2 ^ 16)).1 2, BitVec.ofNat 64 (leNat old 2)) :=
  atomicDo_float (sz := 1) (f := fun x y => (fAdd bf16 x y).1) (by decide) (by decide) (by decide) hlen fun n x => atomicNew_bf16 n x v

/-- Settles O42. -/
theorem offCorePerforms : Obligations.OffCorePerforms := by
  unfold Obligations.OffCorePerforms
  refine ⟨?load, ?poisoned, ?vector, fun s c seq va n l pa hl hat hcol hgood => loadBytes_csm hl hat hcol hgood, ?answer, ?atomicCsm, ?writeCsm,
    ?atomicFar, ?writeFar, ?integers, ?fp32, ?bf16, ?cells, fun cell v _ => cellAdd_cases cell v, ?vred, fun s c req => resend_sent,
    fun s c req x => sentOn_only, fun s c req w => resend_applied, fun s c req r w => request_again, ?sideLog⟩
  case load =>
    intro s u c req r va sz sx b hkind hd hfind horder hload hwf
    refine ⟨_, landed_land hwf _, ?_⟩
    rw [return_load hkind hfind horder hload]
    unfold State.onCore
    dsimp only
    rw [arriveAt_scalar hd]
    rfl
  case poisoned =>
    intro s u c req n r va sz sx b hkind hd hn hfind horder hload w
    refine ⟨_, return_load hkind hfind horder hload, ?_⟩
    rw [State.core_onCore w, if_pos rfl, hd, arriveAt_poison hn]
    refine ⟨?_, rfl, rfl, fun d hd => by rw [State.core_onCore w, if_neg hd]⟩
    exact (marked_mark .a n .a n).trans (if_pos ⟨rfl, rfl⟩)
  case vector =>
    intro s u c req r et addrs l q id hkind hd hfind horder hload hwf
    refine ⟨_, landed_land hwf _, ?_⟩
    rw [return_vector hkind hfind horder hload, hd]
    rfl
  case answer =>
    intro s c req r v hld hvld hfind hanswer hpoison hd hwf hnew
    refine ⟨_, landed_land hwf _, ?_⟩
    have harrive : (s.core c).arriveAt r.dest v 0 r.poison = { s.core c with arch := (s.core c).arch.land (r.dest.landing v) } := by
      rw [hpoison, arriveAt_scalar hd]
    rw [return_answer hld hvld hfind hanswer (by rw [harrive]; exact hnew), harrive, hpoison]
    rfl
  case atomicCsm =>
    intro s c req r l va pa n new answer w hcsm hfind hready hlaunch hrecord hreplay ⟨i, e, hlookup, hstepped, hwatch⟩ hgood hspan hkind
    have hlen : (memBytes s.csm pa n).length ≤ n := Nat.le_of_eq (by simp [memBytes])
    obtain ⟨f, hf, hexec⟩ := request_returning (va := va) hfind hready hlen (by
      obtain ⟨op, sz, v, h | h⟩ := hkind
      · exact .inl ⟨op, sz, v, h⟩
      · exact .inr h)
    rw [applyReturning_plain hlookup hstepped hwatch hlaunch hrecord hreplay hspan hgood] at hexec
    have hold : (s.readPlace l.asid (.csm pa) n).1.1 = memBytes s.csm pa n := rfl
    rw [hold, hf] at hexec
    obtain ⟨hput, hcore, hothers, hlast, hrest⟩ := csm_applied (c := c) (f := fun k => { k with offs := k.offs.map fun x =>
        if x.id = r.id then { x with answer := some answer, poison := false } else x }) (req := r.id) (ch := r.ch) (ack := some answer) w hcsm
      (atomicWritten_writtenAt (s := s) (c := c) (l := l) (p := .csm pa) (n := n) new)
    exact ⟨_, hexec, hput, congrArg Core.offs hcore, ⟨_, hlast, rfl, rfl, rfl, rfl, rfl⟩, hothers, hrest⟩
  case writeCsm =>
    intro s c req w l va pa new wf hcsm hnone hfind hready hlaunch hrecord hreplay ⟨i, e, hlookup, hstepped, hwatch⟩ hkind
    have hgives : ∃ u, u = s ∧ WriteGives s u l.asid (.csm pa) va new w.kind ∧ (w.kind.isRed = true → s.spanFull c w.ch (pa / 128 % 256) = false) := by
      obtain hk | ⟨op, sz, v, ⟨hk, -, hspan, hnew⟩ | ⟨op, et, b, hk, -, hspan, hnew⟩⟩ := hkind <;> rw [hk]
      · exact ⟨s, rfl, ⟨rfl, rfl⟩, nofun⟩
      · exact ⟨s, rfl, ⟨rfl, rfl, hnew⟩, fun _ => hspan⟩
      · exact ⟨s, rfl, ⟨rfl, rfl, hnew⟩, fun _ => hspan⟩
    obtain ⟨u, rfl, hgives, hspan⟩ := hgives
    have hexec := request_write hnone hfind hready
    obtain ⟨v, hwritten, happly⟩ := applyWrite_plain (drop := fun s => s.onCore c fun k => { k with out := k.out.filter (·.id ≠ req) })
      hlaunch hrecord hreplay hlookup hstepped hwatch hgives hspan
    rw [happly] at hexec
    by_cases hred : w.kind.isRed = true
    · rw [if_pos hred] at hexec
      obtain ⟨hput, hcore, hothers, -, hrest⟩ := csm_applied (c := c) (f := fun k => { k with out := k.out.filter (·.id ≠ req) })
        (req := w.id) (ch := w.ch) (ack := none) wf hcsm hwritten
      exact ⟨_, hexec, hput, congrArg Core.out hcore, hothers, .inr hred, hrest⟩
    · rw [if_neg hred] at hexec
      obtain ⟨hput, hcore, hothers, hwindows, hrest⟩ := csm_stored (c := c) (f := fun k => { k with out := k.out.filter (·.id ≠ req) })
        wf hcsm hwritten
      refine ⟨_, hexec, hput, congrArg Core.out hcore, hothers, .inl hwindows, ?_⟩
      have hall := congrArg (fun x : State => { x with windows := u.windows, tags := u.tags, resends := u.resends }) hrest
      exact hall
  case atomicFar =>
    intro s c req n r l va p new answer w hhost hfind hready hlaunch hrecord hreplay ⟨⟨i, e, hlookup, hstepped, hwatch⟩, hfar⟩ hgood hspan old hkind
    obtain ⟨f, hf, hexec⟩ := request_returning (va := va) hfind hready (readPlace_length_le s l.asid p n) (by
      obtain ⟨op, sz, v, h | h⟩ := hkind
      · exact .inl ⟨op, sz, v, h⟩
      · exact .inr h)
    rw [applyReturning_plain hlookup hstepped hwatch hlaunch hrecord hreplay hspan hgood, hf] at hexec
    obtain ⟨hsame, hput, hkept, hcore⟩ := far_applied (c := c) (f := fun k => { k with offs := k.offs.map fun x =>
        if x.id = r.id then { x with answer := some answer, poison := false } else x }) (req := r.id) (ch := r.ch) (ack := some answer) w hhost
      hfar (FarWork.readPlace ..) (atomicWritten_writtenAt (s := s) (c := c) (l := l) (p := p) (n := n) new)
    exact ⟨_, hexec, hsame, hput, hkept, congrArg Core.offs hcore⟩
  case writeFar =>
    intro s u c req w l va p new wf hhost hnone hfind hready hlaunch hrecord hreplay ⟨⟨i, e, hlookup, hstepped, hwatch⟩, hfar⟩ hkind
    have hgives : WriteGives s u l.asid p va new w.kind ∧ (w.kind.isRed = true → s.spanFull c w.ch (s.hbm.unitOf p) = false) := by
      obtain ⟨hk, hu⟩ | ⟨hspan, ⟨op, sz, v, hk, hu, hnew⟩ | ⟨op, et, b, hk, hu, hnew⟩⟩ := hkind <;> rw [hk]
      · exact ⟨⟨rfl, hu⟩, nofun⟩
      · exact ⟨⟨rfl, hu, hnew⟩, fun _ => hspan⟩
      · exact ⟨⟨rfl, hu, hnew⟩, fun _ => hspan⟩
    obtain ⟨hgives, hspan⟩ := hgives
    have hwork := writeGives_farWork hgives
    have hexec := request_write hnone hfind hready
    obtain ⟨v, hwritten, happly⟩ := applyWrite_plain (drop := fun s => s.onCore c fun k => { k with out := k.out.filter (·.id ≠ req) })
      hlaunch hrecord hreplay hlookup hstepped hwatch hgives hspan
    rw [happly] at hexec
    by_cases hred : w.kind.isRed = true
    · rw [if_pos hred] at hexec
      obtain ⟨hsame, hput, hkept, hcore⟩ := far_applied (c := c) (f := fun k => { k with out := k.out.filter (·.id ≠ req) })
        (req := w.id) (ch := w.ch) (ack := none) wf hhost hfar hwork hwritten
      exact ⟨_, hexec, hsame, hput, fun _ => hkept, congrArg Core.out hcore⟩
    · rw [if_neg hred] at hexec
      obtain ⟨hsame, hput, hcore⟩ := far_stored (c := c) (f := fun k => { k with out := k.out.filter (·.id ≠ req) }) wf hhost hfar hwork hwritten
      exact ⟨_, hexec, hsame, hput, fun h => absurd h hred, congrArg Core.out hcore⟩
  case integers =>
    intro op sz old v hsz hlen w x u
    have hsz3 : sz ≤ 3 := by omega
    have hbytes : 2 ^ sz ≤ 8 := Nat.pow_le_pow_right (n := 2) (by decide) hsz3
    have hold : leNat old (2 ^ sz) < 2 ^ (8 * 2 ^ sz) := pow_256 (2 ^ sz) ▸ leNat_lt old (2 ^ sz)
    obtain ⟨h0, h1, h2, h3, h4, h5, h6, h7, h8⟩ := atomicNew_integer hbytes (Nat.two_pow_pos sz) _ hold v
    refine ⟨BitVec.ofNat w (atomicNew op (2 ^ sz) (BitVec.ofNat 64 (leNat old (2 ^ sz))) v).toNat, fun hop => ?_, ?_⟩
    · rw [atomicDo_integer (by omega) (by omega), hlen, leBytes_ofNat, BitVec.toNat_ofNat, Nat.mod_eq_of_lt hold]
    · refine ⟨?_, ?_, ?_, ?_, ?_, ?_, ?_, ?_, ?_⟩ <;> rintro rfl
      · exact h0
      · exact h1
      · exact h2
      · exact h3
      · exact h4
      · exact h5
      · exact h6
      · exact h7
      · exact h8
  case fp32 => exact atomicDo_fp32
  case bf16 => exact atomicDo_bf16
  case cells => exact atomicDo_cells
  case vred => exact fun op et i old new _ _ hw hi => vredLine_elements hw hi
  case sideLog =>
    intro s c idx key i w l x va pa new wf hcsm hentry hside hkind hfirst hlaunch hcontext halive hready ⟨j, e, hlookup, hstepped, hwatch⟩
    have hexec := sideLog_applies hentry hside hkind hfirst hlaunch hcontext halive hready rfl
    have hgives : WriteGives s s l.asid (.csm pa) va new w.kind := hkind ▸ ⟨rfl, rfl⟩
    have hplain : w.kind.isRed = false := hkind ▸ rfl
    obtain ⟨v, hwritten, happly⟩ := storeApplied hlaunch hlookup hstepped hwatch hgives hplain (hkind ▸ rfl)
      (drop := fun s => s.onCore key fun k => { k with side := k.side.eraseIdx i })
    rw [happly] at hexec
    obtain ⟨hput, hcore, hothers, -, hrest⟩ := csm_stored (c := key) (f := fun k => { k with side := k.side.eraseIdx i }) wf hcsm hwritten
    exact ⟨_, hexec, hput, congrArg Core.side hcore, hothers, hrest⟩

end Sys2Proof.Machine

/-! Proofs for spec/09 (copies, R212): a copy that has been released and no longer counts as performed. -/

namespace Sys2Proof.Machine

open Safety

/-! ### A released copy

The statement lets the copy at the head of its queue be released already, though not performed; the model ends a copy only where the two
flags agree. -/

/-- A copy of no bytes, bound to a field unit, released and not performed. -/
def releasedCopy : Op := { (default : Op) with code := .cpy, queue := 2, state := .field, released := true }

/-- Core 0 runs a launch and has that copy at the head of queue 2. -/
def releasedCopyState : State :=
  { State.reset with
    cores := [(0, { Core.reset with launch := some 0, ops := [(2, [releasedCopy])] })]
    launches := [{ (default : Launch) with grantNo := 1 }] }

theorem releasedCopyState_coresWf : CoresWf releasedCopyState := by
  unfold CoresWf
  decide +kernel

/-- The length of queue 2 of core 0 after a step. -/
def copiesLeft : Out → Option Nat
  | .next t => some (Sparse.get [] (t.core 0).ops 2).length
  | _ => none

theorem releasedCopy_stays : copiesLeft (exec (.copyPerformed 0 2) releasedCopyState) = some 1 := by decide +kernel

/-- Refutes O46: the released copy does not leave its queue. -/
theorem not_otherOperations : ¬ Obligations.OtherOperations := by
  unfold Obligations.OtherOperations
  intro h
  obtain ⟨-, hperformed, -⟩ := h
  obtain ⟨hplain, -⟩ := hperformed releasedCopyState 0 2 releasedCopy [] releasedCopyState_coresWf rfl (.inl rfl) (.inl rfl) rfl
    (Nat.le_refl 0) (by decide +kernel) (by decide +kernel)
  obtain ⟨t, hexec, hcore, -⟩ := hplain nofun
  have hstays := releasedCopy_stays
  rw [hexec] at hstays
  have hlength : (Sparse.get [] (t.core 0).ops 2).length = 1 := Option.some.inj hstays
  rw [hcore] at hlength
  exact absurd hlength (by decide +kernel)

end Sys2Proof.Machine

/-! Proofs for spec/01 (event queue) and spec/10 (messages, steals, deques): what arrives in the queues and the deque of a core. -/

namespace Sys2Proof.Machine

open Safety

/-! ### The first element that a test accepts -/

theorem dropFirst_split {α : Type} [BEq α] [LawfulBEq α] {e : α} {l : List α} (h : e ∈ l) :
    ∃ x z, l = x ++ e :: z ∧ e ∉ x ∧ dropFirst (· == e) l = x ++ z := by
  induction l with
  | nil => simp at h
  | cons y l ih =>
    by_cases hy : y = e
    · exact ⟨[], l, by simp [hy], List.not_mem_nil, by simp [dropFirst, hy]⟩
    · have htail : e ∈ l := by
        rcases List.mem_cons.mp h with heq | htail
        · exact absurd heq.symm hy
        · exact htail
      obtain ⟨x, z, hsplit, hnot, hdrop⟩ := ih htail
      refine ⟨y :: x, z, by simp [hsplit], ?_, by simp [dropFirst, hy, hdrop]⟩
      simp [hnot, Ne.symm hy]

/-- A list that collects, of another one, some elements of it holds no other. -/
theorem mem_of_mem_foldl_firsts {α : Type} {seen : List α → α → Bool} {e : α} (l : List α) (acc : List α)
    (h : e ∈ l.foldl (fun l e => if seen l e then l else l ++ [e]) acc) : e ∈ acc ∨ e ∈ l := by
  induction l generalizing acc with
  | nil => exact .inl h
  | cons y l ih =>
    rcases ih _ h with hacc | htail
    · dsimp only at hacc
      split at hacc
      · exact .inl hacc
      · rcases List.mem_append.mp hacc with hold | hnew
        · exact .inl hold
        · exact .inr (by simp [List.mem_singleton.mp hnew])
    · exact .inr (List.mem_cons_of_mem _ htail)

/-! ### Choices of a launch that neither records nor replays -/

section Choices
variable {s : State} {id kind tgt src aux : Nat} {auxFixed : Bool} {go : State → State}

theorem chooseThen_free (h : Free s id) : s.chooseThen id kind tgt src aux auxFixed go = go s := by
  have hmade : s.choose id kind tgt src aux auxFixed = .made s := by
    cases hl : s.launch? id with
    | none =>
      unfold State.choose
      simp only [hl]
    | some l =>
      obtain ⟨hrecord, hreplay⟩ := h l hl
      exact choose_free hl hrecord hreplay
  unfold State.chooseThen
  rw [hmade]

theorem free_onCore {c : Nat} {f : Core → Core} (h : Free s id) : Free (s.onCore c f) id := h

theorem arrives_of_free {l : Launch} {c victim : Nat} (h : l.replay = false) : l.arrives c victim = false := by
  simp [Launch.arrives, h]

end Choices

/-! ### Entries of a queue -/

section Entries
variable {k : Core} {q : Q} {v : Option W64} {thief : Option Nat}

theorem Arch.q_setQ {a : Arch} {l : List QEntry} (w : Sparse.wf [] a.qs = true) : (a.setQ q l).q q = l := Sparse.get_set_same w

theorem arrive_q (w : Sparse.wf [] k.arch.qs = true) : (k.arrive q v thief).arch.q q = k.arch.q q ++ [⟨k.arch.qid, v, thief, false⟩] :=
  Arch.q_setQ w

theorem arrive_qid : (k.arrive q v thief).arch.qid = k.arch.qid + 1 := rfl

theorem arrive_qs_wf (w : Sparse.wf [] k.arch.qs = true) : Sparse.wf [] (k.arrive q v thief).arch.qs = true := Sparse.set_wf w

end Entries

/-! ### Events (R13) -/

section Events
variable {s : State} {c idx : Nat} {e : HeldEvent}

theorem mem_nextEvents (h : (s.nextEvents c)[idx]? = some e) : e ∈ s.heldEvents ∧ e.target = c := by
  have hmem : e ∈ s.nextEvents c := List.mem_of_getElem? h
  unfold State.nextEvents at hmem
  have hfilter := mem_of_mem_foldl_firsts (seen := fun l (e : HeldEvent) => l.any fun x => x.source == e.source && x.kind == e.kind)
    _ _ hmem
  simp only [List.not_mem_nil, false_or, List.mem_filter, Bool.and_eq_true, beq_iff_eq] at hfilter
  exact ⟨hfilter.1, hfilter.2.1⟩

theorem eventEntry_free (h : (s.nextEvents c)[idx]? = some e) (hroom : ((s.core c).arch.q .eq).length + 2 ≤ 128)
    (hfree : e.sensitive = false ∨ Free s e.launch) :
    exec (.eventEntry c idx) s = .next { s.enterEvent e with heldEvents := dropFirst (· == e) s.heldEvents } := by
  show execEventEntry c idx s = _
  have hfull : ¬ Q.eq.depth < ((s.core c).arch.q .eq).length + 2 := by
    show ¬ 128 < _
    omega
  unfold execEventEntry
  simp only [h, if_neg hfull]
  by_cases hsens : e.sensitive = true
  · have hmade : Free s e.launch := by
      rcases hfree with hplain | hmade
      · exact absurd hsens (by simp [hplain])
      · exact hmade
    rw [if_pos hsens, chooseThen_free hmade]
  · rw [if_neg hsens]

theorem eventEntry_full (h : (s.nextEvents c)[idx]? = some e) (hfull : 128 < ((s.core c).arch.q .eq).length + 2) :
    exec (.eventEntry c idx) s = .next s := by
  show execEventEntry c idx s = _
  unfold execEventEntry
  have hdepth : Q.eq.depth < ((s.core c).arch.q .eq).length + 2 := hfull
  simp only [h, if_pos hdepth]

theorem eventEntry_enters (w : CoresWf s) (hq : Sparse.wf [] (s.core c).arch.qs = true) (h : (s.nextEvents c)[idx]? = some e)
    (hroom : ((s.core c).arch.q .eq).length + 2 ≤ 128) (hfree : e.sensitive = false ∨ Free s e.launch) :
    ∃ t x z, exec (.eventEntry c idx) s = .next t ∧ s.heldEvents = x ++ e :: z ∧ e ∉ x ∧ t.heldEvents = x ++ z ∧
      (t.core c).arch.q .eq = (s.core c).arch.q .eq ++
        [⟨(s.core c).arch.qid, some e.w0, none, false⟩, ⟨(s.core c).arch.qid + 1, some e.w1, none, false⟩] ∧
      OthersKeep s t c ∧ { t with cores := s.cores, heldEvents := s.heldEvents } = s := by
  obtain ⟨hheld, htarget⟩ := mem_nextEvents h
  obtain ⟨x, z, hsplit, hnot, hdrop⟩ := dropFirst_split hheld
  have hcore : ∀ d, (s.enterEvent e).core d =
      if d = c then ((s.core c).arrive .eq (some e.w0) none).arrive .eq (some e.w1) none else s.core d := by
    subst htarget
    exact State.core_onCore w
  refine ⟨_, x, z, eventEntry_free h hroom hfree, hsplit, hnot, hdrop, ?_, ?_, rfl⟩
  · show ((s.enterEvent e).core c).arch.q .eq = _
    rw [hcore c, if_pos rfl, arrive_q (arrive_qs_wf hq), arrive_q hq, arrive_qid, List.append_assoc]
    rfl
  · intro d hd
    show (s.enterEvent e).core d = _
    rw [hcore d, if_neg hd]

end Events

/-! ### Messages and steal requests (R231, R233) -/

section Messages
variable {s : State} {c id : Nat} {m : Message}

/-- The core whose message has left. -/
def sentMessage (m : Message) (k : Core) : Core := { k with msgs := dropFirst (· == m) k.msgs }

/-- The core that a message, or the request of another, has reached. -/
def reached (m : Message) (thief : Nat) (k : Core) : Core :=
  if m.steal then k.arrive .mb none (some thief) else k.arrive m.queue (some m.value) none

theorem reached_q (hq : Sparse.wf [] (s.core c).arch.qs = true) {k : Core} (hk : k.arch = (s.core c).arch) (thief : Nat) :
    (reached m thief k).arch.q (if m.toMb || m.steal then .mb else .iq) =
      (s.core c).arch.q (if m.toMb || m.steal then .mb else .iq) ++ [⟨(s.core c).arch.qid,
        if m.steal then none else some m.value, if m.steal then some thief else none, false⟩] := by
  rw [← hk] at hq ⊢
  unfold reached
  by_cases hsteal : m.steal = true
  · simp only [hsteal, Bool.or_true, if_true]
    exact arrive_q (v := none) (thief := some thief) hq
  · have hqueue : m.queue = if m.toMb then .mb else .iq := by simp [Message.queue, hsteal]
    simp only [hsteal, Bool.or_false, Bool.false_eq_true, if_false, ← hqueue]
    exact arrive_q (v := some m.value) (thief := none) hq

theorem reached_msgs (thief : Nat) (k : Core) : (reached m thief k).msgs = k.msgs := by
  unfold reached
  split <;> rfl

theorem mem_msgs_of_nextMessage (h : s.nextMessage c = some m) : m ∈ (s.core c).msgs := by
  have hfirsts : ∀ p : Message → Bool, m ∈ (((s.core c).msgs.foldl (fun l (m : Message) =>
      if l.any fun x => x.target == m.target then l else l ++ [m]) []).filter p) → m ∈ (s.core c).msgs := by
    intro p hm
    have hmem := mem_of_mem_foldl_firsts (seen := fun l (m : Message) => l.any fun x => x.target == m.target) _ _ (List.mem_filter.mp hm).1
    simpa using hmem
  unfold State.nextMessage at h
  dsimp only at h
  rcases Option.or_eq_some_iff.mp h with hfind | ⟨-, hhead⟩
  · exact hfirsts _ (List.mem_of_find?_eq_some hfind)
  · exact hfirsts _ (List.mem_of_head? hhead)

theorem messageArrival_arrives (h : s.nextMessage c = some m) (hl : (s.core c).launch = some id) (hc : s.present c id = true)
    (ht : s.present m.target id = true) (hfree : Free s id) (hopen : m.steal = true → s.endedWindow c m.target = false) :
    exec (.messageArrival c) s = .next ((s.onCore c (sentMessage m)).onCore m.target (reached m c)) := by
  have hnot : ¬ (m.steal && s.endedWindow c m.target) = true := by
    intro hand
    obtain ⟨hsteal, hended⟩ := Bool.and_eq_true_iff.mp hand
    simp [hopen hsteal] at hended
  show execMessageArrival c s = _
  unfold execMessageArrival
  simp only [h, hl, hc, ht, Bool.not_true, Bool.or_self, Bool.false_eq_true, if_false, if_neg hnot, chooseThen_free hfree]
  rfl

theorem messageArrival_enters (w : CoresWf s) (hq : Sparse.wf [] (s.core m.target).arch.qs = true) (h : s.nextMessage c = some m)
    (hl : (s.core c).launch = some id) (hc : s.present c id = true) (ht : s.present m.target id = true) (hfree : Free s id)
    (hopen : m.steal = true → s.endedWindow c m.target = false) :
    let q := if m.toMb || m.steal then Q.mb else Q.iq
    ∃ t, exec (.messageArrival c) s = .next t ∧
      (t.core m.target).arch.q q = (s.core m.target).arch.q q ++ [⟨(s.core m.target).arch.qid,
        if m.steal then none else some m.value, if m.steal then some c else none, false⟩] ∧
      (∃ x z, (s.core c).msgs = x ++ m :: z ∧ m ∉ x ∧ (t.core c).msgs = x ++ z) ∧
      (∀ d, d ≠ c → d ≠ m.target → t.core d = s.core d) ∧ { t with cores := s.cores } = s := by
  obtain ⟨x, z, hsplit, hnot, hdrop⟩ := dropFirst_split (mem_msgs_of_nextMessage h)
  have hsent : ∀ d, (s.onCore c (sentMessage m)).core d = if d = c then sentMessage m (s.core c) else s.core d := State.core_onCore w
  have hcore : ∀ d, ((s.onCore c (sentMessage m)).onCore m.target (reached m c)).core d =
      if d = m.target then reached m c ((s.onCore c (sentMessage m)).core m.target) else (s.onCore c (sentMessage m)).core d :=
    State.core_onCore (State.setCore_coresWf w)
  refine ⟨_, messageArrival_arrives h hl hc ht hfree hopen, ?_, ⟨x, z, hsplit, hnot, ?_⟩, ?_, rfl⟩
  · rw [hcore, if_pos rfl]
    refine reached_q hq ?_ c
    rw [hsent]
    split
    · next heq => rw [heq]; rfl
    · rfl
  · have hmsgs : ((s.onCore c (sentMessage m)).core c).msgs = x ++ z := by
      rw [hsent, if_pos rfl]
      exact hdrop
    rw [hcore]
    split
    · next heq => rw [reached_msgs, ← heq, hmsgs]
    · exact hmsgs
  · intro d hd ht
    rw [hcore, if_neg ht, hsent, if_neg hd]

theorem answerNothing_wait (w : CoresWf s) (victim thief : Nat) (hfree : Free s id) :
    ((s.answerNothing id victim thief).core thief).wait = .answered none := by
  unfold State.answerNothing
  rw [chooseThen_free hfree]
  unfold State.answer
  have hvictim : CoresWf (s.onCore victim fun k => k.dropThief thief) := State.setCore_coresWf w
  rw [State.core_onCore hvictim, if_pos rfl]

theorem messageArrival_refused (w : CoresWf s) (h : s.nextMessage c = some m) (hl : (s.core c).launch = some id)
    (hc : s.present c id = true) (ht : s.present m.target id = true) (hfree : Free s id) (hsteal : m.steal = true)
    (hended : s.endedWindow c m.target = true) :
    ∃ t, exec (.messageArrival c) s = .next t ∧ (t.core c).wait = .answered none := by
  have hno : ((s.launch? id).map fun l => l.arrives c m.target).getD false = false := by
    cases hlaunch : s.launch? id with
    | none => rfl
    | some l => exact arrives_of_free (hfree l hlaunch).2
  refine ⟨(s.onCore c (sentMessage m)).answerNothing id m.target c, ?_,
    answerNothing_wait (State.setCore_coresWf w) _ _ (free_onCore hfree)⟩
  show execMessageArrival c s = _
  unfold execMessageArrival
  simp only [h, hl, hc, ht, hsteal, hended, hno, Bool.not_true, Bool.or_self, Bool.and_self, Bool.false_eq_true, if_false, if_true]
  rfl

end Messages

/-! ### The stealer (R231) -/

section Stealer
variable {s : State} {c : Nat} {l : Launch}

theorem stealAnswer_takes {r : Option Record} {k : Core} (hl : s.launchOf c = some l) (hlive : s.lively c = true)
    (hwait : (s.core c).wait = .answered r) (htake : (s.core c).takeAnswer r = some k) :
    exec (.stealAnswer c) s = .next (s.setCore c k) := by
  show execStealAnswer c s = _
  unfold execStealAnswer
  simp only [hwait, hl, hlive, if_true, htake, Option.elim_some]

theorem settleDeferred_none {k : Core} {redirected : Bool} (h : k.deferred = none) : k.settleDeferred redirected = some k := by
  unfold Core.settleDeferred
  rw [h]

theorem takeAnswer_none {k : Core} (h : k.deferred = none) :
    ∃ r, k.takeAnswer none = some { k with wait := .none, seg := { k.seg with recorded := r } } := by
  unfold Core.takeAnswer
  simp only [settleDeferred_none h, Option.map_some]
  exact ⟨(k.closeResult [] none).seg.recorded, rfl⟩

theorem fly_rb {d : Side} {w : Landing} {lat : Nat} {flags : BitVec 5} (a : Arch) : (a.fly d w lat flags).rb = a.rb := by
  have hsupersede : (a.supersede w.target).rb = a.rb := by
    unfold Arch.supersede
    split <;> rfl
  cases d <;> exact hsupersede

/-- Results put on their way move no register base. -/
theorem foldl_fly_rb {d : Side} {w : Nat → Landing} {lat : Nat} {flags : BitVec 5} (l : List Nat) (a : Arch) :
    (l.foldl (fun b n => b.fly d (w n) lat flags) a).rb = a.rb := by
  induction l generalizing a with
  | nil => rfl
  | cons n l ih => exact (ih (a.fly d (w n) lat flags)).trans (fly_rb a)

theorem takeAnswer_some {k : Core} {x : Record} (h : k.deferred = none) :
    ∃ r, k.takeAnswer (some x) = some { k with
      wait := .none, seg := { k.seg with recorded := r }
      arch := { (List.range 7).foldl (fun b n => b.fly .execute (.s (n + 1) ((x.args[n]?).getD 0)) 1 0) k.arch with
        pc := x.pc, skip := 0, till := none, loop := none, turn := none, loopOn := false, ahead := [] } } := by
  have hrb : k.arch.rb = ((List.range 7).foldl (fun b n => b.fly .execute (.s (n + 1) ((x.args[n]?).getD 0)) 1 0) k.arch).rb :=
    (foldl_fly_rb _ _).symm
  unfold Core.takeAnswer
  simp only [settleDeferred_none h, Option.map_some]
  refine ⟨(k.closeResult [] (some (x.pc, x.args))).seg.recorded, ?_⟩
  rw [hrb]
  rfl

theorem stealAnswer_nothing (w : CoresWf s) {v : Nat} (hl : s.launchOf c = some l) (hlive : s.lively c = true)
    (hwait : (s.core c).wait = .steal v) (hreplay : l.replay = false) (hrecord : l.record = false) (hended : s.endedWindow c v = true) :
    ∃ t, exec (.stealAnswer c) s = .next t ∧ (t.core c).wait = .answered none := by
  have hfree : Free s l.id := by
    intro x hx
    rw [launch?_of_launchOf hl] at hx
    cases hx
    exact ⟨hrecord, hreplay⟩
  refine ⟨(s.onCore c fun k => { k with msgs := k.msgs.filter fun m => !m.steal }).answerNothing l.id v c, ?_,
    answerNothing_wait (State.setCore_coresWf w) v c hfree⟩
  show execStealAnswer c s = _
  unfold execStealAnswer
  simp only [hwait, hl, hlive, State.nothingDue, hreplay, hended, Bool.and_self, Bool.false_eq_true, if_false, if_true]

end Stealer

/-! ### Placed records (R229) -/

section Records
variable {s : State} {idx : Nat} {x : Transit}

/-- A record pushed at the top of a deque that has room. -/
def State.pushed (s : State) (c idx : Nat) (x : Transit) : State :=
  { s.onCore c fun k => k.pushTop x.record with transits := s.transits.eraseIdx idx }

theorem pushed_core (w : CoresWf s) (c : Nat) :
    (s.pushed c idx x).core c = { s.core c with deque := x.record :: (s.core c).deque } :=
  State.core_setCore_same w

theorem pushed_others (w : CoresWf s) (c : Nat) : OthersKeep s (s.pushed c idx x) c := by
  intro d hd
  show (s.onCore c fun k => k.pushTop x.record).core d = _
  rw [State.core_onCore w, if_neg hd]

theorem delivery_waits (hx : s.transits[idx]? = some x) (hwindow : s.inWindow x.target x = false)
    (hrun : (s.core x.target).run ≠ .ended) : exec (.dequeTopDelivery idx) s = .next s := by
  have hended : ((s.core x.target).run == RunState.ended) = false := by simpa using hrun
  show execDequeTopDelivery idx s = _
  unfold execDequeTopDelivery
  simp only [hx, hended, hwindow, Bool.false_and, Bool.false_eq_true, if_false, Bool.not_false, Bool.or_true, if_true]

theorem delivery_returns (hx : s.transits[idx]? = some x) (hp : s.present x.target x.launch = true)
    (hended : (s.core x.target).run = .ended) (hsender : (s.core x.sender).run = .running)
    (hwindow : s.inWindow x.sender x = true) (hroom : (s.core x.sender).deque.length < 4096) :
    exec (.dequeTopDelivery idx) s = .next (s.pushed x.sender idx x) := by
  have hlaunch : ((s.core x.target).launch == some x.launch) = true := (Bool.and_eq_true_iff.mp hp).1
  have hheir : s.heir x = some x.sender := by
    unfold State.heir
    simp only [List.find?_cons, hsender, hwindow, beq_self_eq_true, Bool.and_self]
  have hfull : ¬ dequeDepth ≤ (s.core x.sender).deque.length := by
    show ¬ 4096 ≤ _
    omega
  show execDequeTopDelivery idx s = _
  unfold execDequeTopDelivery
  simp only [hx, hended, hlaunch, beq_self_eq_true, Bool.and_self, if_true, hheir, Option.map_some, Option.getD_some, if_neg hfull]
  rfl

/-- In the window that it was spawned in a record, the first of its sender, arrives: pushed, or an error where there is no room. -/
theorem delivery_arrives (hx : s.transits[idx]? = some x)
    (hfirst : ∀ y ∈ s.transits.take idx, ¬ (y.target = x.target ∧ y.sender = x.sender)) (hp : s.present x.target x.launch = true)
    (hfree : Free s x.launch) (hrun : (s.core x.target).run = .running) (hwindow : s.inWindow x.target x = true) :
    exec (.dequeTopDelivery idx) s = .next (if 4096 ≤ (s.core x.target).deque.length then s.pin x.launch 0xD x.sender
      else s.pushed x.target idx x) := by
  have hbefore : ((s.transits.take idx).any fun y => y.target == x.target && y.sender == x.sender) = false := by
    rw [List.any_eq_false]
    intro y hy hand
    simp only [Bool.and_eq_true, beq_iff_eq] at hand
    exact hfirst y hy hand
  have hnotEnded : (RunState.running == RunState.ended) = false := rfl
  show execDequeTopDelivery idx s = _
  unfold execDequeTopDelivery
  simp only [hx, hrun, hnotEnded, hbefore, hp, hwindow, Bool.false_and, Bool.false_eq_true, if_false, Bool.not_true, Bool.or_self,
    ne_eq, not_true_eq_false, decide_false, chooseThen_free hfree]
  rfl

end Records

/-- Settles O47: the clauses are the lemmas on events, messages, the stealer and placed records. -/
theorem arrivalsEnter : Obligations.ArrivalsEnter := by
  unfold Obligations.ArrivalsEnter
  refine ⟨fun s c idx e w hq h hroom hfree => eventEntry_enters w hq h hroom hfree, fun s c idx e h hfull => eventEntry_full h hfull,
    fun s c id m w hq h hl hc ht hfree hopen => messageArrival_enters w hq h hl hc ht hfree hopen,
    fun s c id m w h hl hc ht hfree hsteal hended => messageArrival_refused w h hl hc ht hfree hsteal hended, ?_,
    fun s c v l w hl hlive hwait hreplay hrecord hended => stealAnswer_nothing w hl hlive hwait hreplay hrecord hended, ?_⟩
  · intro s c l w hl hlive hdeferred
    constructor
    · intro hwait
      obtain ⟨r, htake⟩ := takeAnswer_none hdeferred
      exact ⟨r, stealAnswer_takes hl hlive hwait htake⟩
    · intro x hwait
      obtain ⟨r, htake⟩ := takeAnswer_some (x := x) hdeferred
      exact ⟨r, stealAnswer_takes hl hlive hwait htake⟩
  · intro s idx x w hx hfirst hp hfree
    refine ⟨fun hwindow hrun => delivery_waits hx hwindow hrun, ?_, ?_, ?_⟩
    · intro hended hsender hwindow hroom
      exact ⟨_, delivery_returns hx hp hended hsender hwindow hroom, pushed_core w _, rfl, pushed_others w _⟩
    · intro hrun hwindow hroom
      refine ⟨s.pushed x.target idx x, ?_, pushed_core w _, rfl, pushed_others w _, rfl⟩
      rw [delivery_arrives hx hfirst hp hfree hrun hwindow, if_neg (Nat.not_le.mpr hroom)]
    · intro hrun hwindow hfull
      rw [delivery_arrives hx hfirst hp hfree hrun hwindow, if_pos hfull]

end Sys2Proof.Machine

/-! Proofs for spec/14 (frames), spec/22 (frame end) and spec/26 (errors found on chip): the tick and what comes before it. -/

namespace Sys2Proof.Machine

open Safety

/-! ### Errors found on chip (R431, R437, R438) -/

section Upsets
variable {s : State} {c : Nat}

theorem upsets_within {u : Upset} (h : Upset.within u = true) : s.upsets [u] = s.upset u := by
  unfold State.upsets
  rw [List.filter_cons_of_pos h]
  rfl

theorem upsets_scalar (w : CoresWf s) {n : Nat} (hc : c < 288) (hn : n < 64) (hn0 : n ≠ 0) :
    let t := s.upsets [.scalar c n]
    (∀ f m, (t.core c).arch.marked f m = (decide (f = .s ∧ m = n) || (s.core c).arch.marked f m)) ∧ OthersKeep s t c ∧
      { (t.core c).arch with marks := (s.core c).arch.marks } = (s.core c).arch ∧ { t with cores := s.cores } = s := by
  have hupset : s.upsets [.scalar c n] = s.onArch c fun a => a.mark .s n := by
    have hin : Upset.within (.scalar c n) = true := decide_eq_true ⟨hc, hn⟩
    rw [upsets_within hin]
    exact if_neg hn0
  have hcore : ∀ d, (s.onArch c fun a => a.mark .s n).core d =
      if d = c then { s.core c with arch := (s.core c).arch.mark .s n } else s.core d := State.core_onArch w
  dsimp only
  rw [hupset]
  refine ⟨?_, ?_, ?_, rfl⟩
  · intro f m
    rw [hcore, if_pos rfl, marked_mark .s n f m]
    by_cases h : f = .s ∧ m = n
    · rw [if_pos h, decide_eq_true h, Bool.true_or]
    · rw [if_neg h, decide_eq_false h, Bool.false_or]
  · intro d hd
    rw [hcore, if_neg hd]
  · rw [hcore, if_pos rfl]
    rfl

theorem upsets_scratchpad (w : CoresWf s) (wk : SpmWf (s.core c)) {a : Nat} (hc : c < 288) (ha : a < 2097152) :
    let t := s.upsets [.scratchpad c a]
    (∀ w, Sparse.get false (t.core c).marks w = (w == a / 8 || Sparse.get false (s.core c).marks w)) ∧ OthersKeep s t c ∧
      { t.core c with marks := (s.core c).marks } = s.core c ∧ { t with cores := s.cores } = s := by
  obtain ⟨-, -, wm⟩ := wk
  have hcore : ∀ d, (s.upsets [.scratchpad c a]).core d =
      if d = c then { s.core c with marks := Sparse.set false (s.core c).marks (a / 8) true } else s.core d := by
    have hin : Upset.within (.scratchpad c a) = true := decide_eq_true ⟨hc, ha⟩
    rw [upsets_within hin]
    exact State.core_onCore w
  have hrest : { s.upsets [.scratchpad c a] with cores := s.cores } = s := by
    have hin : Upset.within (.scratchpad c a) = true := decide_eq_true ⟨hc, ha⟩
    rw [upsets_within hin]
    rfl
  refine ⟨?_, ?_, ?_, hrest⟩
  · intro v
    rw [hcore, if_pos rfl]
    show Sparse.get false (Sparse.set false (s.core c).marks (a / 8) true) v = _
    rw [Sparse.get_set wm]
    by_cases h : v = a / 8
    · simp [h]
    · simp [h]
  · intro d hd
    rw [hcore, if_neg hd]
  · rw [hcore, if_pos rfl]

theorem countError_errors (w : Sparse.wf 0 s.errors = true) (unit v : Nat) :
    Sparse.get 0 (s.countError unit).errors v = Sparse.get 0 s.errors v + (if v = unit then 1 else 0) := by
  show Sparse.get 0 (Sparse.set 0 s.errors unit (Sparse.get 0 s.errors unit + 1)) v = _
  rw [Sparse.get_set w]
  by_cases h : v = unit
  · rw [if_pos h, if_pos h, h]
  · rw [if_neg h, if_neg h, Nat.add_zero]

theorem filter_eraseNth {α : Type} (f : α → Bool) (i : Nat) (l : List α) : (eraseNth f i l).filter f = (l.filter f).eraseIdx i := by
  induction l generalizing i with
  | nil => rfl
  | cons x l ih =>
    unfold eraseNth
    by_cases hx : f x = true
    · cases i with
      | zero => simp [hx]
      | succ i => simp [hx, ih]
    · simp [hx, ih]

theorem filter_not_eraseNth {α : Type} (f : α → Bool) (i : Nat) (l : List α) :
    (eraseNth f i l).filter (fun x => !f x) = l.filter (fun x => !f x) := by
  induction l generalizing i with
  | nil => rfl
  | cons x l ih =>
    unfold eraseNth
    by_cases hx : f x = true
    · cases i with
      | zero => simp [hx]
      | succ i => simp [hx, ih]
    · simp [hx, ih]

theorem upsets_telemetry (w : Sparse.wf 0 s.errors = true) {unit : Nat} (hunit : unit < 336) :
    let t := s.upsets [.telemetry unit]
    (∀ v, Sparse.get 0 t.errors v = Sparse.get 0 s.errors v + (if v = unit then 1 else 0)) ∧ { t with errors := s.errors } = s := by
  have hin : Upset.within (.telemetry unit) = true := decide_eq_true hunit
  dsimp only
  rw [upsets_within hin]
  exact ⟨countError_errors w unit, rfl⟩

theorem upsets_logRecord (w : Sparse.wf 0 s.errors = true) {stack i : Nat} {transfer : Bool} (hstack : stack < 12) :
    let t := s.upsets [.logRecord stack transfer i]
    let mine := fun (m : MemLog) => m.stack == stack && m.transfer == transfer
    t.hbm.logs.filter mine = (s.hbm.logs.filter mine).eraseIdx i ∧
      t.hbm.logs.filter (fun m => !mine m) = s.hbm.logs.filter (fun m => !mine m) ∧
      Sparse.get 0 t.errors (324 + stack) = Sparse.get 0 s.errors (324 + stack) + 1 := by
  have hin : Upset.within (.logRecord stack transfer i) = true := decide_eq_true hstack
  dsimp only
  rw [upsets_within hin]
  refine ⟨filter_eraseNth _ i _, filter_not_eraseNth _ i _, ?_⟩
  exact (countError_errors (s := { s with hbm := { s.hbm with
    logs := eraseNth (fun m => m.stack == stack && m.transfer == transfer) i s.hbm.logs } }) w (baseDie stack) (324 + stack)).trans
      (by rw [if_pos (show 324 + stack = baseDie stack from rfl)])

/-- A part one of whose slots reads a marked register meets a poisoned value. -/
theorem tryPart_marked {b : Bundle} {side : Side} {i : Nat} {x : Instr} {r : RFile × Nat} (hi : i ∈ b.order side)
    (hlive : b.live s.part.preds i = some x) (hr : r ∈ readsOf s.part.rb x) (hmark : (arch s).marked r.1 r.2 = true) :
    s.tryPart b side = .poison := by
  have hmarks : (arch s).marks.isEmpty = false := by
    unfold Arch.marked at hmark
    rw [List.isEmpty_eq_false_iff]
    intro hnil
    simp [hnil] at hmark
  have hreads : s.readsMark b side = true := by
    show (!(arch s).marks.isEmpty && (b.order side).any fun i => match b.live s.part.preds i with
      | none => false
      | some x => (readsOf s.part.rb x).any fun r => (arch s).marked r.1 r.2) = true
    rw [hmarks, Bool.not_false, Bool.true_and, List.any_eq_true]
    refine ⟨i, hi, ?_⟩
    rw [hlive]
    exact List.any_eq_true.mpr ⟨r, hr, hmark⟩
  unfold State.tryPart
  rw [if_pos hreads]

end Upsets

/-! ### The tick (R283, R285) -/

section Tick
variable {s : State} {l : Launch} {k : Kernel}

theorem globalTick_takesFound (s : State) : exec .globalTick s = exec .globalTick { s.upsets s.found with found := [] } := rfl

theorem takeFound_none (h : s.found = []) : s.takeFound = { s with found := Config.found s.choice } := by
  unfold State.takeFound
  rw [h]
  rfl

/-- The state at the next tick, before its frame counters. -/
def State.nextTick (s : State) : State := { s with gtc := s.gtc + 1, found := Config.found s.choice }

/-- Something is due at the tick reached. -/
def State.tickDue (s : State) (l : Launch) : Bool := s.startsCounter l || s.endsFrame l || l.cores.any fun c => (s.startable c).isSome

theorem globalTick_due (hfound : s.found = [])
    (h : ∃ l ∈ s.launches, s.startsCounter l = true ∨ s.endsFrame l = true ∨ ∃ c ∈ l.cores, (s.startable c).isSome = true) :
    exec .globalTick s = .next { s with found := Config.found s.choice } := by
  have hany : s.launches.any s.tickDue = true := by
    obtain ⟨l, hl, hdue⟩ := h
    refine List.any_eq_true.mpr ⟨l, hl, ?_⟩
    simpa [State.tickDue, or_assoc] using hdue
  show execGlobalTick s = _
  unfold execGlobalTick
  rw [takeFound_none hfound]
  exact if_pos hany

/-- A launch's frame counter meets the tick, if it runs. -/
def State.counterTick (s : State) (l : Launch) : State :=
  match s.launch? l.id with
  | some l => if s.counts l then s.frameTick l else s
  | none => s

theorem globalTick_advances (hfound : s.found = [])
    (h : ∀ l ∈ s.launches, s.startsCounter l = false ∧ s.endsFrame l = false ∧ ∀ c ∈ l.cores, (s.startable c).isSome = false) :
    exec .globalTick s = .next (s.launches.foldl State.counterTick s.nextTick) := by
  have hany : ¬ s.launches.any s.tickDue = true := by
    rw [List.any_eq_true]
    rintro ⟨l, hl, hdue⟩
    obtain ⟨hstarts, hends, hstartable⟩ := h l hl
    simp only [State.tickDue, hstarts, hends, Bool.false_or, List.any_eq_true] at hdue
    obtain ⟨c, hc, hsome⟩ := hdue
    simp [hstartable c hc] at hsome
  show execGlobalTick s = _
  unfold execGlobalTick
  rw [takeFound_none hfound]
  exact if_neg hany

/-- No counter runs. -/
theorem foldl_counterTick_idle {x : List Launch} (h : ∀ l ∈ x, s.counts l = false ∧ s.launch? l.id = some l) :
    x.foldl State.counterTick s = s := by
  induction x with
  | nil => rfl
  | cons l x ih =>
    obtain ⟨hcounts, hid⟩ := h l List.mem_cons_self
    have hl : s.counterTick l = s := by
      unfold State.counterTick
      simp only [hid, hcounts, Bool.false_eq_true, if_false]
    rw [List.foldl_cons, hl]
    exact ih fun m hm => h m (List.mem_cons_of_mem _ hm)

theorem launch?_singleton (h : s.launches = [l]) : s.launch? l.id = some l := by
  unfold State.launch?
  rw [h, List.find?_cons_of_pos (by simp)]

theorem onLaunch_singleton (h : s.launches = [l]) (f : Launch → Launch) : s.onLaunch l.id f = { s with launches := [f l] } := by
  unfold State.onLaunch
  rw [h, List.map_singleton, if_pos rfl]

theorem free_singleton {id : Nat} (h : s.launches = [l]) (hrecord : l.record = false) (hreplay : l.replay = false) : Free s id := by
  intro x hx
  unfold State.launch? at hx
  rw [h] at hx
  have hmem : x ∈ [l] := List.mem_of_find?_eq_some hx
  rw [List.mem_singleton.mp hmem]
  exact ⟨hrecord, hreplay⟩

theorem counterTick_singleton (h : s.launches = [l]) (hcounts : s.counts l = true) : s.counterTick l = s.frameTick l := by
  unfold State.counterTick
  simp only [launch?_singleton h, hcounts, if_true]

/-- A deadline that nothing misses changes nothing. -/
theorem slip_none (hreplay : l.replay = false) (t : Nat) : s.slip l k t [] = s := by
  have hno : ∀ x : List TTEntry, (x.filter fun e => e.window && List.contains [] e.tick) = [] := by
    intro x
    simp
  unfold State.slip State.endSteals
  simp only [hreplay, Bool.false_eq_true, if_false, List.filter_nil, List.map_nil, hno]
  rfl

end Tick

/-! ### Slips (R285) -/

section Slips
variable {s : State} {l : Launch} {k : Kernel} {t : Nat}

theorem sortOn_length {α : Type} (f : α → Nat) (l : List α) : (sortOn f l).length = l.length := by
  have hfold : ∀ acc : List α, (l.foldl (fun sorted x => sorted.takeWhile (fun y => decide (f y ≤ f x)) ++ x ::
      sorted.dropWhile fun y => decide (f y ≤ f x)) acc).length = acc.length + l.length := by
    induction l with
    | nil => simp
    | cons x l ih =>
      intro acc
      have hsplit := congrArg List.length (List.takeWhile_append_dropWhile (p := fun y => decide (f y ≤ f x)) (l := acc))
      rw [List.length_append] at hsplit
      rw [List.foldl_cons, ih, List.length_append, List.length_cons, List.length_cons]
      omega
  simpa [sortOn] using hfold []

/-- One launch alone, which neither records nor replays, and the time of a state. -/
def Alone (s : State) (l : Launch) (gtc : Nat) : Prop := s.launches = [l] ∧ s.gtc = gtc ∧ l.record = false ∧ l.replay = false

theorem slipOne_alone {n : Nat} (h : Alone s l n) (x : Nat × Nat × TTEntry) :
    Alone (s.slipOne l.id t x) { l with slips := l.slips + 1 } n := by
  obtain ⟨hl, hgtc, hrecord, hreplay⟩ := h
  unfold State.slipOne
  rw [chooseThen_free (free_singleton hl hrecord hreplay), onLaunch_singleton hl]
  exact ⟨rfl, hgtc, hrecord, hreplay⟩

theorem foldl_slipOne_alone {n : Nat} (late : List (Nat × Nat × TTEntry)) (h : Alone s l n) :
    Alone (late.foldl (fun s x => s.slipOne l.id t x) s) { l with slips := l.slips + late.length } n := by
  induction late generalizing s l with
  | nil => exact h
  | cons x late ih =>
    have hlength : l.slips + (x :: late).length = l.slips + 1 + late.length := by
      rw [List.length_cons]
      omega
    rw [List.foldl_cons, hlength]
    exact ih (l := { l with slips := l.slips + 1 }) (slipOne_alone h x)

theorem foldl_alone {α : Type} {m : Launch} {n : Nat} {f : State → α → State} (hf : ∀ u a, Alone u m n → Alone (f u a) m n) (l : List α)
    (h : Alone s m n) : Alone (l.foldl f s) m n := by
  induction l generalizing s with
  | nil => exact h
  | cons a l ih => exact ih (hf s a h)

theorem postSlip_alone {m : Launch} {n : Nat} (source : Nat) (h : Alone s m n) : Alone (s.postSlip l t source) m n := by
  refine foldl_alone ?_ _ h
  exact fun u c hu => hu

theorem endSteal_alone {n id : Nat} (c : Nat) (h : Alone s l n) : Alone (s.endSteal id c) l n := by
  obtain ⟨hl, hgtc, hrecord, hreplay⟩ := h
  unfold State.endSteal
  split
  · next v _ =>
    unfold State.answerNothing
    rw [chooseThen_free (free_onCore (free_singleton hl hrecord hreplay))]
    exact ⟨hl, hgtc, hrecord, hreplay⟩
  · exact ⟨hl, hgtc, hrecord, hreplay⟩

theorem endSteals_alone {m : Launch} {n : Nat} (late : List (Nat × Nat × TTEntry)) (h : Alone s m n) : Alone (s.endSteals l k late) m n := by
  refine foldl_alone ?_ _ h
  intro u e hu
  split
  · exact endSteal_alone _ hu
  · exact hu

/-- Outside a replay every entry that is late slips, and the first of them by its core names the record. -/
theorem slip_eq (hreplay : l.replay = false) (late : List (Nat × Nat × TTEntry)) :
    s.slip l k t late = State.endSteals (match sortOn (fun x => x.1) (sortOn (fun x => x.1) late) with
      | [] => (sortOn (fun x => x.1) late).foldl (fun s x => s.slipOne l.id t x) s
      | x :: _ => ((sortOn (fun x => x.1) late).foldl (fun s x => s.slipOne l.id t x) s).postSlip l t x.1) l k late := by
  unfold State.slip
  simp only [hreplay, Bool.false_eq_true, if_false] <;> rfl

theorem slip_alone {n : Nat} (late : List (Nat × Nat × TTEntry)) (h : Alone s l n) :
    Alone (s.slip l k t late) { l with slips := l.slips + late.length } n := by
  have hslips := foldl_slipOne_alone (t := t) (sortOn (fun x => x.1) late) h
  rw [sortOn_length] at hslips
  obtain ⟨-, -, -, hreplay⟩ := h
  rw [slip_eq hreplay]
  refine endSteals_alone _ ?_
  split
  · exact hslips
  · exact postSlip_alone _ hslips

end Slips

/-! ### The frame counter of a launch alone -/

section Counter
variable {s : State} {l : Launch} {k : Kernel}

theorem frameTick_onTime (hl : s.launches = [l]) (hk : s.kernel? l = some k) (hreplay : l.replay = false)
    (hlate : s.overdue l k (l.tick + 1) = []) :
    s.nextTick.frameTick l = { s.nextTick with launches := [
      if l.tick + 1 < k.frameTicks then { l with ran := l.ran + 1, tick := l.tick + 1, slipAt := none }
      else if l.frameDone then { l with ran := l.ran + 1, frame := l.frame + 1, tick := 0, slipAt := none, frameDone := false }
      else { l with ran := l.ran + 1 }] } := by
  have hk' : s.nextTick.kernel? l = some k := hk
  have hlate' : s.nextTick.overdue l k (l.tick + 1) = [] := hlate
  unfold State.frameTick
  simp only [hk', hlate', slip_none hreplay, ite_self, List.isEmpty_nil, Bool.not_true, Bool.false_eq_true, if_false]
  exact onLaunch_singleton (s := s.nextTick) hl _

theorem frameTick_late (hl : s.launches = [l]) (hk : s.kernel? l = some k) (hrecord : l.record = false) (hreplay : l.replay = false)
    (hlate : s.overdue l k (l.tick + 1) ≠ []) (hslip : l.slipAt ≠ some (l.tick + 1)) :
    (s.nextTick.frameTick l).gtc = s.gtc + 1 ∧ (s.nextTick.frameTick l).launches = [{ l with
      ran := l.ran + 1, slipAt := some (l.tick + 1), slips := l.slips + (s.overdue l k (l.tick + 1)).length }] := by
  have hk' : s.nextTick.kernel? l = some k := hk
  have hlate' : (!(s.nextTick.overdue l k (l.tick + 1)).isEmpty) = true := by
    show (!(s.overdue l k (l.tick + 1)).isEmpty) = true
    simpa using hlate
  obtain ⟨hslipped, hgtc, -, -⟩ := slip_alone (k := k) (t := l.tick + 1) (s.overdue l k (l.tick + 1))
    (⟨hl, rfl, hrecord, hreplay⟩ : Alone s.nextTick l (s.gtc + 1))
  have hframe : s.nextTick.frameTick l = (s.nextTick.slip l k (l.tick + 1) (s.overdue l k (l.tick + 1))).onLaunch l.id fun l' =>
      { l' with ran := l'.ran + 1, slipAt := some (l.tick + 1) } := by
    unfold State.frameTick
    simp only [hk', if_neg hslip, hlate', if_true]
    rfl
  rw [hframe]
  have honly := onLaunch_singleton hslipped fun l' => { l' with ran := l'.ran + 1, slipAt := some (l.tick + 1) }
  refine ⟨hgtc, ?_⟩
  exact (congrArg State.launches honly).trans rfl

theorem globalTick_alone (hfound : s.found = [])
    (h : ∀ l ∈ s.launches, s.startsCounter l = false ∧ s.endsFrame l = false ∧ ∀ c ∈ l.cores, (s.startable c).isSome = false)
    (hl : s.launches = [l]) (hcounts : s.counts l = true) : exec .globalTick s = .next (s.nextTick.frameTick l) := by
  have hcounts' : s.nextTick.counts l = true := hcounts
  rw [globalTick_advances hfound h, hl, List.foldl_cons, List.foldl_nil]
  show Host.Outcome.next (s.nextTick.counterTick l) = _
  rw [counterTick_singleton (s := s.nextTick) hl hcounts']

end Counter

/-! ### Entries and frame ends (R284, R345, R390) -/

section Frames
variable {s : State} {id : Nat} {l : Launch}

theorem frameCounterStart_starts (hl : s.launch? id = some l) (hstate : l.state = .running) (hpinned : l.pinned = none)
    (hoff : l.frcOn = false) (htick : l.startTick ≤ s.gtc) : exec (.frameCounterStart id) s =
      .next { s with launches := s.launches.map fun m => if m.id = id then { m with frcOn := true, frame := 0, tick := 0 } else m } := by
  have hstarts : s.startsCounter l = true := by
    unfold State.startsCounter
    rw [hstate, hpinned, hoff, decide_eq_true htick]
    rfl
  show execFrameCounterStart id s = _
  unfold execFrameCounterStart
  simp only [hl, hstarts, if_true]
  rfl

theorem entryStart_begins {c i n : Nat} {e : TTEntry} (h : s.startable c = some (i, n, e)) :
    exec (.entryStart c) s = .next (s.setCore c ((s.core c).begin i n e)) := by
  show execEntryStart c s = _
  unfold execEntryStart
  simp only [h]
  rfl

/-- The records of a frame are empty for the next one. -/
def endFrame (l : Launch) : Launch := { l with samples := [], cfgs := [], sgBegs := [], frameDone := true }

theorem frameEnd_other (hl : s.launch? id = some l) (hends : s.endsFrame l = true) (hholds : s.holds l = false) :
    exec (.frameEndProcessing id) s = .next (s.onLaunch id endFrame) := by
  show execFrameEndProcessing id s = _
  unfold execFrameEndProcessing State.processFrame
  simp only [hl, hends, hholds, if_true, Bool.false_eq_true, if_false]
  rfl

theorem settleDrops_none (hl : s.launch? l.id = some l) (h : l.samples = []) (r : Nat) : s.settleDrops l r = s := by
  unfold State.settleDrops
  simp only [hl, Option.map_some, Option.getD_some, h, List.length_nil]
  rfl

/-- Records of a region's state changes change no module and no launch. -/
theorem foldl_postRegion {α : Type} (f : α → Option (Nat × Nat)) (g : α → Nat) (r : Nat) (moves : List α) (s : State) :
    let t := moves.foldl (fun s m => match f m with
      | some (index, core) => s.postRegion core (g m) r (BitVec.ofNat 64 index)
      | none => s) s
    t.modules = s.modules ∧ t.launches = s.launches := by
  induction moves generalizing s with
  | nil => exact ⟨rfl, rfl⟩
  | cons m moves ih =>
    rw [List.foldl_cons]
    have hstep : ∀ u : State, u.modules = s.modules ∧ u.launches = s.launches → _ := fun u hu =>
      (⟨(ih u).1.trans hu.1, (ih u).2.trans hu.2⟩ : _ ∧ _)
    refine hstep _ ?_
    split
    · unfold State.postRegion State.postEvent
      split
      · exact ⟨rfl, rfl⟩
      · exact ⟨rfl, rfl⟩
    · exact ⟨rfl, rfl⟩

variable {m : Module} {x y : Region}

/-- A frame's end of the only region of the only module: what its processing leaves, where that has not made it INVALID. -/
theorem frameEnd_region (hl : s.launch? id = some l) (hends : s.endsFrame l = true) (hholds : s.holds l = true) (hm : s.modules = [m])
    (hhandle : m.handle = l.module) (hregions : m.regions = [x]) (hcfgs : l.cfgs = []) (hsamples : l.samples = [])
    {moves : List (Nat × Option (Nat × Nat))} {stop : Bool} (hmoves : (moves.any fun m => m.1 == 4) = false)
    (hprocess : x.process 0 (l.id, l.frame) (sortOn (fun (b : Nat × Nat) => b.1)
      ((l.sgBegs.filter fun b => b.1 == 0).map fun b => (b.2.2.2, b.2.2.1))) [] = ⟨y, moves, stop⟩) :
    ∃ t, exec (.frameEndProcessing id) s = .next t ∧ t.modules = [{ m with regions := [y] }] ∧
      t.launches = s.launches.map fun y => if y.id = id then { y with samples := [], cfgs := [], sgBegs := [], frameDone := true } else y := by
  have hid : l.id = id := by simpa using List.find?_some hl
  have hmodule : s.module? l.module = some m := by
    unfold State.module?
    rw [hm, List.find?_cons_of_pos (by simp [hhandle])]
  have hregion : s.onRegion l.module 0 (fun _ => y) = { s with modules := [{ m with regions := [y] }] } := by
    unfold State.onRegion State.onModule
    rw [hm, List.map_singleton, if_pos hhandle]
    dsimp only
    rw [hregions]
    rfl
  have hone : s.processRegion l 0 = moves.foldl (fun s m => match m.2.or (sortOn (fun (b : Nat × Nat) => b.1)
      ((l.sgBegs.filter fun b => b.1 == 0).map fun b => (b.2.2.2, b.2.2.1))).head? with
        | some (index, core) => s.postRegion core m.1 0 (BitVec.ofNat 64 index)
        | none => s) { s with modules := [{ m with regions := [y] }] } := by
    have hx : (some m).bind (fun m => m.regions[0]?) = some x := by
      simp [hregions]
    unfold State.processRegion
    rw [hmodule, hx]
    have hcfg : sortOn (fun (q : CfgReq) => q.ordinal * 2 ^ 64 + q.seq) (l.cfgs.filter fun q => q.region == 0) = [] := by
      rw [hcfgs]
      rfl
    have hsample : sortOn (fun (a : Sample) => a.index) (l.samples.filter fun a => a.region == 0) = [] := by
      rw [hsamples]
      rfl
    simp only [hcfg, hsample, List.foldl_nil, hprocess, hmoves, Bool.false_eq_true, if_false, hregion] <;> rfl
  have hframe : exec (.frameEndProcessing id) s = .next ((s.processRegion l 0).onLaunch id endFrame) := by
    have hregionCount : m.regions.length = 1 := by rw [hregions]; rfl
    have hdrops : s.settleDrops l 0 = s := settleDrops_none (by rw [hid]; exact hl) hsamples 0
    show execFrameEndProcessing id s = _
    unfold execFrameEndProcessing State.processFrame
    simp only [hl, hends, hholds, if_true, hmodule, Option.map_some, Option.getD_some, hregionCount, List.range_one, List.foldl_cons,
      List.foldl_nil, hdrops]
    rfl
  obtain ⟨hmodules, hlaunches⟩ := foldl_postRegion (fun (m : Nat × Option (Nat × Nat)) => m.2.or (sortOn (fun (b : Nat × Nat) => b.1)
      ((l.sgBegs.filter fun b => b.1 == 0).map fun b => (b.2.2.2, b.2.2.1))).head?) (fun m => m.1) 0 moves
    { s with modules := [{ m with regions := [y] }] }
  rw [← hone] at hmodules hlaunches
  refine ⟨_, hframe, hmodules, ?_⟩
  show (s.processRegion l 0).launches.map (fun l => if l.id = id then endFrame l else l) = _
  rw [hlaunches]
  rfl

end Frames

/-! ### A region at a frame's end without a sample (R391, R393) -/

section Regions
variable {x : Region} {here : Nat × Nat} {begs : List (Nat × Nat)} {r : Nat}

theorem process_invalid (hstate : x.state = 4) (hbegs : begs ≠ []) (hat : x.invAt ≠ some here) :
    x.process r here begs [] = ⟨x.setState 0, [(0, begs.head?)], false⟩ := by
  have hnot : ¬ (begs.isEmpty || x.invAt == some here) = true := by
    simp [hbegs, hat]
  unfold Region.process
  simp only [hstate, if_true, if_neg hnot]

theorem process_waiting (hstate : x.state = 3) (hfew : begs.length < x.word64 0x10 % 2 ^ 32) :
    x.process r here begs [] = ⟨x.setField 0x10 0 32 (x.word64 0x10 % 2 ^ 32 - begs.length), [], false⟩ := by
  have hwait : (decide (begs.length < x.word64 0x10 % 2 ^ 32) || begs.isEmpty) = true := by
    simp only [decide_eq_true hfew, Bool.true_or]
  have hthree : ¬ (3 : Nat) = 4 := by decide
  unfold Region.process
  simp only [hstate, if_neg hthree, if_true, hwait]

theorem process_over (hstate : x.state = 3) (hmany : x.word64 0x10 % 2 ^ 32 ≤ begs.length) (hbegs : begs ≠ []) :
    x.process r here begs [] = ⟨((x.setField 0x10 0 32 0).setState 1).clearWindow,
      [(1, begs[x.word64 0x10 % 2 ^ 32 - 1]?)], false⟩ := by
  have hgo : ¬ (decide (begs.length < x.word64 0x10 % 2 ^ 32) || begs.isEmpty) = true := by
    simp only [decide_eq_false (Nat.not_lt.mpr hmany), Bool.false_or, List.isEmpty_iff]
    exact hbegs
  have hthree : ¬ (3 : Nat) = 4 := by decide
  unfold Region.process
  simp only [hstate, if_neg hthree, if_true, if_neg hgo]

/-- The SGBEGs of a region in the order of their invocations are as many as there are. -/
theorem begs_length (begs : List (Nat × Nat × Nat × Nat)) :
    (sortOn (fun (b : Nat × Nat) => b.1) (begs.map fun b => (b.2.2.2, b.2.2.1))).length = begs.length := by
  rw [sortOn_length, List.length_map]

theorem begs_ne_nil {begs : List (Nat × Nat × Nat × Nat)} (h : begs ≠ []) :
    sortOn (fun (b : Nat × Nat) => b.1) (begs.map fun b => (b.2.2.2, b.2.2.1)) ≠ [] := by
  intro hnil
  have hlength := begs_length begs
  rw [hnil] at hlength
  exact h (List.eq_nil_of_length_eq_zero hlength.symm)

end Regions

/-- Settles O48: the clauses are the lemmas on errors found, the tick, the counter of a launch alone, entries and frame ends. -/
theorem framesAdvance : Obligations.FramesAdvance := by
  unfold Obligations.FramesAdvance
  refine ⟨globalTick_takesFound, fun s c n w hc hn hn0 => upsets_scalar w hc hn hn0,
    fun s b side i x r hi hlive hr hmark => tryPart_marked hi hlive hr hmark, fun s c a w wk hc ha => upsets_scratchpad w wk hc ha,
    fun s unit w hunit => upsets_telemetry w hunit, fun s stack i transfer w hstack => upsets_logRecord w hstack,
    fun s hfound h => globalTick_due hfound h, ?_,
    fun s id l hl hstate hpinned hoff htick => frameCounterStart_starts hl hstate hpinned hoff htick,
    fun s c i n e h => entryStart_begins h, ?_, fun s id l hl hends hholds => frameEnd_other hl hends hholds⟩
  · intro s hfound hdue
    refine ⟨?_, ?_⟩
    · intro hidle
      rw [globalTick_advances hfound hdue]
      exact congrArg _ (foldl_counterTick_idle (s := s.nextTick) hidle)
    · intro l k hl hcounts hk hrecord hreplay late
      refine ⟨?_, ?_, ?_⟩
      · intro hlate hlt
        rw [globalTick_alone hfound hdue hl hcounts, frameTick_onTime hl hk hreplay hlate, if_pos hlt]
        rfl
      · intro hlate heq hdone
        rw [globalTick_alone hfound hdue hl hcounts, frameTick_onTime hl hk hreplay hlate, if_neg (by omega), if_pos hdone]
        rfl
      · intro hlate hslip
        exact ⟨_, globalTick_alone hfound hdue hl hcounts, frameTick_late hl hk hrecord hreplay hlate hslip⟩
  · intro s id l m x hl hends hholds hm hhandle hregions hcfgs hsamples begs left
    refine ⟨?_, ?_, ?_⟩
    · intro hstate hbegs hat
      exact frameEnd_region hl hends hholds hm hhandle hregions hcfgs hsamples rfl
        (process_invalid hstate (begs_ne_nil hbegs) hat)
    · intro hstate hfew
      have hprocess := process_waiting (r := 0) (here := (l.id, l.frame)) hstate ((begs_length begs).symm ▸ hfew)
      rw [begs_length] at hprocess
      exact frameEnd_region hl hends hholds hm hhandle hregions hcfgs hsamples rfl hprocess
    · intro hstate hmany hbegs
      exact frameEnd_region hl hends hholds hm hhandle hregions hcfgs hsamples rfl
        (process_over hstate ((begs_length begs).symm ▸ hmany) (begs_ne_nil hbegs))

end Sys2Proof.Machine

/-! Proofs for spec/19 (contexts, slot tables, registrations, debug halts): the commands of system software. -/

namespace Sys2Proof.Machine

open Safety

/-! ### The window of system software (R441) -/

section Window
variable {s t : State} {ok : Bool}

theorem command_closed (h : s.markhor.booted = false) : s.command ok t = { s with answers := s.answers ++ [.refused 1] } := by
  unfold State.command
  rw [h, Bool.false_and, if_neg Bool.false_ne_true]
  rfl

theorem command_done (h : s.markhor.booted = true) (hok : ok = true) : s.command ok t = { t with answers := t.answers ++ [.ok] } := by
  unfold State.command
  rw [h, hok, Bool.and_self, if_pos rfl]
  rfl

theorem isLive_of_context {asid : Nat} {x : Context} (hx : s.context? asid = some x) (hlive : x.live = true) : s.isLive asid = true := by
  unfold State.isLive
  rw [hx]
  exact hlive

theorem onContext_some {asid : Nat} {x : Context} (hx : s.context? asid = some x) (f : Context → Context) :
    s.onContext asid f = { s with contexts := Sparse.set none s.contexts asid (some (f x)) } := by
  unfold State.onContext
  rw [hx]
  rfl

/-- The commands that R441 keeps from system software until the package has booted. -/
theorem command_refused {i : Instr} (h : s.markhor.booted = false)
    (hi : (∃ a r, i = .contextCreate a r) ∨ (∃ a, i = .contextDestroy a) ∨ (∃ a r, i = .rankWrite a r) ∨ (∃ d n v, i = .slotTableWrite d n v) ∨
      (∃ a b c d e, i = .registerHostEventArea a b c d e) ∨ (∃ b c d e, i = .registerSystemEventRing b c d e) ∨
      (∃ a h c, i = .registerCoreSetHandle a h c) ∨ (∃ a k, i = .registerPublicKeys a k) ∨ (∃ l, i = .debugHalt l) ∨
      (∃ l, i = .debugResume l)) : exec i s = .next { s with answers := s.answers ++ [.refused 1] } := by
  have hclosed : ∀ {ok : Bool} {t : State}, (.next (s.command ok t) : Out) = .next { s with answers := s.answers ++ [.refused 1] } :=
    congrArg Host.Outcome.next (command_closed h)
  rcases hi with ⟨a, r, rfl⟩ | ⟨a, rfl⟩ | ⟨a, r, rfl⟩ | ⟨d, n, v, rfl⟩ | ⟨a, b, c, d, e, rfl⟩ | ⟨b, c, d, e, rfl⟩ | ⟨a, n, c, rfl⟩ |
    ⟨a, k, rfl⟩ | ⟨l, rfl⟩ | ⟨l, rfl⟩
  · exact hclosed
  · exact hclosed
  · exact hclosed
  · exact hclosed
  · exact hclosed
  · exact hclosed
  · exact hclosed
  · exact hclosed
  · show execDebugHalt l s = _
    unfold execDebugHalt
    split
    · rfl
    · exact hclosed
  · show execDebugResume l s = _
    unfold execDebugResume
    split
    · rfl
    · exact hclosed

end Window

/-! ### Rings (R348, R435) -/

section Rings
variable {s : State}

theorem ringOk_of {base size : Nat} (hbase : base % 16 = 0) (hsize : ∃ i, i < 11 ∧ size = 2 ^ (6 + i)) : ringOk base size = true := by
  obtain ⟨i, hi, rfl⟩ := hsize
  have hany : ((List.range 11).any fun j => 2 ^ (6 + i) == 2 ^ (6 + j)) = true :=
    List.any_eq_true.mpr ⟨i, List.mem_range.mpr hi, beq_self_eq_true _⟩
  unfold ringOk
  rw [hbase, hany]
  rfl

theorem postRing_none (h : s.ringHeld = []) : s.postRing = s := by
  unfold State.postRing
  rw [h]
  rfl

theorem getD_append_low {l m : List Byte} {i : Nat} (h : i < l.length) : (l ++ m).getD i 0 = l.getD i 0 := by
  rw [List.getD_eq_getElem?_getD, List.getD_eq_getElem?_getD, List.getElem?_append_left h]

theorem getD_append_high {l m : List Byte} {i : Nat} (h : l.length ≤ i) : (l ++ m).getD i 0 = m.getD (i - l.length) 0 := by
  rw [List.getD_eq_getElem?_getD, List.getD_eq_getElem?_getD, List.getElem?_append_right h]

theorem leBytes_length (x n : Nat) : (leBytes x n).length = n := by
  induction n generalizing x with
  | zero => rfl
  | succ n ih => simp [leBytes, ih]

theorem leBytes_getD {n i : Nat} (h : i < n) (x : Nat) : (leBytes x n).getD i 0 = BitVec.ofNat 8 (x / 2 ^ (8 * i)) := by
  induction n generalizing x i with
  | zero => omega
  | succ n ih =>
    cases i with
    | zero => simp [leBytes]
    | succ i =>
      have hpow : 256 * 2 ^ (8 * i) = 2 ^ (8 * (i + 1)) := by
        rw [Nat.mul_succ, Nat.pow_add, Nat.mul_comm]
      rw [leBytes, List.getD_cons_succ, ih (Nat.lt_of_succ_lt_succ h), Nat.div_div_eq_div_mul, hpow]

theorem writeRecord_host_eq (r : Ring) (p : W64 × W64) : (s.writeRecord r p).host =
    putMem (putMem s.host (r.base + 16 * (r.posted % r.size)) (bytesOf 8 p.1 ++ bytesOf 8 p.2)) r.widx (leBytes (r.posted + 1) 8) := by
  simp only [State.writeRecord]

/-- A record changes no context. -/
theorem writeRecord_context? (r : Ring) (p : W64 × W64) (asid : Nat) : (s.writeRecord r p).context? asid = s.context? asid := by
  simp only [State.writeRecord, State.context?]

theorem writeRecord_contexts (r : Ring) (p : W64 × W64) : (s.writeRecord r p).contexts = s.contexts := by
  simp only [State.writeRecord]

theorem bytesOf_getD {i : Nat} (h : i < 8) (v : W64) : (bytesOf 8 v).getD i 0 = BitVec.ofNat 8 (v.toNat / 2 ^ (8 * i)) := leBytes_getD h _

/-- The bytes of host memory after a record, at `at_`, and WIDX have been written. -/
theorem writeRecord_host (w : Memory.wf s.host = true) (r : Ring) (p : W64 × W64) {at_ : Nat}
    (hat : r.base + 16 * (r.posted % r.size) = at_) (a : Nat) :
    Sparse.get 0 (s.writeRecord r p).host a =
      if r.widx ≤ a ∧ a < r.widx + 8 then BitVec.ofNat 8 ((r.posted + 1) / 2 ^ (8 * (a - r.widx)))
      else if at_ ≤ a ∧ a < at_ + 8 then BitVec.ofNat 8 (p.1.toNat / 2 ^ (8 * (a - at_)))
      else if at_ + 8 ≤ a ∧ a < at_ + 16 then BitVec.ofNat 8 (p.2.toNat / 2 ^ (8 * (a - at_ - 8)))
      else Sparse.get 0 s.host a := by
  have hfirst : (bytesOf 8 p.1).length = 8 := leBytes_length _ 8
  have hlength : (bytesOf 8 p.1 ++ bytesOf 8 p.2).length = 16 := by
    rw [List.length_append, hfirst, show (bytesOf 8 p.2).length = 8 from leBytes_length _ 8]
  rw [writeRecord_host_eq, hat, get_putMem (putMem_wf w), get_putMem w, leBytes_length, hlength]
  by_cases hwidx : r.widx ≤ a ∧ a < r.widx + 8
  · rw [if_pos hwidx, if_pos hwidx, leBytes_getD (by omega)]
  · rw [if_neg hwidx, if_neg hwidx]
    by_cases hlow : at_ ≤ a ∧ a < at_ + 8
    · rw [if_pos (by omega), if_pos hlow, getD_append_low (by omega), bytesOf_getD (by omega)]
    · rw [if_neg hlow]
      by_cases hhigh : at_ + 8 ≤ a ∧ a < at_ + 16
      · rw [if_pos (by omega), if_pos hhigh, getD_append_high (by omega), hfirst, bytesOf_getD (by omega)]
      · rw [if_neg (by omega), if_neg hhigh]

theorem ringRoom_of {r : Ring} (h : (r.posted + 2 ^ 64 - leNat (memBytes s.host r.ridx 8) 8) % 2 ^ 64 ≠ r.size) : s.ringRoom r = true := by
  unfold State.ringRoom State.hostWord
  exact decide_eq_true h

theorem hostEventPost_posts {asid : Nat} {x : Context} {r : Ring} {p : W64 × W64} {rest : List (W64 × W64)} (hheld : s.ringHeld = [])
    (hx : s.context? asid = some x) (hlive : x.live = true) (harea : x.area = some r) (hposts : x.posts = p :: rest)
    (hroom : s.ringRoom r = true) :
    exec (.hostEventPost asid) s = .next { s.writeRecord r p with
      contexts := Sparse.set none s.contexts asid (some { x with area := some r.counted, posts := rest }) } := by
  have hpost : (s.writeRecord r p).onContext asid (fun x => { x with area := some r.counted, posts := rest }) =
      { s.writeRecord r p with
        contexts := Sparse.set none s.contexts asid (some { x with area := some r.counted, posts := rest }) } := by
    rw [onContext_some ((writeRecord_context? r p asid).trans hx), writeRecord_contexts]
  show execHostEventPost asid s = _
  unfold execHostEventPost
  rw [postRing_none hheld]
  simp only [hx, harea, hposts, hlive, hroom, Bool.and_self, if_true, hpost]

end Rings

/-! ### Contexts (R339) -/

section Contexts
variable {s : State} {asid : Nat} {x : Context}

theorem contextCreate_creates (hb : s.markhor.booted = true) (hfree : s.asidFree asid = true) (rank : Nat) :
    exec (.contextCreate asid rank) s = .next { s with
      contexts := Sparse.set none s.contexts asid (some ⟨true, rank, none, [], [], [], false, none⟩), answers := s.answers ++ [.ok] } :=
  congrArg Host.Outcome.next (command_done hb hfree)

/-- The commands on a live context. -/
theorem liveContext_commands (hb : s.markhor.booted = true) (hx : s.context? asid = some x) (hlive : x.live = true) :
    (s.hasLaunch asid = false → ∃ t, exec (.contextDestroy asid) s = .next t ∧
      t.contexts = Sparse.set none s.contexts asid none ∧ t.modules = s.modules.filter (fun m => m.asid ≠ asid) ∧
      t.answers = s.answers ++ [.ok] ∧ t.cores = s.cores) ∧
    (s.hasLaunch asid = true → x.tearing = none → exec (.contextDestroy asid) s = .next { s with
      contexts := Sparse.set none s.contexts asid (some { x with tearing := some (0xC, []) }), answers := s.answers ++ [.ok] }) ∧
    (∀ r, exec (.rankWrite asid r) s = .next { s with
      contexts := Sparse.set none s.contexts asid (some { x with rank := r }), answers := s.answers ++ [.ok] }) ∧
    (∀ base size widx ridx, base % 16 = 0 → (∃ i, i < 11 ∧ size = 2 ^ (6 + i)) →
      exec (.registerHostEventArea asid base size widx ridx) s = .next { s with
        contexts := Sparse.set none s.contexts asid
          (some { x with area := some ⟨base, size, widx, ridx, leNat (memBytes s.host widx 8) 8⟩ })
        answers := s.answers ++ [.ok] }) ∧
    (∀ h cores, (∃ c, c < 288 ∧ c ∈ cores) → exec (.registerCoreSetHandle asid h cores) s = .next { s with
      contexts := Sparse.set none s.contexts asid (some { x with
        coreSets := (x.coreSets.filter fun e => e.1 ≠ h) ++ [(h, (List.range 288).filter fun c => cores.contains c)] })
      answers := s.answers ++ [.ok] }) ∧
    (∀ keys, exec (.registerPublicKeys asid keys) s = .next { s with
      contexts := Sparse.set none s.contexts asid (some { x with keys := keys }), answers := s.answers ++ [.ok] }) := by
  have hisLive := isLive_of_context hx hlive
  refine ⟨?_, ?_, ?_, ?_, ?_, ?_⟩
  · intro hnone
    refine ⟨_, congrArg Host.Outcome.next (command_done hb hisLive), ?_⟩
    rw [hnone]
    exact ⟨rfl, rfl, rfl, rfl⟩
  · intro hsome htearing
    refine (congrArg Host.Outcome.next (command_done hb hisLive)).trans ?_
    rw [if_pos hsome]
    unfold State.tearDown
    rw [onContext_some hx]
    simp only [htearing]
    rfl
  · intro r
    refine (congrArg Host.Outcome.next (command_done hb hisLive)).trans ?_
    rw [onContext_some hx]
  · intro base size widx ridx hbase hsize
    have hok : (s.isLive asid && ringOk base size) = true := by rw [hisLive, ringOk_of hbase hsize, Bool.and_self]
    refine (congrArg Host.Outcome.next (command_done hb hok)).trans ?_
    rw [onContext_some hx]
    rfl
  · rintro h cores ⟨c, hc, hmem⟩
    have hcores : (allCores.filter fun c => cores.contains c).isEmpty = false := by
      rw [List.isEmpty_eq_false_iff_exists_mem]
      exact ⟨c, List.mem_filter.mpr ⟨List.mem_range.mpr hc, by simpa using hmem⟩⟩
    have hok : (s.isLive asid && !(allCores.filter fun c => cores.contains c).isEmpty) = true := by rw [hisLive, hcores]; rfl
    refine (congrArg Host.Outcome.next (command_done hb hok)).trans ?_
    rw [onContext_some hx]
    rfl
  · intro keys
    refine (congrArg Host.Outcome.next (command_done hb hisLive)).trans ?_
    rw [onContext_some hx]

theorem registerSystemEventRing_registers {base size widx ridx : Nat} (hb : s.markhor.booted = true) (hbase : base % 16 = 0)
    (hsize : ∃ i, i < 11 ∧ size = 2 ^ (6 + i)) (hheld : s.ringHeld = []) :
    exec (.registerSystemEventRing base size widx ridx) s = .next { s with
      ring := some ⟨base, size, widx, ridx, leNat (memBytes s.host widx 8) 8⟩, answers := s.answers ++ [.ok] } := by
  refine (congrArg Host.Outcome.next (command_done hb (ringOk_of hbase hsize))).trans ?_
  rw [postRing_none (s := { s with ring := some (s.newRing base size widx ridx) }) hheld]
  rfl

end Contexts

/-! ### Slot tables (R350) -/

section Slots
variable {s : State} {die port : Nat}

/-- Filling keys of a table from another one. -/
theorem get_foldl_copied {f : Nat → Nat} (hf : ∀ i j, f i = f j → i = j) (from_ : Sparse W32) (l : List Nat) (m : Sparse W32)
    (w : Sparse.wf 0 m = true) (i : Nat) :
    Sparse.get 0 (l.foldl (fun m i => Sparse.set 0 m (f i) (Sparse.get 0 from_ (f i))) m) (f i) =
      if i ∈ l then Sparse.get 0 from_ (f i) else Sparse.get 0 m (f i) := by
  induction l generalizing m with
  | nil => rfl
  | cons j l ih =>
    rw [List.foldl_cons, ih _ (Sparse.set_wf w), Sparse.get_set w]
    by_cases hmem : i ∈ l
    · rw [if_pos hmem, if_pos (List.mem_cons_of_mem _ hmem)]
    · by_cases hij : i = j
      · rw [if_neg hmem, if_pos (congrArg f hij), if_pos (by simp [hij]), hij]
      · rw [if_neg hmem, if_neg fun h => hij (hf _ _ h), if_neg (by simp [hij, hmem])]

theorem loadSlots_slotTables (s : State) (die : Nat) : (s.loadSlots die).slotTables =
    (List.range 64).foldl (fun m i => Sparse.set 0 m (64 * die + i) (Sparse.get 0 s.slotPending (64 * die + i))) s.slotTables := by
  have hfold : ∀ (l : List Nat) (u : State), u.slotPending = s.slotPending → (l.foldl (fun (s : State) i =>
      { s with slotTables := Sparse.set 0 s.slotTables (slotKey die i) (Sparse.get 0 s.slotPending (slotKey die i)) }) u).slotTables =
      l.foldl (fun m i => Sparse.set 0 m (64 * die + i) (Sparse.get 0 s.slotPending (64 * die + i))) u.slotTables := by
    intro l
    induction l with
    | nil => exact fun _ _ => rfl
    | cons i l ih =>
      intro u hu
      have hpending : Sparse.get 0 u.slotPending (64 * die + i) = Sparse.get 0 s.slotPending (64 * die + i) := by rw [hu]
      refine (ih { u with slotTables := Sparse.set 0 u.slotTables (slotKey die i) (Sparse.get 0 u.slotPending (slotKey die i)) } hu).trans ?_
      rw [List.foldl_cons, ← hpending]
      rfl
  exact hfold _ s rfl

theorem loadSlots_loads (w : Sparse.wf 0 s.slotTables = true) {i : Nat} (hi : i < 64) :
    Sparse.get 0 (s.loadSlots die).slotTables (64 * die + i) = Sparse.get 0 s.slotPending (64 * die + i) := by
  rw [loadSlots_slotTables]
  have hkeys := get_foldl_copied (f := fun i => 64 * die + i) (fun i j h => Nat.add_left_cancel h) s.slotPending (List.range 64) s.slotTables w i
  rw [if_pos (List.mem_range.mpr hi)] at hkeys
  exact hkeys

/-- The least of some numbers. -/
def leastOf (l : List Nat) : Option Nat := l.foldl (fun (m : Option Nat) x => match m with
  | none => some x
  | some y => some (min x y)) none

theorem leastOf_eq {x : Nat} {l : List Nat} (hx : x ∈ l) (hleast : ∀ y ∈ l, x ≤ y) : leastOf l = some x := by
  have hfold : ∀ (l : List Nat) (m : Nat), l.foldl (fun (m : Option Nat) x => match m with
      | none => some x
      | some y => some (min x y)) (some m) = some (l.foldl min m) := by
    intro l
    induction l with
    | nil => exact fun _ => rfl
    | cons y l ih =>
      intro m
      rw [List.foldl_cons, List.foldl_cons, Nat.min_comm m y]
      exact ih _
  have hmin : ∀ (l : List Nat) (m : Nat), (∀ y ∈ l, x ≤ y) → x ≤ m → x ∈ l ∨ x = m → l.foldl min m = x := by
    intro l
    induction l with
    | nil =>
      intro m _ _ hin
      exact (hin.resolve_left List.not_mem_nil).symm
    | cons y l ih =>
      intro m hl hm hin
      have hy := hl y List.mem_cons_self
      refine ih _ (fun z hz => hl z (List.mem_cons_of_mem _ hz)) (Nat.le_min.mpr ⟨hm, hy⟩) ?_
      rcases hin with hin | rfl
      · rcases List.mem_cons.mp hin with rfl | htail
        · exact .inr (Nat.min_eq_right hm).symm
        · exact .inl htail
      · exact .inr (Nat.min_eq_left hy).symm
  cases l with
  | nil => exact absurd hx List.not_mem_nil
  | cons y l =>
    refine (hfold l y).trans (congrArg some (hmin l y (fun z hz => hleast z (List.mem_cons_of_mem _ hz)) (hleast y List.mem_cons_self) ?_))
    rcases List.mem_cons.mp hx with rfl | htail
    · exact .inr rfl
    · exact .inl htail

theorem roundRobin_eq {last x : Nat} {l : List Nat} (hx : x ∈ l)
    (h : last < x ∧ (∀ y ∈ l, last < y → x ≤ y) ∨ (∀ y ∈ l, y ≤ last ∧ x ≤ y)) : roundRobin last l = some x := by
  have hleast : roundRobin last l = (leastOf (l.filter (last < ·))).or (leastOf l) := rfl
  rw [hleast]
  rcases h with ⟨hlt, hnext⟩ | hwrap
  · rw [leastOf_eq (List.mem_filter.mpr ⟨hx, decide_eq_true hlt⟩) fun y hy => hnext y (List.mem_filter.mp hy).1
      (of_decide_eq_true (List.mem_filter.mp hy).2)]
    rfl
  · have hnone : l.filter (last < ·) = [] := by
      rw [List.filter_eq_nil_iff]
      intro y hy
      simpa using (hwrap y hy).1
    rw [hnone, leastOf_eq hx fun y hy => (hwrap y hy).2]
    rfl

/-- The state after a port has counted its cycle, with no slot table loaded. -/
def State.cycleCounted (s : State) (die port : Nat) : State :=
  let key := 4 * port + die
  let n := Sparse.get 0 s.slotCycle die
  { s with
    slotCycle := if Sparse.get 0 s.slotUsed key = n then Sparse.set 0 s.slotCycle die (n + 1) else s.slotCycle
    slotUsed := Sparse.set 0 s.slotUsed key (if Sparse.get 0 s.slotUsed key = n then n + 1 else n) }

theorem fabricCycle_eq (h : ¬ Sparse.get 0 s.slotUsed (4 * port + die) = Sparse.get 0 s.slotCycle die ∨ Sparse.get 0 s.slotCycle die % 64 ≠ 0) :
    s.fabricCycle die port = s.cycleCounted die port := by
  unfold State.fabricCycle State.cycleCounted portKey
  by_cases hbegins : Sparse.get 0 s.slotUsed (4 * port + die) = Sparse.get 0 s.slotCycle die
  · have hslot : ¬ Sparse.get 0 s.slotCycle die % slotCount = 0 := h.resolve_left (not_not_intro hbegins)
    simp only [if_pos hbegins, if_neg hslot]
  · simp only [if_neg hbegins]

theorem fabricCycle_loads (hbegins : Sparse.get 0 s.slotUsed (4 * port + die) = Sparse.get 0 s.slotCycle die)
    (hslot : Sparse.get 0 s.slotCycle die % 64 = 0) : (s.fabricCycle die port).slotTables = (s.loadSlots die).slotTables := by
  unfold State.fabricCycle portKey
  have hslot' : Sparse.get 0 s.slotCycle die % slotCount = 0 := hslot
  simp only [if_pos hbegins, if_pos hslot']

/-- The number of the cycle that a port decides in. -/
theorem cycleCounted_cycle (w : Sparse.wf 0 s.slotCycle = true) : Sparse.get 0 (s.cycleCounted die port).slotCycle die - 1 =
    if Sparse.get 0 s.slotUsed (4 * port + die) = Sparse.get 0 s.slotCycle die then Sparse.get 0 s.slotCycle die
    else Sparse.get 0 s.slotCycle die - 1 := by
  unfold State.cycleCounted
  dsimp only
  split
  · rw [Sparse.get_set_same w, Nat.add_sub_cancel]
  · rfl

/-- A port's cycle serves the request that its slot or the round robin names. -/
theorem dieFabric_serves (w : Sparse.wf 0 s.slotCycle = true) {ready : List Nat} {x : Nat}
    (h : ¬ Sparse.get 0 s.slotUsed (4 * port + die) = Sparse.get 0 s.slotCycle die ∨ Sparse.get 0 s.slotCycle die % 64 ≠ 0)
    (hserved : (let slot := Sparse.get 0 s.slotTables (64 * die + (if Sparse.get 0 s.slotUsed (4 * port + die) = Sparse.get 0 s.slotCycle die
        then Sparse.get 0 s.slotCycle die else Sparse.get 0 s.slotCycle die - 1) % 64)
      if slot.getLsbD 31 && (ready.filter s.mayRequest).contains (slot.toNat % 4096) then some (slot.toNat % 4096)
      else roundRobin (Sparse.get 0 s.slotServed (4 * port + die)) (ready.filter s.mayRequest)) = some x) :
    exec (.dieFabricArbitration die port ready) s = .next { s.cycleCounted die port with
      slotServed := Sparse.set 0 s.slotServed (4 * port + die) x } := by
  show execDieFabricArbitration die port ready s = _
  unfold execDieFabricArbitration
  simp only [fabricCycle_eq h, cycleCounted_cycle w]
  have hfinal : ∀ v : Option Nat, v = some x → (.next { s.cycleCounted die port with
      slotServed := match v with
        | some x => Sparse.set 0 (s.cycleCounted die port).slotServed (portKey die port) x
        | none => (s.cycleCounted die port).slotServed } : Out) = .next { s.cycleCounted die port with
      slotServed := Sparse.set 0 s.slotServed (4 * port + die) x } := by
    rintro v rfl
    rfl
  exact hfinal _ hserved

end Slots

end Sys2Proof.Machine

/-! Proofs for spec/19 (debug halts, R351): arbitration beside the answers of system software, parked operations, the commands together. -/

namespace Sys2Proof.Machine

open Safety

/-! ### Arbitration reads and writes no answer of system software -/

section Answers
variable {s : State} (a : List Answer)

/-- The state with other answers of system software. -/
def State.answering (s : State) (a : List Answer) : State := { s with answers := a }

theorem foldl_answering {α : Type} {f : State → α → State} (hf : ∀ u x, f (u.answering a) x = (f u x).answering a) (l : List α) (s : State) :
    l.foldl f (s.answering a) = (l.foldl f s).answering a := by
  induction l generalizing s with
  | nil => rfl
  | cons x l ih => rw [List.foldl_cons, List.foldl_cons, hf, ih]

theorem unmark_answering (cl : Nat) (kind : UnitKind) (c q : Nat) : (s.answering a).unmark cl kind c q = (s.unmark cl kind c q).answering a := by
  unfold State.unmark
  refine foldl_answering a ?_ _ s
  intro u x
  split
  · rfl
  · rfl

theorem onHead_answering (c q : Nat) (f : Op → Op) : (s.answering a).onHead c q f = (s.onHead c q f).answering a := rfl

theorem freeUnit_answering (cl : Nat) (kind : UnitKind) : (s.answering a).freeUnit cl kind = s.freeUnit cl kind := rfl

theorem victim_answering (cl : Nat) (kind : UnitKind) (c q : Nat) : (s.answering a).victim cl kind c q = s.victim cl kind c q := rfl

theorem headOp_answering (c q : Nat) : ((s.answering a).core c).headOp q = (s.core c).headOp q := rfl

theorem arbitrate_answering (cl : Nat) (kind : UnitKind) (fuel : Nat) (l : List (Nat × Nat)) (s : State) :
    (s.answering a).arbitrate cl kind fuel l = (s.arbitrate cl kind fuel l).answering a := by
  induction fuel generalizing s l with
  | zero => rfl
  | succ fuel ih =>
    cases l with
    | nil => rfl
    | cons x rest =>
      obtain ⟨c, q⟩ := x
      unfold State.arbitrate
      rw [unmark_answering]
      dsimp only
      rw [headOp_answering]
      split
      · exact ih _ _
      · rw [freeUnit_answering]
        split
        · rw [onHead_answering, ih]
        · split
          · rw [onHead_answering, ih]
          · rw [victim_answering]
            split
            · rw [onHead_answering, ih]
            · rw [onHead_answering, ih]

theorem arbitrateFor_answering (cores : List Nat) : (s.answering a).arbitrateFor cores = (s.arbitrateFor cores).answering a := by
  unfold State.arbitrateFor
  refine foldl_answering a ?_ _ s
  intro u cl
  refine foldl_answering a ?_ _ u
  intro v kind
  exact arbitrate_answering a _ _ _ _ _

theorem arbitrate_answers (cl : Nat) (kind : UnitKind) (fuel : Nat) (l : List (Nat × Nat)) (s : State) :
    (s.arbitrate cl kind fuel l).answers = s.answers :=
  (congrArg State.answers (arbitrate_answering s.answers cl kind fuel l s)).trans rfl

theorem reply_arbitrateFor (cores : List Nat) (h : (s.arbitrateFor cores).answers = s.answers) :
    (s.arbitrateFor cores).reply .ok = (s.answering (s.answers ++ [.ok])).arbitrateFor cores := by
  rw [arbitrateFor_answering]
  unfold State.reply State.answering
  rw [h]

theorem arbitrateFor_answers (cores : List Nat) : (s.arbitrateFor cores).answers = s.answers :=
  (congrArg State.answers (arbitrateFor_answering (s := s) s.answers cores)).trans rfl

end Answers

/-! ### Parked operations (R271) -/

/-- The queues of a core after those of a list have changed by `f`. -/
theorem opsOf_foldl_setOps {f : List Op → List Op} (l : List Nat) (hl : l.Nodup) (k : Core) (w : Sparse.wf [] k.ops = true) (q : Nat) :
    (l.foldl (fun k q => k.setOps q (f (k.opsOf q))) k).opsOf q = if q ∈ l then f (k.opsOf q) else k.opsOf q := by
  induction l generalizing k with
  | nil => rfl
  | cons p l ih =>
    obtain ⟨hnot, hnodup⟩ := List.nodup_cons.mp hl
    have hset : (k.setOps p (f (k.opsOf p))).opsOf q = if q = p then f (k.opsOf p) else k.opsOf q := Sparse.get_set w q
    rw [List.foldl_cons, ih hnodup (k.setOps p (f (k.opsOf p))) (Sparse.set_wf w), hset]
    by_cases hp : q = p
    · subst hp
      simp [hnot]
    · simp [hp]

theorem unpark_opsOf {k : Core} (w : Sparse.wf [] k.ops = true) {q : Nat} (hq : q < 7) :
    Sparse.get [] k.unpark.ops q = (Sparse.get [] k.ops q).map Op.unpark :=
  (opsOf_foldl_setOps (f := List.map Op.unpark) (List.range 7) List.nodup_range k w q).trans (if_pos (List.mem_range.mpr hq))

/-! ### Debug halts (R351) -/

section Debug
variable {s : State} {id : Nat} {l : Launch}

theorem debugHalt_halts (hb : s.markhor.booted = true) (hl : s.launch? id = some l) (hstate : l.state = .running ∨ l.state = .halting) :
    exec (.debugHalt id) s = .next { s with
      launches := s.launches.map fun m => if m.id = id then { m with debugHalted := true } else m
      answers := s.answers ++ [.ok] } := by
  have hok : l.debuggable = true := by
    unfold Launch.debuggable
    rcases hstate with h | h
    · rw [h]; rfl
    · rw [h]; rfl
  show execDebugHalt id s = _
  unfold execDebugHalt
  rw [hl]
  exact congrArg Host.Outcome.next (command_done hb hok)

/-- What a resumed launch goes on from, its operations to be arbitrated. -/
def State.resumed (s : State) (id : Nat) (cores : List Nat) : State :=
  cores.foldl (fun s c => s.onCore c Core.unpark) (s.onLaunch id fun l => { l with debugHalted := false })

theorem debugResume_eq (hb : s.markhor.booted = true) (hl : s.launch? id = some l) (hhalted : l.debugHalted = true) :
    exec (.debugResume id) s = .next ((if l.state = .running then (s.resumed id l.cores).arbitrateFor l.cores
      else s.onLaunch id fun l => { l with debugHalted := false }).reply .ok) := by
  show execDebugResume id s = _
  unfold execDebugResume
  rw [hl]
  exact congrArg Host.Outcome.next (command_done hb hhalted)

theorem debugResume_only (hb : s.markhor.booted = true) (hl : s.launch? id = some l) (hhalted : l.debugHalted = true)
    (hidle : l.cores = [] ∨ l.state ≠ .running) : exec (.debugResume id) s = .next { s with
      launches := s.launches.map fun m => if m.id = id then { m with debugHalted := false } else m
      answers := s.answers ++ [.ok] } := by
  rw [debugResume_eq hb hl hhalted]
  rcases hidle with hcores | hstate
  · rw [hcores, show (s.resumed id []).arbitrateFor [] = s.onLaunch id fun l => { l with debugHalted := false } from rfl, ite_self]
    rfl
  · rw [if_neg hstate]
    rfl

theorem debugResume_arbitrates (w : CoresWf s) (hb : s.markhor.booted = true) (hl : s.launch? id = some l) (hhalted : l.debugHalted = true)
    {c q : Nat} (hcores : l.cores = [c]) (hstate : l.state = .running) (hq : q < 7) (wo : Sparse.wf [] (s.core c).ops = true) :
    ∃ t : State, exec (.debugResume id) s = .next (t.arbitrateFor [c]) ∧
      Sparse.get [] (t.core c).ops q = (Sparse.get [] (s.core c).ops q).map fun o =>
        if o.state = .parked then { o with state := if o.code = .mlat then .bench else .claiming } else o := by
  refine ⟨(s.resumed id [c]).answering ((s.resumed id [c]).answers ++ [.ok]), ?_, ?_⟩
  · rw [debugResume_eq hb hl hhalted, if_pos hstate, hcores, reply_arbitrateFor _ (arbitrateFor_answers _)]
  · have hcore : (s.resumed id [c]).core c = (s.core c).unpark := State.core_setCore_same w
    show Sparse.get [] ((s.resumed id [c]).core c).ops q = _
    rw [hcore, unpark_opsOf wo hq]
    rfl

end Debug

/-- Settles O49: the clauses are the lemmas on the window, contexts, rings, slot tables and debug halts. -/
theorem contextCommands : Obligations.ContextCommands := by
  unfold Obligations.ContextCommands
  refine ⟨fun s i h hi => command_refused h hi, fun s asid rank hb hfree => contextCreate_creates hb hfree rank,
    fun s asid x hb hx hlive => liveContext_commands hb hx hlive,
    fun s base size widx ridx hb hbase hsize hheld => registerSystemEventRing_registers hb hbase hsize hheld,
    fun s die idx v hb => congrArg Host.Outcome.next (command_done hb rfl), ?_, ?_, ?_⟩
  · intro s die port ready wc wt key n begins cycle slot asks served
    have hmem : ∀ a, a ∈ ready.filter s.mayRequest ↔ asks a := fun a => List.mem_filter
    refine ⟨?_, ?_⟩
    · intro hcount
      refine ⟨?_, ?_⟩
      · intro hvalid hasks
        refine dieFabric_serves wc hcount (if_pos ?_)
        rw [Bool.and_eq_true]
        exact ⟨hvalid, List.contains_iff_mem.mpr ((hmem _).mpr hasks)⟩
      · intro x hother hasks hnext
        refine dieFabric_serves wc hcount ((if_neg ?_).trans (roundRobin_eq ((hmem x).mpr hasks) ?_))
        · rw [Bool.and_eq_true]
          rintro ⟨hvalid, howner⟩
          rcases hother with hinvalid | hno
          · exact absurd hvalid (by simp [slot, cycle, begins, key, n] at hinvalid; simpa using hinvalid)
          · exact hno ((hmem _).mp (List.contains_iff_mem.mp howner))
        · rcases hnext with ⟨hlt, hleast⟩ | hwrap
          · exact .inl ⟨hlt, fun y hy => hleast y ((hmem y).mp hy)⟩
          · exact .inr fun y hy => hwrap y ((hmem y).mp hy)
    · intro hbegins hslot
      refine ⟨_, rfl, ?_⟩
      intro i hi
      show Sparse.get 0 (s.fabricCycle die port).slotTables (64 * die + i) = _
      rw [fabricCycle_loads hbegins hslot, loadSlots_loads wt hi]
  · intro s id l hb hl
    exact ⟨fun hstate => debugHalt_halts hb hl hstate, fun hhalted hidle => debugResume_only hb hl hhalted hidle,
      fun c q w hhalted hcores hstate hq wo => debugResume_arbitrates w hb hl hhalted hcores hstate hq wo⟩
  · intro s asid x r p rest w hheld hx hlive harea hposts hroom at_
    have hbytes := writeRecord_host w r p (at_ := at_) rfl
    refine ⟨_, hostEventPost_posts hheld hx hlive harea hposts (ringRoom_of hroom), ?_, ?_, ?_⟩
    · simp only [Ring.counted]
    · intro a
      dsimp only
      exact hbytes a
    · simp only [State.writeRecord]

end Sys2Proof.Machine

/-! Proofs for spec/08, spec/09 and spec/13 (engine queues): an operation changed at the head of its queue, its completion, its start. -/

namespace Sys2Proof.Machine

open Safety

/-! ### The operation at the head of a queue -/

section Head
variable {s : State} {c q : Nat} {o : Op} {rest : List Op}

theorem headOp_atHead (h : AtHead s c q o rest) : (s.core c).headOp q = some o := headOp_eq_some h

theorem onHead_atHead (h : AtHead s c q o rest) (f : Op → Op) : s.onHead c q f = s.setCore c (withHead (s.core c) q (f o) rest) := by
  unfold State.onHead State.onCore
  dsimp only
  rw [headOp_atHead h]
  exact congrArg (s.setCore c) (setHead_eq h (f o))

theorem onHead_core (w : CoresWf s) (h : AtHead s c q o rest) (f : Op → Op) (d : Nat) :
    (s.onHead c q f).core d = if d = c then withHead (s.core c) q (f o) rest else s.core d := by
  rw [onHead_atHead h, State.core_setCore w]

/-- An operation changed at the head stands there, changed. -/
theorem atHead_onHead (w : CoresWf s) (wo : Sparse.wf [] (s.core c).ops = true) (h : AtHead s c q o rest) (f : Op → Op) :
    AtHead (s.onHead c q f) c q (f o) rest := by
  unfold AtHead
  rw [onHead_core w h, if_pos rfl]
  exact Sparse.get_set_same wo

end Head

/-! ### Completion (R180, R212, R237, R269) -/

section Completion
variable {s u t : State} {c q : Nat} {k : Core} {o x : Op} {rest : List Op}

theorem postEvent_core (target source : Nat) (w0 w1 : W64) (d : Nat) : (u.postEvent target source w0 w1).core d = u.core d := by
  unfold State.postEvent
  split
  · rfl
  · rfl

theorem postEvent_heldEvents (target source : Nat) (w0 w1 : W64) : (u.postEvent target source w0 w1).heldEvents =
    u.heldEvents ++ (match (u.core target).launch with
      | some id => [⟨flat target, flat source, id, w0, w1⟩]
      | none => []) := by
  unfold State.postEvent
  cases (u.core target).launch with
  | none => exact (List.append_nil _).symm
  | some id => rfl

theorem postEvent_rest (target source : Nat) (w0 w1 : W64) : { u.postEvent target source w0 w1 with heldEvents := u.heldEvents } = u := by
  unfold State.postEvent
  split
  · rfl
  · rfl

/-- The operation as it completes. -/
def doneOp (o : Op) : Op := { o with state := .done, performed := true, marked := none }

/-- The core that has dropped its completed operation. -/
def droppedCore (k : Core) (q : Nat) (o : Op) (rest : List Op) : Core :=
  { k with
    ops := Sparse.set [] k.ops q rest
    status := (k.status.filter fun x => decide (x.queue ≠ q) || decide (o.seq < x.seq + 256)) ++
      [⟨q, o.seq, (doneOp o).word, (doneOp o).status true⟩] }

/-- The event record of a completion. -/
def State.postDone (s : State) (c q : Nat) (o : Op) : State :=
  if o.ev then s.postEvent c c (eventWord 1 (doneOp o).doneCode (doneOp o).word.toNat q o.seq) o.eventPayload else s

theorem complete_eq (hk : u.core c = k) (hops : Sparse.get [] k.ops q = x :: rest) :
    u.complete c q o = (u.setCore c (droppedCore k q o rest)).postDone c q o := by
  subst hk
  have hdrop : ((u.core c).opsOf q).drop 1 = rest := by
    unfold Core.opsOf
    rw [hops, List.drop_one, List.tail_cons]
  have hcore : { (u.core c).setOps q (((u.core c).opsOf q).drop 1) with
      status := ((u.core c).status.filter fun x => x.queue ≠ q ∨ o.seq < x.seq + statusDepth) ++
        [⟨q, o.seq, (doneOp o).word, (doneOp o).status true⟩] } = droppedCore (u.core c) q o rest := by
    rw [hdrop]
    unfold droppedCore Core.setOps
    simp only [Bool.decide_or]
    rfl
  unfold State.complete State.postDone State.onCore
  exact congrArg (fun j => if o.ev then (u.setCore c j).postEvent c c (eventWord 1 (doneOp o).doneCode (doneOp o).word.toNat q o.seq)
    o.eventPayload else u.setCore c j) hcore

theorem complete_completed (wu : CoresWf u) (hk : u.core c = k) (hothers : ∀ d, d ≠ c → u.core d = s.core d)
    (hrest : { u with cores := s.cores } = s) (hops : Sparse.get [] k.ops q = x :: rest) : Completed s (u.complete c q o) c q k o rest := by
  have hcore : ∀ d, (u.setCore c (droppedCore k q o rest)).core d = if d = c then droppedCore k q o rest else u.core d :=
    State.core_setCore wu
  have hevents : u.heldEvents = s.heldEvents := by
    have hfield := congrArg State.heldEvents hrest
    exact hfield
  rw [complete_eq hk hops]
  unfold State.postDone
  by_cases hev : o.ev = true
  · rw [if_pos hev]
    refine ⟨?_, ?_, ?_, ?_⟩
    · rw [postEvent_core, hcore, if_pos rfl]
      rfl
    · intro d hd
      rw [postEvent_core, hcore, if_neg hd, hothers d hd]
    · rw [postEvent_heldEvents, hcore, if_pos rfl, State.setCore_heldEvents, hevents]
      cases hlaunch : k.launch with
      | none => simp only [droppedCore, hlaunch]
      | some id =>
        simp only [droppedCore, hlaunch, hev, if_true]
        rfl
    · have hpost := postEvent_rest (u := u.setCore c (droppedCore k q o rest)) c c
        (eventWord 1 (doneOp o).doneCode (doneOp o).word.toNat q o.seq) o.eventPayload
      generalize (u.setCore c (droppedCore k q o rest)).postEvent c c _ _ = v at hpost ⊢
      have hv : { v with cores := s.cores, heldEvents := s.heldEvents, fieldmask := s.fieldmask, pendingMask := s.pendingMask } =
          { { u with cores := s.cores } with heldEvents := s.heldEvents, fieldmask := s.fieldmask, pendingMask := s.pendingMask } :=
        congrArg (fun y : State => { y with
          cores := s.cores, heldEvents := s.heldEvents, fieldmask := s.fieldmask, pendingMask := s.pendingMask }) hpost
      rw [hv, hrest]
  · rw [if_neg hev]
    refine ⟨?_, ?_, ?_, ?_⟩
    · rw [hcore, if_pos rfl]
      rfl
    · intro d hd
      rw [hcore, if_neg hd, hothers d hd]
    · show u.heldEvents = _
      rw [hevents]
      cases k.launch with
      | none => exact (List.append_nil _).symm
      | some id =>
        dsimp only
        rw [if_neg hev, List.append_nil]
    · show { { u with cores := s.cores } with heldEvents := s.heldEvents, fieldmask := s.fieldmask, pendingMask := s.pendingMask } = s
      rw [hrest]

theorem completed_settleUnits (h : Completed s t c q k o rest) (cl : Nat) : Completed s (t.settleUnits cl) c q k o rest := h

theorem finish_completed (wu : CoresWf u) (hk : u.core c = k) (hothers : ∀ d, d ≠ c → u.core d = s.core d)
    (hrest : { u with cores := s.cores } = s) (hops : Sparse.get [] k.ops q = x :: rest) : Completed s (u.finish c q o) c q k o rest :=
  completed_settleUnits (complete_completed wu hk hothers hrest hops) _

/-- The operation at the head completes with nothing else changed. -/
theorem finish_atHead (w : CoresWf s) (h : AtHead s c q x rest) : Completed s (s.finish c q o) c q (s.core c) o rest :=
  finish_completed w rfl (fun _ _ => rfl) rfl h

theorem fail_atHead (w : CoresWf s) (h : AtHead s c q o rest) (err : Nat) : Completed s (s.fail c q o err) c q (s.core c)
    { o with err := err, flags := 0, onField := false, benchSteps := false, fieldSteps := false } rest :=
  complete_completed w rfl (fun _ _ => rfl) rfl h

/-- The operation completes on a core that has changed first. -/
theorem finish_setCore (w : CoresWf s) (hops : Sparse.get [] k.ops q = x :: rest) :
    Completed s ((s.setCore c k).finish c q o) c q k o rest :=
  finish_completed (State.setCore_coresWf w) (State.core_setCore_same w)
    (fun d hd => by rw [State.core_setCore w, if_neg hd]) rfl hops

end Completion

/-! ### The start (R265) -/

section Start
variable {s : State} {c q : Nat} {o : Op} {rest : List Op}

theorem operationStart_eq (h : AtHead s c q o rest) (hstart : s.mayStart c o = true) :
    exec (.operationStart c q) s = .next ((s.startOp c q o).arbitration (clusterOf c) (queueKind q)) := by
  show execOperationStart c q s = _
  unfold execOperationStart
  simp only [headOp_atHead h, hstart, Bool.not_true, Bool.false_eq_true, if_false]

/-- The operations that have checks start as their checks say. -/
theorem startOp_check {err n : Nat} (h : startOf s c q o = some (err, n)) : s.startOp c q o = s.check c q o err n := by
  unfold startOf at h
  unfold State.startOp
  cases hcode : o.code with
  | mma | cpy | cpyt | cpyn | cpym | sfn | gath | scat =>
    simp only [hcode, Option.some.injEq, Prod.mk.injEq] at h
    obtain ⟨rfl, rfl⟩ := h
    rfl
  | mcfg | mlat | surrogate => simp [hcode] at h

theorem check_starts (h : AtHead s c q o rest) {n : Nat} (hn : n ≠ 0) :
    s.check c q o 0 n = s.setCore c (withHead (s.core c) q { o with state := .claiming, total := n } rest) := by
  unfold State.check State.begin
  rw [if_pos rfl, if_neg hn, onHead_atHead h]

theorem check_empty : s.check c q o 0 0 = s.finish c q { o with benchSteps := false } := by
  unfold State.check State.begin
  rw [if_pos rfl, if_pos rfl]

theorem check_fails {err n : Nat} (herr : err ≠ 0) : s.check c q o err n = s.fail c q o err := if_neg herr

/-- The bits that R183 asks of a configuration word. -/
theorem mxcfgOk_iff (x : W64) : mxcfgOk x = true ↔ x.toNat / 2 ^ 48 = 0 ∧ x.toNat / 2 ^ 5 % 2 ^ 27 = 0 ∧
    (x.toNat / 2 ^ 32 % 2 ^ 16 = 0 ∨
      x.toNat / 2 ^ 32 % 2 ^ 16 % 128 = 0 ∧ 256 ≤ x.toNat / 2 ^ 32 % 2 ^ 16 ∧ x.toNat / 2 ^ 32 % 2 ^ 16 ≤ 32768) := by
  have hhigh : x.toNat / 2 ^ 48 % 2 ^ 16 = x.toNat / 2 ^ 48 := Nat.mod_eq_of_lt (Nat.div_lt_of_lt_mul x.isLt)
  unfold mxcfgOk fld
  simp only [hhigh, Bool.and_eq_true, Bool.or_eq_true, beq_iff_eq, decide_eq_true_eq, and_assoc]

theorem startOp_mcfg (hcode : o.code = .mcfg) : s.startOp c q o =
    if mxcfgOk o.o1 then (s.setCore c { s.core c with mxcfg := Sparse.set 0 (s.core c).mxcfg q o.o1 }).finish c q
      { o with steps := 1, benchSteps := true }
    else s.fail c q o 5 := by
  unfold State.startOp
  rw [hcode]

theorem startOp_mlat (h : AtHead s c q o rest) (hcode : o.code = .mlat) (hok : matrixErr (s.core c) c q (s.coreSet c) o = 0) :
    s.startOp c q o = s.setCore c (withHead (s.core c) q { o with state := .bench, total := 1 } rest) := by
  have hstart : s.startOp c q o = s.onHead c q fun o => { o with state := .bench, total := 1 } := by
    unfold State.startOp
    rw [hcode]
    exact if_pos hok
  rw [hstart, onHead_atHead h]

theorem startOp_surrogate (h : AtHead s c q o rest) (hcode : o.code = .surrogate) :
    s.startOp c q o = s.setCore c (withHead (s.core c) q { o with state := .claiming, total := 1 } rest) := by
  have hcheck : s.startOp c q o = s.check c q o 0 1 := by
    unfold State.startOp
    rw [hcode]
  rw [hcheck, check_starts h Nat.one_ne_zero]

end Start

/-- Settles O43: each operation starts as its case of `startOp` says, and completions are `Completed`. -/
theorem operationsStart : Obligations.OperationsStart := by
  unfold Obligations.OperationsStart
  refine ⟨?_, ?_, ?_, ?_⟩
  · intro s c q o rest err n w h hstart hof
    have hexec := operationStart_eq h hstart
    rw [startOp_check hof] at hexec
    refine ⟨?_, ?_, ?_⟩
    · rintro rfl hn
      rw [hexec, check_starts h hn]
    · rintro rfl rfl
      exact ⟨_, hexec, by rw [check_empty]; exact finish_atHead w h⟩
    · intro herr
      exact ⟨_, hexec, by rw [check_fails herr]; exact fail_atHead w h err⟩
  · intro s c q o rest w h hstart hcode ok
    have hexec := operationStart_eq h hstart
    rw [startOp_mcfg hcode] at hexec
    refine ⟨fun hok => ⟨_, hexec, ?_⟩, fun hno => ⟨_, hexec, ?_⟩⟩
    · rw [if_pos ((mxcfgOk_iff o.o1).mpr hok)]
      exact finish_setCore w h
    · rw [if_neg fun hok => hno ((mxcfgOk_iff o.o1).mp hok)]
      exact fail_atHead w h 5
  · intro s c q o rest w h hstart hcode hok
    rw [operationStart_eq h hstart, startOp_mlat h hcode hok]
  · intro s c q o rest w wo h hstart hcode
    rw [operationStart_eq h hstart, startOp_surrogate h hcode]

end Sys2Proof.Machine

/-! Proofs for spec/13 (field and bench) and spec/26 (retention): arbitration, step boundaries, removed units, banks and overhead stores. -/

namespace Sys2Proof.Machine

open Safety

/-! ### Units (R23, R264, R267) -/

section Units
variable {s : State} {cl : Nat} {kind : UnitKind}

/-- The lowest unit that is enabled, not to be removed, and held by no operation. -/
theorem freeUnit_lowest {u : Nat} (h : s.freeUnit cl kind = some u) :
    (s.maskOf cl).getLsbD ((kindBits kind).1 + u) = true ∧ s.unitHeld cl kind u = false ∧
      ∀ v, v < u → (s.maskOf cl).getLsbD ((kindBits kind).1 + v) = true →
        (s.pendingOf cl).getLsbD ((kindBits kind).1 + v) = true ∨ s.unitHeld cl kind v = true := by
  obtain ⟨hfree, -, hlower⟩ := List.find?_range_eq_some.mp h
  rw [Bool.and_eq_true, Bool.and_eq_true] at hfree
  obtain ⟨⟨hmask, -⟩, hheld⟩ := hfree
  refine ⟨hmask, by simpa using hheld, ?_⟩
  intro v hv henabled
  have hbusy : (!((s.maskOf cl).getLsbD ((kindBits kind).1 + v) && !(s.pendingOf cl).getLsbD ((kindBits kind).1 + v) &&
    !s.unitHeld cl kind v)) = true := hlower v hv
  rw [henabled] at hbusy
  simpa using hbusy

/-- Clearing the bits of some numbers. -/
theorem getLsbD_foldl_clear (l : List Nat) (m : BitVec 17) {i : Nat} (hi : i < 17) :
    (l.foldl (fun m i => m &&& ~~~(BitVec.shiftLeft 1 i)) m).getLsbD i = (m.getLsbD i && !decide (i ∈ l)) := by
  induction l generalizing m with
  | nil => simp
  | cons j l ih =>
    have hbit : (BitVec.shiftLeft (1 : BitVec 17) j).getLsbD i = decide (i = j) := by
      show ((1 : BitVec 17) <<< j).getLsbD i = _
      by_cases hij : i = j
      · subst hij
        simp [hi]
      · by_cases hlt : i < j
        · simp [hi, hlt, hij]
        · have hpos : i - j ≠ 0 := by omega
          simp [hi, hlt, hij, hpos]
    rw [List.foldl_cons, ih, BitVec.getLsbD_and, BitVec.getLsbD_not, hbit]
    by_cases hij : i = j
    · simp [hij]
    · simp [hi, hij]

theorem settleUnits_mask (wf : Sparse.wf (BitVec.allOnes 17) s.fieldmask = true) {i : Nat} (hi : i < 17) :
    ((s.settleUnits cl).maskOf cl).getLsbD i = ((s.maskOf cl).getLsbD i &&
      !((s.pendingOf cl).getLsbD i && !s.unitHeld cl (unitOfBit i).1 (unitOfBit i).2)) := by
  have hmask : (s.settleUnits cl).maskOf cl = ((List.range 17).filter fun i =>
      (s.pendingOf cl).getLsbD i && !s.unitHeld cl (unitOfBit i).1 (unitOfBit i).2).foldl
        (fun m i => m &&& ~~~(BitVec.shiftLeft 1 i)) (s.maskOf cl) := Sparse.get_set_same wf
  rw [hmask, getLsbD_foldl_clear _ _ hi]
  simp [List.mem_filter, hi]

theorem settleUnits_pending (wp : Sparse.wf 0 s.pendingMask = true) {i : Nat} (hi : i < 17) :
    ((s.settleUnits cl).pendingOf cl).getLsbD i =
      ((s.pendingOf cl).getLsbD i && s.unitHeld cl (unitOfBit i).1 (unitOfBit i).2) := by
  have hpending : (s.settleUnits cl).pendingOf cl = ((List.range 17).filter fun i =>
      (s.pendingOf cl).getLsbD i && !s.unitHeld cl (unitOfBit i).1 (unitOfBit i).2).foldl
        (fun m i => m &&& ~~~(BitVec.shiftLeft 1 i)) (s.pendingOf cl) := Sparse.get_set_same wp
  rw [hpending, getLsbD_foldl_clear _ _ hi]
  cases hp : (s.pendingOf cl).getLsbD i with
  | false => simp
  | true => simp [List.mem_filter, hi, hp]

/-- Units that system software removes go at once, or once their operation has left them (R269). -/
theorem fieldmaskRemove_removes (hb : s.markhor.booted = true) {i : Nat} (hi : i < 17) (m : BitVec 17)
    (wf : Sparse.wf (BitVec.allOnes 17) s.fieldmask = true) (wp : Sparse.wf 0 s.pendingMask = true) :
    let asked := (s.pendingOf cl).getLsbD i || (m.getLsbD i && (s.maskOf cl).getLsbD i)
    let held := s.unitHeld cl (unitOfBit i).1 (unitOfBit i).2
    ∃ t, exec (.fieldmaskRemove cl m) s = .next t ∧
      (t.maskOf cl).getLsbD i = ((s.maskOf cl).getLsbD i && !(asked && !held)) ∧ (t.pendingOf cl).getLsbD i = (asked && held) ∧
      { t with fieldmask := s.fieldmask, pendingMask := s.pendingMask } = s := by
  intro asked held
  let u : State := { s with pendingMask := Sparse.set 0 s.pendingMask cl (s.pendingOf cl ||| (m &&& s.maskOf cl)) }
  have hasked : (u.pendingOf cl).getLsbD i = asked := by
    have hget : u.pendingOf cl = (s.pendingOf cl ||| (m &&& s.maskOf cl)) := Sparse.get_set_same wp
    rw [hget, BitVec.getLsbD_or, BitVec.getLsbD_and]
  refine ⟨u.settleUnits cl, ?_, ?_, ?_, rfl⟩
  · show execFieldmaskRemove cl m s = _
    unfold execFieldmaskRemove
    rw [hb]
    rfl
  · rw [settleUnits_mask (s := u) wf hi, hasked]
    rfl
  · rw [settleUnits_pending (s := u) (Sparse.set_wf wp) hi, hasked]
    rfl

end Units

/-! ### Arbitration with one candidate (R267, R270) -/

section Arbitration
variable {s : State} {cl : Nat} {kind : UnitKind} {c q : Nat} {o : Op} {rest : List Op}

theorem unmark_none (h : ∀ x ∈ s.kindHeads cl kind, x.2.2.marked ≠ some (c, q)) : s.unmark cl kind c q = s := by
  unfold State.unmark
  generalize s.kindHeads cl kind = heads at h
  induction heads with
  | nil => rfl
  | cons x heads ih =>
    rw [List.foldl_cons, if_neg (h x List.mem_cons_self)]
    exact ih fun y hy => h y (List.mem_cons_of_mem _ hy)

/-- The arbitration of a cluster with one candidate. -/
theorem fieldArbitration_one (hone : (s.kindHeads cl kind).filter (fun x => x.2.2.candidate && s.engines x.1) = [(c, q, o)]) :
    exec (.fieldArbitration cl kind) s = .next (s.arbitrate cl kind 1000 [(c, q)]) := by
  show Host.Outcome.next (s.arbitration cl kind) = _
  unfold State.arbitration
  dsimp only
  rw [hone]
  rfl

variable (h : AtHead s c q o rest) (hmark : ∀ x ∈ s.kindHeads cl kind, x.2.2.marked ≠ some (c, q))
include h hmark

theorem arbitrate_free {u : Nat} (hu : s.freeUnit cl kind = some u) :
    s.arbitrate cl kind 1000 [(c, q)] = s.setCore c (withHead (s.core c) q (o.bindField u) rest) := by
  unfold State.arbitrate
  rw [unmark_none hmark]
  dsimp only
  rw [headOp_atHead h]
  dsimp only
  rw [hu]
  dsimp only
  rw [onHead_atHead h]
  rfl

theorem arbitrate_bench (hu : s.freeUnit cl kind = none) (hstate : o.state = .bench) :
    s.arbitrate cl kind 1000 [(c, q)] = s.setCore c (withHead (s.core c) q { o with stepEnded := false } rest) := by
  unfold State.arbitrate
  rw [unmark_none hmark]
  dsimp only
  rw [headOp_atHead h]
  dsimp only
  rw [hu]
  dsimp only
  rw [if_pos hstate, onHead_atHead h]
  rfl

theorem arbitrate_toBench (hu : s.freeUnit cl kind = none) (hstate : o.state = .claiming) (hvictim : s.victim cl kind c q = none) :
    s.arbitrate cl kind 1000 [(c, q)] = s.setCore c (withHead (s.core c) q { o with state := .bench } rest) := by
  have hnot : ¬ o.state = .bench := by rw [hstate]; decide
  unfold State.arbitrate
  rw [unmark_none hmark]
  dsimp only
  rw [headOp_atHead h]
  dsimp only
  rw [hu]
  dsimp only
  rw [if_neg hnot, hvictim]
  dsimp only
  rw [onHead_atHead h]
  rfl

theorem arbitrate_marks (hu : s.freeUnit cl kind = none) (hstate : o.state = .claiming) {vc vq : Nat} {p : Op} {more : List Op}
    (hvictim : s.victim cl kind c q = some (vc, vq, none)) (hv : AtHead s vc vq p more) :
    s.arbitrate cl kind 1000 [(c, q)] = s.setCore vc (withHead (s.core vc) vq { p with marked := some (c, q) } more) := by
  have hnot : ¬ o.state = .bench := by rw [hstate]; decide
  unfold State.arbitrate
  rw [unmark_none hmark]
  dsimp only
  rw [headOp_atHead h]
  dsimp only
  rw [hu]
  dsimp only
  rw [if_neg hnot, hvictim]
  dsimp only
  rw [onHead_atHead hv]
  rfl

end Arbitration

/-! ### Readers that wait no more (R254, R268) -/

section Readers
variable {s : State} {c q : Nat} {o : Op}

/-- The core without the waiting reader. -/
def withoutReader (who : Nat) (k : Core) : Core := { k with waiters := k.waiters.filter fun x => x.2 ≠ who }

theorem foldl_withoutReader_core (who : Nat) (l : List Nat) (w : CoresWf s) (d : Nat) :
    CoresWf (l.foldl (fun s t => s.onCore t (withoutReader who)) s) ∧
    (l.foldl (fun s t => s.onCore t (withoutReader who)) s).core d = if d ∈ l then withoutReader who (s.core d) else s.core d := by
  induction l generalizing s with
  | nil => exact ⟨w, rfl⟩
  | cons t l ih =>
    have hcore : (s.onCore t (withoutReader who)).core d = if d = t then withoutReader who (s.core t) else s.core d := State.core_onCore w d
    obtain ⟨hwf, htail⟩ := ih (s := s.onCore t (withoutReader who)) (State.setCore_coresWf w)
    refine ⟨hwf, ?_⟩
    rw [List.foldl_cons, htail, hcore]
    by_cases hd : d = t
    · subst hd
      by_cases hmem : d ∈ l
      · simp [withoutReader, hmem]
      · simp [hmem]
    · simp [hd]

theorem dropReader_wf (w : CoresWf s) : CoresWf (s.dropReader c q o) := (foldl_withoutReader_core (readerOp c q) _ w 0).1

theorem dropReader_core (w : CoresWf s) (d : Nat) : (s.dropReader c q o).core d =
    if d ∈ o.sources c then withoutReader (readerOp c q) (s.core d) else s.core d := (foldl_withoutReader_core (readerOp c q) _ w d).2

theorem dropReader_ops (w : CoresWf s) (d : Nat) : ((s.dropReader c q o).core d).ops = (s.core d).ops := by
  rw [dropReader_core w]
  split
  · rfl
  · rfl

theorem dropReader_others (w : CoresWf s) (d : Nat) :
    { (s.dropReader c q o).core d with ops := (s.core d).ops, waiters := (s.core d).waiters } = s.core d := by
  rw [dropReader_core w]
  split
  · rfl
  · rfl

theorem mem_waiters_dropReader (w : CoresWf s) (d : Nat) (x : Nat × Nat) : x ∈ ((s.dropReader c q o).core d).waiters ↔
    x ∈ (s.core d).waiters ∧ ¬ (d ∈ o.sources c ∧ x.2 = readerOp c q) := by
  rw [dropReader_core w]
  by_cases hd : d ∈ o.sources c
  · rw [if_pos hd]
    simp [withoutReader, List.mem_filter, hd]
  · rw [if_neg hd]
    simp [hd]

end Readers

/-! ### Step boundaries (R268 to R271) -/

section Boundary
variable {s : State} {c q : Nat} {o : Op} {rest : List Op}

theorem stepBoundary_eq (hlive : s.lively c = true) :
    exec (.stepBoundary c q) s = .next ((s.boundary c q).arbitration (clusterOf c) (queueKind q)) := by
  show execStepBoundary c q s = _
  unfold execStepBoundary
  rw [if_pos hlive]

/-- An operation stands at a boundary: behind a step, or before one that still waits for its operands or its claim. -/
def Op.standsHere (o : Op) : Bool :=
  (o.stepEnded || o.blocked || (o.code == .mma && !o.claimed)) && !o.performed && decide (o.next < o.total)

theorem standsHere_iff : o.standsHere = true ↔
    (o.stepEnded = true ∨ o.blocked = true ∨ o.code = .mma ∧ o.claimed = false) ∧ o.performed = false ∧ o.next < o.total := by
  unfold Op.standsHere
  simp only [Bool.and_eq_true, Bool.or_eq_true, beq_iff_eq, Bool.not_eq_true', decide_eq_true_eq, and_assoc, or_assoc]

/-- A marked operation, or one whose unit is to be removed, goes to its bench. -/
def State.goesToBench (s : State) (c q : Nat) (o : Op) : Bool :=
  o.marked.isSome || (s.pendingOf (clusterOf c)).getLsbD ((kindBits (queueKind q)).1 + o.unit)

theorem goesToBench_iff : s.goesToBench c q o = true ↔
    o.marked ≠ none ∨ (s.pendingOf (clusterOf c)).getLsbD ((kindBits (queueKind q)).1 + o.unit) = true := by
  unfold State.goesToBench
  rw [Bool.or_eq_true, Option.isSome_iff_ne_none]

/-- The operation that leaves its unit for its bench. -/
def leavesUnit (o : Op) : Op :=
  { o with state := .migrating, toField := false, demo := o.demo + 1, marked := none, fetched := [], idxLines := [] }

/-- What the boundary does, by the state of the operation. -/
theorem boundary_eq (h : AtHead s c q o rest) : s.boundary c q =
    match o.state with
    | .migrating => s.onHead c q fun o => { o with state := if o.toField then .field else .bench, stepEnded := false }
    | .claiming => if s.haltAsked c then s.parkOp c q o else s
    | .field =>
      if !o.standsHere then s
      else if s.haltAsked c then s.parkOp c q o
      else if s.goesToBench c q o then ((s.dropReader c q o).onHead c q leavesUnit).settleUnits (clusterOf c)
      else s.onHead c q fun o => { o with stepEnded := false }
    | .bench => if o.standsHere && s.haltAsked c then s.parkOp c q o else s
    | _ => s := by
  unfold State.boundary
  rw [headOp_atHead h]
  rfl

theorem atHead_dropReader (w : CoresWf s) (h : AtHead s c q o rest) (p : Op) : AtHead (s.dropReader c q p) c q o rest := by
  unfold AtHead
  rw [dropReader_ops w]
  exact h

theorem goesToBench_moves (w : CoresWf s) (wo : Sparse.wf [] (s.core c).ops = true) (h : AtHead s c q o rest) :
    let t := ((s.dropReader c q o).onHead c q leavesUnit).settleUnits (clusterOf c)
    AtHead t c q (leavesUnit o) rest ∧
      (∀ d, { t.core d with ops := (s.core d).ops, waiters := (s.core d).waiters } = s.core d) ∧ (∀ d, d ≠ c → (t.core d).ops = (s.core d).ops) ∧
      (∀ d x, x ∈ (t.core d).waiters ↔ x ∈ (s.core d).waiters ∧ ¬ (d ∈ o.sources c ∧ x.2 = readerOp c q)) := by
  have hdrop := atHead_dropReader w h o
  have wd : CoresWf (s.dropReader c q o) := dropReader_wf w
  have hcore : ∀ d, (((s.dropReader c q o).onHead c q leavesUnit).settleUnits (clusterOf c)).core d =
      if d = c then withHead ((s.dropReader c q o).core c) q (leavesUnit o) rest else (s.dropReader c q o).core d :=
    onHead_core wd hdrop leavesUnit
  refine ⟨?_, ?_, ?_, ?_⟩
  · exact atHead_onHead wd (by rw [dropReader_ops w]; exact wo) hdrop leavesUnit
  · intro d
    rw [hcore]
    split
    · next heq =>
      subst heq
      exact dropReader_others w d
    · exact dropReader_others w d
  · intro d hd
    rw [hcore, if_neg hd, dropReader_ops w]
  · intro d x
    rw [hcore]
    split
    · next heq =>
      subst heq
      exact mem_waiters_dropReader w d x
    · exact mem_waiters_dropReader w d x

/-! ### Parking (R271) -/

/-- The operation at the head, but for its claimant. -/
def HeadButMark (s : State) (c q : Nat) (o : Op) : Prop :=
  CoresWf s ∧ Sparse.wf [] (s.core c).ops = true ∧ ∃ p rest, AtHead s c q p rest ∧ { p with marked := none } = { o with marked := none }

theorem onHead_keepsHead (h : HeadButMark s c q o) (d p : Nat) : HeadButMark (s.onHead d p fun o => { o with marked := none }) c q o := by
  obtain ⟨w, wo, x, rest, hx, hmark⟩ := h
  cases hhead : Sparse.get [] (s.core d).ops p with
  | nil =>
    have hnone : (s.core d).headOp p = none := by
      unfold Core.headOp Core.opsOf
      rw [hhead, List.head?_nil]
    have hsame : ∀ e, (s.onHead d p fun o => { o with marked := none }).core e = s.core e := by
      intro e
      unfold State.onHead
      rw [State.core_onCore w]
      dsimp only
      rw [hnone]
      split
      · next heq => rw [heq]
      · rfl
    refine ⟨State.setCore_coresWf w, by rw [hsame]; exact wo, x, rest, ?_, hmark⟩
    unfold AtHead
    rw [hsame]
    exact hx
  | cons y more =>
    have hy : AtHead s d p y more := hhead
    have hcore := onHead_core w hy fun o => { o with marked := none }
    have wf : CoresWf (s.onHead d p fun o => { o with marked := none }) := State.setCore_coresWf w
    by_cases hd : c = d
    · subst hd
      have hops : ((s.onHead c p fun o => { o with marked := none }).core c).ops =
          Sparse.set [] (s.core c).ops p ({ y with marked := none } :: more) := by
        rw [hcore, if_pos rfl]
        rfl
      refine ⟨wf, by rw [hops]; exact Sparse.set_wf wo, ?_⟩
      by_cases hq : q = p
      · subst hq
        have heq : x :: rest = y :: more := hx.symm.trans hy
        obtain ⟨rfl, rfl⟩ := List.cons.inj heq
        refine ⟨{ x with marked := none }, rest, ?_, hmark⟩
        unfold AtHead
        rw [hops, Sparse.get_set_same wo]
      · refine ⟨x, rest, ?_, hmark⟩
        unfold AtHead
        rw [hops, Sparse.get_set wo, if_neg hq]
        exact hx
    · have hsame : (s.onHead d p fun o => { o with marked := none }).core c = s.core c := by rw [hcore, if_neg hd]
      refine ⟨wf, by rw [hsame]; exact wo, x, rest, ?_, hmark⟩
      unfold AtHead
      rw [hsame]
      exact hx

theorem unmark_keepsHead (cl : Nat) (kind : UnitKind) (d p : Nat) (h : HeadButMark s c q o) : HeadButMark (s.unmark cl kind d p) c q o := by
  unfold State.unmark
  generalize s.kindHeads cl kind = heads
  induction heads generalizing s with
  | nil => exact h
  | cons x heads ih =>
    refine ih ?_
    dsimp only
    split
    · exact onHead_keepsHead h _ _
    · exact h

theorem parkOp_parks (w : CoresWf s) (wo : Sparse.wf [] (s.core c).ops = true) (h : AtHead s c q o rest) :
    (Sparse.get [] ((s.parkOp c q o).core c).ops q).head? =
      some { o with state := .parked, marked := none, blocked := false, stepEnded := false, fetched := [], idxLines := [] } := by
  obtain ⟨wu, wuo, p, more, hp, hmark⟩ := unmark_keepsHead (clusterOf c) (queueKind q) c q
    (⟨w, wo, o, rest, h, rfl⟩ : HeadButMark s c q o)
  have hdrop := atHead_dropReader wu hp o
  have hpark := atHead_onHead (dropReader_wf (c := c) (q := q) (o := o) wu) (by rw [dropReader_ops wu]; exact wuo) hdrop fun o =>
    { o with state := .parked, marked := none, blocked := false, stepEnded := false, fetched := [], idxLines := [] }
  unfold AtHead at hpark
  have hcore : ((s.parkOp c q o).core c).ops = ((((s.unmark (clusterOf c) (queueKind q) c q).dropReader c q o).onHead c q fun o =>
    { o with state := .parked, marked := none, blocked := false, stepEnded := false, fetched := [], idxLines := [] }).core c).ops := rfl
  rw [hcore, hpark, List.head?_cons]
  have hparked := congrArg (fun x : Op =>
    { x with state := .parked, marked := none, blocked := false, stepEnded := false, fetched := [], idxLines := [] }) hmark
  exact congrArg some hparked

end Boundary

/-- Settles O44: the clauses are the lemmas on arbitration, boundaries, removed units and retention. -/
theorem operationsBind : Obligations.OperationsBind := by
  unfold Obligations.OperationsBind
  refine ⟨?_, ?_, fun s cl i m hb hi wf wp => fieldmaskRemove_removes hb hi m wf wp, ?_, fun s c b => rfl, ?_, fun s cl a => rfl⟩
  · intro s cl kind c q o rest h hone hmark
    rw [fieldArbitration_one hone]
    refine ⟨?_, ?_, ?_⟩
    · intro u hu
      refine ⟨freeUnit_lowest hu, ?_⟩
      rw [arbitrate_free h hmark hu]
      rfl
    · intro hu hstate
      rw [arbitrate_bench h hmark hu hstate]
    · intro hu hstate
      refine ⟨?_, ?_⟩
      · intro hvictim
        rw [arbitrate_toBench h hmark hu hstate hvictim]
      · intro vc vq p more hvictim hv
        rw [arbitrate_marks h hmark hu hstate hvictim hv]
  · intro s c q o rest w wo hlive h here after going
    rw [stepBoundary_eq hlive]
    have hboundary := boundary_eq h
    refine ⟨?_, ?_, ?_, ?_⟩
    · intro hstate
      rw [hstate] at hboundary
      rw [hboundary, onHead_atHead h]
    · intro hstate hhere hask hstays
      have hgoes : s.goesToBench c q o = false := by
        rw [Bool.eq_false_iff]
        exact fun hgo => hstays (goesToBench_iff.mp hgo)
      rw [hstate] at hboundary
      simp only [standsHere_iff.mpr hhere, hask, hgoes, Bool.not_true, Bool.false_eq_true, if_false] at hboundary
      rw [hboundary, onHead_atHead h]
    · intro hstate hhere hask hgoes
      rw [hstate] at hboundary
      simp only [standsHere_iff.mpr hhere, hask, goesToBench_iff.mpr hgoes, Bool.not_true, Bool.false_eq_true, if_false, if_true] at hboundary
      exact ⟨_, by rw [hboundary], goesToBench_moves w wo h⟩
    · intro hstate hask
      have hpark : s.boundary c q = s.parkOp c q o := by
        rw [hboundary]
        rcases hstate with hclaiming | ⟨hfield | hbench, hhere⟩
        · simp only [hclaiming, hask, if_true]
        · simp only [hfield, standsHere_iff.mpr hhere, hask, Bool.not_true, Bool.false_eq_true, if_false, if_true]
        · simp only [hbench, standsHere_iff.mpr hhere, hask, Bool.and_self, if_true]
      exact ⟨_, by rw [hpark], parkOp_parks w wo h⟩
  · intro s c b hbusy hidle
    have hrunning : ((s.core c).run == .running && !s.halted c && decide ((s.core c).halt ≠ .saved)) = false := by
      rcases hidle with hrun | hhalted | hsaved
      · simp [hrun]
      · simp [hhalted]
      · simp [hsaved]
    show execRetentionEntry (.bank c b) s = _
    unfold execRetentionEntry
    simp only [hbusy, Bool.false_or, hrunning, Bool.false_eq_true, if_false]
    rfl
  · intro s cl a hheld
    show execRetentionEntry (.overhead cl a) s = _
    unfold execRetentionEntry
    have hbusy : s.arrayBusy cl a = false := hheld
    simp only [hbusy, Bool.false_eq_true, if_false]
    rfl

end Sys2Proof.Machine

/-! Proofs for spec/18 (modules), spec/22 (weight blocks) and spec/27 (boot, attestation): loads, unloads, words of a block, the reset. -/

namespace Sys2Proof.Machine

open Safety

/-! ### What writing and reading memory leaves as it is -/

/-- A launch as it is but for an error pinned to it. -/
def unpinned (l : Launch) : Launch := { l with pinned := none }

/-- From `s` to `t` memory has been read and written: beside memory at most errors have been pinned to launches, contexts marked for
teardown, stacks lost and reported. -/
structure Stores (s t : State) : Prop where
  rest : { t with
    csm := s.csm, csmMarks := s.csmMarks, host := s.host, hbm := s.hbm, launches := s.launches, contexts := s.contexts
    markhor := s.markhor, windows := s.windows, ringHeld := s.ringHeld } = s
  launches : t.launches.map unpinned = s.launches.map unpinned

namespace Stores
variable {s t u : State}

theorem refl (s : State) : Stores s s := ⟨rfl, rfl⟩
theorem trans (a : Stores s t) (b : Stores t u) : Stores s u := by
  refine ⟨?_, b.launches.trans a.launches⟩
  have hstep := congrArg (fun x : State => { x with
    csm := s.csm, csmMarks := s.csmMarks, host := s.host, hbm := s.hbm, launches := s.launches, contexts := s.contexts
    markhor := s.markhor, windows := s.windows, ringHeld := s.ringHeld }) b.rest
  exact hstep.trans a.rest

theorem foldl {α : Type} (l : List α) {f : State → α → State} (hf : ∀ s x, Stores s (f s x)) (s : State) : Stores s (l.foldl f s) := by
  induction l generalizing s with
  | nil => exact refl s
  | cons x l ih => exact (hf s x).trans (ih _)

theorem cores (w : Stores s t) : t.cores = s.cores := by
  have hfield := congrArg State.cores w.rest
  exact hfield
theorem modules (w : Stores s t) : t.modules = s.modules := by
  have hfield := congrArg State.modules w.rest
  exact hfield
theorem handles (w : Stores s t) : t.handles = s.handles := by
  have hfield := congrArg State.handles w.rest
  exact hfield
theorem answers (w : Stores s t) : t.answers = s.answers := by
  have hfield := congrArg State.answers w.rest
  exact hfield
theorem grants (w : Stores s t) : t.grants = s.grants := by
  have hfield := congrArg State.grants w.rest
  exact hfield

theorem pin (id cause addr : Nat) (s : State) : Stores s (s.pin id cause addr) := by
  refine ⟨rfl, ?_⟩
  show (s.launches.map fun l => if l.id = id then (if l.pinned = none then { l with pinned := some (cause, addr) } else l) else l).map
    unpinned = _
  rw [List.map_map]
  refine List.map_congr_left fun l _ => ?_
  show unpinned (if l.id = id then _ else l) = unpinned l
  split
  · split
    · rfl
    · rfl
  · rfl

theorem onContext (asid : Nat) (f : Context → Context) (s : State) : Stores s (s.onContext asid f) := by
  unfold State.onContext
  split
  · exact refl s
  · exact ⟨rfl, rfl⟩

theorem tear (asid : Nat) (bad : List Nat) (s : State) : Stores s (s.tear asid bad) := by
  unfold State.tear
  split
  · exact refl s
  · exact onContext ..

theorem loseUnits (gone : Nat → Nat → Bool) (s : State) : Stores s (s.loseUnits gone) := by
  have hpins := foldl ((s.hbm.deltas.filter fun d => gone d.data d.sector).filter fun d => decide (d.core < numCores))
    (fun s d => pin d.launch causeNotDurable d.core s) s
  exact ⟨hpins.rest, hpins.launches⟩

theorem loseStack (stack : Nat) (s : State) : Stores s (s.loseStack stack) := by
  have hlost := loseUnits (fun st _ => st == stack) { s with
    hbm := { s.hbm with lost := s.hbm.lost ++ [stack] }
    windows := s.windows.filter fun w => w.target ≠ 256 + stack }
  refine ⟨?_, hlost.launches⟩
  have hrest := congrArg (fun x : State => { x with hbm := s.hbm, windows := s.windows }) hlost.rest
  exact hrest

theorem settleHbm (h : Hbm) (s : State) : Stores s (s.settleHbm h) := by
  have hset : ∀ m, Stores s { s with hbm := h, markhor := m } := fun m => ⟨rfl, rfl⟩
  unfold State.settleHbm
  refine (hset _).trans (foldl _ (fun s x => ?_) _)
  dsimp only
  split
  · exact (loseUnits ..).trans (loseStack ..)
  · exact loseUnits ..

theorem readPlace (asid : Nat) (p : Place) (n : Nat) (s : State) : Stores s (s.readPlace asid p n).2 := by
  cases p with
  | csm pa => exact refl s
  | host a => exact refl s
  | hbm pa key => exact (settleHbm ..).trans (tear ..)

theorem writePlace (asid core launch : Nat) (p : Place) (l : List Byte) (s : State) : Stores s (s.writePlace asid core launch p l) := by
  cases p with
  | csm pa => exact ⟨rfl, rfl⟩
  | host a => exact ⟨rfl, rfl⟩
  | hbm pa key => exact (settleHbm ..).trans (tear ..)

theorem fill (asid : Nat) (place : Nat → Place) (l : List Byte) (n off : Nat) (s : State) : Stores s (s.fill asid place l n off) := by
  induction n generalizing s off with
  | zero => exact refl s
  | succ n ih => exact (writePlace ..).trans (ih _ _)

theorem placeData (h : Hmo) (p : LoadPlan) (asid k : Nat) (kn : Kernel) (s : State) : Stores s (s.placeData h p asid k kn) := by
  refine foldl _ (fun s x => ?_) s
  dsimp only
  split
  · exact refl s
  · exact fill ..
  · exact refl s

theorem placeCode (h : Hmo) (p : LoadPlan) (asid k : Nat) (kn : Kernel) (kp : KernelPlan) (s : State) :
    Stores s (s.placeCode h p asid k kn kp) := by
  unfold State.placeCode
  split
  · exact refl s
  · exact fill ..

/-- The same of a fold that counts its steps. -/
theorem foldlSnd {α β : Type} (l : List α) {f : β × State → α → β × State} (hf : ∀ p x, Stores p.2 (f p x).2) (p : β × State) :
    Stores p.2 (l.foldl f p).2 := by
  induction l generalizing p with
  | nil => exact refl p.2
  | cons x l ih => exact (hf p x).trans (ih _)

end Stores

/-! ### Loads (R335 to R337) -/

section Loads
variable {s : State} {asid addr size : Nat} {plan : LoadPlan} {x : Context}

/-- The checks of a load in their order. -/
def loadChecks (cap : Nat) (f : List Byte) (keys : List (List Byte)) (p : LoadPlan) (ms : List Module) : List Bool :=
  [headerOk f, (hmoOf f).signed keys, (hmoOf f).sectionsOk, (hmoOf f).recordsOk, (hmoOf f).fits p.kernels, (hmoOf f).planOk cap p ms]

/-- A chain of six checks answers the number of the first that fails. -/
theorem firstFailing_eq : ∀ a b c d e f : Bool,
    (if !a then 1 else if !b then 2 else if !c then 3 else if !d then 4 else if !e then 5 else if !f then 6 else 0) =
      match [a, b, c, d, e, f].findIdx? (fun b => !b) with
      | some n => n + 1
      | none => 0 := by
  decide

/-- The code of a load is the number of the first check that fails. -/
theorem loadCode_eq (cap : Nat) (f : List Byte) (keys : List (List Byte)) (p : LoadPlan) (ms : List Module) : loadCode cap f keys p ms =
    match (loadChecks cap f keys p ms).findIdx? (fun b => !b) with
    | some n => n + 1
    | none => 0 := firstFailing_eq _ _ _ _ _ _

theorem moduleLoad_refused (hx : s.context? asid = some x) (hlive : x.live = true) {n : Nat}
    (hcheck : (loadChecks s.hbm.capacity (memBytes s.host addr size) x.keys plan s.modules).findIdx? (fun b => !b) = some n) :
    exec (.moduleLoad asid addr size plan) s = .next { s with answers := s.answers ++ [.refused (n + 1)] } := by
  have hcode : loadCode s.hbm.capacity (memBytes s.host addr size) x.keys plan s.modules = n + 1 := by rw [loadCode_eq, hcheck]
  show execModuleLoad asid addr size plan s = _
  unfold execModuleLoad
  simp only [hx, hlive, hcode, Bool.not_true, Bool.false_eq_true, if_false, ne_eq, Nat.succ_ne_zero, not_false_eq_true, if_true]
  rfl

/-- The state in which a module stands under its handle, before its memory is filled. -/
def State.withModule (s : State) (m : Module) : State := { s with modules := s.modules ++ [m], handles := s.handles + 1 }

theorem recordsOf_length {n size : Nat} {l : List Byte} (hsize : 0 < size) (h : l.length = size * n) : (recordsOf size l).length = n := by
  unfold recordsOf
  rw [List.length_map, List.length_range, h, Nat.mul_div_cancel_left n hsize]

/-- A module has as many kernels and regions as its file says. -/
theorem module_lengths {f : List Byte} {cap handle : Nat} {ms : List Module} (hrecords : (hmoOf f).recordsOk = true)
    (hplan : (hmoOf f).planOk cap plan ms = true) :
    ((hmoOf f).module plan handle asid).kernels.length = rd f 10 2 ∧ ((hmoOf f).module plan handle asid).regions.length = rd f 12 2 := by
  unfold Hmo.recordsOk at hrecords
  unfold Hmo.planOk at hplan
  simp only [Bool.and_eq_true] at hrecords hplan
  obtain ⟨⟨⟨⟨⟨-, happrox⟩, -⟩, -⟩, -⟩, -⟩ := hrecords
  obtain ⟨⟨⟨⟨-, hkernels⟩, -⟩, -⟩, -⟩ := hplan
  unfold Hmo.approxOk at happrox
  simp only [Bool.and_eq_true, beq_iff_eq] at happrox
  obtain ⟨hlength, -⟩ := happrox
  refine ⟨?_, ?_⟩
  · show (plan.kernels.mapIdx _).length = _
    rw [List.length_mapIdx]
    exact beq_iff_eq.mp hkernels
  · show ((recordsOf 128 ((hmoOf f).whole 9)).mapIdx _).length = _
    rw [List.length_mapIdx]
    exact recordsOf_length (by decide) hlength

theorem moduleLoad_loads (hx : s.context? asid = some x) (hlive : x.live = true)
    (hcheck : (loadChecks s.hbm.capacity (memBytes s.host addr size) x.keys plan s.modules).findIdx? (fun b => !b) = none) :
    ∃ t m, exec (.moduleLoad asid addr size plan) s = .next t ∧ t.modules = s.modules ++ [m] ∧
      m.handle = s.handles + 1 ∧ m.asid = asid ∧ m.kernels.length = rd (memBytes s.host addr size) 10 2 ∧
      m.regions.length = rd (memBytes s.host addr size) 12 2 ∧
      t.handles = s.handles + 1 ∧ t.answers = s.answers ++ [.handle (s.handles + 1)] ∧ t.cores = s.cores := by
  have hcode : loadCode s.hbm.capacity (memBytes s.host addr size) x.keys plan s.modules = 0 := by rw [loadCode_eq, hcheck]
  have hall : ∀ b ∈ loadChecks s.hbm.capacity (memBytes s.host addr size) x.keys plan s.modules, b = true := by
    intro b hb
    simpa using List.findIdx?_eq_none_iff.mp hcheck b hb
  generalize hf : memBytes s.host addr size = f at hcode hall ⊢
  have hrecords : (hmoOf f).recordsOk = true := hall _ (by simp [loadChecks])
  have hplan : (hmoOf f).planOk s.hbm.capacity plan s.modules = true := hall _ (by simp [loadChecks])
  obtain ⟨hkernels, hregions⟩ := module_lengths (asid := asid) (handle := s.handles + 1) hrecords hplan
  let m := (hmoOf f).module plan (s.handles + 1) asid
  have hstores := Stores.foldlSnd (m.kernels.zip plan.kernels) (f := fun (a : Nat × State) x =>
    (a.1 + 1, (a.2.placeData (hmoOf f) plan asid a.1 x.1).placeCode (hmoOf f) plan asid a.1 x.1 x.2))
    (fun p x => (Stores.placeData ..).trans (Stores.placeCode ..)) (0, s.withModule m)
  refine ⟨State.reply _ (.handle (s.handles + 1)), m, ?_, hstores.modules, rfl, rfl, hkernels, hregions, hstores.handles,
    congrArg (fun l => l ++ [Answer.handle (s.handles + 1)]) hstores.answers, hstores.cores⟩
  show execModuleLoad asid addr size plan s = _
  unfold execModuleLoad
  simp only [hx, hlive, hf, hcode, Bool.not_true, Bool.false_eq_true, if_false, ne_eq, not_true_eq_false]
  rfl

end Loads

/-! ### Unloads (R338, R434) -/

section Unloads
variable {s : State} {handle : Nat} {m : Module}

theorem tornDown_of_module (hm : s.module? handle = some m) : s.tornDown handle = ((s.context? m.asid).bind (·.tearing)).isSome := by
  unfold State.tornDown
  rw [hm]
  rfl

theorem moduleUnload_unloads (hm : s.module? handle = some m) (hb : s.markhor.booted = true) (huse : s.inUse handle = false)
    (hstands : ∀ x, s.context? m.asid = some x → x.tearing = none) :
    ∃ t, exec (.moduleUnload handle) s = .next t ∧ t.modules = s.modules.filter (fun m => m.handle ≠ handle) ∧
      t.answers = s.answers ++ [.ok] ∧ t.cores = s.cores ∧ t.csm = s.csm ∧ t.hbm = s.hbm ∧ t.host = s.host := by
  have htorn : s.tornDown handle = false := by
    rw [tornDown_of_module hm]
    cases hx : s.context? m.asid with
    | none => rfl
    | some x => exact congrArg Option.isSome (hstands x hx)
  have hok : ((s.module? handle).isSome && !s.inUse handle && !s.tornDown handle) = true := by
    rw [hm, huse, htorn]
    rfl
  exact ⟨_, congrArg Host.Outcome.next (command_done hb hok), rfl, rfl, rfl, rfl, rfl, rfl⟩

theorem command_refuses {t : State} {ok : Bool} (hok : ok = false) : s.command ok t = { s with answers := s.answers ++ [.refused 1] } := by
  unfold State.command
  rw [hok, Bool.and_false, if_neg Bool.false_ne_true]
  rfl

theorem moduleUnload_refused (hm : s.module? handle = some m)
    (hkept : s.inUse handle = true ∨ (∃ x, s.context? m.asid = some x ∧ x.tearing ≠ none)) :
    exec (.moduleUnload handle) s = .next { s with answers := s.answers ++ [.refused 1] } := by
  have hno : ((s.module? handle).isSome && !s.inUse handle && !s.tornDown handle) = false := by
    rcases hkept with huse | ⟨x, hx, htearing⟩
    · rw [huse, Bool.not_true, Bool.and_false, Bool.false_and]
    · have htorn : s.tornDown handle = true := by
        rw [tornDown_of_module hm, hx]
        exact Option.isSome_iff_ne_none.mpr htearing
      rw [htorn, Bool.not_true, Bool.and_false]
  exact congrArg Host.Outcome.next (command_refuses hno)

end Unloads

/-! ### Words of a weight block (R385, R386) -/

section Blocks
variable {s : State} {handle r off : Nat} {m : Module} {x : Region}

theorem weightBlock_eq (hm : s.module? handle = some m) (hx : m.regions[r]? = some x) (write : Option W64) :
    exec (.weightBlockAccess handle r off write) s =
      if s.running handle ∨ off % 8 ≠ 0 ∨ 32768 ≤ off then .next s.refuse
      else match write with
        | none => .next (s.reply (.value (BitVec.ofNat 64 (x.word64 off))))
        | some v =>
          .next ((s.onRegion handle r fun x => x.setWord off 8 (blockWord r off (x.word64 off) v)).reply .ok) := by
  have hregion : (s.module? handle).bind (fun m => m.regions[r]?) = some x := by
    rw [hm]
    exact hx
  show execWeightBlockAccess handle r off write s = _
  unfold execWeightBlockAccess
  simp only [hregion] <;> rfl

theorem weightBlock_open (hrunning : s.running handle = false) (halign : off % 8 = 0) (hoff : off < 32768) :
    ¬ (s.running handle = true ∨ off % 8 ≠ 0 ∨ 32768 ≤ off) := by
  rw [hrunning]
  rintro (h | h | h)
  · exact Bool.false_ne_true h
  · exact h halign
  · omega

theorem module?_onRegion (hm : s.module? handle = some m) (f : Region → Region) :
    (s.onRegion handle r f).module? handle = some { m with regions := m.regions.mapIdx fun i x => if i = r then f x else x } := by
  have hhandle : m.handle = handle := by simpa using List.find?_some hm
  have hmap : ∀ l : List Module, l.find? (·.handle == handle) = some m →
      (l.map fun m => if m.handle = handle then { m with regions := m.regions.mapIdx fun i x => if i = r then f x else x } else m).find?
        (·.handle == handle) = some { m with regions := m.regions.mapIdx fun i x => if i = r then f x else x } := by
    intro l
    induction l with
    | nil => exact fun h => absurd h (by simp)
    | cons y l ih =>
      intro h
      by_cases hy : y.handle = handle
      · rw [List.find?_cons_of_pos (by simpa using hy)] at h
        cases h
        rw [List.map_cons, if_pos hy, List.find?_cons_of_pos (by simpa using hy)]
      · rw [List.find?_cons_of_neg (by simpa using hy)] at h
        rw [List.map_cons, if_neg hy, List.find?_cons_of_neg (by simpa using hy)]
        exact ih h
  exact hmap s.modules hm

/-- The word that a write of system software leaves (R386). -/
theorem blockWord_eq (halign : off % 8 = 0) (old : Nat) (v : W64) :
    blockWord r off old v =
      if off = 0 then v.toNat / 2 ^ 32 * 2 ^ 32 + min (v.toNat / 2 ^ 8 % 8) 4 * 2 ^ 8 + r
      else if off = 8 then v.toNat / 2 ^ 32 * 2 ^ 32 + v.toNat / 2 ^ 16 % 2 ^ 13 * 2 ^ 16 + v.toNat % 2 ^ 5
      else if off = 0x10 then v.toNat / 2 ^ 32 * 2 ^ 32 + old % 2 ^ 32
      else if 0x18 ≤ off ∧ off < 0x40 ∨ 0x80 ≤ off ∧ off < 0x100 ∨ 0x3800 ≤ off then old else v.toNat := by
  unfold blockWord
  by_cases h0 : off = 0
  · rw [if_pos h0, if_pos h0]
  by_cases h8 : off = 8
  · rw [if_neg h0, if_neg h0, if_pos h8, if_pos h8]
  by_cases h16 : off = 0x10
  · rw [if_neg h0, if_neg h0, if_neg h8, if_neg h8, if_pos h16, if_pos h16]
  rw [if_neg h0, if_neg h0, if_neg h8, if_neg h8, if_neg h16, if_neg h16]
  refine ite_congr (propext ?_) (fun _ => rfl) fun _ => rfl
  simp only [Bool.or_eq_true, Bool.and_eq_true, decide_eq_true_eq]
  omega

theorem setWord_get (w : Memory.wf x.block = true) (v a : Nat) : Sparse.get 0 (x.setWord off 8 v).block a =
    if off ≤ a ∧ a < off + 8 then BitVec.ofNat 8 (v / 2 ^ (8 * (a - off))) else Sparse.get 0 x.block a := by
  show Sparse.get 0 (putMem x.block off (leBytes v 8)) a = _
  rw [get_putMem w, leBytes_length]
  by_cases h : off ≤ a ∧ a < off + 8
  · rw [if_pos h, if_pos h, leBytes_getD (by omega)]
  · rw [if_neg h, if_neg h]

theorem getElem?_mapIdx_at {f : Region → Region} (hx : m.regions[r]? = some x) :
    (m.regions.mapIdx fun i x => if i = r then f x else x)[r]? = some (f x) := by
  rw [List.getElem?_mapIdx, hx]
  simp

end Blocks

/-! ### The reset of the package (R441 to R445) -/

section Reset

theorem retire_worked (h : Hbm) : Hbm.Worked h h.retire := by
  unfold Hbm.retire
  exact Hbm.Worked.foldl _ (fun h a => Hbm.Worked.poison ..) h

/-- Reports of lost stacks change nothing else. -/
theorem foldl_postSystem (l : List Nat) (s : State) : { l.foldl (fun s _ => s.postSystem 6 0 0 0) s with ringHeld := s.ringHeld } = s := by
  induction l generalizing s with
  | nil => rfl
  | cons x l ih =>
    have hstep := congrArg (fun y : State => { y with ringHeld := s.ringHeld }) (ih (s.postSystem 6 0 0 0))
    exact hstep

theorem block_none {m : Markhor} {kind : Nat} (h : ∀ b ∈ m.blocks, b.kind ≠ kind) : m.bodyOf kind = none := by
  have hblock : m.block kind = none := by
    unfold Markhor.block
    have hempty : (m.blocks.filter fun b => b.kind == kind && m.accepts b) = [] := by
      rw [List.filter_eq_nil_iff]
      intro b hb hand
      exact h b hb (by simpa using (Bool.and_eq_true_iff.mp hand).1)
    rw [hempty]
    rfl
  unfold Markhor.bodyOf Markhor.appliedBlock
  rw [hblock]
  rfl

/-- The state of a package that has been reset, its firmware not verified. -/
def State.cleared (s : State) : State := { State.reset with host := s.host, choice := s.choice }

theorem packageReset_fails {s : State} (h : s.markhor.kept.firmwareOk = false) :
    exec .packageReset s = .next { s.cleared with markhor := { s.markhor.kept with failedStep := 1 } } := by
  show execPackageReset s = _
  unfold execPackageReset
  dsimp only
  rw [h]
  rfl

theorem packageReset_boots {s : State} (h : s.markhor.kept.firmwareOk = true) : exec .packageReset s =
    .next (s.markhor.kept.identify.configure.memory.lost.foldl (fun s _ => s.postSystem 6 0 0 0)
      { s.cleared with
        markhor := { s.markhor.kept.identify.configure with booted := true, failedStep := s.markhor.kept.identify.configure.firstFailure }
        hbm := s.markhor.kept.identify.configure.memory.retire
        fieldmask := masksOf (s.markhor.kept.identify.configure.bodyOf 1) }) := by
  show execPackageReset s = _
  unfold execPackageReset
  dsimp only
  rw [h]
  rfl

end Reset

/-- Settles O55: the clauses are the lemmas on loads, unloads, weight blocks, the reset and reports. -/
theorem modulesAndPackage : Obligations.ModulesAndPackage := by
  unfold Obligations.ModulesAndPackage
  refine ⟨?_, fun s handle m hm hb huse hstands => moduleUnload_unloads hm hb huse hstands,
    fun s handle m hm hkept => moduleUnload_refused hm hkept, ?_, ?_, ?_⟩
  · intro s asid addr size plan x hx hlive f h checks
    have hchecks : checks = loadChecks s.hbm.capacity f x.keys plan s.modules := rfl
    rw [hchecks]
    split
    · next n hcheck => exact moduleLoad_refused hx hlive hcheck
    · next hcheck => exact moduleLoad_loads hx hlive hcheck
  · intro s handle r off m x hm hx halign hoff
    refine ⟨?_, ?_, ?_⟩
    · intro hrunning w
      rw [weightBlock_eq hm hx, if_pos (.inl hrunning)]
      rfl
    · intro hrunning
      rw [weightBlock_eq hm hx, if_neg (weightBlock_open hrunning halign hoff)]
      rfl
    · intro hrunning w v word old kept high new
      have hnew : blockWord r off (x.word64 off) v = new := blockWord_eq halign _ v
      refine ⟨(s.onRegion handle r fun x => x.setWord off 8 (blockWord r off (x.word64 off) v)).reply .ok, _, x.setWord off 8 new, ?_,
        module?_onRegion (r := r) hm fun x => x.setWord off 8 (blockWord r off (x.word64 off) v), ?_,
        setWord_get w new, ?_⟩
      · rw [weightBlock_eq hm hx, if_neg (weightBlock_open hrunning halign hoff)]
      · rw [← hnew]
        exact getElem?_mapIdx_at hx
      · rfl
  · intro s
    by_cases hfirmware : s.markhor.kept.firmwareOk = true
    · have hpost := foldl_postSystem s.markhor.kept.identify.configure.memory.lost { s.cleared with
        markhor := { s.markhor.kept.identify.configure with booted := true, failedStep := s.markhor.kept.identify.configure.firstFailure }
        hbm := s.markhor.kept.identify.configure.memory.retire
        fieldmask := masksOf (s.markhor.kept.identify.configure.bodyOf 1) }
      refine ⟨_, packageReset_boots hfirmware, ?_⟩
      generalize s.markhor.kept.identify.configure.memory.lost.foldl _ _ = t at hpost ⊢
      have hmarkhor : t.markhor = { s.markhor.kept.identify.configure with
          booted := true, failedStep := s.markhor.kept.identify.configure.firstFailure } := by
        have hfield := congrArg State.markhor hpost
        exact hfield
      have hhbm : t.hbm = s.markhor.kept.identify.configure.memory.retire := by
        have hfield := congrArg State.hbm hpost
        exact hfield
      have hverified : ed448Verify Config.vendorKey (digest64 s.markhor.firmware) s.markhor.firmwareSig = true := hfirmware
      rw [if_pos hverified, hmarkhor, hhbm]
      refine ⟨rfl, rfl, rfl, (retire_worked _).lost, ?_, ?_⟩
      · intro hkinds
        have hnone : s.markhor.kept.identify.bodyOf 2 = none := block_none hkinds
        show budgetsOf (s.markhor.kept.identify.bodyOf 2) = _
        rw [hnone]
        rfl
      · have hrest := congrArg (fun y : State => { y with markhor := Markhor.reset, hbm := Hbm.reset, fieldmask := [], ringHeld := [] }) hpost
        exact hrest
    · have hfails : s.markhor.kept.firmwareOk = false := by simpa using hfirmware
      have hverified : ¬ ed448Verify Config.vendorKey (digest64 s.markhor.firmware) s.markhor.firmwareSig = true := hfirmware
      refine ⟨_, packageReset_fails hfails, ?_⟩
      rw [if_neg hverified]
      exact ⟨rfl, rfl, rfl, rfl⟩
  · intro s nonce
    refine ⟨?_, ?_⟩
    · intro hnone
      show execAttestationRequest nonce s = _
      unfold execAttestationRequest
      rw [hnone]
      rfl
    · intro key hkey hb r
      show execAttestationRequest nonce s = _
      unfold execAttestationRequest
      rw [hkey]
      exact congrArg Host.Outcome.next (command_done hb rfl)

end Sys2Proof.Machine

/-! Proofs for spec/25 and spec/26 (lost stacks, re-striping, scrub, keys). -/

namespace Sys2Proof.Machine

open Safety

/-! ### Lost units and stacks (R420, R422) -/

/-- From `s` to `t` units of stacked memory have been lost: what is barred is so still, and beside stacked memory errors have been pinned,
windows dropped and events reported. -/
structure Loses (s t : State) : Prop where
  rest : { t with hbm := s.hbm, launches := s.launches, windows := s.windows, ringHeld := s.ringHeld } = s
  barred : (t.hbm.quarantined, t.hbm.retired) = (s.hbm.quarantined, s.hbm.retired)

namespace Loses
variable {s t u : State}

theorem refl (s : State) : Loses s s := ⟨rfl, rfl⟩
theorem trans (a : Loses s t) (b : Loses t u) : Loses s u := by
  refine ⟨?_, b.barred.trans a.barred⟩
  have hstep := congrArg (fun x : State => { x with
    hbm := s.hbm, launches := s.launches, windows := s.windows, ringHeld := s.ringHeld }) b.rest
  exact hstep.trans a.rest

theorem foldl {α : Type} (l : List α) {f : State → α → State} (hf : ∀ s x, Loses s (f s x)) (s : State) : Loses s (l.foldl f s) := by
  induction l generalizing s with
  | nil => exact refl s
  | cons x l ih => exact (hf s x).trans (ih _)

theorem csm (w : Loses s t) : t.csm = s.csm := by
  have hfield := congrArg State.csm w.rest
  exact hfield
theorem quarantined (w : Loses s t) : t.hbm.quarantined = s.hbm.quarantined := congrArg Prod.fst w.barred
theorem retired (w : Loses s t) : t.hbm.retired = s.hbm.retired := congrArg Prod.snd w.barred

theorem loseUnits (gone : Nat → Nat → Bool) (s : State) : Loses s (s.loseUnits gone) := by
  have hpins := foldl ((s.hbm.deltas.filter fun d => gone d.data d.sector).filter fun d => decide (d.core < numCores))
    (f := fun s d => s.pin d.launch causeNotDurable d.core) (fun s x => ⟨rfl, rfl⟩) s
  exact ⟨hpins.rest, hpins.barred⟩

theorem loseStack (stack : Nat) (s : State) : Loses s (s.loseStack stack) := by
  have hlost := loseUnits (fun st _ => st == stack) { s with
    hbm := { s.hbm with lost := s.hbm.lost ++ [stack] }
    windows := s.windows.filter fun w => w.target ≠ 256 + stack }
  refine ⟨?_, hlost.barred⟩
  have hrest := congrArg (fun x : State => { x with hbm := s.hbm, windows := s.windows, ringHeld := s.ringHeld }) hlost.rest
  exact hrest

theorem settleHbm (h : Hbm) (s : State) : ∃ m, Loses { s with hbm := h, markhor := m } (s.settleHbm h) := by
  refine ⟨_, foldl _ (fun s x => ?_) _⟩
  dsimp only
  split
  · exact (loseUnits ..).trans (loseStack ..)
  · exact loseUnits ..

end Loses

section Stacks
variable {s : State} {stack : Nat}

theorem settleHbm_csm (h : Hbm) : (s.settleHbm h).csm = s.csm := by
  obtain ⟨m, hloses⟩ := Loses.settleHbm h s
  exact hloses.csm
theorem settleHbm_quarantined (h : Hbm) : (s.settleHbm h).hbm.quarantined = h.quarantined := by
  obtain ⟨m, hloses⟩ := Loses.settleHbm h s
  exact hloses.quarantined
theorem settleHbm_retired (h : Hbm) : (s.settleHbm h).hbm.retired = h.retired := by
  obtain ⟨m, hloses⟩ := Loses.settleHbm h s
  exact hloses.retired
/-- With no lane remapped and no channel failed the stacked memory is all that changes. -/
theorem settleHbm_quiet {h : Hbm} (hlanes : h.lanes = s.hbm.lanes) (hfailed : h.failed = s.hbm.failed) :
    s.settleHbm h = { s with hbm := h } := by
  unfold State.settleHbm
  rw [if_pos hlanes, hfailed, List.drop_length]
  rfl

theorem postRing_unregistered (h : s.ring = none) : s.postRing = s := by
  unfold State.postRing
  cases s.ringHeld with
  | nil => rfl
  | cons x l =>
    show s.drainRing (l.length + 1) = s
    unfold State.drainRing
    rw [h]

theorem writeRecord_csm (s : State) (r : Ring) (x : W64 × W64) : (s.writeRecord r x).csm = s.csm := by
  unfold State.writeRecord
  dsimp only
theorem writeRecord_hbm (s : State) (r : Ring) (x : W64 × W64) : (s.writeRecord r x).hbm = s.hbm := by
  unfold State.writeRecord
  dsimp only
/-- Posting records leaves chip shared memory and stacked memory as they are. -/
theorem drainRing_memory (n : Nat) (s : State) : (s.drainRing n).csm = s.csm ∧ (s.drainRing n).hbm = s.hbm := by
  induction n generalizing s with
  | zero => exact ⟨rfl, rfl⟩
  | succ n ih =>
    rw [State.drainRing]
    split
    · next r x rest hring hheld =>
      split
      · obtain ⟨hcsm, hhbm⟩ := ih { s.writeRecord r x with ring := some r.counted, ringHeld := rest }
        rw [hcsm, hhbm]
        dsimp only
        exact ⟨writeRecord_csm s r x, writeRecord_hbm s r x⟩
      · exact ⟨rfl, rfl⟩
    · exact ⟨rfl, rfl⟩

theorem launch?_onLaunch {id : Nat} {f : Launch → Launch} {l : Launch} (hf : ∀ l, (f l).id = l.id) (hl : s.launch? id = some l) :
    (s.onLaunch id f).launch? id = some (f l) := by
  have hsame : ((·.id == id) ∘ fun l => if l.id = id then f l else l) = fun l : Launch => l.id == id := by
    funext l
    show ((if l.id = id then f l else l).id == id) = _
    split
    · rw [hf]
    · rfl
  show (s.launches.map fun l => if l.id = id then f l else l).find? (·.id == id) = _
  rw [List.find?_map, hsame]
  show (s.launch? id).map _ = _
  rw [hl]
  show some (if l.id = id then f l else l) = _
  rw [if_pos (launch?_id hl)]

theorem launch?_pin {id cause addr : Nat} {l : Launch} (hl : s.launch? id = some l) (hpinned : l.pinned = none) :
    (s.pin id cause addr).launch? id = some { l with pinned := some (cause, addr) } := by
  have hid : ∀ l : Launch, (if l.pinned = none then { l with pinned := some (cause, addr) } else l).id = l.id := by
    intro l
    split <;> rfl
  have hfound := launch?_onLaunch (f := fun l => if l.pinned = none then { l with pinned := some (cause, addr) } else l) hid hl
  rw [if_pos hpinned] at hfound
  exact hfound

theorem stackLost_known (h : stack ∈ s.hbm.lost) : exec (.stackLost stack) s = .next s := by
  show execStackLost stack s = _
  unfold execStackLost
  rw [if_pos (List.contains_iff_mem.mpr h)]

/-- The state behind the loss of a stack, its report not yet posted. -/
def State.stackGone (s : State) (stack : Nat) : State :=
  ({ s with markhor := { s.markhor with stackHealth := s.markhor.stackHealth.set stack false } } : State).loseStack stack

theorem stackLost_loses (h : stack ∉ s.hbm.lost) (hring : s.ring = none) : exec (.stackLost stack) s = .next (s.stackGone stack) := by
  have hrest := (Loses.loseStack stack { s with markhor := { s.markhor with stackHealth := s.markhor.stackHealth.set stack false } }).rest
  have hnone : (s.stackGone stack).ring = none := by
    have hfield := congrArg State.ring hrest
    exact hfield.trans hring
  show execStackLost stack s = _
  unfold execStackLost
  rw [if_neg (fun hc => h (List.contains_iff_mem.mp hc))]
  exact congrArg Host.Outcome.next (postRing_unregistered hnone)

/-- A loss that cuts no write of a core pins nothing. -/
theorem stackGone_unpinned {listed : List Nat} (hcores : ∀ d ∈ s.hbm.deltas, d.data = stack → numCores ≤ d.core)
    (hlisted : (s.hbm.deltas.filter fun d => d.data == stack).map (·.pa) = listed) : s.stackGone stack = { s with
      hbm := { s.hbm with
        lost := s.hbm.lost ++ [stack]
        deltas := s.hbm.deltas.filter fun d => !(d.data == stack) && !(d.stack == stack)
        listed := s.hbm.listed ++ listed }
      markhor := { s.markhor with stackHealth := s.markhor.stackHealth.set stack false }
      windows := s.windows.filter fun w => w.target ≠ 256 + stack
      ringHeld := s.ringHeld ++ [(BitVec.ofNat 64 (6 * 2 ^ 60), 0)] } := by
  have hcut : ∀ d ∈ s.hbm.deltas.filter fun d => d.data == stack, numCores ≤ d.core := by
    intro d hd
    obtain ⟨hmem, hdata⟩ := List.mem_filter.mp hd
    exact hcores d hmem (beq_iff_eq.mp hdata)
  have hnone : ((s.hbm.deltas.filter fun d => d.data == stack).filter fun d => decide (d.core < numCores)) = [] := by
    rw [List.filter_eq_nil_iff]
    intro d hd
    simpa using hcut d hd
  have hall : ((s.hbm.deltas.filter fun d => d.data == stack).filter fun d => decide (numCores ≤ d.core)) =
      s.hbm.deltas.filter fun d => d.data == stack := by
    rw [List.filter_eq_self]
    intro d hd
    simpa using hcut d hd
  unfold State.stackGone State.loseStack State.loseUnits
  dsimp only
  rw [hnone, hall, hlisted]
  rfl

/-- A loss that cuts a single write of a core pins its launch. -/
theorem stackGone_pins {d : Delta} {l : Launch} (hdeltas : s.hbm.deltas = [d]) (hdata : d.data = stack) (hcore : d.core < numCores)
    (hl : s.launch? d.launch = some l) (hpinned : l.pinned = none) :
    (s.stackGone stack).launch? d.launch = some { l with pinned := some (causeNotDurable, d.core) } ∧
      (s.stackGone stack).hbm = { s.hbm with lost := s.hbm.lost ++ [stack], deltas := [] } := by
  have hcut : (s.hbm.deltas.filter fun d => d.data == stack) = [d] := by
    rw [hdeltas]
    simp [hdata]
  have hpins : ([d].filter fun d => decide (d.core < numCores)) = [d] := by simp [hcore]
  have hlist : ([d].filter fun d => decide (numCores ≤ d.core)) = [] := by simp [hcore]
  have hleft : (s.hbm.deltas.filter fun d => !(d.data == stack) && !(d.stack == stack)) = [] := by
    rw [hdeltas]
    simp [hdata]
  unfold State.stackGone State.loseStack State.loseUnits
  dsimp only
  rw [hcut, hpins, hlist, List.map_nil]
  refine ⟨?_, ?_⟩
  · show State.launch? (s.pin d.launch causeNotDurable d.core) d.launch = _
    exact launch?_pin hl hpinned
  · show ({ s.hbm with
      lost := s.hbm.lost ++ [stack]
      deltas := s.hbm.deltas.filter fun d => !(d.data == stack) && !(d.stack == stack)
      listed := s.hbm.listed ++ [] } : Hbm) = _
    rw [hleft, List.append_nil]

end Stacks

/-! ### Marks that are mended -/

/-- Entries set to the default read as it. -/
theorem Sparse.get_foldl_cleared {α : Type} [DecidableEq α] {d : α} {f : Nat → Nat} (l : List Nat) {m : Sparse α} (w : Sparse.wf d m = true)
    (n : Nat) (h : Sparse.get d m n = d ∨ n ∈ l.map f) : Sparse.get d (l.foldl (fun m i => Sparse.set d m (f i) d) m) n = d := by
  induction l generalizing m with
  | nil => simpa using h
  | cons i l ih =>
    refine ih (Sparse.set_wf w) ?_
    by_cases hi : n = f i
    · left
      rw [hi, Sparse.get_set_same w]
    · rw [Sparse.get_set w, if_neg (by simpa [eq_comm] using hi)]
      rcases h with h | h
      · exact .inl h
      · rw [List.map_cons, List.mem_cons] at h
        exact .inr (h.resolve_left hi)

theorem putCsm_mends {s : State} {a n i : Nat} (w : Sparse.wf false s.csmMarks = true) (l : List Byte) (ha : a % 8 = 0)
    (hl : l.length = 8 * n) (hi : i < n) : Sparse.get false (s.putCsm a l).csmMarks (a / 8 + i) = false := by
  show Sparse.get false (if s.csmMarks.isEmpty = true then [] else _) _ = false
  split
  · rfl
  · refine Sparse.get_foldl_cleared _ w _ (.inr ?_)
    rw [List.mem_map]
    exact ⟨i, List.mem_range.mpr (by omega), by omega⟩

/-! ### Stacked memory without errors on the bus -/

/-- While no transfer meets an error no lane is remapped and no channel fails. -/
structure Hbm.Quiet (h h' : Hbm) : Prop where
  fixed : h.bus = [] → h'.bus = [] ∧ h'.lanes = h.lanes ∧ h'.failed = h.failed

namespace Hbm.Quiet
variable {h h' h'' : Hbm}

theorem refl (h : Hbm) : Quiet h h := ⟨fun hbus => ⟨hbus, rfl, rfl⟩⟩
theorem trans (a : Quiet h h') (b : Quiet h' h'') : Quiet h h'' := by
  refine ⟨fun hbus => ?_⟩
  obtain ⟨hbus', hlanes, hfailed⟩ := a.fixed hbus
  obtain ⟨hbus'', hlanes', hfailed'⟩ := b.fixed hbus'
  exact ⟨hbus'', hlanes'.trans hlanes, hfailed'.trans hfailed⟩
theorem of_eq (hbus : h'.bus = h.bus) (hlanes : h'.lanes = h.lanes) (hfailed : h'.failed = h.failed) : Quiet h h' :=
  ⟨fun hnone => ⟨hbus.trans hnone, hlanes, hfailed⟩⟩

theorem atCursor (c : Option Nat) (h : Hbm) : Quiet h { h with cursor := c } := of_eq rfl rfl rfl

theorem foldl {α : Type} (l : List α) {f : Hbm → α → Hbm} (hf : ∀ h x, Quiet h (f h x)) (h : Hbm) : Quiet h (l.foldl f h) := by
  induction l generalizing h with
  | nil => exact refl h
  | cons x l ih => exact (hf h x).trans (ih _)
/-- The same of a fold that carries something else along. -/
theorem foldlSnd {α β : Type} (l : List α) {f : β × Hbm → α → β × Hbm} (hf : ∀ p x, Quiet p.2 (f p x).2) (p : β × Hbm) :
    Quiet p.2 (l.foldl f p).2 := by
  induction l generalizing p with
  | nil => exact refl p.2
  | cons x l ih => exact (hf p x).trans (ih _)

theorem putRaw (stack a : Nat) (l : List Byte) (h : Hbm) : Quiet h (h.putRaw stack a l) := by
  induction l generalizing h a with
  | nil => exact refl h
  | cons b l ih =>
    exact Quiet.trans (h' := { h with dram := Sparse.set 0 h.dram (stack * 2 ^ 36 + a) b }) (of_eq rfl rfl rfl) (ih _ _)

theorem logArray (kind stack q nsym : Nat) (w : Asker) (h : Hbm) : Quiet h (h.logArray kind stack q nsym w) := by
  unfold Hbm.logArray Hbm.log
  dsimp only
  split <;> exact of_eq rfl rfl rfl

theorem transfer (stack q raw : Nat) (w : Asker) (h : Hbm) : Quiet h (h.transfer stack q raw w) := by
  refine ⟨fun hbus => ?_⟩
  unfold Hbm.transfer
  rw [hbus]
  exact ⟨hbus, rfl, rfl⟩

theorem evict (stack ch : Nat) (w : Asker) (h : Hbm) : Quiet h (h.evict stack ch w) := by
  unfold Hbm.evict
  dsimp only
  split
  · exact refl h
  · split
    · exact refl h
    · next l _ _ =>
      have herase : Quiet h { h with cache := h.cache.erase l } := of_eq rfl rfl rfl
      split
      · exact (herase.trans (putRaw ..)).trans (transfer ..)
      · exact herase

theorem touch (stack q : Nat) (w : Asker) (h : Hbm) : Quiet h (h.touch stack q w) := by
  unfold Hbm.touch
  dsimp only
  split
  · exact refl h
  · exact ((evict ..).trans (transfer ..)).trans (of_eq rfl rfl rfl)

theorem putImage (stack q : Nat) (img : List Nat) (w : Asker) (h : Hbm) : Quiet h (h.putImage stack q img w) :=
  (((putRaw ..).trans (transfer ..)).trans (touch ..)).trans (of_eq rfl rfl rfl)

theorem putIn (stack q : Nat) (img : List Nat) (w : Asker) (h : Hbm) : Quiet h (h.putIn stack q img w) := by
  unfold Hbm.putIn
  split
  · exact refl h
  · exact putImage ..

theorem seek (stack q : Nat) (w : Asker) (h : Hbm) : Quiet h (h.seek stack q w).2 := by
  have hmet : Quiet h ((h.touch stack q w).transfer stack q (rawData q) w) := (touch ..).trans (transfer ..)
  unfold Hbm.seek
  dsimp only
  split
  · exact refl h
  · split
    · exact hmet
    · split
      · exact hmet
      · exact hmet
      · exact (hmet.trans (putImage ..)).trans (logArray ..)

theorem reconstruct (sp : Spot) (w : Asker) (h : Hbm) : Quiet h (h.reconstruct sp w).2 := by
  unfold Hbm.reconstruct
  refine foldlSnd (p := (some imgZero, h)) _ fun p st => ?_
  exact seek st sp.sector w p.2

theorem image (sp : Spot) (w : Asker) (h : Hbm) : Quiet h (h.image sp w).2 := by
  unfold Hbm.image
  have hseek := seek sp.data sp.sector w h
  split
  · next hs => rw [hs] at hseek; exact hseek
  · next h₁ hs =>
    rw [hs] at hseek
    have hrec := reconstruct sp w h₁
    split
    · next hr => rw [hr] at hrec; dsimp only at hrec ⊢; exact hseek.trans (hrec.trans (logArray ..))
    · next hr =>
      rw [hr] at hrec
      split
      · exact hseek.trans hrec
      · dsimp only at hrec ⊢; exact hseek.trans (hrec.trans ((putImage ..).trans (logArray ..)))

end Hbm.Quiet

/-! ### Re-striping (R424) -/

section Restripe
variable {s : State}

/-- The images of a stripe as they are read in the old layout. -/
def Hbm.stripeRead (h : Hbm) (base tick : Nat) : List (List Nat) × Hbm :=
  (List.range 40).foldl
    (fun (acc : List (List Nat) × Hbm) i =>
      let (img, h) := acc.2.image (oldSpot (base + 512 * i)) ⟨0, tick⟩
      (acc.1 ++ [img.getD imgLost], h))
    ([], h)
/-- A stripe's images written with their parity in the new layout. -/
def Hbm.stripeWritten (h : Hbm) (base tick : Nat) (img : Nat → List Nat) : Hbm :=
  (List.range 4).foldl
    (fun h r =>
      let sp := h.newSpot (base + 512 * r)
      h.putIn sp.parity sp.sector ((List.range 10).foldl (fun p j => imgXor p (img (4 * j + r))) imgZero) ⟨0, tick⟩)
    ((List.range 40).foldl (fun h i => let sp := h.newSpot (base + 512 * i); h.putIn sp.data sp.sector (img i) ⟨0, tick⟩) h)

theorem moveStripe_eq {h : Hbm} {c tick : Nat} (hcursor : h.cursor = some c) (hc : c ≠ 0) : h.moveStripe tick =
    Hbm.stripeWritten { (h.stripeRead (c - 20480) tick).2 with cursor := some (c - 20480) } (c - 20480) tick
      fun i => ((h.stripeRead (c - 20480) tick).1[i]?).getD imgLost := by
  unfold Hbm.moveStripe
  split
  · next hnone => exact absurd (hnone.symm.trans hcursor) (by simp)
  · next hzero => exact absurd (Option.some.inj (hcursor.symm.trans hzero)) hc
  · next c' _ hcursor' =>
    obtain rfl := Option.some.inj (hcursor.symm.trans hcursor')
    generalize c - 20480 = base
    unfold Hbm.stripeWritten Hbm.stripeRead
    dsimp only

theorem stripeRead_worked (h : Hbm) (base tick : Nat) : Hbm.Worked h (h.stripeRead base tick).2 := by
  unfold Hbm.stripeRead
  refine Hbm.Worked.foldlSnd (p := ([], h)) _ fun p i => ?_
  exact Hbm.Worked.image (oldSpot (base + 512 * i)) ⟨0, tick⟩ p.2
theorem stripeRead_quiet (h : Hbm) (base tick : Nat) : Hbm.Quiet h (h.stripeRead base tick).2 := by
  unfold Hbm.stripeRead
  refine Hbm.Quiet.foldlSnd (p := ([], h)) _ fun p i => ?_
  exact Hbm.Quiet.image (oldSpot (base + 512 * i)) ⟨0, tick⟩ p.2
theorem stripeWritten_worked (h : Hbm) (base tick : Nat) (img : Nat → List Nat) : Hbm.Worked h (h.stripeWritten base tick img) := by
  unfold Hbm.stripeWritten
  refine Hbm.Worked.trans (Hbm.Worked.foldl _ (fun h i => ?_) h) (Hbm.Worked.foldl _ (fun h r => ?_) _)
  · exact Hbm.Worked.putIn ..
  · exact Hbm.Worked.putIn ..
theorem stripeWritten_quiet (h : Hbm) (base tick : Nat) (img : Nat → List Nat) : Hbm.Quiet h (h.stripeWritten base tick img) := by
  unfold Hbm.stripeWritten
  refine Hbm.Quiet.trans (Hbm.Quiet.foldl _ (fun h i => ?_) h) (Hbm.Quiet.foldl _ (fun h r => ?_) _)
  · exact Hbm.Quiet.putIn ..
  · exact Hbm.Quiet.putIn ..

/-- The stripe that the cursor reaches is moved; the layout stands, and without errors on the bus nothing is remapped. -/
theorem moveStripe_moves {h : Hbm} {c tick : Nat} (hbus : h.bus = []) (hcursor : h.cursor = some c) (hc : c ≠ 0) :
    (h.moveStripe tick).cursor = some (c - 20480) ∧ (h.moveStripe tick).layout = h.layout ∧ (h.moveStripe tick).lanes = h.lanes ∧
      (h.moveStripe tick).failed = h.failed := by
  rw [moveStripe_eq hcursor hc]
  generalize c - 20480 = base
  have hread := stripeRead_worked h base tick
  have hreadQuiet := stripeRead_quiet h base tick
  generalize h.stripeRead base tick = p at hread hreadQuiet ⊢
  have hwritten := stripeWritten_worked { p.2 with cursor := some base } base tick fun i => (p.1[i]?).getD imgLost
  have hquiet := (hreadQuiet.trans (Hbm.Quiet.atCursor (some base) _)).trans
    (stripeWritten_quiet { p.2 with cursor := some base } base tick fun i => (p.1[i]?).getD imgLost)
  obtain ⟨-, hlanes, hfailed⟩ := hquiet.fixed hbus
  exact ⟨hwritten.cursor, hwritten.layout.trans hread.layout, hlanes, hfailed⟩

theorem cursorAdvance_moves {c : Nat} (hdeltas : s.hbm.deltas = []) (hbus : s.hbm.bus = []) (hcursor : s.hbm.cursor = some c) (hc : c ≠ 0) :
    ∃ t, exec .restripeCursorAdvance s = .next t ∧ t.hbm.cursor = some (c - 20480) ∧ t.hbm.layout = s.hbm.layout ∧
      { t with hbm := s.hbm } = s := by
  obtain ⟨hmoved, hlayout, hlanes, hfailed⟩ := moveStripe_moves (tick := s.gtc) hbus hcursor hc
  refine ⟨{ s with hbm := s.hbm.moveStripe s.gtc }, ?_, hmoved, hlayout, rfl⟩
  show execRestripeCursorAdvance s = _
  unfold execRestripeCursorAdvance
  rw [hdeltas, settleHbm_quiet hlanes hfailed]
  rfl

theorem cursorAdvance_stands (h : s.hbm.deltas ≠ [] ∨ s.hbm.cursor = none ∨ s.hbm.cursor = some 0) :
    exec .restripeCursorAdvance s = .next s := by
  show execRestripeCursorAdvance s = _
  unfold execRestripeCursorAdvance
  split
  · next hempty =>
    have hstands : s.hbm.moveStripe s.gtc = s.hbm := by
      unfold Hbm.moveStripe
      rcases h with h | h | h
      · exact absurd (List.isEmpty_iff.mp hempty) h
      · rw [h]
      · rw [h]
        rfl
    rw [hstands, settleHbm_quiet rfl rfl]
  · rfl

theorem restripe_accepts (hb : s.markhor.booted = true) (hlost : s.hbm.lost.length = 1) (hcursor : s.hbm.cursor = none)
    (hmaps : s.mapsHigh = false) : exec .restripe s = .next { s with
      hbm := { s.hbm with cursor := some (600 * 2 ^ 30), layout := (List.range 12).filter fun i => !s.hbm.lost.contains i }
      answers := s.answers ++ [.ok] } := by
  have hok : (s.hbm.lost.length == 1 && s.hbm.cursor == none && !s.mapsHigh) = true := by
    rw [hlost, hcursor, hmaps]
    rfl
  exact congrArg Host.Outcome.next (command_done hb hok)

theorem restripe_refuses (h : s.markhor.booted = false ∨ ¬ (s.hbm.lost.length = 1 ∧ s.hbm.cursor = none ∧ s.mapsHigh = false)) :
    exec .restripe s = .next { s with answers := s.answers ++ [.refused 1] } := by
  rcases h with hb | hno
  · exact congrArg Host.Outcome.next (command_closed hb)
  · refine congrArg Host.Outcome.next (command_refuses ?_)
    rw [Bool.eq_false_iff]
    intro hok
    simp only [Bool.and_eq_true, beq_iff_eq, Bool.not_eq_true'] at hok
    obtain ⟨⟨hlost, hcursor⟩, hmaps⟩ := hok
    exact hno ⟨hlost, hcursor, hmaps⟩

end Restripe

/-! ### Scrub (R436) -/

theorem Hbm.Worked.quarantined {h h' : Hbm} (w : Worked h h') : h'.quarantined = h.quarantined :=
  congrArg (fun p => p.2.2.2.2.2.2.1) w.fixed
theorem Hbm.Worked.retired {h h' : Hbm} (w : Worked h h') : h'.retired = h.retired := congrArg (fun p => p.2.2.2.2.2.2.2.1) w.fixed

section Scrub
variable {s : State} {idx a asid : Nat} {failed : Bool}

theorem postSystem_plain (kind : Nat) : s.postSystem kind asid 0 a =
    { s with ringHeld := s.ringHeld ++ [(BitVec.ofNat 64 (kind * 2 ^ 60 + asid % 4096 * 2 ^ 48), BitVec.ofNat 64 a)] } := by
  unfold State.postSystem
  rw [Nat.zero_mod, Nat.zero_mul, Nat.add_zero]

theorem postSystem_posted (kind : Nat) (h : s.ring = none) : (s.postSystem kind asid 0 a).postRing =
    { s with ringHeld := s.ringHeld ++ [(BitVec.ofNat 64 (kind * 2 ^ 60 + asid % 4096 * 2 ^ 48), BitVec.ofNat 64 a)] } := by
  have hring : (s.postSystem kind asid 0 a).ring = none := by
    unfold State.postSystem
    dsimp only
    exact h
  rw [postRing_unregistered hring, postSystem_plain]

/-- The state behind the zeros of a scrub, its range quarantined no longer. -/
def State.scrubbed (s : State) (idx a : Nat) : State :=
  { (s.scrubRange a).2 with hbm := { (s.scrubRange a).2.hbm with quarantined := (s.scrubRange a).2.hbm.quarantined.eraseIdx idx } }
/-- Its range retired (R436). -/
def State.retiring (s : State) (a : Nat) : State :=
  let h := { s.hbm with retired := s.hbm.retired ++ [a] }
  let t := s.settleHbm (if a < hbmEnd then h.poison a s.gtc else h)
  { t with markhor := t.markhor.writeBlock 4 (retiredBody h.retired) }

theorem scrub_eq (hq : s.hbm.quarantined[idx]? = some (a, asid)) : exec (.scrub idx failed) s =
    .next (if ((s.scrubRange a).1 && !failed) = true then ((s.scrubbed idx a).postSystem 4 asid 0 a).postRing
      else (((s.scrubbed idx a).retiring a).postSystem 5 asid 0 a).postRing) := by
  show execScrub idx failed s = _
  unfold execScrub
  rw [hq]
  dsimp only
  split <;> rfl

theorem scrub_none (h : s.hbm.quarantined.length ≤ idx) : exec (.scrub idx failed) s = .next s := by
  show execScrub idx failed s = _
  unfold execScrub
  rw [List.getElem?_eq_none h]

theorem scrubRange_csm (ha : hbmEnd ≤ a) : (s.scrubRange a).2 = s.putCsm a (List.replicate 128 0) := by
  unfold State.scrubRange
  rw [if_neg (by omega)]

theorem scrubRange_csm_clean (ha : hbmEnd ≤ a) (halign : a % 128 = 0) (w : Sparse.wf false s.csmMarks = true) : (s.scrubRange a).1 = true := by
  unfold State.scrubRange
  rw [if_neg (by omega)]
  dsimp only
  rw [List.all_eq_true]
  intro i hi
  rw [putCsm_mends w (n := 16) _ (by omega) (by rw [List.length_replicate]) (List.mem_range.mp hi)]
  rfl

theorem scrubRange_hbm (ha : a < hbmEnd) : s.scrubRange a =
    (((s.hbm.clear a s.gtc).scrubRead a s.gtc).1 && (((s.hbm.clear a s.gtc).scrubRead a s.gtc).2.scrubRead a s.gtc).1,
      s.settleHbm (((s.hbm.clear a s.gtc).scrubRead a s.gtc).2.scrubRead a s.gtc).2) := by
  unfold State.scrubRange
  rw [if_pos ha]

theorem putCsm_csm (l : List Byte) : (s.putCsm a l).csm = putMem s.csm a l := by
  unfold State.putCsm
  dsimp only
theorem putCsm_ring (l : List Byte) : (s.putCsm a l).ring = s.ring := by
  unfold State.putCsm
  dsimp only
theorem putCsm_ringHeld (l : List Byte) : (s.putCsm a l).ringHeld = s.ringHeld := by
  unfold State.putCsm
  dsimp only

theorem scrub_csm (hq : s.hbm.quarantined[idx]? = some (a, asid)) (ha : hbmEnd ≤ a) (halign : a % 128 = 0) (hring : s.ring = none)
    (w : Sparse.wf false s.csmMarks = true) (wc : Memory.wf s.csm = true) :
    (∃ t, exec (.scrub idx false) s = .next t ∧ CsmPut s t a (List.replicate 128 0) ∧
      t.hbm = { s.hbm with quarantined := s.hbm.quarantined.eraseIdx idx } ∧
      t.ringHeld = s.ringHeld ++ [(BitVec.ofNat 64 (4 * 2 ^ 60 + asid % 4096 * 2 ^ 48), BitVec.ofNat 64 a)]) ∧
    (∃ t, exec (.scrub idx true) s = .next t ∧ CsmPut s t a (List.replicate 128 0) ∧
      t.hbm = { s.hbm with quarantined := s.hbm.quarantined.eraseIdx idx, retired := s.hbm.retired ++ [a] } ∧
      t.ringHeld = s.ringHeld ++ [(BitVec.ofNat 64 (5 * 2 ^ 60 + asid % 4096 * 2 ^ 48), BitVec.ofNat 64 a)]) := by
  have hclean := scrubRange_csm_clean ha halign w
  have hscrubbed : s.scrubbed idx a = { s.putCsm a (List.replicate 128 0) with
      hbm := { s.hbm with quarantined := s.hbm.quarantined.eraseIdx idx } } := by
    unfold State.scrubbed
    rw [scrubRange_csm ha]
    rfl
  have hretiring : ∃ m, (s.scrubbed idx a).retiring a = { s.putCsm a (List.replicate 128 0) with
      hbm := { s.hbm with quarantined := s.hbm.quarantined.eraseIdx idx, retired := s.hbm.retired ++ [a] }, markhor := m } := by
    unfold State.retiring
    dsimp only
    rw [if_neg (show ¬ a < hbmEnd by omega), settleHbm_quiet (s := s.scrubbed idx a)
      (h := { (s.scrubbed idx a).hbm with retired := (s.scrubbed idx a).hbm.retired ++ [a] }) rfl rfl, hscrubbed]
    dsimp only
    exact ⟨_, rfl⟩
  obtain ⟨m, hretiring⟩ := hretiring
  refine ⟨⟨_, scrub_eq hq, ?_⟩, _, scrub_eq hq, ?_⟩
  · rw [if_pos (by rw [hclean]; rfl), postSystem_posted 4 (by rw [hscrubbed]; dsimp only; rw [putCsm_ring, hring]), hscrubbed]
    dsimp only
    exact ⟨csmPut_putMem wc (by dsimp only; exact putCsm_csm _), rfl, congrArg (· ++ _) (putCsm_ringHeld _)⟩
  · rw [if_neg (by simp), postSystem_posted 5 (by rw [hretiring]; dsimp only; rw [putCsm_ring, hring]), hretiring]
    dsimp only
    exact ⟨csmPut_putMem wc (by dsimp only; exact putCsm_csm _), rfl, congrArg (· ++ _) (putCsm_ringHeld _)⟩

theorem scrub_hbm (hq : s.hbm.quarantined[idx]? = some (a, asid)) (ha : a < hbmEnd) :
    let x := (s.hbm.clear a s.gtc).scrubRead a s.gtc
    let y := x.2.scrubRead a s.gtc
    ∃ t, exec (.scrub idx failed) s = .next t ∧ t.hbm.quarantined = s.hbm.quarantined.eraseIdx idx ∧
      t.hbm.retired = s.hbm.retired ++ (if x.1 = true ∧ y.1 = true ∧ failed = false then [] else [a]) ∧ t.csm = s.csm := by
  intro x y
  have hworked : Hbm.Worked s.hbm y.2 :=
    ((Hbm.Worked.clear ..).trans (Hbm.Worked.scrubRead ..)).trans (Hbm.Worked.scrubRead ..)
  have hrange : s.scrubRange a = (x.1 && y.1, s.settleHbm y.2) := scrubRange_hbm ha
  have hquarantined : (s.scrubbed idx a).hbm.quarantined = s.hbm.quarantined.eraseIdx idx := by
    show (s.scrubRange a).2.hbm.quarantined.eraseIdx idx = _
    rw [hrange, settleHbm_quarantined, hworked.quarantined]
  have hretired : (s.scrubbed idx a).hbm.retired = s.hbm.retired := by
    show (s.scrubRange a).2.hbm.retired = _
    rw [hrange, settleHbm_retired, hworked.retired]
  have hcsm : (s.scrubbed idx a).csm = s.csm := by
    show (s.scrubRange a).2.csm = _
    rw [hrange, settleHbm_csm]
  refine ⟨_, scrub_eq hq, ?_⟩
  by_cases hdone : x.1 = true ∧ y.1 = true ∧ failed = false
  · obtain ⟨hx, hy, hfailed⟩ := hdone
    rw [if_pos (show ((s.scrubRange a).1 && !failed) = true by rw [hrange, hx, hy, hfailed]; rfl), if_pos ⟨hx, hy, hfailed⟩,
      List.append_nil]
    obtain ⟨hposted, hpostedHbm⟩ := drainRing_memory _ ((s.scrubbed idx a).postSystem 4 asid 0 a)
    unfold State.postRing
    rw [hposted, hpostedHbm]
    exact ⟨hquarantined, hretired, hcsm⟩
  · rw [if_neg (show ¬ ((s.scrubRange a).1 && !failed) = true by rw [hrange]; simpa [and_assoc] using hdone), if_neg hdone]
    obtain ⟨hposted, hpostedHbm⟩ := drainRing_memory _ (((s.scrubbed idx a).retiring a).postSystem 5 asid 0 a)
    have hpoison := Hbm.Worked.poison a (s.scrubbed idx a).gtc { (s.scrubbed idx a).hbm with
      retired := (s.scrubbed idx a).hbm.retired ++ [a] }
    unfold State.postRing
    rw [hposted, hpostedHbm]
    show ((s.scrubbed idx a).settleHbm _).hbm.quarantined = _ ∧ ((s.scrubbed idx a).settleHbm _).hbm.retired = _ ∧
      ((s.scrubbed idx a).settleHbm _).csm = _
    rw [if_pos ha, settleHbm_quarantined, settleHbm_retired, settleHbm_csm, hpoison.quarantined, hpoison.retired, ← hretired]
    exact ⟨hquarantined, rfl, hcsm⟩

end Scrub

/-- Settles O54: the clauses are the lemmas on lost stacks, re-striping, scrubs and keys. -/
theorem stacksMaintained : Obligations.StacksMaintained := by
  unfold Obligations.StacksMaintained
  refine ⟨?_, ?_, ?_, ?_, ?_⟩
  · intro s stack health event windows
    refine ⟨?_, ?_, ?_, stackLost_known⟩
    · intro hlost hdeltas hring
      have hcut : (s.hbm.deltas.filter fun d => d.data == stack) = [] := by
        rw [List.filter_eq_nil_iff]
        intro d hd
        simpa using hdeltas d hd
      have hleft : (s.hbm.deltas.filter fun d => !(d.data == stack) && !(d.stack == stack)) =
          s.hbm.deltas.filter fun d => d.stack ≠ stack := by
        refine List.filter_congr fun d hd => ?_
        simp only [beq_eq_false_iff_ne.mpr (hdeltas d hd), Bool.not_false, Bool.true_and, ne_eq, decide_not]
        rfl
      rw [stackLost_loses hlost hring, stackGone_unpinned (fun d hd hdata => absurd hdata (hdeltas d hd)) (by rw [hcut, List.map_nil]),
        hleft, List.append_nil]
    · intro d l hlost hdeltas hdata hcore hl hpinned hring
      obtain ⟨hpins, hhbm⟩ := stackGone_pins hdeltas hdata hcore hl hpinned
      exact ⟨_, _, stackLost_loses hlost hring, hpins, rfl, hhbm⟩
    · intro d hlost hdeltas hdata hcore hring
      have hcut : (s.hbm.deltas.filter fun d => d.data == stack) = [d] := by
        rw [hdeltas]
        simp [hdata]
      have hleft : (s.hbm.deltas.filter fun d => !(d.data == stack) && !(d.stack == stack)) = [] := by
        rw [hdeltas]
        simp [hdata]
      have honly : ∀ e ∈ s.hbm.deltas, e.data = stack → numCores ≤ e.core := by
        rw [hdeltas]
        intro e he _
        rw [List.mem_singleton.mp he]
        exact hcore
      rw [stackLost_loses hlost hring, stackGone_unpinned (listed := [d.pa]) honly (by rw [hcut]; rfl), hleft]
  · intro s ok
    exact ⟨fun hb ⟨hlost, hcursor, hmaps⟩ => restripe_accepts hb hlost hcursor hmaps, restripe_refuses⟩
  · intro s
    exact ⟨fun c hdeltas hbus hcursor hc => cursorAdvance_moves hdeltas hbus hcursor hc, cursorAdvance_stands⟩
  · intro s idx
    exact ⟨fun a asid hq ha halign hring wc w => scrub_csm hq ha halign hring w wc, fun a asid failed hq ha => scrub_hbm hq ha,
      fun failed h => scrub_none h⟩
  · intro s id xts mac
    refine ⟨?_, ?_, fun t _ => rfl⟩
    · intro hb huse
      exact congrArg Host.Outcome.next (command_done hb (by rw [huse]; rfl))
    · rintro (hb | huse)
      · exact congrArg Host.Outcome.next (command_closed hb)
      · exact congrArg Host.Outcome.next (command_refuses (by rw [huse]; rfl))

end Sys2Proof.Machine

/-! Proofs for spec/03 and spec/01 (issue): what reading sources and sending results leaves as it is (R58, R59). -/

namespace Sys2Proof.Machine

open Safety

/-! ### What an attempt can give -/

/-- What is done, if it can be done, satisfies the predicate. -/
def Got.Sat {α : Type} (P : α → Prop) (x : Got α) : Prop := ∀ a, x = .ok a → P a

namespace Got.Sat
variable {α β σ : Type} {P : α → Prop} {Q : β → Prop} {x : Got α} {f : α → Got β}

theorem ok {a : α} (h : P a) : Sat P (.ok a) := fun _ hb => Got.ok.inj hb ▸ h
theorem stall : Sat P (.stall : Got α) := fun _ h => absurd h (by simp)
theorem held {id kind tgt : Nat} : Sat P (.held id kind tgt : Got α) := fun _ h => absurd h (by simp)
theorem poison : Sat P (.poison : Got α) := fun _ h => absurd h (by simp)
theorem trap {cause : Nat} {addr : W64} : Sat P (.trap cause addr : Got α) := fun _ h => absurd h (by simp)
theorem stray {addr : Nat} : Sat P (.stray addr : Got α) := fun _ h => absurd h (by simp)
theorem anything : Sat (fun _ => True) x := fun _ _ => trivial

theorem bind (hx : Sat P x) (hf : ∀ a, P a → Sat Q (f a)) : Sat Q (x.bind f) := by
  cases x with
  | ok a => exact hf a (hx a rfl)
  | stall => exact stall
  | held id kind tgt => exact held
  | poison => exact poison
  | trap cause addr => exact trap
  | stray addr => exact stray

theorem map {g : α → β} (hx : Sat P x) (hg : ∀ a, P a → Q (g a)) : Sat Q (x.map g) := hx.bind fun a ha => ok (hg a ha)

/-- The same of an attempt that gives a value and what it has left. -/
theorem andThen {α' : Type} {R : σ → Prop} {y : Got (α' × σ)} {g : α' × σ → Got β} (hy : Sat (fun r => R r.2) y)
    (hg : ∀ v k, R k → Sat Q (g (v, k))) : Sat Q (y.bind g) := hy.bind fun r hr => hg r.1 r.2 hr
theorem thenMap {α' : Type} {R : σ → Prop} {y : Got (α' × σ)} {g : α' × σ → β} (hy : Sat (fun r => R r.2) y)
    (hg : ∀ v k, R k → Q (g (v, k))) : Sat Q (y.map g) := hy.map fun r hr => hg r.1 r.2 hr

theorem ite {c : Prop} [Decidable c] {y z : Got α} (hy : c → Sat P y) (hz : ¬ c → Sat P z) : Sat P (if c then y else z) := by
  split
  · next h => exact hy h
  · next h => exact hz h

theorem foldl {g : α → β → Got α} (hg : ∀ a b, P a → Sat P (g a b)) (l : List β) {a : α} (ha : P a) : Sat P (Got.foldl g a l) := by
  induction l generalizing a with
  | nil => exact ok ha
  | cons b l ih => exact (hg a b ha).bind fun a ha => ih ha

end Got.Sat

/-! ### Register files and what goes with them -/

/-- The register files of a core, with FFLAGS, EVEC, STATUS.BCOL, SBCHK and the bank formats. -/
def Arch.written (a : Arch) : Sparse W64 × Sparse W64 × BitVec 16 × Sparse VReg × Sparse KReg × BitVec 5 × W64 × Bool × Bool × Sparse Nat :=
  (a.s, a.a, a.p, a.v, a.k, a.fflags, a.evec, a.bcol, a.sbchk, a.bfmt)

/-- The register files of the one are those of the other. -/
def Arch.Keeps (a b : Arch) : Prop := b.written = a.written

section Archs
variable {a b : Arch}

theorem Arch.setQ_keeps (h : Arch.Keeps a b) (q : Q) (l : List QEntry) : Arch.Keeps a (b.setQ q l) := h
theorem Arch.setVQ_keeps (h : Arch.Keeps a b) (q : VQ) (l : List VEntry) : Arch.Keeps a (b.setVQ q l) := h

theorem Arch.pop_keeps (h : Arch.Keeps a b) (q : Q) : (b.pop q).Sat fun r => Arch.Keeps a r.2 := by
  unfold Arch.pop
  split
  · exact .stall
  · split
    · exact .stall
    · exact .ite (fun _ => .poison) fun _ => .ok h

theorem Arch.vpop_keeps (h : Arch.Keeps a b) (q : VQ) : (b.vpop q).Sat fun r => Arch.Keeps a r.2 := by
  unfold Arch.vpop
  split
  · exact .stall
  · split
    · exact .stall
    · exact .ite (fun _ => .poison) fun _ => .ok h

theorem Arch.reserve_keeps (h : Arch.Keeps a b) (q : Q) : (b.reserve q).Sat fun r => Arch.Keeps a r.2 :=
  .ite (fun _ => .ok h) fun _ => .stall
theorem Arch.vreserve_keeps (h : Arch.Keeps a b) (q : VQ) : (b.vreserve q).Sat fun r => Arch.Keeps a r.2 :=
  .ite (fun _ => .ok h) fun _ => .stall

theorem Arch.supersede_keeps (h : Arch.Keeps a b) (t : Option (RFile × Nat)) : Arch.Keeps a (b.supersede t) := by
  unfold Arch.supersede
  split
  · exact h
  · exact h

theorem Arch.fly_keeps (h : Arch.Keeps a b) (side : Side) (w : Landing) (lat : Nat) (flags : BitVec 5) :
    Arch.Keeps a (b.fly side w lat flags) := by
  have hb := Arch.supersede_keeps h w.target
  cases side with
  | execute => exact hb
  | access => exact hb

theorem Arch.foldl_keeps {α : Type} {f : Arch → α → Arch} (hf : ∀ b x, Arch.Keeps a b → Arch.Keeps a (f b x)) (l : List α)
    (h : Arch.Keeps a b) : Arch.Keeps a (l.foldl f b) := by
  induction l generalizing b with
  | nil => exact h
  | cons x l ih => exact ih (hf b x h)

theorem Arch.loadArgs_keeps (h : Arch.Keeps a b) (args : List W64) : Arch.Keeps a (b.loadArgs args) :=
  Arch.foldl_keeps (fun _ _ h => Arch.fly_keeps h ..) _ h
theorem Arch.writeOutputs_keeps (h : Arch.Keeps a b) (rb : Nat) (outs : List Nat) (ys : List VReg) :
    Arch.Keeps a (b.writeOutputs rb outs ys) := Arch.foldl_keeps (fun _ _ h => Arch.fly_keeps h ..) _ h

theorem Arch.leaveTrap_keeps (h : Arch.Keeps a b) : Arch.Keeps a b.leaveTrap := by
  unfold Arch.leaveTrap
  split
  · exact h
  · exact h

theorem Arch.lowerLimit_keeps (h : Arch.Keeps a b) (k : Nat) (fall : W64) : Arch.Keeps a (b.lowerLimit k fall) := by
  unfold Arch.lowerLimit
  split
  · exact h
  · dsimp only
    split
    · exact h
    · exact h

theorem Arch.go_keeps (h : Arch.Keeps a b) {j : Jump} (hj : j.starts = false) : Arch.Keeps a (b.go j) := by
  have hp : (b.go j).p = b.p := by
    unfold Arch.go
    rw [hj]
    cases j.loop with
    | none => rfl
    | some l => rfl
  show ((b.go j).s, (b.go j).a, (b.go j).p, (b.go j).v, (b.go j).k, (b.go j).fflags, (b.go j).evec, (b.go j).bcol, (b.go j).sbchk,
    (b.go j).bfmt) = _
  rw [hp]
  exact h

/-! ### Sources and destinations of the control and vector slots -/

theorem Part.srcS_keeps {p : Part} {n : Nat} (h : Arch.Keeps a b) : (p.srcS n b).Sat fun r => Arch.Keeps a r.2 :=
  .ite (fun _ => .ok h) fun _ => .ite (fun _ => Arch.pop_keeps h _) fun _ => .ite (fun _ => Arch.pop_keeps h _) fun _ =>
    .ite (fun _ => Arch.pop_keeps h _) fun _ => .ite (fun _ => Arch.pop_keeps h _) fun _ => .ite (fun _ => Arch.pop_keeps h _) fun _ =>
      .ite (fun _ => Arch.pop_keeps h _) fun _ => .stall

theorem Part.dstS_keeps {p : Part} {n lat : Nat} {v : W64} {flags : BitVec 5} (h : Arch.Keeps a b) :
    (p.dstS n v lat flags b).Sat (Arch.Keeps a) :=
  .ite (fun _ => (Arch.reserve_keeps h _).thenMap fun _ _ h => Arch.fly_keeps h ..) fun _ =>
    .ite (fun _ => (Arch.reserve_keeps h _).thenMap fun _ _ h => Arch.fly_keeps h ..) fun _ => .ok (Arch.fly_keeps h ..)

theorem Part.dstP_keeps {p : Part} {n lat : Nat} {v : Bool} (h : Arch.Keeps a b) : (p.dstP n v lat b).Sat (Arch.Keeps a) :=
  .ok (Arch.fly_keeps h ..)
theorem Part.dstK_keeps {p : Part} {n lat : Nat} {x : KReg} (h : Arch.Keeps a b) : (p.dstK n x lat b).Sat (Arch.Keeps a) :=
  .ok (Arch.fly_keeps h ..)

theorem Part.srcV_keeps {p : Part} {w n : Nat} (h : Arch.Keeps a b) : (p.srcV w n b).Sat fun r => Arch.Keeps a r.2 :=
  .ite (fun _ => (Part.srcS_keeps h).thenMap fun _ _ h => h) fun _ => .ite (fun _ => Arch.vpop_keeps h _) fun _ =>
    .ite (fun _ => Arch.vpop_keeps h _) fun _ => .ite (fun _ => Arch.vpop_keeps h _) fun _ => .ite (fun _ => Arch.vpop_keeps h _) fun _ =>
      .ok h

theorem Part.srcX_keeps {p : Part} {n : Nat} (h : Arch.Keeps a b) : (p.srcX n b).Sat fun r => Arch.Keeps a r.2 :=
  .ite (fun _ => Part.srcS_keeps h) fun _ => (Part.srcV_keeps h).thenMap fun _ _ h => h

theorem Part.dstV_keeps {p : Part} {n lat : Nat} {x : VReg} {flags : BitVec 5} (h : Arch.Keeps a b) :
    (p.dstV n x lat flags b).Sat (Arch.Keeps a) :=
  .ite (fun _ => (Arch.vreserve_keeps h _).thenMap fun _ _ h => Arch.fly_keeps h ..) fun _ =>
    .ite (fun _ => (Arch.vreserve_keeps h _).thenMap fun _ _ h => Arch.fly_keeps h ..) fun _ => .ok (Arch.fly_keeps h ..)

theorem Part.putMasked_keeps {p : Part} {w lat : Nat} {o : A3} {f : Nat → Nat × BitVec 5} (h : Arch.Keeps a b) :
    (p.putMasked w o lat f b).Sat (Arch.Keeps a) := Part.dstV_keeps h

end Archs

/-! ### What the issue of a memory slot leaves of its core -/

/-- The scratchpad, the full bits and the register files of the one core are those of the other. -/
def Core.Keeps (k l : Core) : Prop := (l.scratch, l.full, l.arch.written) = (k.scratch, k.full, k.arch.written)

section Cores
variable {k l : Core}

theorem Core.keeps_arch {a : Arch} (h : Core.Keeps k l) (ha : Arch.Keeps l.arch a) : Core.Keeps k { l with arch := a } := by
  unfold Core.Keeps
  rw [← h]
  exact congrArg (fun w => (l.scratch, l.full, w)) ha

theorem Core.foldl_keeps {α : Type} {f : Core → α → Core} (hf : ∀ l x, Core.Keeps k l → Core.Keeps k (f l x)) (xs : List α)
    (h : Core.Keeps k l) : Core.Keeps k (xs.foldl f l) := by
  induction xs generalizing l with
  | nil => exact h
  | cons x xs ih => exact ih (hf l x h)

theorem Core.readA_sat {n : Nat} {P : W64 → Prop} (h : ∀ v, P v) : (l.readA n).Sat P :=
  .ite (fun _ => .stall) fun _ => .ite (fun _ => .poison) fun _ => .ok (h _)

theorem Core.srcA_keeps {n : Nat} (h : Core.Keeps k l) : (l.srcA n).Sat fun r => Core.Keeps k r.2 :=
  .ite (fun _ => (Arch.pop_keeps rfl _).thenMap fun _ _ ha => Core.keeps_arch h ha) fun _ =>
    (Got.Sat.anything (x := l.readA n)).map fun _ _ => h
theorem Core.srcSd_keeps {n : Nat} (h : Core.Keeps k l) : (l.srcSd n).Sat fun r => Core.Keeps k r.2 :=
  .ite (fun _ => (Arch.pop_keeps rfl _).thenMap fun _ _ ha => Core.keeps_arch h ha) fun _ => Core.srcA_keeps h

theorem Core.vpops_keeps {q : VQ} {n : Nat} (h : Core.Keeps k l) : (l.vpops q n).Sat fun r => Core.Keeps k r.2 := by
  induction n generalizing l with
  | zero => exact .ok h
  | succ n ih => exact (Arch.vpop_keeps rfl q).andThen fun _ _ ha => (ih (Core.keeps_arch h ha)).thenMap fun _ _ h => h

theorem Core.dest_keeps {n : Nat} (h : Core.Keeps k l) : (l.dest n).Sat fun r => Core.Keeps k r.2 := by
  have hq : ∀ q, ((l.arch.reserve q).map fun (id, a) => (Dest.q q id, { l with arch := a })).Sat fun r => Core.Keeps k r.2 :=
    fun q => (Arch.reserve_keeps rfl q).thenMap fun _ _ ha => Core.keeps_arch h ha
  exact .ite (fun _ => hq _) fun _ => .ite (fun _ => hq _) fun _ => .ite (fun _ => hq _) fun _ =>
    .ite (fun _ => .stall) fun _ => .ok h

theorem Core.destVQ_keeps {n : Nat} (h : Core.Keeps k l) : (l.destVQ n).Sat fun r => Core.Keeps k r.2 :=
  (Arch.vreserve_keeps rfl _).thenMap fun _ _ ha => Core.keeps_arch h ha

theorem Core.flyA_keeps {d : Dest} {v : W64} {lat : Nat} (h : Core.Keeps k l) : Core.Keeps k (l.flyA d v lat) :=
  Core.keeps_arch h (Arch.fly_keeps rfl ..)

theorem Core.access_keeps {p : Part} {kind : AccKind} {seq : Nat} {released : Bool} (h : Core.Keeps k l) :
    Core.Keeps k (l.access p kind seq released) := Core.keeps_arch h (Arch.supersede_keeps rfl _)
theorem Core.offLoad_keeps {p : Part} {kind : OffKind} {ch : Nat} {acq rel : Bool} {d : Dest} {kept : Option Recorded}
    (h : Core.Keeps k l) : Core.Keeps k (l.offLoad p kind ch acq rel d kept) := Core.keeps_arch h (Arch.supersede_keeps rfl _)

theorem Core.gate_keeps {bundle slot seq : Nat} (h : Core.Keeps k l) : Core.Keeps k (l.gate bundle slot seq) := by
  unfold Core.gate
  split
  · exact h
  · exact h
theorem Core.send_keeps {w : Write} (h : Core.Keeps k l) : Core.Keeps k (l.send w) := by
  unfold Core.send
  split
  · exact h
  · exact h
theorem Core.release_keeps {w : Write} (h : Core.Keeps k l) : Core.Keeps k (l.release w) :=
  Core.foldl_keeps (fun l _ (h : Core.Keeps k l) => Core.send_keeps (l := l.nextId.2) h) _ h

theorem State.flushBundle_keeps {s : State} {ch : Nat} {ranges : List (Nat × Nat)} {load : Bool} (h : Core.Keeps k l) :
    Core.Keeps k (s.flushBundle l ch ranges load) :=
  Core.foldl_keeps (fun l w (h : Core.Keeps k l) => Core.gate_keeps (l := (l.release w).keep _) (Core.release_keeps h)) _ h

theorem State.write_keeps {s : State} {kind : WriteKind} {ch : Nat} {rel : Bool} (h : Core.Keeps k l) :
    (s.write l kind ch rel).Sat (Core.Keeps k) :=
  .ite (fun _ => .ok h) fun _ => .ite (fun _ => .ok h) fun _ => .ite
    (fun _ => .ok (Core.gate_keeps (Core.send_keeps (State.flushBundle_keeps (l := l.nextSeq.2.nextId.2) h)))) fun _ => .stall

theorem Core.group_sat {base : Nat} : (l.group base).Sat fun _ => True := .anything

end Cores

end Sys2Proof.Machine

/-! Proofs for spec/03 and spec/01 (issue): what no slot instruction changes at its issue (R58, R59, R130, R195, R197). -/

namespace Sys2Proof.Machine

open Safety

/-! ### What the issue of a slot leaves as it is -/

/-- From `s` to `t` slots have been issued: no byte of chip shared memory, host memory or a scratchpad, no full bit and no register file has
changed, and the tables in canonical form are so still. -/
structure Issued (s t : State) : Prop where
  wf : CoresWf t
  keeps : ∀ c, Core.Keeps (s.core c) (t.core c)
  fixed : (t.csm, t.host, t.part.core) = (s.csm, s.host, s.part.core)
  stepped : Memory.wf s.stepMeta = true → Memory.wf t.stepMeta = true
  dram : Memory.wf s.hbm.dram = true → Memory.wf t.hbm.dram = true

/-- A body whose state has been issued up to now. -/
abbrev IssuedBy (s : State) : Got State → Prop := Got.Sat (Issued s)

namespace Issued
variable {s t u : State} {c : Nat} {k : Core}

theorem refl (w : CoresWf s) : Issued s s := ⟨w, fun _ => rfl, rfl, id, id⟩
theorem trans (h : Issued s t) (h' : Issued t u) : Issued s u :=
  ⟨h'.wf, fun c => (h'.keeps c).trans (h.keeps c), h'.fixed.trans h.fixed, h'.stepped ∘ h.stepped, h'.dram ∘ h.dram⟩

theorem csm (h : Issued s t) : t.csm = s.csm := congrArg Prod.fst h.fixed
theorem host (h : Issued s t) : t.host = s.host := congrArg (fun p => p.2.1) h.fixed
theorem part (h : Issued s t) : t.part.core = s.part.core := congrArg (fun p => p.2.2) h.fixed

/-- Only the tables of cores and memories and the issuing core matter. -/
theorem other (h : Issued s t)
    (hu : (u.cores, u.csm, u.host, u.part.core, u.stepMeta, u.hbm.dram) = (t.cores, t.csm, t.host, t.part.core, t.stepMeta, t.hbm.dram)) :
    Issued s u := by
  simp only [Prod.mk.injEq] at hu
  obtain ⟨hcores, hcsm, hhost, hpart, hstep, hdram⟩ := hu
  refine ⟨?_, ?_, ?_, ?_, ?_⟩
  · unfold CoresWf
    rw [hcores]
    exact h.wf
  · intro c
    rw [core_of_cores hcores c]
    exact h.keeps c
  · rw [hcsm, hhost, hpart]
    exact h.fixed
  · rw [hstep]
    exact h.stepped
  · rw [hdram]
    exact h.dram

theorem setCore (h : Issued s t) (hk : Core.Keeps (s.core c) k) : Issued s (t.setCore c k) := by
  refine ⟨Sparse.set_wf h.wf, fun d => ?_, h.fixed, h.stepped, h.dram⟩
  rw [State.core_setCore h.wf]
  split
  · next hd => exact hd ▸ hk
  · exact h.keeps d

theorem onCore (h : Issued s t) {f : Core → Core} (hf : ∀ l, Core.Keeps (s.core c) l → Core.Keeps (s.core c) (f l)) :
    Issued s (t.onCore c f) := h.setCore (hf _ (h.keeps c))
theorem onArch (h : Issued s t) {f : Arch → Arch} (hf : ∀ a, Arch.Keeps a (f a)) : Issued s (t.onArch c f) :=
  h.onCore fun l hl => Core.keeps_arch hl (hf l.arch)

theorem mine (h : Issued s t) : Core.Keeps s.mine t.mine := by
  unfold State.mine
  rw [h.part]
  exact h.keeps s.part.core
theorem putMine (h : Issued s t) (hk : Core.Keeps s.mine k) : Issued s (t.putMine k) := by
  unfold State.putMine
  rw [h.part]
  exact h.setCore hk
theorem withArch (h : Issued s t) {a : Arch} (ha : Arch.Keeps (t.core t.part.core).arch a) : Issued s (t.withArch a) :=
  h.setCore (Core.keeps_arch (h.keeps _) ha)

theorem foldl {α : Type} {f : State → α → State} (hf : ∀ t x, Issued s t → Issued s (f t x)) (l : List α) (h : Issued s t) :
    Issued s (l.foldl f t) := by
  induction l generalizing t with
  | nil => exact h
  | cons x l ih => exact ih (hf t x h)

/-! ### Shared forms of bodies -/

theorem onPart (h : Issued s t) {f : Part → Arch → Got Arch} (hf : ∀ p a b, Arch.Keeps a b → (f p b).Sat (Arch.Keeps a)) :
    IssuedBy s (onPart f t) := (hf t.part (t.core t.part.core).arch _ rfl).map fun _ ha => h.withArch ha

theorem onPartCore (h : Issued s t) {f : Part → Core → Got Core} (hf : ∀ p k l, Core.Keeps k l → (f p l).Sat (Core.Keeps k)) :
    IssuedBy s (onPartCore f t) := (hf t.part (s.core t.part.core) _ (h.keeps _)).map fun _ hk => h.setCore hk

theorem scalar2 (h : Issued s t) {f : W64 → W64 → W64 × BitVec 5} {lat : Nat} {o : A3} : IssuedBy s (scalar2 f lat o t) := by
  unfold Machine.scalar2
  exact h.onPart fun _ _ _ h => (Part.srcS_keeps h).andThen fun _ _ h => (Part.srcS_keeps h).andThen fun _ _ h => Part.dstS_keeps h
theorem scalar1 (h : Issued s t) {f : W64 → W64 × BitVec 5} {lat : Nat} {o : A3} : IssuedBy s (scalar1 f lat o t) := by
  unfold Machine.scalar1
  exact h.onPart fun _ _ _ h => (Part.srcS_keeps h).andThen fun _ _ h => Part.dstS_keeps h
theorem scalarP (h : Issued s t) {f : W64 → W64 → Bool} {lat : Nat} {o : A3} : IssuedBy s (scalarP f lat o t) := by
  unfold Machine.scalarP
  exact h.onPart fun _ _ _ h => (Part.srcS_keeps h).andThen fun _ _ h => (Part.srcS_keeps h).andThen fun _ _ h => Part.dstP_keeps h
theorem shift (h : Issued s t) {f : W64 → Nat → W64} {o : A3} : IssuedBy s (shiftBody f o t) := by
  unfold Machine.shiftBody
  exact h.onPart fun _ _ _ h => (Part.srcS_keeps h).andThen fun _ _ h => .ite (fun _ => Part.dstS_keeps h) fun _ =>
    (Part.srcS_keeps h).andThen fun _ _ h => Part.dstS_keeps h

theorem vec1 (h : Issued s t) {ws wd lat : Nat} {o : A3} {f : (Nat → Nat) → Nat → Nat × BitVec 5} : IssuedBy s (vec1 ws wd lat o f t) := by
  unfold Machine.vec1
  exact h.onPart fun _ _ _ h => (Part.srcV_keeps h).andThen fun _ _ h => Part.putMasked_keeps h
theorem vec2 (h : Issued s t) {ws wd lat : Nat} {o : A3} {f : (Nat → Nat) → (Nat → Nat) → Nat → Nat × BitVec 5} :
    IssuedBy s (vec2 ws wd lat o f t) := by
  unfold Machine.vec2
  exact h.onPart fun _ _ _ h => (Part.srcV_keeps h).andThen fun _ _ h => (Part.srcV_keeps h).andThen fun _ _ h => Part.putMasked_keeps h
theorem vecShift (h : Issued s t) {o : A3} {f : Nat → Bool → Nat → Nat → Nat} : IssuedBy s (vecShift o f t) := by
  unfold Machine.vecShift
  split
  · exact h.vec1
  · exact h.vec2
theorem vecDot (h : Issued s t) {n : Nat} {o : A3} : IssuedBy s (vecDot n o t) := by
  unfold Machine.vecDot
  exact h.onPart fun _ _ _ h => (Part.srcV_keeps h).andThen fun _ _ h => (Part.srcV_keeps h).andThen fun _ _ h => Part.putMasked_keeps h
theorem vecCompare (h : Issued s t) {o : A3} {f : (Nat → Nat) → (Nat → Nat) → Nat → Bool} : IssuedBy s (vecCompare o f t) := by
  unfold Machine.vecCompare
  exact h.onPart fun _ _ _ h => (Part.srcV_keeps h).andThen fun _ _ h => (Part.srcV_keeps h).andThen fun _ _ h => Part.dstK_keeps h

theorem addr2 (h : Issued s t) {f : W64 → W64 → W64} {lat : Nat} {o : A3} : IssuedBy s (addr2 f lat o t) := by
  unfold Machine.addr2
  exact h.onPartCore fun _ _ _ h => (Core.srcA_keeps h).andThen fun _ _ h => (Core.srcA_keeps h).andThen fun _ _ h =>
    (Core.dest_keeps h).thenMap fun _ _ h => Core.flyA_keeps h

/-! ### Scalar slots -/

theorem sel (h : Issued s t) {o : A3} : IssuedBy s (bodySel o t) := by
  unfold bodySel
  exact h.onPart fun _ _ _ h => (Part.srcS_keeps h).andThen fun _ _ h => (Part.srcS_keeps h).andThen fun _ _ h => Part.dstS_keeps h
theorem addi (h : Issued s t) {o : AI} : IssuedBy s (bodyAddi o t) := by
  unfold bodyAddi
  exact h.onPart fun _ _ _ h => (Part.srcS_keeps h).andThen fun _ _ h => Part.dstS_keeps h
theorem cmpi (h : Issued s t) {o : AI} : IssuedBy s (bodyCmpi o t) := by
  unfold bodyCmpi
  exact h.onPart fun _ _ _ h => (Part.srcS_keeps h).andThen fun _ _ h => Part.dstP_keeps h
theorem movi (h : Issued s t) {o : WI} : IssuedBy s (bodyMovi o t) := by
  unfold bodyMovi
  exact h.onPart fun _ _ _ h => Part.dstS_keeps h
theorem movhi (h : Issued s t) {o : WI} : IssuedBy s (bodyMovhi o t) := by
  unfold bodyMovhi
  exact h.onPart fun _ _ _ h => (Part.srcS_keeps h).andThen fun _ _ h => Part.dstS_keeps h
theorem plog (h : Issued s t) {o : A3} : IssuedBy s (bodyPlog o t) := by
  unfold bodyPlog
  exact h.onPart fun _ _ _ h => Part.dstP_keeps h
theorem ptst (h : Issued s t) {o : A3} : IssuedBy s (bodyPtst o t) := by
  unfold bodyPtst
  exact h.onPart fun _ _ _ h => (Part.srcS_keeps h).andThen fun _ _ h => Part.dstP_keeps h
theorem fmas (h : Issued s t) {o : A3} : IssuedBy s (bodyFmas o t) := by
  unfold bodyFmas
  exact h.onPart fun _ _ _ h => (Part.srcS_keeps h).andThen fun _ _ h => (Part.srcS_keeps h).andThen fun _ _ h =>
    (Part.srcS_keeps h).andThen fun _ _ h => Part.dstS_keeps h

/-! ### Vector slots -/

theorem vmac (h : Issued s t) {o : A3} : IssuedBy s (bodyVmac o t) := by
  unfold bodyVmac
  exact h.onPart fun _ _ _ h => (Part.srcV_keeps h).andThen fun _ _ h => (Part.srcV_keeps h).andThen fun _ _ h => Part.putMasked_keeps h
theorem klog (h : Issued s t) {o : A3} : IssuedBy s (bodyKlog o t) := by
  unfold bodyKlog
  exact h.onPart fun _ _ _ h => Part.dstK_keeps h
theorem kpop (h : Issued s t) {o : A3} : IssuedBy s (bodyKpop o t) := by
  unfold bodyKpop
  exact h.onPart fun _ _ _ h => Part.dstV_keeps h
theorem kfst (h : Issued s t) {o : A3} : IssuedBy s (bodyKfst o t) := by
  unfold bodyKfst
  exact h.onPart fun _ _ _ h => Part.dstV_keeps h
theorem kset (h : Issued s t) {o : A3} : IssuedBy s (bodyKset o t) := by
  unfold bodyKset
  exact h.onPart fun _ _ _ h => (Part.srcX_keeps h).andThen fun _ _ h => Part.dstK_keeps h
theorem vsel (h : Issued s t) {o : A3} : IssuedBy s (bodyVsel o t) := by
  unfold bodyVsel
  exact h.onPart fun _ _ _ h => (Part.srcV_keeps h).andThen fun _ _ h => (Part.srcV_keeps h).andThen fun _ _ h => Part.dstV_keeps h
theorem vfma (h : Issued s t) {o : A3} : IssuedBy s (bodyVfma o t) := by
  unfold bodyVfma
  exact h.onPart fun _ _ _ h => (Part.srcV_keeps h).andThen fun _ _ h => (Part.srcV_keeps h).andThen fun _ _ h => (Part.srcV_keeps h).andThen fun _ _ h => Part.putMasked_keeps h
theorem vxdot (h : Issued s t) {o : A3} : IssuedBy s (bodyVxdot o t) := by
  unfold bodyVxdot
  exact h.onPart fun _ _ _ h => (Part.srcV_keeps h).andThen fun _ _ h => (Part.srcV_keeps h).andThen fun _ _ h =>
    Got.Sat.andThen (.ite (fun _ => Part.srcV_keeps h) fun _ => .ok h) fun _ _ h => Part.dstV_keeps h
theorem vxadd (h : Issued s t) {o : A3} : IssuedBy s (bodyVxadd o t) := by
  unfold bodyVxadd
  exact h.onPart fun _ _ _ h => (Part.srcV_keeps h).andThen fun _ _ h => (Part.srcV_keeps h).andThen fun _ _ h => Part.dstV_keeps h
theorem vsum (h : Issued s t) {o : A3} : IssuedBy s (bodyVsum o t) := by
  unfold bodyVsum
  exact h.onPart fun _ _ _ h => (Part.srcV_keeps h).andThen fun _ _ h => Part.dstV_keeps h
theorem vscan (h : Issued s t) {o : A3} : IssuedBy s (bodyVscan o t) := by
  unfold bodyVscan
  exact h.onPart fun _ _ _ h => (Part.srcV_keeps h).andThen fun _ _ h => Part.putMasked_keeps h
theorem vcvt (h : Issued s t) {o : A3} : IssuedBy s (bodyVcvt o t) := by
  unfold bodyVcvt
  exact h.onPart fun _ _ _ h => (Part.srcV_keeps h).andThen fun _ _ h => Part.dstV_keeps h
theorem vcvt8 (h : Issued s t) {o : A3} : IssuedBy s (bodyVcvt8 o t) := by
  unfold bodyVcvt8
  dsimp only
  split
  · exact h.onPart fun _ _ _ h => (Part.srcV_keeps h).andThen fun _ _ h => Part.putMasked_keeps h
  · exact h.onPart fun _ _ _ h => (Part.srcV_keeps h).andThen fun _ _ h => Part.dstV_keeps h
theorem vmxq (h : Issued s t) {o : A3} : IssuedBy s (bodyVmxq o t) := by
  unfold bodyVmxq
  exact h.onPart fun _ _ _ h => (Part.srcV_keeps h).andThen fun _ _ h => Part.dstV_keeps h
theorem vmxdq (h : Issued s t) {o : A3} : IssuedBy s (bodyVmxdq o t) := by
  unfold bodyVmxdq
  exact h.onPart fun _ _ _ h => (Part.srcV_keeps h).andThen fun _ _ h => (Part.srcV_keeps h).andThen fun _ _ h => Part.putMasked_keeps h
theorem vexp (h : Issued s t) {o : A3} : IssuedBy s (bodyVexp o t) := by
  unfold bodyVexp
  exact h.onPart fun _ _ _ h => (Part.srcV_keeps h).andThen fun _ _ h => Part.dstV_keeps h
theorem vpack (h : Issued s t) {o : A3} : IssuedBy s (bodyVpack o t) := by
  unfold bodyVpack
  exact h.onPart fun _ _ _ h => (Part.srcV_keeps h).andThen fun _ _ h => (Part.srcV_keeps h).andThen fun _ _ h => Part.putMasked_keeps h
theorem vunpk (h : Issued s t) {o : A3} : IssuedBy s (bodyVunpk o t) := by
  unfold bodyVunpk
  exact h.onPart fun _ _ _ h => (Part.srcV_keeps h).andThen fun _ _ h => Part.putMasked_keeps h
theorem vslide (h : Issued s t) {o : A3} : IssuedBy s (bodyVslide o t) := by
  unfold bodyVslide
  exact h.onPart fun _ _ _ h => (Part.srcV_keeps h).andThen fun _ _ h => (Part.srcV_keeps h).andThen fun _ _ h => (Part.srcX_keeps h).andThen fun _ _ h => Part.putMasked_keeps h
theorem vbcst (h : Issued s t) {o : A3} : IssuedBy s (bodyVbcst o t) := by
  unfold bodyVbcst
  exact h.onPart fun _ _ _ h => (Part.srcV_keeps h).andThen fun _ _ h => (Part.srcX_keeps h).andThen fun _ _ h => Part.putMasked_keeps h
theorem vextr (h : Issued s t) {o : A3} : IssuedBy s (bodyVextr o t) := by
  unfold bodyVextr
  exact h.onPart fun _ _ _ h => (Part.srcV_keeps h).andThen fun _ _ h => (Part.srcX_keeps h).andThen fun _ _ h => Part.dstV_keeps h
theorem vins (h : Issued s t) {o : A3} : IssuedBy s (bodyVins o t) := by
  unfold bodyVins
  exact h.onPart fun _ _ _ h => (Part.srcX_keeps h).andThen fun _ _ h => (Part.srcX_keeps h).andThen fun _ _ h => Part.dstV_keeps h
theorem vmovi (h : Issued s t) {o : WI} : IssuedBy s (bodyVmovi o t) := by
  unfold bodyVmovi
  exact h.onPart fun _ _ _ h => Part.dstV_keeps h

/-! ### Memory slots of the core -/

theorem ashl (h : Issued s t) {o : A3} : IssuedBy s (bodyAshl o t) := by
  unfold bodyAshl
  exact h.onPartCore fun _ _ _ h => (Core.srcA_keeps h).andThen fun _ _ h =>
    Got.Sat.andThen (.ite (fun _ => .ok h) fun _ => Core.srcA_keeps h) fun _ _ h =>
      (Core.dest_keeps h).thenMap fun _ _ h => Core.flyA_keeps h
theorem acmp (h : Issued s t) {o : A3} : IssuedBy s (bodyAcmp o t) := by
  unfold bodyAcmp
  exact h.onPartCore fun _ _ _ h => (Core.srcA_keeps h).andThen fun _ _ h => (Core.srcA_keeps h).thenMap fun _ _ h => Core.flyA_keeps h
theorem aaddi (h : Issued s t) {o : AI} : IssuedBy s (bodyAaddi o t) := by
  unfold bodyAaddi
  exact h.onPartCore fun _ _ _ h => (Core.srcA_keeps h).andThen fun _ _ h => (Core.dest_keeps h).thenMap fun _ _ h => Core.flyA_keeps h
theorem amovi (h : Issued s t) {o : WI} : IssuedBy s (bodyAmovi o t) := by
  unfold bodyAmovi
  exact h.onPartCore fun _ _ _ h => (Core.dest_keeps h).thenMap fun _ _ h => Core.flyA_keeps h
theorem xlatq (h : Issued s t) {o : A3} : IssuedBy s (bodyXlatq o t) := by
  unfold bodyXlatq
  exact h.onPartCore fun _ _ _ h => (Core.srcA_keeps h).andThen fun _ _ h => (Core.dest_keeps h).thenMap fun _ _ h => Core.flyA_keeps h
theorem fence (h : Issued s t) {o : A3} : IssuedBy s (bodyFence o t) := by
  unfold bodyFence
  exact h.onPartCore fun _ _ _ h => .ok h
theorem qfence (h : Issued s t) {o : A3} : IssuedBy s (bodyQfence o t) := by
  unfold bodyQfence
  exact .ite (fun _ => .stall) fun _ => .ok (h.putMine h.mine)

/-- An engine command: what reads its operands keeps the core's files. -/
theorem issueOp (h : Issued s t) {code : OpCode} {q : Nat} {o : EN} {read : Core → Got (Captured × Core)}
    (hread : ∀ k l, Core.Keeps k l → (read l).Sat fun r => Core.Keeps k r.2) : IssuedBy s (issueOp code q o read t) := by
  unfold Machine.issueOp
  refine (hread _ _ h.mine).andThen fun x k hk => .ite (fun _ => .stall) fun _ => (Core.dest_keeps hk).andThen fun d k hk => ?_
  dsimp only
  split
  · exact .ok (h.putMine (Core.flyA_keeps hk))
  · exact .ite (fun _ => .stall) fun _ => .ok (h.putMine (Core.flyA_keeps (l := (k.append _ q t.part.bundle t.frameNow).2) hk))

theorem mma (h : Issued s t) {o : EN} : IssuedBy s (bodyMma o t) := by
  unfold bodyMma
  exact h.issueOp fun k l hl => (Core.srcA_keeps hl).andThen fun _ k' hk => Got.Sat.anything.bind fun _ _ =>
    (Core.srcA_keeps hk).andThen fun _ _ hk => Got.Sat.anything.map fun _ _ => hk
theorem mlat (h : Issued s t) {o : EN} : IssuedBy s (bodyMlat o t) := by
  unfold bodyMlat
  exact h.issueOp fun k l hl => Got.Sat.anything.bind fun _ _ => (Core.srcA_keeps hl).thenMap fun _ _ hk => hk
theorem mcfg (h : Issued s t) {o : EN} : IssuedBy s (bodyMcfg o t) := by
  unfold bodyMcfg
  exact h.issueOp fun k l hl => (Core.srcA_keeps hl).thenMap fun _ _ hk => hk
/-- The copies differ in whether they read a third operand. -/
theorem copy (h : Issued s t) {code : OpCode} {q : Nat} {o : EN} {third : Bool} :
    IssuedBy s (Machine.issueOp code q o (readCopy o third) t) := by
  unfold Machine.issueOp
  exact h.issueOp fun k l hl => Got.Sat.anything.bind fun _ _ => Got.Sat.anything.bind fun _ _ =>
    Got.Sat.thenMap (.ite (fun _ => Core.srcA_keeps hl) fun _ => .ok hl) fun _ _ hk => hk
theorem sfn (h : Issued s t) {o : EN} : IssuedBy s (bodySfn o t) := by
  unfold bodySfn
  exact h.issueOp fun k l hl => (Core.srcA_keeps hl).andThen fun _ _ hk => (Core.srcA_keeps hk).andThen fun _ _ hk =>
    (Core.srcA_keeps hk).thenMap fun _ _ hk => hk
theorem gather (h : Issued s t) {code : OpCode} {q : Nat} {o : EN} : IssuedBy s (Machine.issueOp code q o (readGather o) t) := by
  unfold Machine.issueOp
  exact h.issueOp fun k l hl => Got.Sat.anything.bind fun _ _ => (Core.srcA_keeps hl).andThen fun _ _ hk =>
    (Core.srcA_keeps hk).thenMap fun _ _ hk => hk

/-! ### Loads and stores -/

theorem fillAccess (h : Issued s t) {kind : AccKind} {released : Bool} (hk : Core.Keeps s.mine k) :
    IssuedBy s (t.fillAccess k kind released) := by
  unfold State.fillAccess
  exact .ite (fun _ => .stall) fun _ => .ite (fun _ => .ok (h.putMine (Core.access_keeps (l := k.nextSeq.2) hk))) fun _ =>
    .ite (fun _ => .ok (h.putMine hk)) fun _ => .ite (fun _ => .stall) fun _ =>
      .ok (h.putMine (Core.access_keeps (l := k.nextSeq.2) hk))

theorem loadScalar (h : Issued s t) {acq : Bool} {o : A3} : IssuedBy s (loadScalar acq o t) := by
  unfold Machine.loadScalar
  refine (Core.srcA_keeps h.mine).andThen fun b k hk => (Core.srcA_keeps hk).andThen fun x k hk => ?_
  refine .ite (fun _ => .ite (fun _ => .trap) fun _ => .ite (fun _ => .stall) fun _ => (Core.dest_keeps hk).thenMap fun d k hk => ?_)
    fun _ => .ite (fun _ => .trap) fun _ => Got.Sat.anything.bind fun _ _ => .ite (fun _ => .stall) fun _ =>
      (Core.dest_keeps hk).andThen fun d k hk => .ite
        (fun _ => .ok (h.putMine (Core.offLoad_keeps (State.flushBundle_keeps hk)))) fun _ => .stall
  dsimp only
  refine h.putMine ?_
  split
  · exact Core.access_keeps (l := k.nextSeq.2) (p := t.part) (seq := k.nextSeq.1) (released := false) hk
  · exact Core.access_keeps (l := k.nextSeq.2) hk

theorem fetst (h : Issued s t) {o : A3} : IssuedBy s (bodyFetst o t) := by
  unfold bodyFetst
  exact (Core.srcA_keeps h.mine).andThen fun x k hk => .ite (fun _ => .trap) fun _ => .ite (fun _ => .stall) fun _ =>
    .ok (h.putMine (Core.access_keeps (l := k.nextSeq.2) hk))
theorem feset (h : Issued s t) {o : A3} : IssuedBy s (bodyFeset o t) := by
  unfold bodyFeset
  exact (Core.srcA_keeps h.mine).andThen fun x k hk => (Core.srcA_keeps hk).andThen fun n k hk =>
    .ite (fun _ => .trap) fun _ => h.fillAccess hk

theorem loadVector (h : Issued s t) {o : A3} {base : W64} {contiguous : Bool} {addrs : List W64} (hk : Core.Keeps s.mine k) :
    IssuedBy s (loadVector o base contiguous addrs k t) := by
  unfold Machine.loadVector
  refine .ite (fun _ => ?_) fun _ => .ite (fun _ => .trap) fun _ => ?_
  · split
    · exact .trap
    · exact .ite (fun _ => .stall) fun _ => (Core.destVQ_keeps hk).thenMap fun d k hk =>
        h.putMine (Core.access_keeps (l := k.nextSeq.2) hk)
  · split
    · exact .trap
    · exact Got.Sat.anything.bind fun _ _ => .ite (fun _ => .stall) fun _ => (Core.destVQ_keeps hk).andThen fun d k hk =>
        .ite (fun _ => .ok (h.putMine (Core.offLoad_keeps (State.flushBundle_keeps hk)))) fun _ => .stall

theorem vld (h : Issued s t) {o : A3} : IssuedBy s (bodyVld o t) := by
  unfold bodyVld
  exact (Core.srcA_keeps h.mine).andThen fun _ _ hk => (Core.srcA_keeps hk).andThen fun _ _ hk => h.loadVector hk
theorem vlds (h : Issued s t) {o : A3} : IssuedBy s (bodyVlds o t) := by
  unfold bodyVlds
  exact (Core.srcA_keeps h.mine).andThen fun _ _ hk => (Core.srcA_keeps hk).andThen fun _ _ hk => h.loadVector hk
theorem vldx (h : Issued s t) {o : A3} : IssuedBy s (bodyVldx o t) := by
  unfold bodyVldx
  exact (Core.srcA_keeps h.mine).andThen fun _ _ hk => (Core.vpops_keeps hk).andThen fun _ _ hk => h.loadVector hk

end Issued

end Sys2Proof.Machine

/-! Proofs for spec/03 and spec/01 (issue): stores, atomics, branches, strands, messages and surrogate slots change no register file. -/

namespace Sys2Proof.Machine

open Safety

namespace Issued
variable {s t u : State} {c : Nat} {k : Core}

/-! ### Stepped checks and writes (R198) -/

/-- Reading a place leaves what an issue leaves. -/
theorem readPlace (h : Issued s t) (asid : Nat) (p : Place) (n : Nat) : Issued s (t.readPlace asid p n).2 := by
  have hfar := FarWork.readPlace asid p n t
  have hpart : (t.readPlace asid p n).2.part = t.part := by
    have hfield := congrArg State.part (Stores.readPlace asid p n t).rest
    exact hfield
  have hstep : (t.readPlace asid p n).2.stepMeta = t.stepMeta := congrArg (fun p => p.2.2.2.2.1) hfar.stores
  refine ⟨?_, fun c => ?_, ?_, ?_, hfar.wf ∘ h.dram⟩
  · unfold CoresWf
    rw [hfar.cores]
    exact h.wf
  · rw [hfar.core]
    exact h.keeps c
  · rw [hfar.csm, hfar.host, hpart]
    exact h.fixed
  · rw [hstep]
    exact h.stepped

/-- The metadata of stepped memory is written. -/
theorem setMeta (h : Issued s t) {m : Memory} (hm : Memory.wf t.stepMeta = true → Memory.wf m = true) : Issued s { t with stepMeta := m } :=
  ⟨h.wf, h.keeps, h.fixed, hm ∘ h.stepped, h.dram⟩

theorem stepStart (h : Issued s t) (asid : Nat) (e : TEntry) (line : Nat) : Issued s (t.stepStart asid e line) := by
  have hread := h.readPlace asid (t.residence asid e line) 128
  exact (hread.setMeta (m := putMem (t.readPlace asid (t.residence asid e line) 128).2.stepMeta (e.smeta + (line - e.va))
    (t.readPlace asid (t.residence asid e line) 128).1.1) fun w => putMem_wf w).other rfl

/-- The state in which a word is checked: the line of an address has a record of the frame. -/
def stepFresh (s : State) (asid : Nat) (e : TEntry) (va u n : Nat) : State :=
  let a := e.metaAt va
  let t := s.stepStart asid e (va - (va - e.va) % 128)
  if !stepIs (s.stepWord a) n then
    { t with stepMeta := putMem (putMem t.stepMeta a (leBytes (n % 2 ^ 32 * 2 ^ 32 + 2 ^ 31 + u) 8)) (a + 8) (List.replicate 64 0) }
  else s

theorem fresh (h : Issued s t) (asid : Nat) (e : TEntry) (va x n : Nat) : Issued s (stepFresh t asid e va x n) := by
  unfold stepFresh
  dsimp only
  split
  · exact (h.stepStart ..).setMeta fun w => putMem_wf (putMem_wf w)
  · exact h

theorem stepCheckWord_eq (s : State) (asid : Nat) (e : TEntry) (va x n : Nat) (again : Bool) : s.stepCheckWord asid e va x n again =
    let t := stepFresh s asid e va x n
    let a := e.metaAt va
    let w := va % 128 / 4
    let sw := t.stepWord a
    let multi := sw / 2 ^ 30 % 2 == 1
    if again && t.stepWriter a w == writerOf x then some t
    else if t.stepWriter a w / 2 ^ 15 % 2 = 0 then
      let m := putMem t.stepMeta (a + 8 + 2 * w) (leBytes (writerOf x) 2)
      some { t with stepMeta := if sw % 2 ^ 9 ≠ x ∧ !multi then putMem m a (leBytes (sw + 2 ^ 30) 8) else m }
    else if !multi && sw % 2 ^ 9 == x then some t
    else none := rfl

theorem stepCheckWord (h : Issued s t) {asid va x n : Nat} {e : TEntry} {again : Bool}
    (hu : t.stepCheckWord asid e va x n again = some u) : Issued s u := by
  have hfresh := h.fresh asid e va x n
  rw [stepCheckWord_eq] at hu
  dsimp only at hu
  split at hu
  · exact Option.some.inj hu ▸ hfresh
  · split at hu
    · refine Option.some.inj hu ▸ hfresh.setMeta fun w => ?_
      split
      · exact putMem_wf (putMem_wf w)
      · exact putMem_wf w
    · split at hu
      · exact Option.some.inj hu ▸ hfresh
      · exact absurd hu (by simp)

theorem stepCheck (h : Issued s t) {asid va l x n : Nat} {e : TEntry} {again : Bool} (hu : t.stepCheck asid e va l x n again = .inr u) :
    Issued s u := by
  have hfrom : ∀ count {va} {t : State}, Issued s t → t.stepCheckFrom asid e x n again count va = .inr u → Issued s u := by
    intro count
    induction count with
    | zero => exact fun ht hu => Sum.inr.inj hu ▸ ht
    | succ count ih =>
      intro va t ht hu
      unfold State.stepCheckFrom at hu
      split at hu
      · exact absurd hu (by simp)
      · next v hv => exact ih (ht.stepCheckWord hv) hu
  unfold State.stepCheck at hu
  split at hu
  · exact hfrom _ h hu
  · exact Sum.inr.inj hu ▸ h

theorem endHolds (h : Issued s t) (id : Nat) (tgts : List Nat) (src : Nat) : Issued s (t.endHolds id tgts src) := h.other rfl

theorem checkStepped (h : Issued s t) (ranges : List (Nat × Nat)) : IssuedBy s (t.checkStepped ranges) := by
  unfold State.checkStepped
  dsimp only
  split
  · exact .ok h
  · refine Got.Sat.foldl (fun v x hv => ?_) ranges h
    split
    · exact .ok hv
    · refine .ite (fun _ => .ok hv) fun _ => ?_
      split
      · exact .ite (fun _ => .held) fun _ => .trap
      · next hchecked =>
        split
        · exact .held
        · exact .ok ((hv.stepCheck hchecked).endHolds ..)

theorem write (h : Issued s t) {v : State} (hv : Issued s v) {kind : WriteKind} {ch : Nat} {rel : Bool} (hk : Core.Keeps s.mine k) :
    IssuedBy s ((t.write k kind ch rel).map v.putMine) := (State.write_keeps hk).map fun _ hk => hv.putMine hk

theorem storeScalar (h : Issued s t) {rel : Bool} {o : A3} : IssuedBy s (storeScalar rel o t) := by
  unfold Machine.storeScalar
  exact (Core.srcA_keeps h.mine).andThen fun b k hk => (Core.srcA_keeps hk).andThen fun x k hk => (Core.srcSd_keeps hk).andThen fun v k hk =>
    .ite (fun _ => .ite (fun _ => .trap) fun _ => h.fillAccess hk) fun _ => .ite (fun _ => .trap) fun _ =>
      Got.Sat.anything.bind fun _ _ => .ite (fun _ => .stall) fun _ => (h.checkStepped _).bind fun _ hv => h.write hv hk

theorem storeVector (h : Issued s t) {o : A3} {base : W64} {contiguous : Bool} {addrs : List W64} {x : VReg} (hk : Core.Keeps s.mine k) :
    IssuedBy s (storeVector o base contiguous addrs x k t) := by
  unfold Machine.storeVector
  refine .ite (fun _ => ?_) fun _ => .ite (fun _ => .trap) fun _ => ?_
  · split
    · exact .trap
    · exact h.fillAccess hk
  · split
    · exact .trap
    · exact Got.Sat.anything.bind fun _ _ => .ite (fun _ => .stall) fun _ => (h.checkStepped _).bind fun _ hv => h.write hv hk

theorem vst (h : Issued s t) {o : A3} : IssuedBy s (bodyVst o t) := by
  unfold bodyVst
  exact (Core.srcA_keeps h.mine).andThen fun _ k hk => (Core.srcA_keeps hk).andThen fun _ k hk =>
    (Arch.vpop_keeps rfl _).andThen fun _ _ ha => h.storeVector (Core.keeps_arch hk ha)
theorem vsts (h : Issued s t) {o : A3} : IssuedBy s (bodyVsts o t) := by
  unfold bodyVsts
  exact (Core.srcA_keeps h.mine).andThen fun _ k hk => (Core.srcA_keeps hk).andThen fun _ k hk =>
    (Arch.vpop_keeps rfl _).andThen fun _ _ ha => h.storeVector (Core.keeps_arch hk ha)
theorem vstx (h : Issued s t) {o : A3} : IssuedBy s (bodyVstx o t) := by
  unfold bodyVstx
  exact (Core.srcA_keeps h.mine).andThen fun _ k hk => (Core.vpops_keeps hk).andThen fun _ k hk =>
    (Arch.vpop_keeps rfl _).andThen fun _ _ ha => h.storeVector (Core.keeps_arch hk ha)

/-! ### Atomics -/

theorem returning (h : Issued s t) {o : A3} {kind : OffKind} {va : W64} {n : Nat} (hk : Core.Keeps s.mine k) :
    IssuedBy s (returning o kind va n k t) := by
  unfold Machine.returning
  exact .ite (fun _ => .trap) fun _ => Got.Sat.anything.bind fun _ _ => .ite (fun _ => .stall) fun _ =>
    (h.checkStepped _).bind fun v hv => (Core.dest_keeps hk).andThen fun d k hk =>
      .ite (fun _ => .ok (hv.putMine (Core.gate_keeps (Core.offLoad_keeps (State.flushBundle_keeps hk))))) fun _ => .stall

theorem amo (h : Issued s t) {o : A3} : IssuedBy s (bodyAmo o t) := by
  unfold bodyAmo
  exact (Core.srcA_keeps h.mine).andThen fun _ _ hk => (Core.srcA_keeps hk).andThen fun _ _ hk => h.returning hk
theorem cas (h : Issued s t) {o : A3} : IssuedBy s (bodyCas o t) := by
  unfold bodyCas
  exact (Core.srcA_keeps h.mine).andThen fun _ _ hk => (Core.srcA_keeps hk).andThen fun _ _ hk => (Core.srcA_keeps hk).andThen fun _ _ hk =>
    h.returning hk
theorem red (h : Issued s t) {o : A3} : IssuedBy s (bodyRed o t) := by
  unfold bodyRed
  exact (Core.srcA_keeps h.mine).andThen fun _ _ hk => (Core.srcA_keeps hk).andThen fun _ _ hk =>
    .ite (fun _ => .trap) fun _ => Got.Sat.anything.bind fun _ _ => .ite (fun _ => .stall) fun _ =>
      (h.checkStepped _).bind fun _ hv => h.write hv hk
theorem vred (h : Issued s t) {o : A3} : IssuedBy s (bodyVred o t) := by
  unfold bodyVred
  exact (Core.srcA_keeps h.mine).andThen fun _ k hk => (Arch.vpop_keeps rfl _).andThen fun _ _ ha =>
    .ite (fun _ => .trap) fun _ => Got.Sat.anything.bind fun _ _ => .ite (fun _ => .stall) fun _ =>
      (h.checkStepped _).bind fun _ hv => h.write hv (Core.keeps_arch hk ha)

/-! ### Branches, traps and the sequencer -/

theorem readS (h : Issued s t) {n : Nat} : (t.readS n).Sat fun r => Issued s r.2 :=
  (Part.srcS_keeps rfl).thenMap fun _ _ ha => h.withArch ha

theorem collide (h : Issued s t) : Issued s t.collide := h.onArch fun _ => Arch.fly_keeps rfl ..

/-- A branch that starts no loop. -/
theorem jump (h : Issued s t) {j : Jump} (hj : j.starts = false) : IssuedBy s (t.jump j) := by
  unfold State.jump
  dsimp only
  refine .ite (fun _ => .ok (Issued.collide (h.other rfl))) fun _ =>
    Got.Sat.map (P := Arch.Keeps (t.core t.part.core).arch) ?_ fun a ha => ?_
  · split
    · exact .ok rfl
    · exact Part.dstS_keeps rfl
  · split
    · refine Issued.onCore ?_ ?_
      · exact h.other rfl
      · exact fun l hl => hl
    · refine Issued.other (t := t.setCore t.part.core { t.core t.part.core with arch := a.go j }) ?_ rfl
      exact h.setCore (Core.keeps_arch (h.keeps _) (Arch.go_keeps ha hj))

theorem bri (h : Issued s t) {o : BrF} : IssuedBy s (bodyBri o t) := h.jump rfl
theorem call (h : Issued s t) {o : BrF} : IssuedBy s (bodyCall o t) := h.jump rfl
theorem br (h : Issued s t) {o : A3} : IssuedBy s (bodyBr o t) := by
  unfold bodyBr
  exact h.readS.andThen fun _ _ h => h.jump rfl
theorem ret (h : Issued s t) {o : A3} : IssuedBy s (bodyRet o t) := by
  unfold bodyRet
  exact h.readS.andThen fun _ _ h => h.jump rfl
theorem trapAfter (h : Issued s t) {cause code : Nat} : IssuedBy s (trapAfter cause code t) := by
  unfold Machine.trapAfter
  refine .ite (fun _ => .ok h) fun _ => .ok (Issued.onArch ?_ ?_)
  · exact h.other rfl
  · exact fun _ => rfl
theorem eret (h : Issued s t) {o : A3} : IssuedBy s (bodyEret o t) := by
  unfold bodyEret
  refine .ite (fun _ => .stall) fun _ => Issued.jump ?_ rfl
  exact h.setCore (Core.keeps_arch (h.keeps t.part.core) (Arch.leaveTrap_keeps rfl))
theorem sysr (h : Issued s t) {o : AI} : IssuedBy s (bodySysr o t) := by
  unfold bodySysr
  exact (Part.dstS_keeps rfl).map fun _ ha => h.withArch ha
theorem sysw (h : Issued s t) {o : AI} : IssuedBy s (bodySysw o t) := by
  unfold bodySysw
  refine h.readS.andThen fun _ _ h => .ite (fun _ => .trap) fun _ => .ok (h.onArch ?_)
  exact fun _ => rfl
theorem lbrk (h : Issued s t) {o : A3} : IssuedBy s (bodyLbrk o t) := by
  unfold bodyLbrk
  split
  · exact .ok h
  · exact .ite (fun _ => h.jump rfl) fun _ => .ok (h.onArch fun _ => Arch.lowerLimit_keeps rfl ..)

/-! ### Choices of the order log -/

theorem made (h : Issued s t) {id kind tgt src aux : Nat} {fixed : Bool} (hu : t.choose id kind tgt src aux fixed = .made u) :
    Issued s u := by
  unfold State.choose at hu
  split at hu
  · exact Choice.made.inj hu ▸ h
  · split at hu
    · split at hu
      · split at hu
        · exact Choice.made.inj hu ▸ h
        · exact absurd hu (by simp)
      · split at hu
        · exact Choice.made.inj hu ▸ h.other rfl
        · split at hu
          · exact Choice.made.inj hu ▸ h
          · exact absurd hu (by simp)
    · split at hu
      · exact Choice.made.inj hu ▸ h
      · split at hu
        · exact Choice.made.inj hu ▸ h.other rfl
        · exact Choice.made.inj hu ▸ h.other rfl

theorem diverge (h : Issued s t) (id off src : Nat) : Issued s (t.diverge id off src) := h.other rfl
theorem noteHold (h : Issued s t) (id kind tgt src aux : Nat) : Issued s (t.noteHold id kind tgt src aux) := h.other rfl

theorem chooseThen (h : Issued s t) {id kind tgt src aux : Nat} {fixed : Bool} {go : State → State}
    (hgo : ∀ u, Issued s u → Issued s (go u)) : Issued s (t.chooseThen id kind tgt src aux fixed go) := by
  unfold State.chooseThen
  split
  · next hu => exact hgo _ (h.made hu)
  · exact h.noteHold ..
  · exact h.diverge ..

theorem chooseGot (h : Issued s t) {id kind tgt src aux : Nat} {fixed : Bool} {go : State → Got State}
    (hgo : ∀ u, Issued s u → IssuedBy s (go u)) : IssuedBy s (t.chooseGot id kind tgt src aux fixed go) := by
  unfold State.chooseGot
  split
  · next hu => exact hgo _ (h.made hu)
  · exact .held
  · exact .ok (h.diverge ..)

/-! ### Strands -/

theorem takeUp (h : Issued s t) {pc : W64} {args : List W64} : IssuedBy s (t.takeUp pc args) := by
  unfold State.takeUp
  refine Issued.jump (h.onArch ?_) rfl
  exact fun _ => Arch.loadArgs_keeps rfl _

theorem claimSlot (h : Issued s t) {body : State → Got State} (hbody : ∀ u, Issued s u → IssuedBy s (body u)) :
    IssuedBy s (claimSlot body t) := by
  unfold Machine.claimSlot
  exact .ite (fun _ => .stall) fun _ => .ite (fun _ => .ok h.collide) fun _ => hbody _ (h.other rfl)

theorem redeliver (h : Issued s t) {r : Recorded} : IssuedBy s (t.redeliver r) := by
  unfold State.redeliver
  split
  · exact h.takeUp
  · exact .ok h

theorem nextStrand (h : Issued s t) : IssuedBy s t.nextStrand := by
  unfold State.nextStrand
  dsimp only
  split
  · refine .ok (h.onCore ?_)
    exact fun l hl => hl
  · refine Issued.takeUp (h.onCore ?_)
    exact fun l hl => hl

theorem susp (h : Issued s t) {o : A3} : IssuedBy s (bodySusp o t) := by
  unfold bodySusp
  refine h.claimSlot fun u h => h.readS.andThen fun x v h => .ite (fun _ => .trap) fun _ => ?_
  split
  · exact h.redeliver
  · refine Issued.nextStrand ?_
    split
    · exact h
    · refine h.onCore ?_
      exact fun l hl => hl

/-- Keeping what a slot has done, and other changes beside scratchpad and registers, at its core. -/
theorem keepAt (h : Issued s t) {d : Nat} {f : Core → Core} (hf : ∀ l, Core.Keeps l (f l)) : Issued s (t.onCore d f) :=
  h.onCore fun l hl => (hf l).trans hl

theorem answer (h : Issued s t) {victim thief : Nat} {r : Option Record} : Issued s (t.answer victim thief r) := by
  unfold State.answer
  exact (h.keepAt (f := fun k => k.dropThief thief) fun _ => rfl).keepAt fun _ => rfl
theorem answerNothing (h : Issued s t) {id victim thief : Nat} : Issued s (t.answerNothing id victim thief) :=
  h.chooseThen fun _ h => h.answer
theorem answerAll (h : Issued s t) {id victim : Nat} : Issued s (t.answerAll id victim) := h.foldl (fun _ _ h => h.answerNothing) _

theorem placeRecord (h : Issued s t) {c : Nat} {l : Launch} {r : Record} {index : W64} {pl : Bool} :
    Issued s (t.placeRecord c l r index pl) := by
  unfold State.placeRecord
  dsimp only
  split
  · exact h.other rfl
  · split
    · exact h.other rfl
    · exact h.keepAt (f := fun k => k.pushBottom r) fun _ => rfl

theorem send (h : Issued s t) {n lat : Nat} {v : W64} {d : Nat} (hd : d = t.part.core) :
    IssuedBy s ((t.part.dstS n v lat 0 (t.core d).arch).map fun a => t.onArch d fun _ => a) := by
  subst hd
  exact (Part.dstS_keeps rfl).map fun _ ha => h.withArch ha

end Issued

end Sys2Proof.Machine

/-! Proofs for spec/10, spec/07 and spec/22 (issue): strands, messages, conditional streams and surrogate slots change no register file. -/

namespace Sys2Proof.Machine

open Safety

namespace Issued
variable {s t u : State} {c : Nat} {k : Core}

/-- A slot keeps at a core what it has done. -/
theorem kept (h : Issued s t) {d : Nat} {w : State} {v : Option W64} : Issued s (t.onCore d fun k => w.keepValue k v) :=
  h.keepAt fun _ => rfl
/-- The part that is issuing stays at its core. -/
theorem setPart (h : Issued s t) {p : Part} (hp : p.core = s.part.core) : Issued s { t with part := p } := by
  refine ⟨h.wf, h.keeps, ?_, h.stepped, h.dram⟩
  show (t.csm, t.host, p.core) = _
  rw [hp, h.csm, h.host]

/-! ### Spawns and steals -/

theorem spawn (h : Issued s t) {o : A3} : IssuedBy s (bodySpawn o t) := by
  unfold bodySpawn
  have hcore : ∀ {v}, Issued s v → t.part.core = v.part.core := fun hv => h.part.trans hv.part.symm
  refine h.readS.andThen fun x v hv => .ite (fun _ => .trap) fun _ => ?_
  split
  · exact hv.send (hcore hv)
  · split
    · exact .stall
    · next l _ =>
      have hdone : ∀ {w : State} {f : Core → Core} {x : W64}, Issued s w → (∀ l, Core.Keeps l (f l)) →
          IssuedBy s (((w.onCore t.part.core f).part.dstS o.d.toNat x 1 0 ((w.onCore t.part.core f).core t.part.core).arch).map
            fun a => (w.onCore t.part.core f).onArch t.part.core fun _ => a) :=
        fun hw hf => (hw.keepAt hf).send (hcore (hw.keepAt hf))
      have hhand : ∀ {t' aux fixed} {go : State → Got State}, (∀ u, Issued s u → IssuedBy s (go u)) →
          IssuedBy s (v.chooseGot l.id 6 t.part.core t' aux fixed go) := fun hgo => hv.chooseGot hgo
      refine .ite (fun _ => ?_) fun _ => ?_
      · split
        · exact hdone hv.placeRecord fun _ => rfl
        · refine .ite (fun _ => hdone hv.placeRecord fun _ => rfl) fun _ => ?_
          split
          · exact .ite (fun _ => hhand fun u hu => hdone hu.answer fun _ => rfl) fun _ => .held
          · exact .held
      · split
        · exact hhand fun u hu => hdone hu.answer fun _ => rfl
        · exact hdone hv.placeRecord fun _ => rfl

theorem postSteal (h : Issued s t) {victim : Nat} : IssuedBy s (t.postSteal victim) := by
  unfold State.postSteal
  refine .ite (fun _ => .stall) fun _ => .ok ?_
  refine Issued.other (h.setCore (c := t.part.core) (k := t.keepValue { t.core t.part.core with
    msgs := (t.core t.part.core).msgs ++ [⟨victim, true, true, 0⟩], wait := .steal victim } (some openResult)) ?_) rfl
  exact h.keeps t.part.core

theorem steal (h : Issued s t) {o : A3} : IssuedBy s (bodySteal o t) := by
  unfold bodySteal
  refine h.claimSlot fun u hu => hu.readS.andThen fun x v hv => ?_
  dsimp only
  split
  · exact hv.redeliver
  · have hnothing : ∀ {w : State}, Issued s w → IssuedBy s (Got.ok (w.onCore u.part.core fun k => w.keepValue k none)) :=
      fun hw => .ok hw.kept
    split
    · exact .ite (fun _ => hnothing hv) fun _ => .ite
        (fun _ => .ite (fun _ => hv.postSteal) fun _ => hv.chooseGot fun w hw => hnothing hw) fun _ =>
          .ite (fun _ => hv.chooseGot fun w hw => hnothing hw) fun _ => hv.postSteal
    · exact hnothing hv

/-! ### The end of an entry -/

theorem onRegion (h : Issued s t) {m r : Nat} {f : Region → Region} : Issued s (t.onRegion m r f) := h.other rfl
theorem onLaunch (h : Issued s t) {id : Nat} {f : Launch → Launch} : Issued s (t.onLaunch id f) := h.other rfl

theorem dropSample (h : Issued s t) {l : Launch} {x : Sample} : Issued s (t.dropSample l x) := h.other rfl

theorem dropLogged (h : Issued s t) {id r n : Nat} : Issued s (t.dropLogged id r n) := by
  induction n generalizing t with
  | zero => exact h
  | succ n ih =>
    unfold State.dropLogged
    split
    · exact h
    · split
      · exact h
      · split
        · exact h
        · exact ih (h.chooseThen fun _ hu => hu.dropSample)
theorem settleDrops (h : Issued s t) {l : Launch} {r : Nat} : Issued s (t.settleDrops l r) := h.dropLogged

theorem abandon (h : Issued s t) {go : State → Got State} (hgo : ∀ u, Issued s u → IssuedBy s (go u)) : IssuedBy s (t.abandon c go) := by
  unfold State.abandon
  split
  · next x l _ _ =>
    have hclosed : Issued s (t.onCore c fun k => { k with region := none }) := h.keepAt fun _ => rfl
    exact .ite (fun _ => hclosed.settleDrops.chooseGot fun u hu => hgo _ hu.onRegion) fun _ => hgo _ hclosed
  · exact hgo _ h

theorem endEntry (h : Issued s t) {last : Bool} : Issued s (t.endEntry c last) := by
  unfold State.endEntry
  dsimp only
  split
  · exact h.keepAt fun _ => rfl
  · refine Issued.answerAll (h.keepAt ?_)
    exact fun _ => rfl

theorem bend (h : Issued s t) {o : A3} : IssuedBy s (bodyBend o t) := by
  unfold bodyBend
  refine h.claimSlot fun u hu => ?_
  dsimp only
  split
  · split
    · exact .ok (Issued.setPart hu.endEntry hu.part)
    · exact hu.redeliver
  · refine .ite (fun _ => Issued.nextStrand (hu.keepAt fun _ => rfl)) fun _ => .ite (fun _ => .stall) fun _ => hu.abandon fun w hw => .ok ?_
    exact Issued.setPart (Issued.endEntry hw.kept) hw.part

/-! ### Messages, events, status -/

theorem launchMsg (h : Issued s t) {o : A3} : IssuedBy s (bodyLaunchMsg o t) := by
  unfold bodyLaunchMsg
  refine h.readS.andThen fun x v hv => .ite (fun _ => .ok hv) fun _ => ?_
  split
  · exact .stall
  · refine .ok (Issued.other (t := v.onCore t.part.core fun k => v.keepValue k none) ?_ rfl)
    exact hv.kept

theorem postEvent (h : Issued s t) {target source : Nat} {w0 w1 : W64} : Issued s (t.postEvent target source w0 w1) := by
  unfold State.postEvent
  split
  · exact h
  · exact h.other rfl
theorem onContext (h : Issued s t) {asid : Nat} {f : Context → Context} : Issued s (t.onContext asid f) := by
  unfold State.onContext
  split
  · exact h
  · exact h.other rfl

theorem qsend (h : Issued s t) {o : A3} : IssuedBy s (bodyQsend o t) := by
  unfold bodyQsend
  refine h.readS.andThen fun x v hv => hv.readS.andThen fun y v hv => .ite (fun _ => .ok hv) fun _ => .ite (fun _ => .stall) fun _ => ?_
  split
  · exact .stall
  · have hkept : Issued s (v.onCore t.part.core fun k => v.keepValue k none) := hv.kept
    dsimp only
    split
    · exact .ok hkept.postEvent
    · refine .ite (fun _ => .stall) fun _ => .ok (hkept.keepAt ?_)
      exact fun _ => rfl

theorem evpost (h : Issued s t) {o : A3} : IssuedBy s (bodyEvpost o t) := by
  unfold bodyEvpost
  refine h.readS.andThen fun x v hv => hv.readS.andThen fun y v hv => .ite (fun _ => .ok hv) fun _ => .ite (fun _ => .stall) fun _ => ?_
  split
  · exact .stall
  · have hkept : Issued s (v.onCore t.part.core fun k => v.keepValue k none) := hv.kept
    refine .ite (fun _ => .ok hkept.onContext) fun _ => ?_
    split
    · exact .ok hkept.postEvent
    · exact .ok hkept.postEvent

theorem bstat (h : Issued s t) {o : A3} : IssuedBy s (bodyBstat o t) := by
  unfold bodyBstat
  exact h.readS.andThen fun _ _ h => (Part.dstS_keeps rfl).map fun _ ha => h.withArch ha

/-! ### Conditional streams -/

theorem swr (h : Issued s t) {o : A3} : IssuedBy s (bodySwr o t) := by
  unfold bodySwr
  refine (Part.srcV_keeps rfl).andThen fun x a ha => ?_
  have hread : Issued s (t.withArch a) := h.withArch ha
  refine .ite (fun _ => .ok hread) fun _ => ?_
  split
  · exact .stall
  · exact .ite (fun _ => .stall) fun _ => hread.chooseGot fun u hu => .ok hu.onLaunch.kept

theorem sendV (h : Issued s t) {n lat : Nat} {v : VReg} {d : Nat} (hd : d = t.part.core) :
    IssuedBy s ((t.part.dstV n v lat 0 (t.core d).arch).map fun a => t.onArch d fun _ => a) := by
  subst hd
  exact (Part.dstV_keeps rfl).map fun _ ha => h.withArch ha

theorem srd (h : Issued s t) {o : A3} : IssuedBy s (bodySrd o t) := by
  unfold bodySrd
  dsimp only
  split
  · exact h.sendV rfl
  · split
    · exact .stall
    · refine .ite (fun _ => .stall) fun _ => h.chooseGot fun u hu => Issued.sendV (hu.onLaunch.keepAt ?_) ?_
      · exact fun _ => rfl
      · exact h.part.trans hu.part.symm

theorem scnt (h : Issued s t) {o : A3} : IssuedBy s (bodyScnt o t) := by
  unfold bodyScnt
  exact (Part.dstV_keeps rfl).map fun _ ha => h.withArch ha

/-! ### Surrogate slots -/

theorem postRegion (h : Issued s t) {core newState r : Nat} {index : W64} : Issued s (t.postRegion core newState r index) := h.postEvent

theorem invalidate (h : Issued s t) {m r core : Nat} {index : W64} {always : Bool} : Issued s (t.invalidate m r core index always) := by
  unfold State.invalidate
  split
  · exact h
  · split
    · split
      · exact h.postRegion
      · exact h
    · exact h.onRegion.postRegion

theorem sginv (h : Issued s t) {o : A3} : IssuedBy s (bodySginv o t) := by
  unfold bodySginv
  refine .ite (fun _ => .ok h) fun _ => ?_
  split
  · exact .stall
  · exact .ok h.invalidate.kept

theorem sgend (h : Issued s t) {o : A3} : IssuedBy s (bodySgend o t) := by
  unfold bodySgend
  refine .ite (fun _ => .stall) fun _ => .ite (fun _ => .ok h) fun _ => ?_
  dsimp only
  split
  · refine .ite (fun _ => .ok h.kept) fun _ => .ite (fun _ => .stall) fun _ => .ite (fun _ => .ok (h.keepAt ?_)) fun _ =>
      .ite (fun _ => .poison) fun _ => .ok (Issued.settleDrops (h.onLaunch.keepAt ?_))
    · exact fun _ => rfl
    · exact fun _ => rfl
  · exact .ok h.kept

theorem sgcfg (h : Issued s t) {o : A3} : IssuedBy s (bodySgcfg o t) := by
  unfold bodySgcfg
  refine h.readS.andThen fun v u hu => ?_
  have hsend : ∀ {w : State} {b : Bool}, Issued s w →
      IssuedBy s ((w.part.dstP o.d.toNat b 1 (w.core t.part.core).arch).map fun a => w.onArch t.part.core fun _ => a) := by
    intro w b hw
    rw [h.part.trans hw.part.symm]
    exact (Part.dstP_keeps rfl).map fun _ ha => hw.withArch ha
  dsimp only
  split
  · exact .stall
  · refine .ite (fun _ => hsend hu) fun _ => hsend ?_
    split
    · exact Issued.onLaunch hu.kept
    · exact hu.kept

/-- An invocation takes its place in SGQ beside scratchpad and registers. -/
theorem appendInvocation_keeps {l : Core} (h : Core.Keeps k l) {r bundle frame : Nat} {index : W64} {ins : List VReg} {weights : Memory} :
    Core.Keeps k (l.appendInvocation r index ins weights bundle frame) := by
  unfold Core.appendInvocation Core.append
  exact h
theorem withRegion_keeps {l : Core} (h : Core.Keeps k l) {r : Option OpenRegion} : Core.Keeps k { l with region := r } := h
theorem withWait_keeps {l : Core} (h : Core.Keeps k l) {x : StreamWait} : Core.Keeps k { l with wait := x } := h
theorem keepValue_keeps {l : Core} (h : Core.Keeps k l) {w : State} {v : Option W64} : Core.Keeps k (w.keepValue l v) := h

theorem sgbeg (h : Issued s t) {o : A3} : IssuedBy s (bodySgbeg o t) := by
  unfold bodySgbeg
  refine h.claimSlot fun u hu => ?_
  dsimp only
  split
  · exact .stall
  · next l x _ =>
    split
    · next r _ =>
      split
      · refine .ite (fun _ => .ok ?_) fun _ => .ok hu
        exact Issued.other (t := u.onCore u.part.core fun k => { k with wait := .invocation (fld o.m 0 6) u.part.next })
          (hu.keepAt fun _ => rfl) rfl
      · refine Issued.jump (hu.onArch ?_) rfl
        exact fun _ => Arch.writeOutputs_keeps rfl ..
    · refine hu.abandon fun w hw => .ite (fun _ => .poison) fun _ => ?_
      have hbegan : ∀ {v : State} {f : Launch → Launch}, Issued s v → Issued s (if w.holds l = true then v.onLaunch l.id f else v) := by
        intro v f hv
        split
        · exact hv.onLaunch
        · exact hv
      refine .ite (fun _ => .ok (hbegan (hw.setCore ?_))) fun _ => .ite (fun _ => .stall) fun _ =>
        .ite (fun _ => .ok (hbegan (hw.setCore ?_))) fun _ => .ok (Issued.setPart (hbegan (hw.setCore ?_)) hw.part)
      · exact hw.keeps u.part.core
      · refine withRegion_keeps (keepValue_keeps (appendInvocation_keeps ?_))
        exact hw.keeps u.part.core
      · refine withWait_keeps (keepValue_keeps (appendInvocation_keeps ?_))
        exact hw.keeps u.part.core

/-! ### Every slot -/

theorem vecInt2 (h : Issued s t) {lat : Nat} {o : A3} {f : Int → Int → Int} : IssuedBy s (vecInt2 lat o f t) := by
  unfold Machine.vecInt2
  exact h.vec2
theorem vecFp2 (h : Issued s t) {lat : Nat} {o : A3} {f : Fmt → Nat → Nat → Nat × BitVec 5} : IssuedBy s (vecFp2 lat o f t) := by
  unfold Machine.vecFp2
  exact h.vec2

theorem vnarw (h : Issued s t) {o : A3} : IssuedBy s (bodyVnarw o t) := by
  unfold bodyVnarw
  exact h.vec2
theorem vwide (h : Issued s t) {o : A3} : IssuedBy s (bodyVwide o t) := by
  unfold bodyVwide
  exact h.vec1
theorem vperm (h : Issued s t) {o : A3} : IssuedBy s (bodyVperm o t) := by
  unfold bodyVperm
  exact h.vec2
theorem vshuf (h : Issued s t) {o : A3} : IssuedBy s (bodyVshuf o t) := by
  unfold bodyVshuf
  exact h.vec2

theorem slot (h : Issued s t) {i : Instr} (hi : ∀ o, i ≠ .loopm o) : IssuedBy s (slotBody i t) := by
  cases i with
  | add o | sub o | mul o | mulh o | mulhn o | div o | divn o | rem o | remn o | andS o | orS o | xorS o | andn o | minS o | maxS o
  | minn o | maxn o | bfi o | fadds o | fmuls o | fmms o =>
    dsimp only [slotBody]
    exact h.scalar2
  | shl o | shr o | sar o | rotr o =>
    dsimp only [slotBody]
    exact h.shift
  | clz o | ctz o | popc o | sext o | zext o | bfx o | fcvts o =>
    dsimp only [slotBody]
    exact h.scalar1
  | sel o =>
    dsimp only [slotBody]
    exact h.sel
  | addi o =>
    dsimp only [slotBody]
    exact h.addi
  | cmpi o =>
    dsimp only [slotBody]
    exact h.cmpi
  | movi o =>
    dsimp only [slotBody]
    exact h.movi
  | movhi o =>
    dsimp only [slotBody]
    exact h.movhi
  | cmp o | fcmps o =>
    dsimp only [slotBody]
    exact h.scalarP
  | plog o =>
    dsimp only [slotBody]
    exact h.plog
  | ptst o =>
    dsimp only [slotBody]
    exact h.ptst
  | fmas o =>
    dsimp only [slotBody]
    exact h.fmas
  | bri o =>
    dsimp only [slotBody]
    exact h.bri
  | br o =>
    dsimp only [slotBody]
    exact h.br
  | call o =>
    dsimp only [slotBody]
    exact h.call
  | ret o =>
    dsimp only [slotBody]
    exact h.ret
  | trap o | brk o =>
    dsimp only [slotBody]
    exact h.trapAfter
  | eret o =>
    dsimp only [slotBody]
    exact h.eret
  | sysr o =>
    dsimp only [slotBody]
    exact h.sysr
  | sysw o =>
    dsimp only [slotBody]
    exact h.sysw
  | loopm o =>
    exact absurd rfl (hi o)
  | lbrk o =>
    dsimp only [slotBody]
    exact h.lbrk
  | spawn o =>
    dsimp only [slotBody]
    exact h.spawn
  | susp o =>
    dsimp only [slotBody]
    exact h.susp
  | steal o =>
    dsimp only [slotBody]
    exact h.steal
  | launchMsg o =>
    dsimp only [slotBody]
    exact h.launchMsg
  | bend o =>
    dsimp only [slotBody]
    exact h.bend
  | qsend o =>
    dsimp only [slotBody]
    exact h.qsend
  | evpost o =>
    dsimp only [slotBody]
    exact h.evpost
  | bstat o =>
    dsimp only [slotBody]
    exact h.bstat
  | sgbeg o =>
    dsimp only [slotBody]
    exact h.sgbeg
  | sgend o =>
    dsimp only [slotBody]
    exact h.sgend
  | sginv o =>
    dsimp only [slotBody]
    exact h.sginv
  | sgcfg o =>
    dsimp only [slotBody]
    exact h.sgcfg
  | vadd o | vsub o | vmul o | vmulh o | vmin o | vmax o | vsadd o | vssub o =>
    dsimp only [slotBody]
    exact h.vecInt2
  | vand o | vor o | vxor o | vfsgn o =>
    dsimp only [slotBody]
    exact h.vec2
  | vfadd o | vfsub o | vfmul o | vfmin o | vfmax o =>
    dsimp only [slotBody]
    exact h.vecFp2
  | vnarw o =>
    dsimp only [slotBody]
    exact h.vnarw
  | vwide o =>
    dsimp only [slotBody]
    exact h.vwide
  | vperm o =>
    dsimp only [slotBody]
    exact h.vperm
  | vshuf o =>
    dsimp only [slotBody]
    exact h.vshuf
  | vmac o =>
    dsimp only [slotBody]
    exact h.vmac
  | vdot4 o | vdot2 o =>
    dsimp only [slotBody]
    exact h.vecDot
  | vabs o | vfcls o | vmov o =>
    dsimp only [slotBody]
    exact h.vec1
  | vshl o | vshr o | vsar o | vrshr o =>
    dsimp only [slotBody]
    exact h.vecShift
  | vcmp o | vfcmp o =>
    dsimp only [slotBody]
    exact h.vecCompare
  | klog o =>
    dsimp only [slotBody]
    exact h.klog
  | kpop o =>
    dsimp only [slotBody]
    exact h.kpop
  | kfst o =>
    dsimp only [slotBody]
    exact h.kfst
  | kset o =>
    dsimp only [slotBody]
    exact h.kset
  | vsel o =>
    dsimp only [slotBody]
    exact h.vsel
  | vfma o =>
    dsimp only [slotBody]
    exact h.vfma
  | vxdot o =>
    dsimp only [slotBody]
    exact h.vxdot
  | vxadd o =>
    dsimp only [slotBody]
    exact h.vxadd
  | vsum o =>
    dsimp only [slotBody]
    exact h.vsum
  | vscan o =>
    dsimp only [slotBody]
    exact h.vscan
  | vcvt o =>
    dsimp only [slotBody]
    exact h.vcvt
  | vcvt8 o =>
    dsimp only [slotBody]
    exact h.vcvt8
  | vmxq o =>
    dsimp only [slotBody]
    exact h.vmxq
  | vmxdq o =>
    dsimp only [slotBody]
    exact h.vmxdq
  | vexp o =>
    dsimp only [slotBody]
    exact h.vexp
  | vpack o =>
    dsimp only [slotBody]
    exact h.vpack
  | vunpk o =>
    dsimp only [slotBody]
    exact h.vunpk
  | vslide o =>
    dsimp only [slotBody]
    exact h.vslide
  | vbcst o =>
    dsimp only [slotBody]
    exact h.vbcst
  | vextr o =>
    dsimp only [slotBody]
    exact h.vextr
  | vins o =>
    dsimp only [slotBody]
    exact h.vins
  | vmovi o =>
    dsimp only [slotBody]
    exact h.vmovi
  | swr o =>
    dsimp only [slotBody]
    exact h.swr
  | srd o =>
    dsimp only [slotBody]
    exact h.srd
  | scnt o =>
    dsimp only [slotBody]
    exact h.scnt
  | aadd o | asub o | amul o | aand o | amin o =>
    dsimp only [slotBody]
    exact h.addr2
  | aaddi o =>
    dsimp only [slotBody]
    exact h.aaddi
  | ashl o =>
    dsimp only [slotBody]
    exact h.ashl
  | acmp o =>
    dsimp only [slotBody]
    exact h.acmp
  | amovi o =>
    dsimp only [slotBody]
    exact h.amovi
  | ld o | ldacq o =>
    dsimp only [slotBody]
    exact h.loadScalar
  | st o | strel o =>
    dsimp only [slotBody]
    exact h.storeScalar
  | vld o =>
    dsimp only [slotBody]
    exact h.vld
  | vlds o =>
    dsimp only [slotBody]
    exact h.vlds
  | vldx o =>
    dsimp only [slotBody]
    exact h.vldx
  | vst o =>
    dsimp only [slotBody]
    exact h.vst
  | vsts o =>
    dsimp only [slotBody]
    exact h.vsts
  | vstx o =>
    dsimp only [slotBody]
    exact h.vstx
  | feset o =>
    dsimp only [slotBody]
    exact h.feset
  | fetst o =>
    dsimp only [slotBody]
    exact h.fetst
  | amo o =>
    dsimp only [slotBody]
    exact h.amo
  | cas o =>
    dsimp only [slotBody]
    exact h.cas
  | red o =>
    dsimp only [slotBody]
    exact h.red
  | vred o =>
    dsimp only [slotBody]
    exact h.vred
  | fence o =>
    dsimp only [slotBody]
    exact h.fence
  | qfence o =>
    dsimp only [slotBody]
    exact h.qfence
  | cpy o | cpyt o | cpyn o | cpym o =>
    dsimp only [slotBody]
    exact h.copy
  | xlatq o =>
    dsimp only [slotBody]
    exact h.xlatq
  | mma o =>
    dsimp only [slotBody]
    exact h.mma
  | mlat o =>
    dsimp only [slotBody]
    exact h.mlat
  | mcfg o =>
    dsimp only [slotBody]
    exact h.mcfg
  | sfn o =>
    dsimp only [slotBody]
    exact h.sfn
  | gath o | scat o =>
    dsimp only [slotBody]
    exact h.gather
  | _ => exact .ok h

end Issued

end Sys2Proof.Machine

/-! Proofs for spec/03 and spec/01: what performing a slot instruction leaves as it is, whatever comes of it (R11, R49, R58, R77). -/

namespace Sys2Proof.Machine

open Safety

/-! ### A loop that begins (R224) -/

/-- The core with another predicate file. -/
def Core.withP (k : Core) (p : BitVec 16) : Core := { k with arch := { k.arch with p := p } }

/-- As `Issued`, but a loop may have begun: p12 to p15 of cores are new. -/
structure Begun (s t : State) : Prop where
  wf : CoresWf t
  keeps : ∀ c, ∃ p, (∀ n, n < 12 → predBit p n = predBit (s.core c).arch.p n) ∧ Core.Keeps ((s.core c).withP p) (t.core c)
  fixed : (t.csm, t.host, t.part.core) = (s.csm, s.host, s.part.core)
  stepped : Memory.wf s.stepMeta = true → Memory.wf t.stepMeta = true
  dram : Memory.wf s.hbm.dram = true → Memory.wf t.hbm.dram = true

section Loops
variable {s t u : State}

theorem Issued.begun (h : Issued s t) : Begun s t :=
  ⟨h.wf, fun c => ⟨(s.core c).arch.p, fun _ _ => rfl, h.keeps c⟩, h.fixed, h.stepped, h.dram⟩

theorem go_predBit {a : Arch} {j : Jump} {n : Nat} (hn : n < 12) : predBit (a.go j).p n = predBit a.p n := by
  show predBit (match j.loop, j.starts with
    | some l, true => l.stagePreds a.p
    | _, _ => a.p) n = _
  split
  · rw [predBit_stagePreds, if_neg (by omega)]
  · rfl

theorem Issued.jump_begins (h : Issued s t) {j : Jump} (hj : j.link = none) : (t.jump j).Sat (Begun s) := by
  unfold State.jump
  dsimp only
  rw [hj]
  refine .ite (fun _ => .ok (Issued.begun (Issued.collide (h.other rfl)))) fun _ => .ok ?_
  split
  · refine Issued.begun (Issued.onCore ?_ ?_)
    · exact h.other rfl
    · exact fun l hl => hl
  · refine ⟨Sparse.set_wf h.wf, fun c => ?_, h.fixed, h.stepped, h.dram⟩
    have hk := h.keeps c
    show ∃ p, _ ∧ Core.Keeps _ ((t.setCore t.part.core { t.core t.part.core with arch := (t.core t.part.core).arch.go j }).core c)
    rw [State.core_setCore h.wf]
    split
    · next hc =>
      subst hc
      refine ⟨((t.core t.part.core).arch.go j).p, fun n hn => ?_, ?_⟩
      · rw [go_predBit hn]
        have hp : (t.core t.part.core).arch.p = (s.core t.part.core).arch.p := congrArg (fun w => w.2.2.2.2.1) hk
        rw [hp]
      · exact congrArg (fun w => (w.1, w.2.1, w.2.2.1, w.2.2.2.1, ((t.core t.part.core).arch.go j).p, w.2.2.2.2.2)) hk
    · exact ⟨_, fun _ _ => rfl, hk⟩

theorem Issued.loopm (h : Issued s t) {o : A3} : (bodyLoopm o t).Sat (Begun s) := by
  unfold bodyLoopm
  exact h.readS.andThen fun x v hv => .ite (fun _ => hv.jump_begins rfl) fun _ => hv.jump_begins rfl

/-- What the body of a slot gives, whichever it is. -/
theorem slotBody_begins (w : CoresWf s) (i : Instr) : (slotBody i s).Sat (Begun s) := by
  by_cases hi : ∃ o, i = .loopm o
  · obtain ⟨o, rfl⟩ := hi
    dsimp only [slotBody]
    exact (Issued.refl w).loopm
  · exact fun t ht => ((Issued.refl w).slot (fun o ho => hi ⟨o, ho⟩) t ht).begun

end Loops

/-! ### Attempts that are set back (R11, R77) -/

section Settled
variable {s t : State} {i : Instr}

theorem withdraw_wf (w : CoresWf s) : CoresWf s.withdraw := Sparse.set_wf w
theorem withdraw_core (w : CoresWf s) (c : Nat) : s.withdraw.core c = if c = s.part.core then s.part.before else s.core c :=
  Sparse.get_set w c

theorem cancelPart_issued (w : CoresWf s) (cause : Nat) (addr : W64) : Issued s.withdraw (s.cancelPart cause addr) :=
  (Issued.refl (withdraw_wf w)).onArch (c := s.part.core) (f := fun a => a.askTrap cause addr s.part.pc) fun _ => rfl

/-- An attempt is done, or the core stands as before its part but for what the outcome asks for. -/
theorem settle_cases (w : CoresWf s) (x : Got State) : x = .ok (s.settle x) ∨ Issued s.withdraw (s.settle x) := by
  have hset := Issued.refl (withdraw_wf w)
  cases x with
  | ok t => exact .inl rfl
  | stall => exact .inr hset
  | held id kind tgt => exact .inr (hset.noteHold ..)
  | poison => exact .inr (hset.onCore (c := s.part.core)
      (f := fun k => { k with mustClose := true, seg := { k.seg with errorAt := some s.part.bundle } }) fun l hl => hl)
  | trap cause addr => exact .inr (cancelPart_issued w cause addr)
  | stray addr =>
    have hstray : Issued s.withdraw (s.withdraw.onArch s.part.core fun a => { a with ecause := ecStray }) := by
      refine hset.onArch ?_
      exact fun _ => rfl
    refine .inr ?_
    show Issued s.withdraw ((s.withdraw.onArch s.part.core _).pinCore s.part.core causeStray)
    unfold State.pinCore
    split
    · exact hstray
    · exact hstray.onLaunch

/-- Performing a slot does what its body gives, nothing, or sets the part back. -/
theorem exec_slot_cases (w : CoresWf s) (hi : i.guard?.isSome = true) (ht : exec i s = .next t) :
    slotBody i s = .ok t ∨ t = s ∨ Issued s.withdraw t := by
  obtain ⟨g, hg⟩ := Option.isSome_iff_exists.mp hi
  rw [exec_slot hi] at ht
  unfold runSlot at ht
  rw [hg] at ht
  dsimp only at ht
  split at ht
  · split at ht
    · exact Host.Outcome.next.inj ht ▸ .inr (.inr (cancelPart_issued w _ _))
    · obtain rfl := Host.Outcome.next.inj ht
      rcases settle_cases w (slotBody i s) with hdone | hback
      · exact .inl hdone
      · exact .inr (.inr hback)
  · exact .inr (.inl (Host.Outcome.next.inj ht).symm)

end Settled

/-! ### The two rules over all slot instructions -/

/-- What R58 and R59 say of a core, from the one that it is compared with. -/
theorem keeps_files {k l : Core} (h : Core.Keeps k l) : l.scratch = k.scratch ∧ l.full = k.full ∧ files l = files k := by
  simp only [Core.Keeps, Prod.mk.injEq] at h
  obtain ⟨hscratch, hfull, hwritten⟩ := h
  exact ⟨hscratch, hfull, hwritten⟩

/-- Settles O58: what a slot has done keeps the files (`Issued.slot`), but for the stage predicates of LOOPM (`Issued.loopm`); any other outcome
sets the core back (`settle_cases`). -/
theorem slotsWriteNothingAtIssue : Obligations.SlotsWriteNothingAtIssue := by
  unfold Obligations.SlotsWriteNothingAtIssue
  intro i s t w hi ht
  have hissued : ∀ k c, Core.Keeps k (t.core c) → (k = s.core c ∨ (c = s.part.core ∧ k = s.part.before)) →
      ∃ k p, (k = s.core c ∨ (c = s.part.core ∧ k = s.part.before)) ∧ (t.core c).scratch = k.scratch ∧ (t.core c).full = k.full ∧
        files (t.core c) = files { k with arch := { k.arch with p := p } } ∧ (∀ n, n < 12 → predBit p n = predBit k.arch.p n) ∧
        ((∀ o, i ≠ .loopm o) → p = k.arch.p) := by
    intro k c hk hfrom
    obtain ⟨hscratch, hfull, hfiles⟩ := keeps_files hk
    exact ⟨k, k.arch.p, hfrom, hscratch, hfull, hfiles, fun _ _ => rfl, fun _ => rfl⟩
  rcases exec_slot_cases w hi ht with hbody | rfl | hback
  · by_cases hloop : ∃ o, i = .loopm o
    · have hbegun := slotBody_begins w i t hbody
      have hfixed := hbegun.fixed
      simp only [Prod.mk.injEq] at hfixed
      obtain ⟨hcsm, hhost, -⟩ := hfixed
      refine ⟨hcsm, hhost, fun c => ?_⟩
      obtain ⟨p, hp, hk⟩ := hbegun.keeps c
      obtain ⟨hscratch, hfull, hfiles⟩ := keeps_files hk
      exact ⟨s.core c, p, .inl rfl, hscratch, hfull, hfiles, hp, fun hno => absurd hloop fun ⟨o, ho⟩ => hno o ho⟩
    · have hslot := (Issued.refl w).slot (fun o ho => hloop ⟨o, ho⟩) t hbody
      exact ⟨hslot.csm, hslot.host, fun c => hissued (s.core c) c (hslot.keeps c) (.inl rfl)⟩
  · exact ⟨rfl, rfl, fun c => hissued (t.core c) c rfl (.inl rfl)⟩
  · refine ⟨hback.csm, hback.host, fun c => ?_⟩
    have hk := hback.keeps c
    rw [withdraw_core w] at hk
    split at hk
    · next hc => exact hissued s.part.before c hk (.inr ⟨hc, rfl⟩)
    · exact hissued (s.core c) c hk (.inl rfl)

/-- A slot keeps the tables in canonical form. -/
theorem canonical_slot {s t : State} {i : Instr} (hi : i.guard?.isSome = true) (h : Canonical s) (ht : exec i s = .next t) : Canonical t := by
  obtain ⟨w, hcsm, hhost, hstep, hdram⟩ := h
  rcases exec_slot_cases w hi ht with hbody | rfl | hback
  · have hbegun := slotBody_begins w i t hbody
    have hfixed := hbegun.fixed
    simp only [Prod.mk.injEq] at hfixed
    obtain ⟨hcsm', hhost', -⟩ := hfixed
    exact ⟨hbegun.wf, hcsm' ▸ hcsm, hhost' ▸ hhost, hbegun.stepped hstep, hbegun.dram hdram⟩
  · exact ⟨w, hcsm, hhost, hstep, hdram⟩
  · exact ⟨hback.wf, hback.csm ▸ hcsm, hback.host ▸ hhost, hback.stepped hstep, hback.dram hdram⟩

end Sys2Proof.Machine

/-! Proofs for the model's form of the tables (log entry 1): what keeps them canonical, from the primitives up to the streams of a core. -/

namespace Sys2Proof.Safety.Canonical

open Machine

variable {s t u : State} {c : Nat}

/-! ### Primitives -/

theorem cores (h : Canonical s) : CoresWf s := h.1

/-- Only the tables of cores and memories matter. -/
theorem other (h : Canonical s) (ht : (t.cores, t.csm, t.host, t.stepMeta, t.hbm.dram) = (s.cores, s.csm, s.host, s.stepMeta, s.hbm.dram)) :
    Canonical t := by
  simp only [Prod.mk.injEq] at ht
  obtain ⟨hcores, hcsm, hhost, hstep, hdram⟩ := ht
  unfold Canonical CoresWf
  rw [hcores, hcsm, hhost, hstep, hdram]
  exact h

theorem setCore (h : Canonical s) {k : Core} : Canonical (s.setCore c k) := ⟨Sparse.set_wf h.1, h.2⟩
theorem onCore (h : Canonical s) {f : Core → Core} : Canonical (s.onCore c f) := h.setCore
theorem onArch (h : Canonical s) {f : Arch → Arch} : Canonical (s.onArch c f) := h.setCore
theorem onHead (h : Canonical s) {q : Nat} {f : Op → Op} : Canonical (s.onHead c q f) := h.setCore

theorem putCsm (h : Canonical s) {pa : Nat} {l : List Byte} : Canonical (s.putCsm pa l) := ⟨h.1, putMem_wf h.2.1, h.2.2⟩
theorem putHost (h : Canonical s) {a : Nat} {l : List Byte} : Canonical { s with host := putMem s.host a l } :=
  ⟨h.1, h.2.1, putMem_wf h.2.2.1, h.2.2.2⟩

/-- Stacked memory has been worked on. -/
theorem far (h : Canonical s) (w : FarWork s t) : Canonical t := by
  have hstores := w.stores
  simp only [Prod.mk.injEq] at hstores
  obtain ⟨hcores, hcsm, -, hhost, hstep, -⟩ := hstores
  obtain ⟨hc, hm, hh, hs, hd⟩ := h
  refine ⟨?_, ?_, ?_, ?_, w.wf hd⟩
  · unfold CoresWf
    rwa [hcores]
  · rwa [hcsm]
  · rwa [hhost]
  · rwa [hstep]

/-- Work that a slot does at its issue. -/
theorem via (h : Canonical s) (hi : Issued s s → Issued s t) : Canonical t := by
  have hissued := hi (.refl h.1)
  obtain ⟨hc, hm, hh, hs, hd⟩ := h
  exact ⟨hissued.wf, hissued.csm ▸ hm, hissued.host ▸ hh, hissued.stepped hs, hissued.dram hd⟩

theorem ite (p : Prop) [Decidable p] (ht : Canonical t) (hu : Canonical u) : Canonical (if p then t else u) := by
  split
  · exact ht
  · exact hu

theorem foldl {α : Type} {f : State → α → State} (hf : ∀ t x, Canonical t → Canonical (f t x)) (l : List α) (h : Canonical s) :
    Canonical (l.foldl f s) := by
  induction l generalizing s with
  | nil => exact h
  | cons x l ih => exact ih (hf s x h)

/-- A fold that gathers something beside the state. -/
theorem foldlSnd {α β : Type} {f : β × State → α → β × State} (hf : ∀ p x, Canonical p.2 → Canonical (f p x).2) (l : List α)
    {p : β × State} (h : Canonical p.2) : Canonical (l.foldl f p).2 := by
  induction l generalizing p with
  | nil => exact h
  | cons x l ih => exact ih (hf p x h)
theorem foldlFst {α β : Type} {f : State × β → α → State × β} (hf : ∀ p x, Canonical p.1 → Canonical (f p x).1) (l : List α)
    {p : State × β} (h : Canonical p.1) : Canonical (l.foldl f p).1 := by
  induction l generalizing p with
  | nil => exact h
  | cons x l ih => exact ih (hf p x h)

/-! ### Places -/

theorem settleHbm (h : Canonical s) {m : Hbm} (w : Hbm.Worked s.hbm m) : Canonical (s.settleHbm m) := h.far (.settleHbm w)
theorem tear (h : Canonical s) {asid : Nat} {bad : List Nat} : Canonical (s.tear asid bad) := h.far (.tear ..)
theorem readPlace (h : Canonical s) {asid n : Nat} {p : Place} : Canonical (s.readPlace asid p n).2 := h.far (.readPlace ..)

theorem writePlace (h : Canonical s) {asid core launch : Nat} {p : Place} {l : List Byte} :
    Canonical (s.writePlace asid core launch p l) := by
  cases p with
  | csm pa => exact h.putCsm
  | host a => exact h.putHost
  | hbm pa key => exact h.far (.writePlace_hbm ..)

/-! ### Launches, contexts, events -/

theorem onLaunch (h : Canonical s) {id : Nat} {f : Launch → Launch} : Canonical (s.onLaunch id f) := h.other rfl
theorem pin (h : Canonical s) {id cause addr : Nat} : Canonical (s.pin id cause addr) := h.onLaunch
theorem pinCore (h : Canonical s) {cause : Nat} : Canonical (s.pinCore c cause) := by
  unfold State.pinCore
  split
  · exact h
  · exact h.onLaunch
theorem strayAccess (h : Canonical s) : Canonical (s.strayAccess c) := h.onArch.pinCore
theorem onContext (h : Canonical s) {asid : Nat} {f : Context → Context} : Canonical (s.onContext asid f) := h.via (·.onContext)
theorem onRegion (h : Canonical s) {m r : Nat} {f : Region → Region} : Canonical (s.onRegion m r f) := h.other rfl
theorem postEvent (h : Canonical s) {target source : Nat} {w0 w1 : W64} : Canonical (s.postEvent target source w0 w1) := h.via (·.postEvent)
theorem postRegion (h : Canonical s) {core newState r : Nat} {index : W64} : Canonical (s.postRegion core newState r index) := h.postEvent
theorem invalidate (h : Canonical s) {m r core : Nat} {index : W64} {always : Bool} : Canonical (s.invalidate m r core index always) :=
  h.via (·.invalidate)
theorem noteHold (h : Canonical s) {id kind tgt src aux : Nat} : Canonical (s.noteHold id kind tgt src aux) := h.other rfl
theorem diverge (h : Canonical s) {id off src : Nat} : Canonical (s.diverge id off src) := h.other rfl
theorem postSystem (h : Canonical s) {kind asid cause addr : Nat} : Canonical (s.postSystem kind asid cause addr) := h.other rfl
theorem takeTrap (h : Canonical s) {cause : Nat} {addr epc : W64} : Canonical (s.takeTrap c cause addr epc) := .ite _ h.pinCore h.onCore
theorem made (h : Canonical s) {id kind tgt src aux : Nat} {fixed : Bool} (hu : s.choose id kind tgt src aux fixed = .made u) : Canonical u :=
  h.via fun i => i.made hu

theorem chooseThen (h : Canonical s) {id kind tgt src aux : Nat} {fixed : Bool} {go : State → State}
    (hgo : ∀ u, Canonical u → Canonical (go u)) : Canonical (s.chooseThen id kind tgt src aux fixed go) := by
  unfold State.chooseThen
  split
  · next hu => exact hgo _ (h.made hu)
  · exact h.noteHold
  · exact h.diverge

theorem report (h : Canonical s) {core va n : Nat} {e : TEntry} : Canonical (s.report core e va n) := by
  unfold State.report
  refine .ite _ h ?_
  split
  · exact h
  · refine h.foldl (fun t r ht => ?_) _
    split
    · exact ht
    · exact .ite _ ht.invalidate ht

/-! ### Slots in part -/

theorem withdraw (h : Canonical s) : Canonical s.withdraw := h.setCore (c := s.part.core) (k := s.part.before) |>.other rfl
theorem meetPoison (h : Canonical s) : Canonical s.meetPoison := h.withdraw.onCore
theorem cancelPart (h : Canonical s) {cause : Nat} {addr : W64} : Canonical (s.cancelPart cause addr) := h.withdraw.onArch

/-! ### Fetch (R54 to R57) -/

theorem readCode (h : Canonical s) {asid fuel va n : Nat} : Canonical (s.readCode c asid fuel va n).2 := by
  induction fuel generalizing s va n with
  | zero => exact h
  | succ fuel ih =>
    unfold State.readCode
    split
    · exact h
    · split
      · exact h
      · next e _ =>
        split
        · exact h
        · split
          · exact h
          · have hrest := ih (s := (s.readPlace asid (e.placeOf va) (min n (64 - va % 64))).2) (va := va + min n (64 - va % 64))
              (n := n - min n (64 - va % 64)) h.readPlace
            dsimp only
            split
            · next hr =>
              rw [hr] at hrest
              exact hrest
            · exact hrest

theorem thenBytes {r : CodeRead × State} {f : List Byte → State → Fetched × State} (h : Canonical r.2)
    (hf : ∀ l t, Canonical t → Canonical (f l t).2) : Canonical (CodeRead.thenBytes r f).2 := by
  unfold CodeRead.thenBytes
  split
  · exact h
  · exact hf _ _ h
  · exact h
  · exact h
  · exact h

theorem fetchWords (h : Canonical s) {asid fuel last : Nat} {q : W64} {b : Bundle} :
    Canonical (s.fetchWords c asid fuel q last b).2 := by
  induction fuel generalizing s q last b with
  | zero => exact h
  | succ fuel ih =>
    refine thenBytes h.readCode fun l t ht => ?_
    dsimp only
    split
    · exact ht
    · split
      · exact ht
      · split
        · exact ht
        · exact ih ht

theorem fetch (h : Canonical s) {asid : Nat} {dict : List (BitVec 384)} {pc : W64} : Canonical (s.fetch c asid dict pc).2 := by
  refine thenBytes h.readCode fun l t ht => ?_
  dsimp only
  split
  · split
    · exact ht
    · exact ht
  · split
    · exact ht
    · refine thenBytes ht.readCode fun l t ht => ?_
      split
      · exact ht
      · split
        · exact ht
        · exact ht.fetchWords

/-! ### The streams -/

theorem setupExecute (h : Canonical s) {x : Ahead} {rest : List Ahead} : Canonical (s.setupExecute c x rest) :=
  h.setCore.other rfl
theorem setupAccess (h : Canonical s) {b : Bundle} {next : W64} {preds : BitVec 16} : Canonical (s.setupAccess c b next preds) :=
  h.setCore.other rfl
theorem latchPart (h : Canonical s) {b : Bundle} {side : Side} : Canonical (s.latchPart b side) := h.other rfl
theorem drain (h : Canonical s) {a : Arch} : Canonical (s.drain c a) := h.onCore
theorem ask (h : Canonical s) {cause : Nat} {addr : W64} : Canonical (s.ask c cause addr) := h.onArch

theorem issueExecute (h : Canonical s) : Canonical (s.issueExecute c) := by
  unfold State.issueExecute
  have hl : Canonical (s.onCore c Core.lowerFlag) := h.onCore
  dsimp only
  split
  · exact hl
  · refine .ite _ hl (.ite _ hl ?_)
    split
    · exact hl.drain
    · split
      · exact hl.setupExecute.latchPart
      · exact hl.setupExecute.meetPoison
      · exact hl.strayAccess
      · exact hl.onCore.noteHold
      · exact hl.onCore

theorem cancelAccess (h : Canonical s) {cause : Nat} {addr : W64} : Canonical (s.cancelAccess c cause addr) := by
  unfold State.cancelAccess
  split
  · split
    · exact h.chooseThen fun _ hu => hu.ask
    · exact h.ask
  · exact h.ask

theorem performAccess (h : Canonical s) {b : Bundle} {next : W64} {preds : BitVec 16} {together : Bool} :
    Canonical (s.performAccess c b next preds together) := by
  unfold State.performAccess
  refine .ite _ h ?_
  have hset := h.setupAccess (c := c) (b := b) (next := next) (preds := preds)
  dsimp only
  split
  · refine .ite _ (.ite _ h.onCore h) (.ite _ ?_ hset.latchPart)
    exact (hset.latchPart (b := b) (side := .access)).other rfl
  · exact hset.meetPoison
  · exact h.cancelAccess
  · exact h.strayAccess
  · exact h.onCore.noteHold
  · exact h.onCore

theorem meetBundle (h : Canonical s) {b : Bundle} {next : W64} : Canonical (s.meetBundle c b next) := by
  unfold State.meetBundle
  dsimp only
  refine .ite _ h.performAccess (.ite _ h ?_)
  split
  · exact h.ask
  · exact h.drain
  · refine .ite _ h.ask (.ite _ h.ask (.ite _ h.onCore (.ite _ h.onCore (.ite _ h (.ite _ h.performAccess ?_)))))
    split
    · exact h.performAccess
    · exact h.ask
    · exact h.onCore
    · exact h.strayAccess
    · exact h.onCore.noteHold
    · exact h.onCore

theorem passOver (h : Canonical s) {asid : Nat} : Canonical (s.passOver c asid) := by
  unfold State.passOver
  have hf := h.fetch (c := c) (asid := asid) (dict := List.replicate 0xFF00 0) (pc := (s.core c).arch.pc)
  dsimp only [State.fetchLength]
  split
  · exact hf.onArch
  · exact onArch (.ite _ hf hf.ask)
  · exact hf.strayAccess
  · exact hf.strayAccess
  · exact hf
  · exact hf.onCore

theorem issueAccess (h : Canonical s) : Canonical (s.issueAccess c) := by
  unfold State.issueAccess
  have hl : Canonical (s.onCore c Core.lowerFlag) := h.onCore
  dsimp only
  split
  · exact hl
  · refine .ite _ hl (.ite _ hl.passOver (.ite _ (.ite _ hl.ask hl) ?_))
    split
    · exact hl.fetch.meetBundle
    · refine .ite _ hl.fetch ?_
      split
      · exact hl.fetch.ask
      · exact hl.fetch.ask
      · exact hl.fetch.strayAccess
      · exact hl.fetch.ask
      · exact hl.fetch.onCore

theorem issue (h : Canonical s) {side : Side} : Canonical (s.issue c side) := by
  cases side with
  | execute => exact h.issueExecute
  | access => exact h.issueAccess

/-! ### Results, accesses, lines -/

theorem landing (h : Canonical s) {l : List (Nat × Nat)} : Canonical (s.landing l) := by
  unfold State.landing
  exact (h.foldl (fun _ _ ht => ht.onCore) _).other rfl

theorem serveOp (h : Canonical s) {line who : Nat} {b : List Byte} : Canonical (s.serveOp c line b who) := h.onHead.onCore
theorem serveLine (h : Canonical s) {line : Nat} : Canonical (s.serveLine c line) := h.foldl (fun _ _ ht => ht.serveOp) _

theorem claim (h : Canonical s) {q : Nat} {o : Op} : Canonical (s.claim c q o) := by
  unfold State.claim
  exact .ite _ h.pinCore h.setCore.onHead
theorem serveClaim (h : Canonical s) {lines : List Nat} : Canonical (s.serveClaim c lines) := by
  unfold State.serveClaim
  dsimp only
  split
  · exact .ite _ h.claim h.claim
  · exact h.claim
  · exact h
theorem serveCore (h : Canonical s) {lines : List Nat} : Canonical (s.serveCore c lines).1 := h.setCore.serveClaim
theorem serveOnce (h : Canonical s) {keys : List Nat} : Canonical (s.serveOnce keys).1 := by
  unfold State.serveOnce
  refine foldlFst (fun p x ht => ?_) _ ?_
  · exact ht.serveCore
  · exact h.foldl (fun _ _ ht => ht.serveLine) _
theorem serveLines (h : Canonical s) {keys : List Nat} : Canonical (s.serveLines keys) := h.serveOnce.serveOnce

/-! ### Segments -/

theorem rewindCore (h : Canonical s) : Canonical (s.rewindCore c) := .ite _ h.pinCore h.onCore

/-- What a close gives, if it goes on. -/
theorem closeSegment (h : Canonical s) {saving : Bool} (hu : s.closeSegment c saving = some u) : Canonical u := by
  unfold State.closeSegment at hu
  dsimp only at hu
  have hset : ∀ k, some (s.setCore c k) = some u → Canonical u := fun k hk => Option.some.inj hk ▸ h.setCore
  split at hu
  · exact absurd hu (by simp)
  split at hu
  · split at hu
    · exact hset _ hu
    · exact absurd hu (by simp)
  split at hu
  · split at hu
    · exact absurd hu (by simp)
    · exact Option.some.inj hu ▸ h.rewindCore
  split at hu
  · exact absurd hu (by simp)
  split at hu
  · exact absurd hu (by simp)
  split at hu
  · exact hset _ hu
  · exact hset _ hu

theorem closed (h : Canonical s) {saving : Bool} : Canonical ((s.closeSegment c saving).getD s) := by
  cases hc : s.closeSegment c saving with
  | none => exact h
  | some u => exact h.closeSegment hc

end Sys2Proof.Safety.Canonical

/-! Proofs for the model's form of the tables (log entry 1): streams, segments, binding, operations and requests keep them canonical. -/

namespace Sys2Proof.Safety

open Machine

/-- A next state, if there is one, has its tables in canonical form. -/
def StaysCanonical (o : Out) : Prop := ∀ t, o = .next t → Canonical t

namespace StaysCanonical
variable {t : State} {x y : Out}

theorem next (h : Canonical t) : StaysCanonical (.next t) := fun _ hu => Host.Outcome.next.inj hu ▸ h

theorem ite (p : Prop) [Decidable p] (hx : StaysCanonical x) (hy : StaysCanonical y) : StaysCanonical (if p then x else y) := by
  split
  · exact hx
  · exact hy

end StaysCanonical

namespace Canonical
variable {s t u : State} {c : Nat}

/-! ### Streams and segments -/

theorem streamPartIssue (h : Canonical s) {side : Side} : StaysCanonical (execStreamPartIssue c side s) := .next h.issue
theorem stallCountExpiry (h : Canonical s) {side : Side} : StaysCanonical (execStallCountExpiry c side s) :=
  .ite _ (.next h.onCore) (.next h)
theorem resultLands (h : Canonical s) {side : Side} : StaysCanonical (execResultLands c side s) :=
  .ite _ (.next h) (.ite _ (.next h.onArch) (.ite _ (.next h.onArch) (.next h)))
theorem scratchpadAccessPoint (h : Canonical s) : StaysCanonical (execScratchpadAccessPoint c s) :=
  .ite _ (.next h) (.ite _ (.next h.setCore.landing.serveLines) (.next h.setCore))

theorem trapEntry (h : Canonical s) : StaysCanonical (execTrapEntry c s) := by
  unfold execTrapEntry
  refine .ite _ (.next h) ?_
  split
  · exact .next h.takeTrap
  · exact .ite _ (.next h) (.ite _ (.next h.onCore) (.next h.onCore.takeTrap))
  · exact .next h

theorem benchCycleSteal (h : Canonical s) {side : Side} : StaysCanonical (execBenchCycleSteal c side s) := .ite _ (.next h.setCore) (.next h)
theorem segmentClose (h : Canonical s) : StaysCanonical (execSegmentClose c s) := .ite _ (.next h.closed) (.next h)

theorem rendezvous (h : Canonical s) : StaysCanonical (execRendezvous c s) := by
  unfold execRendezvous
  dsimp only
  split
  · exact .next h
  · refine .ite _ (.next h) ?_
    split
    · exact .ite _ (.next h.onCore) (.next h)
    · exact .next h

/-! ### Reading and writing of operations -/

theorem grabLine (h : Canonical s) {frame since key : Nat} : Canonical (s.grabLine c frame since key).2 := by
  unfold State.grabLine
  dsimp only
  split
  · split
    · split
      · exact h
      · exact h.readPlace
    · exact h
    · exact h
  · exact h

theorem grabLines (h : Canonical s) {frame since : Nat} {keys : List Nat} {had : List (Nat × List Byte)} :
    Canonical (s.grabLines c frame since keys had).2 := by
  unfold State.grabLines
  refine foldlSnd (fun p key hp => ?_) _ h
  dsimp only
  split
  · exact hp
  · exact hp.grabLine

theorem dropReader (h : Canonical s) {q : Nat} {o : Op} : Canonical (s.dropReader c q o) := h.foldl (fun _ _ ht => ht.onCore) _
theorem addReader (h : Canonical s) {q : Nat} {keys : List Nat} : Canonical (s.addReader c q keys) :=
  h.foldl (fun _ _ ht => .ite _ ht ht.onCore) _

theorem operands (h : Canonical s) {q : Nat} {o : Op} {keys : List Nat} : Canonical (s.operands c q o keys).2 := by
  unfold State.operands
  have hread : Canonical ((s.grabLines c o.frame o.since (distinct keys) o.fetched).2.dropReader c q o) := h.grabLines.dropReader
  dsimp only
  split
  · exact hread.onHead.strayAccess
  · split
    · exact hread.onHead.pinCore
    · split
      · exact hread.onHead
      · exact hread.onHead.addReader

/-- What reading the lines of a step has left, once its outcome is known. -/
theorem operands_of (h : Canonical s) {q : Nat} {o : Op} {keys : List Nat} {x : Option (List (Nat × List Byte))}
    (hr : s.operands c q o keys = (x, u)) : Canonical u := by
  have hread := h.operands (c := c) (q := q) (o := o) (keys := keys)
  rwa [hr] at hread

theorem stepCheckWord (h : Canonical s) {asid va x n : Nat} {e : TEntry} {again : Bool}
    (hu : s.stepCheckWord asid e va x n again = some u) : Canonical u := h.via fun i => i.stepCheckWord hu

theorem engineWords (h : Canonical s) {l : Launch} {key n idx fuel va : Nat} {e : TEntry} {b : List Byte} :
    Canonical (s.engineWords l key n idx e fuel va b) := by
  induction fuel generalizing s va b with
  | zero => exact h
  | succ fuel ih =>
    unfold State.engineWords
    refine .ite _ h (ih ?_)
    split
    · exact h.chooseThen fun _ hu => hu.onCore
    · next hu => exact (h.stepCheckWord hu).writePlace.report

theorem engineWrite (h : Canonical s) {l : Launch} {key n idx va : Nat} {e : TEntry} {b : List Byte} :
    Canonical (s.engineWrite l key n idx e va b) := by
  unfold State.engineWrite
  exact .ite _ (h.engineWords.via (·.endHolds ..)) h.writePlace.report

theorem land (h : Canonical s) {n : Nat} {p : Puts} : Canonical (s.land c n p) := by
  unfold State.land
  refine landing (h.foldl (fun t space ht => ?_) _)
  dsimp only
  refine .ite _ (ht.foldl (fun t x ht => ?_) _) ht.onCore
  split
  · exact ht.engineWrite
  · exact ht

theorem fillLines (h : Canonical s) {keys : List Nat} : Canonical (s.fillLines keys) :=
  serveLines (h.foldl (fun _ _ ht => .ite _ ht ht.onCore) _)

/-! ### Binding -/

theorem settleUnits (h : Canonical s) {cluster : Nat} : Canonical (s.settleUnits cluster) := h.other rfl
theorem fieldmaskRemove (h : Canonical s) {cluster : Nat} {mask : BitVec 17} : StaysCanonical (execFieldmaskRemove cluster mask s) :=
  .ite _ (.next h) (.next (h.other rfl))

theorem unmark (h : Canonical s) {cluster q : Nat} {kind : UnitKind} : Canonical (s.unmark cluster kind c q) :=
  h.foldl (fun _ _ ht => .ite _ ht.onHead ht) _

theorem arbitrate (h : Canonical s) {cluster fuel : Nat} {kind : UnitKind} {l : List (Nat × Nat)} :
    Canonical (s.arbitrate cluster kind fuel l) := by
  induction fuel generalizing s l with
  | zero => exact h
  | succ fuel ih =>
    cases l with
    | nil => exact h
    | cons x rest =>
      unfold State.arbitrate
      have hun : Canonical (s.unmark cluster kind x.1 x.2) := h.unmark
      dsimp only
      split
      · exact ih hun
      · split
        · exact ih hun.onHead
        · split
          · exact ih hun.onHead
          · split
            · exact ih hun.onHead
            · exact ih hun.onHead

theorem arbitration (h : Canonical s) {cluster : Nat} {kind : UnitKind} : Canonical (s.arbitration cluster kind) := h.arbitrate
theorem arbitrateFor (h : Canonical s) {cores : List Nat} : Canonical (s.arbitrateFor cores) :=
  h.foldl (fun _ _ ht => ht.foldl (fun _ _ ht => ht.arbitration) _) _
theorem fieldArbitration (h : Canonical s) {cluster : Nat} {kind : UnitKind} : StaysCanonical (execFieldArbitration cluster kind s) :=
  .next h.arbitration

theorem parkOp (h : Canonical s) {q : Nat} {o : Op} : Canonical (s.parkOp c q o) := h.unmark.dropReader.onHead.settleUnits

theorem boundary (h : Canonical s) {q : Nat} : Canonical (s.boundary c q) := by
  unfold State.boundary
  split
  · exact h
  · dsimp only
    split
    · exact h.onHead
    · exact .ite _ h.parkOp h
    · exact .ite _ h (.ite _ h.parkOp (.ite _ h.dropReader.onHead.settleUnits h.onHead))
    · exact .ite _ h.parkOp h
    · exact h

theorem stepBoundary (h : Canonical s) {q : Nat} : StaysCanonical (execStepBoundary c q s) := .ite _ (.next h.boundary.arbitration) (.next h)

theorem retentionEntry (h : Canonical s) {x : RetentionUnit} : StaysCanonical (execRetentionEntry x s) := by
  cases x with
  | bank c b => exact .ite _ (.next h) (.next h.onCore)
  | overhead cl a => exact .ite _ (.next h) (.next (h.other rfl))
theorem retentionExit (h : Canonical s) {x : RetentionUnit} : StaysCanonical (execRetentionExit x s) := by
  cases x with
  | bank c b => exact .next h.onCore
  | overhead cl a => exact .next (h.other rfl)

/-! ### Matrix operations -/

theorem complete (h : Canonical s) {q : Nat} {o : Op} : Canonical (s.complete c q o) := .ite _ h.onCore.postEvent h.onCore
theorem fail (h : Canonical s) {q : Nat} {o : Op} {err : Nat} : Canonical (s.fail c q o err) := h.complete
theorem finish (h : Canonical s) {q : Nat} {o : Op} : Canonical (s.finish c q o) := h.complete.settleUnits
theorem storeTile (h : Canonical s) {q : Nat} {o : Op} : Canonical (s.storeTile c q o) := h.onCore.landing.serveLines

theorem mmaClaim (h : Canonical s) {q : Nat} : StaysCanonical (execMmaClaim c q s) := by
  unfold execMmaClaim
  split
  · exact .next h
  · exact .ite _ (.next h) (.ite _ (.next h.claim) (.next h.onHead))

theorem mmaStep (h : Canonical s) {q : Nat} : StaysCanonical (execMmaStep c q s) := by
  unfold execMmaStep
  dsimp only
  split
  · exact .next h
  · refine .ite _ (.next h) ?_
    split
    · next hr => exact .next (h.operands_of hr)
    · next hr => exact .next (h.operands_of hr).onHead

theorem mmaWriteBack (h : Canonical s) {q : Nat} : StaysCanonical (execMmaWriteBack c q s) := by
  unfold execMmaWriteBack
  split
  · exact .next h
  · exact .ite _ (.next h) (.ite _ (.next h.onHead) (.next h.storeTile.finish))

theorem mlatPerform (h : Canonical s) {q : Nat} : StaysCanonical (execMlatPerform c q s) := by
  unfold execMlatPerform
  dsimp only
  split
  · exact .next h
  · refine .ite _ (.next h) ?_
    split
    · next hr => exact .next (h.operands_of hr)
    · next hr => exact .ite _ (.next (h.operands_of hr).onHead) (.next (h.operands_of hr).onArch.finish)

/-! ### Off-core requests -/

theorem loadBytes (h : Canonical s) {seq va n : Nat} {r : (List Byte × Bool) × State} (hr : s.loadBytes c seq va n = some r) :
    Canonical r.2 := by
  unfold State.loadBytes at hr
  dsimp only at hr
  split at hr
  · exact Option.some.inj hr ▸ h.readPlace
  · exact absurd hr (by simp)

theorem loadElems (h : Canonical s) {seq n : Nat} {l : List Nat} {r : (List Nat × Bool) × State}
    (hr : s.loadElems c seq n l = some r) : Canonical r.2 := by
  induction l generalizing s r with
  | nil => exact Option.some.inj hr ▸ h
  | cons a l ih =>
    unfold State.loadElems at hr
    split at hr
    · exact absurd hr (by simp)
    · next hb =>
      split at hr
      · exact absurd hr (by simp)
      · next he =>
        have hrest := ih (h.loadBytes hb) he
        exact Option.some.inj hr ▸ hrest

theorem offCoreLoadReturn (h : Canonical s) {req : Nat} : StaysCanonical (execOffCoreLoadReturn c req s) := by
  unfold execOffCoreLoadReturn
  dsimp only
  split
  · exact .next h
  · split
    · refine .ite _ (.next h) ?_
      split
      · exact .next h
      · next hb => exact .next (onCore (h.loadBytes hb))
    · refine .ite _ (.next h) ?_
      split
      · exact .next h
      · next hb => exact .next (onCore (h.loadElems hb))
    · split
      · exact .next h
      · exact .next h.onCore

theorem withHbm (h : Canonical s) {m : Hbm} (w : Hbm.Worked s.hbm m) : Canonical { s with hbm := m } :=
  ⟨h.1, h.2.1, h.2.2.1, h.2.2.2.1, w.wf h.2.2.2.2⟩

theorem noteApplied (h : Canonical s) {core req ch : Nat} {p : Place} {ack : Option W64} : Canonical (s.noteApplied core req ch p ack) := by
  cases p with
  | csm pa => exact h.other rfl
  | host a => exact h.other rfl
  | hbm pa key =>
    unfold State.noteApplied
    dsimp only
    cases s.hbm.standIn pa with
    | none => exact (h.withHbm (.carry ..)).other rfl
    | some parity => exact (h.withHbm (.noteShadow ..)).other rfl

theorem remark (h : Canonical s) {marks : Sparse Bool} {p : Place} {n : Nat} : Canonical (s.remark marks p n) := by
  cases p with
  | csm pa => exact .ite _ h (h.other rfl)
  | host a => exact h
  | hbm pa key => exact h

theorem atomicAt (h : Canonical s) {core asid launch frame va n : Nat} {e : TEntry} {p : Place} {f : List Byte → List Byte × W64} :
    Canonical (s.atomicAt core asid launch frame va n e p f).2 := h.readPlace.writePlace.remark.report

theorem postEventFor (h : Canonical s) {id target source : Nat} {w0 w1 : W64} : Canonical (s.postEventFor id target source w0 w1) := by
  unfold State.postEventFor
  exact h.other rfl

end Canonical

end Sys2Proof.Safety

/-! Proofs for the model's form of the tables (log entry 1): writes at their targets, steps of operations, and arrivals keep them canonical. -/

namespace Sys2Proof.Safety.Canonical

open Machine

variable {s t u : State} {c : Nat}

/-! ### Writes at their targets -/

/-- A fold that may come to nothing. -/
theorem foldlOption {α : Type} {f : Option State → α → Option State}
    (hf : ∀ x a, (∀ u, x = some u → Canonical u) → ∀ u, f x a = some u → Canonical u) (l : List α) {x : Option State}
    (hx : ∀ u, x = some u → Canonical u) (hu : l.foldl f x = some u) : Canonical u := by
  induction l generalizing x with
  | nil => exact hx u hu
  | cons a l ih => exact ih (hf x a hx) hu

theorem givesSome (h : Canonical s) : ∀ u, some s = some u → Canonical u := fun _ hu => Option.some.inj hu ▸ h
theorem givesNone : ∀ u, (none : Option State) = some u → Canonical u := fun _ hu => absurd hu (by simp)

theorem iteOption (p : Prop) [Decidable p] {x y : Option State} (hx : ∀ u, x = some u → Canonical u)
    (hy : ∀ u, y = some u → Canonical u) : ∀ u, (if p then x else y) = some u → Canonical u := by
  split
  · exact hx
  · exact hy

theorem perform (h : Canonical s) {core : Nat} {w : Write} : ∀ u, s.perform core w = some u → Canonical u := by
  unfold State.perform
  split
  · exact .givesNone
  · dsimp only
    split
    · intro u hu
      refine foldlOption (fun x a hx u hu => ?_) _ h.givesSome hu
      cases x with
      | none => exact absurd hu (by simp)
      | some v =>
        dsimp only [Option.bind_some] at hu
        split at hu
        · exact givesSome (writePlace (hx v rfl)).report u hu
        · exact givesNone u hu
    · split
      · exact .iteOption _ .givesNone h.engineWrite.givesSome
      · exact .givesNone
    · split
      · exact h.atomicAt.givesSome
      · exact .givesNone
    · split
      · exact h.atomicAt.givesSome
      · exact .givesNone
    · exact h.postEventFor.givesSome

theorem applyWrite (h : Canonical s) {core : Nat} {w : Write} {drop : State → State} (hdrop : ∀ u, Canonical u → Canonical (drop u)) :
    Canonical (s.applyWrite core w drop) := by
  unfold State.applyWrite
  split
  · next p id _ _ =>
    have hgo : ∀ t, Canonical t → Canonical (match t.perform core w with
        | none => t
        | some v => drop (if w.kind.isRed then v.noteApplied core w.id w.ch p none else v)) := by
      intro t ht
      split
      · exact ht
      · next v hv => exact hdrop _ (.ite _ (ht.perform v hv).noteApplied (ht.perform v hv))
    exact .ite _ h (.ite _ (h.chooseThen hgo) (hgo s h))
  · exact h

theorem applyReturning (h : Canonical s) {core va n : Nat} {r : OffReq} {f : List Byte → List Byte × W64} :
    Canonical (s.applyReturning core r va n f) := by
  unfold State.applyReturning
  split
  · exact .ite _ h (h.chooseThen fun t ht => ht.atomicAt.noteApplied.onCore)
  · exact h

theorem remoteAtomicRequest (h : Canonical s) {req : Nat} : StaysCanonical (execRemoteAtomicRequest c req s) := by
  unfold execRemoteAtomicRequest
  dsimp only
  split
  · refine .ite _ (.next h) ?_
    split
    · exact .next h.applyReturning
    · exact .next h.applyReturning
    · exact .next h
  · split
    · exact .ite _ (.next (h.applyWrite fun _ ht => ht.onCore)) (.next h)
    · split
      · exact .next h
      · split
        · exact .next (h.onCore.other rfl)
        · exact .next h

theorem requestResend (h : Canonical s) {req : Nat} : StaysCanonical (execRequestResend c req s) := by
  unfold execRequestResend
  dsimp only
  refine .ite _ (.next (h.other rfl)) ?_
  split
  · exact .ite _ (.next (h.other rfl)) (.next h)
  · exact .next h

theorem replayEntry (h : Canonical s) {key idx : Nat} : Canonical (s.replayEntry key idx) := by
  unfold State.replayEntry
  dsimp only
  split
  · exact h
  · next w _ =>
    refine .ite _ h ?_
    split
    · cases hp : s.perform key w with
      | none => exact h
      | some v =>
        dsimp only [Option.map, Option.getD]
        exact onCore (h.perform v hp)
    · exact h.applyWrite fun _ ht => ht.onCore

theorem sideLogReplay (h : Canonical s) {idx : Nat} : StaysCanonical (execSideLogReplay c idx s) := by
  unfold execSideLogReplay
  split
  · exact .next h
  · exact .next h.replayEntry

/-! ### Copies -/

theorem landStep (h : Canonical s) {q : Nat} {o : Op} {p : Puts} {fills : List Nat} {spill : List (Nat × Byte)} {flags : BitVec 5} :
    Canonical (s.landStep c q o p fills spill flags) := onHead (.ite _ h.land h.land.fillLines)

theorem copyStep (h : Canonical s) {q : Nat} : StaysCanonical (execCopyStep c q s) := by
  unfold execCopyStep
  split
  · exact .next h
  · refine .ite _ (.next h) ?_
    dsimp only
    split
    · next hr => exact .next (h.operands_of hr)
    · next hr =>
      have hread := h.operands_of hr
      refine .ite _ (.next hread.landStep) ?_
      split
      · exact .next hread.strayAccess
      · exact .next hread.onHead
      · exact .next hread.onHead.noteHold
      · exact .ite _ (.next hread.landStep) (.next hread.onHead)
      · exact .next hread.landStep

theorem sideEntry (h : Canonical s) {target issuer queue frame : Nat} {kind : WriteKind} :
    Canonical (s.sideEntry target issuer queue frame kind) := h.onCore

/-- What a CPYN has left, whether it is done with or waits for room. -/
theorem endCpyn (h : Canonical s) {q : Nat} {o : Op} :
    (∀ u, (s.endCpyn c q o).1 = some u → Canonical u) ∧ Canonical (s.endCpyn c q o).2 := by
  have hplaced : ∀ l : List (Nat × List Byte), Canonical (l.foldl
      (fun s p => s.sideEntry (recTcore o.recB) c q o.frame (.pieceCpyn p.1 p.2 c q o.seq)) s) :=
    fun l => h.foldl (fun _ _ ht => ht.sideEntry) l
  unfold State.endCpyn
  split
  · exact ⟨h.givesSome, h⟩
  · split
    · exact ⟨h.postEvent.givesSome, h⟩
    · dsimp only
      split
      · exact ⟨(hplaced _).sideEntry.givesSome, hplaced _⟩
      · exact ⟨.givesNone, (hplaced _).onHead⟩

theorem endCopy (h : Canonical s) {q : Nat} {o : Op} : Canonical (s.endCopy c q o) := by
  obtain ⟨hdone, hleft⟩ := h.endCpyn (c := c) (q := q) (o := o)
  unfold State.endCopy
  split
  · split
    · next v _ hv => exact finish (hdone v (by rw [hv]))
    · next v hv =>
      rw [hv] at hleft
      exact hleft
  · exact h.finish

theorem copyPerformed (h : Canonical s) {q : Nat} : StaysCanonical (execCopyPerformed c q s) := by
  unfold execCopyPerformed
  split
  · exact .next h
  · exact .ite _ (.next h) (.ite _ (.next h.onHead) (.next h.endCopy))

/-! ### Special functions, gathers and scatters -/

theorem endElems (h : Canonical s) {q : Nat} : Canonical (s.endElems c q) := by
  unfold State.endElems
  split
  · exact h
  · exact .ite _ h (.ite _ h.onHead h.finish)

theorem sfnStep (h : Canonical s) : StaysCanonical (execSfnStep c s) := by
  unfold execSfnStep
  split
  · exact .next h
  · refine .ite _ (.next h) ?_
    dsimp only
    split
    · next hr => exact .next (h.operands_of hr)
    · next hr =>
      have hread := h.operands_of hr
      split
      · exact .next hread.landStep.endElems
      · exact .next hread.onHead

theorem gatherStep (h : Canonical s) : StaysCanonical (execGatherStep c s) := by
  unfold execGatherStep
  split
  · exact .next h
  · refine .ite _ (.next h) ?_
    dsimp only
    split
    · next hr => exact .next (h.operands_of hr)
    · next hr =>
      have hindices := h.operands_of hr
      split
      · next hr => exact .next (hindices.operands_of hr)
      · next hr =>
        have hrows := hindices.operands_of hr
        split
        · exact .next hrows.strayAccess
        · exact .next hrows.onHead.noteHold
        · exact .next hrows.onHead.landStep.endElems
        · exact .next hrows.onHead

/-! ### Starts and invocations -/

theorem check (h : Canonical s) {q err total : Nat} {o : Op} : Canonical (s.check c q o err total) :=
  .ite _ (.ite _ h.finish h.onHead) h.fail

theorem startOp (h : Canonical s) {q : Nat} {o : Op} : Canonical (s.startOp c q o) := by
  unfold State.startOp
  dsimp only
  split
  · exact .ite _ h.setCore.finish h.fail
  · exact .ite _ h.onHead h.fail
  all_goals exact h.check

theorem operationStart (h : Canonical s) {q : Nat} : StaysCanonical (execOperationStart c q s) := by
  unfold execOperationStart
  split
  · exact .next h
  · exact .ite _ (.next h) (.next h.startOp.arbitration)

theorem deliverOutputs (h : Canonical s) {o : Op} {x : Region} : Canonical (s.deliverOutputs c o x) := by
  unfold State.deliverOutputs
  dsimp only
  split
  · exact .ite _ h h.setCore
  · refine .ite _ h.setCore ?_
    split
    · exact .ite _ h.setCore h
    · exact h

theorem endInvocation (h : Canonical s) {o : Op} : Canonical (s.endInvocation c o) := by
  unfold State.endInvocation
  dsimp only
  split
  · exact h.finish
  · exact h.onRegion.deliverOutputs.finish

theorem surrogateInvocation (h : Canonical s) : StaysCanonical (execSurrogateInvocation c s) := by
  unfold execSurrogateInvocation
  split
  · exact .next h
  · exact .ite _ (.next h) (.ite _ (.next h.onHead) (.next h.endInvocation))

/-! ### Pairs -/

theorem signatureCompare (h : Canonical s) {fault : Nat} : StaysCanonical (execSignatureCompare c fault s) := by
  unfold execSignatureCompare
  dsimp only
  split
  · exact .next h
  · exact .ite _ (.next h) (.ite _ (.next h.setCore.onCore) (.next h.setCore))

theorem releaseOp (h : Canonical s) {q : Nat} {o : Op} : Canonical (s.releaseOp c q o) := by
  unfold State.releaseOp
  split
  · exact h.storeTile.finish
  · exact h.onArch.finish
  · exact h.endInvocation
  · dsimp only
    split
    · exact h.noteHold
    · exact h.land.fillLines.endCopy
    · exact .ite _ h.land.fillLines.endCopy h
    · exact h

theorem resultSignatureCompare (h : Canonical s) {q fault : Nat} : StaysCanonical (execResultSignatureCompare c q fault s) := by
  unfold execResultSignatureCompare
  split
  · exact .next h
  · exact .ite _ (.next h) (.ite _ (.next h.releaseOp) (.ite _ (.next h.pinCore) (.next h.onHead)))

/-! ### Arrivals -/

theorem eventEntry (h : Canonical s) {idx : Nat} : StaysCanonical (execEventEntry c idx s) := by
  have hgo : ∀ (e : HeldEvent) (t : State), Canonical t →
      Canonical { t.enterEvent e with heldEvents := dropFirst (· == e) t.heldEvents } :=
    fun e t ht => (ht.onCore (c := e.target) (f := fun k => (k.arrive .eq (some e.w0) none).arrive .eq (some e.w1) none)).other rfl
  unfold execEventEntry
  split
  · exact .next h
  · next e _ => exact .ite _ (.next h) (.ite _ (.next (h.chooseThen (hgo e))) (.next (hgo e s h)))

theorem answerNothing (h : Canonical s) {id victim thief : Nat} : Canonical (s.answerNothing id victim thief) := h.via (·.answerNothing)

theorem messageArrival (h : Canonical s) : StaysCanonical (execMessageArrival c s) := by
  unfold execMessageArrival
  split
  · exact .ite _ (.next h) (.ite _ (.next (.ite _ (h.chooseThen fun _ ht => ht.onCore) h.onCore.answerNothing))
      (.next (h.chooseThen fun _ ht => ht.onCore.onCore)))
  · exact .next h

theorem stealAnswer (h : Canonical s) : StaysCanonical (execStealAnswer c s) := by
  unfold execStealAnswer
  dsimp only
  split
  · next r _ _ _ =>
    refine .ite _ (.next ?_) (.next h)
    cases (s.core c).takeAnswer r with
    | none => exact h
    | some k => exact h.setCore
  · exact .ite _ (.next h.onCore.answerNothing) (.ite _ (.next h.noteHold) (.next h))
  · exact .next h

theorem dequeTopDelivery (h : Canonical s) {idx : Nat} : StaysCanonical (execDequeTopDelivery idx s) := by
  unfold execDequeTopDelivery
  split
  · exact .next h
  · next t _ =>
    have hpush : ∀ c v, Canonical v → Canonical (if dequeDepth ≤ (v.core c).deque.length then v.pin t.launch causeDeque t.sender
        else { v.onCore c fun k => k.pushTop t.record with transits := v.transits.eraseIdx idx }) :=
      fun c v hv => .ite _ hv.pin ((hv.onCore (c := c) (f := fun k => k.pushTop t.record)).other rfl)
    refine .ite _ (.next ?_) (.ite _ (.next h) (.next (h.chooseThen (hpush t.target))))
    cases s.heir t with
    | none => exact h
    | some c => exact hpush c s h

end Sys2Proof.Safety.Canonical

/-! Proofs for the model's form of the tables (log entry 1): frames, on-chip errors and commands on contexts keep them canonical. -/

namespace Sys2Proof.Safety.Canonical

open Machine

variable {s t u : State} {c : Nat}

/-! ### Frames -/

theorem settleDrops (h : Canonical s) {l : Launch} {r : Nat} : Canonical (s.settleDrops l r) := h.via (·.settleDrops)
theorem dropSample (h : Canonical s) {l : Launch} {x : Sample} : Canonical (s.dropSample l x) := h.other rfl

theorem processRegion (h : Canonical s) {l : Launch} {r : Nat} : Canonical (s.processRegion l r) := by
  unfold State.processRegion
  split
  · exact h
  · dsimp only
    refine foldl (fun t m ht => ?_) _ h.onRegion
    split
    · exact ht.postRegion
    · exact ht

theorem processFrame (h : Canonical s) {id : Nat} : Canonical (s.processFrame id) := by
  unfold State.processFrame
  split
  · exact h
  · exact onLaunch (.ite _ (h.foldl (fun _ _ ht => ht.settleDrops.processRegion) _) h)

theorem slipOne (h : Canonical s) {id n : Nat} {x : Nat × Nat × TTEntry} : Canonical (s.slipOne id n x) := h.chooseThen fun _ ht => ht.onLaunch
theorem postSlip (h : Canonical s) {l : Launch} {n source : Nat} : Canonical (s.postSlip l n source) :=
  h.foldl (fun _ _ ht => ht.postEventFor) _

theorem endSteal (h : Canonical s) {id : Nat} : Canonical (s.endSteal id c) := by
  unfold State.endSteal
  split
  · exact h.onCore.answerNothing
  · exact h
theorem endSteals (h : Canonical s) {l : Launch} {k : Kernel} {late : List (Nat × Nat × TTEntry)} : Canonical (s.endSteals l k late) := by
  unfold State.endSteals
  refine h.foldl (fun t e ht => ?_) _
  split
  · exact ht.endSteal
  · exact ht

theorem slip (h : Canonical s) {l : Launch} {k : Kernel} {n : Nat} {late : List (Nat × Nat × TTEntry)} : Canonical (s.slip l k n late) := by
  unfold State.slip
  dsimp only
  refine endSteals ?_
  split
  · exact h.foldl (fun _ _ ht => ht.slipOne) _
  · exact postSlip (h.foldl (fun _ _ ht => ht.slipOne) _)

theorem frameTick (h : Canonical s) {l : Launch} : Canonical (s.frameTick l) := by
  unfold State.frameTick
  split
  · exact h
  · exact onLaunch (.ite _ h h.slip)

/-! ### Errors found on the chip (R437, R438) -/

theorem countError (h : Canonical s) {unit : Nat} : Canonical (s.countError unit) := h.other rfl
theorem tearDown (h : Canonical s) {asid cause : Nat} {ranges : List Nat} : Canonical (s.tearDown asid cause ranges) := h.onContext

theorem dropSamples (h : Canonical s) {l : Launch} {x : Sample} : Canonical (s.dropSamples l x) :=
  .ite _ (.ite _ h.settleDrops h.diverge) (h.chooseThen fun _ ht => ht.dropSample)

theorem upset (h : Canonical s) {x : Upset} : Canonical (s.upset x) := by
  cases x with
  | scratchpad c a => exact h.onCore
  | csm a => exact h.other rfl
  | scalar c n => exact .ite _ h h.onArch
  | access c n => exact .ite _ h h.onArch
  | vector c n => exact .ite _ h h.onArch
  | mask c n => exact .ite _ h h.onArch
  | latch c w => exact h.onArch
  | entry c q i => exact h.onArch
  | ventry c q i => exact h.onArch
  | engine c q =>
    dsimp only [State.upset]
    split
    · exact .ite _ h h.pinCore
    · exact h
  | launchState c => exact h.pinCore
  | shared asid => exact h.tearDown
  | refetched n => exact h
  | checkLine stack g => exact h.other rfl
  | logRecord stack transfer i => exact h.other rfl
  | telemetry unit => exact h.countError
  | sample id i =>
    dsimp only [State.upset]
    split
    · exact h
    · split
      · exact h
      · exact h.dropSamples.countError

theorem takeFound (h : Canonical s) : Canonical s.takeFound := by
  have hup : Canonical (s.upsets s.found) := h.foldl (fun _ _ ht => ht.upset) _
  exact hup.other rfl

theorem globalTick (h : Canonical s) : StaysCanonical (execGlobalTick s) := by
  unfold execGlobalTick
  dsimp only
  refine .ite _ (.next h.takeFound) (.next (foldl (fun t l ht => ?_) _ (h.takeFound.other rfl)))
  split
  · exact .ite _ ht.frameTick ht
  · exact ht

theorem frameCounterStart (h : Canonical s) {launch : Nat} : StaysCanonical (execFrameCounterStart launch s) := by
  unfold execFrameCounterStart
  split
  · exact .next h
  · exact .ite _ (.next h.onLaunch) (.next h)

theorem entryStart (h : Canonical s) : StaysCanonical (execEntryStart c s) := by
  unfold execEntryStart
  split
  · exact .next h
  · exact .next h.onCore

theorem frameEndProcessing (h : Canonical s) {launch : Nat} : StaysCanonical (execFrameEndProcessing launch s) := by
  unfold execFrameEndProcessing
  split
  · exact .next h
  · exact .ite _ (.next h.processFrame) (.next h)

/-! ### Commands of system software -/

theorem reply (h : Canonical s) {a : Answer} : Canonical (s.reply a) := h.other rfl
theorem refuse (h : Canonical s) : Canonical s.refuse := h.reply
theorem command (h : Canonical s) {ok : Bool} (ht : Canonical t) : Canonical (s.command ok t) := .ite _ ht.reply h.refuse
theorem setContext (h : Canonical s) {asid : Nat} {x : Option Context} : Canonical (s.setContext asid x) := h.other rfl
theorem dropContext (h : Canonical s) {asid : Nat} : Canonical (s.dropContext asid) := h.other rfl

theorem contextCreate (h : Canonical s) {asid rank : Nat} : StaysCanonical (execContextCreate asid rank s) := .next (h.command h.setContext)
theorem contextDestroy (h : Canonical s) {asid : Nat} : StaysCanonical (execContextDestroy asid s) :=
  .next (h.command (.ite _ h.tearDown h.dropContext.setContext))
theorem rankWrite (h : Canonical s) {asid rank : Nat} : StaysCanonical (execRankWrite asid rank s) := .next (h.command h.onContext)
theorem slotTableWrite (h : Canonical s) {die idx : Nat} {value : W32} : StaysCanonical (execSlotTableWrite die idx value s) :=
  .next (h.command (h.other rfl))

theorem loadSlots (h : Canonical s) {die : Nat} : Canonical (s.loadSlots die) := by
  refine foldl (fun t i ht => ?_) _ h
  exact ht.other rfl
theorem fabricCycle (h : Canonical s) {die port : Nat} : Canonical (s.fabricCycle die port) := by
  have hl : Canonical (if Sparse.get 0 s.slotCycle die % slotCount = 0 then s.loadSlots die else s) := .ite _ h.loadSlots h
  unfold State.fabricCycle
  exact .ite _ (hl.other rfl) (h.other rfl)
theorem dieFabricArbitration (h : Canonical s) {die port : Nat} {ready : List Nat} :
    StaysCanonical (execDieFabricArbitration die port ready s) := .next (h.fabricCycle.other rfl)

theorem withHost (h : Canonical s) {m : Memory} (hm : Memory.wf m = true) : Canonical { s with host := m } := ⟨h.1, h.2.1, hm, h.2.2.2⟩
theorem writeRecord (h : Canonical s) {r : Ring} {x : W64 × W64} : Canonical (s.writeRecord r x) :=
  h.withHost (putMem_wf (putMem_wf h.2.2.1))
theorem withRing (h : Canonical s) {r : Option Ring} {l : List (W64 × W64)} : Canonical { s with ring := r, ringHeld := l } := h.other rfl
theorem drainRing (h : Canonical s) {n : Nat} : Canonical (s.drainRing n) := by
  induction n generalizing s with
  | zero => exact h
  | succ n ih =>
    unfold State.drainRing
    split
    · exact .ite _ (ih h.writeRecord.withRing) h
    · exact h
theorem postRing (h : Canonical s) : Canonical s.postRing := h.drainRing

theorem registerHostEventArea (h : Canonical s) {asid base size widx ridx : Nat} :
    StaysCanonical (execRegisterHostEventArea asid base size widx ridx s) := .next (h.command h.onContext)
theorem registerSystemEventRing (h : Canonical s) {base size widx ridx : Nat} :
    StaysCanonical (execRegisterSystemEventRing base size widx ridx s) := by
  have hring : Canonical { s with ring := some (s.newRing base size widx ridx) } := h.other rfl
  exact .next (h.command hring.postRing)

theorem hostEventPost (h : Canonical s) {asid : Nat} : StaysCanonical (execHostEventPost asid s) := by
  unfold execHostEventPost
  dsimp only
  split
  · exact .next h.postRing
  · split
    · exact .ite _ (.next h.postRing.writeRecord.onContext) (.next h.postRing)
    · exact .next h.postRing

theorem registerCoreSetHandle (h : Canonical s) {asid handle : Nat} {cores : List Nat} :
    StaysCanonical (execRegisterCoreSetHandle asid handle cores s) := .next (h.command h.onContext)
theorem registerPublicKeys (h : Canonical s) {asid : Nat} {keys : List (List Byte)} :
    StaysCanonical (execRegisterPublicKeys asid keys s) := .next (h.command h.onContext)

theorem debugHalt (h : Canonical s) {launch : Nat} : StaysCanonical (execDebugHalt launch s) := by
  unfold execDebugHalt
  split
  · exact .next h.refuse
  · exact .next (h.command h.onLaunch)
theorem debugResume (h : Canonical s) {launch : Nat} : StaysCanonical (execDebugResume launch s) := by
  unfold execDebugResume
  split
  · exact .next h.refuse
  · exact .next (h.command (.ite _ (arbitrateFor (h.onLaunch.foldl (fun _ _ ht => ht.onCore) _)) h.onLaunch))

end Sys2Proof.Safety.Canonical

/-! Proofs for the model's form of the tables (log entry 1): launches, from their records to their ends, keep them canonical. -/

namespace Sys2Proof.Safety.Canonical

open Machine

variable {s t u : State} {c : Nat}

/-! ### Stacked memory taken over -/

theorem withHbm_dram (h : Canonical s) {m : Hbm} (hm : Memory.wf m.dram = true) : Canonical { s with hbm := m } :=
  ⟨h.1, h.2.1, h.2.2.1, h.2.2.2.1, hm⟩

/-- Only the raw bytes of what takes the place of the stacked memory matter. -/
theorem settle (h : Canonical s) {m : Hbm} (hm : Memory.wf m.dram = true) : Canonical (s.settleHbm m) := by
  unfold State.settleHbm
  refine foldl (fun t x ht => ?_) _ ((h.withHbm_dram hm).other rfl)
  exact .ite _ (far (ht.far (.loseUnits ..)) (.loseStack ..)) (ht.far (.loseUnits ..))

/-! ### Memory of a launch -/

theorem readRange (h : Canonical s) {m : Sparse TEntry} {asid fuel va n : Nat} : Canonical (s.readRange m asid fuel va n).2 := by
  induction fuel generalizing s va n with
  | zero => exact h
  | succ fuel ih =>
    unfold State.readRange
    split
    · exact h
    · dsimp only
      split
      · exact h
      · exact h
      · next p _ =>
        split
        · exact h.readPlace
        · have hrest := ih (s := (s.readPlace asid p (min n (512 - va % 512))).2) (va := va + min n (512 - va % 512))
            (n := n - min n (512 - va % 512)) h.readPlace
          split
          · next hr =>
            rw [hr] at hrest
            exact hrest
          · next hr =>
            rw [hr] at hrest
            exact hrest
theorem readVa (h : Canonical s) {m : Sparse TEntry} {asid va n : Nat} : Canonical (s.readVa m asid va n).2 := h.readRange
/-- What reading a range has left, once its outcome is known. -/
theorem readVa_of (h : Canonical s) {m : Sparse TEntry} {asid va n : Nat} {r : RangeRead} (hr : s.readVa m asid va n = (r, u)) :
    Canonical u := by
  have hread := h.readVa (m := m) (asid := asid) (va := va) (n := n)
  rwa [hr] at hread

theorem writeRange (h : Canonical s) {m : Sparse TEntry} {asid launch core fuel va : Nat} {l : List Byte} :
    Canonical (s.writeRange m asid launch core fuel va l) := by
  induction fuel generalizing s va l with
  | zero => exact h
  | succ fuel ih =>
    unfold State.writeRange
    refine .ite _ h (ih ?_)
    split
    · exact h.writePlace.report
    · exact h
theorem writeVa (h : Canonical s) {m : Sparse TEntry} {asid launch va : Nat} {l : List Byte} : Canonical (s.writeVa m asid launch va l) :=
  h.writeRange

/-! ### Records and grants -/

theorem submit (h : Canonical s) {asid : Nat} {w : List W64} : Canonical (s.submit asid w).2 := .ite _ (h.other rfl) h
theorem postHost (h : Canonical s) {asid : Nat} {w0 w1 : W64} : Canonical (s.postHost asid w0 w1) := h.onContext
theorem launchMessage (h : Canonical s) {asid window : Nat} {words : List W64} : StaysCanonical (execLaunchMessage asid window words s) :=
  .ite _ (.next h) (.next h.submit.postHost)

theorem preempt (h : Canonical s) {l : Launch} : Canonical (s.preempt l) :=
  .ite _ h.onLaunch (.ite _ (h.onLaunch.foldl (fun _ _ ht => ht.onCore) _) h)

theorem decideOne (h : Canonical s) {needed : List (Nat × Nat)} {l : Launch} : Canonical (s.decideOne needed l).2 := by
  unfold State.decideOne
  dsimp only
  split
  · exact h
  · refine onLaunch (h.foldl (fun t x ht => ?_) _)
    split
    · exact ht.preempt
    · exact ht
theorem decideGrants (h : Canonical s) : Canonical s.decideGrants := foldlSnd (fun _ _ hp => hp.decideOne) _ h

theorem answerLaunch (h : Canonical s) {m : LaunchMsg} {st : Nat} : Canonical (s.answerLaunch m st) := h.postEventFor
theorem takeLaunch (h : Canonical s) {m : LaunchMsg} : ∀ u, s.takeLaunch m = some u → Canonical u := by
  unfold State.takeLaunch
  split
  · exact h.givesSome
  · split
    · exact h.givesSome
    · dsimp only
      refine .iteOption _ h.answerLaunch.givesSome ?_
      split
      · next hr => exact (h.readVa_of hr).answerLaunch.givesSome
      · exact .givesNone
      · next hr => exact (h.readVa_of hr).submit.answerLaunch.givesSome
theorem takeLaunches (h : Canonical s) {l : List LaunchMsg} : Canonical (s.takeLaunches l) := by
  induction l generalizing s with
  | nil => exact h
  | cons m l ih =>
    unfold State.takeLaunches
    split
    · next t ht => exact ih ((h.takeLaunch t ht).other rfl)
    · exact ih h
theorem grantDecision (h : Canonical s) : StaysCanonical (execGrantDecision s) := .next h.takeLaunches.decideGrants

theorem stepStart (h : Canonical s) {asid line : Nat} {e : TEntry} : Canonical (s.stepStart asid e line) := h.via (·.stepStart ..)
theorem copySteps (h : Canonical s) {asid : Nat} {m : Sparse TEntry} : Canonical (s.copySteps asid m) := by
  unfold State.copySteps
  refine h.foldl (fun t x ht => ?_) _
  generalize List.range (x.2.size / 128) = lines
  exact ht.foldl (fun _ _ hv => hv.stepStart) _
theorem setCores (h : Canonical s) {l : Launch} {m : Sparse TEntry} : Canonical (s.setCores l m) :=
  h.foldl (fun _ _ ht => .ite _ ht.setCore.setCore ht.setCore) _

/-- The reading is taken as any that keeps the tables, in a lemma of its own: the kernel would else evaluate it. -/
theorem readLog (h : Canonical s) {l : Launch} {m : Sparse TEntry} : Canonical (s.readLog l m).2 := by
  have hread : ∀ v va n r w, Canonical v → State.readVa v m l.asid va n = (r, w) → Canonical w := fun v va n r w hv hr => hv.readVa_of hr
  unfold State.readLog
  generalize State.readVa = read at hread ⊢
  as_aux_lemma =>
    split
    · next hr => exact hread _ _ _ _ _ h hr
    · next hr => exact hread _ _ _ _ _ h hr
    · next hr =>
      have hhead := hread _ _ _ _ _ h hr
      dsimp only
      split
      · next hr => exact hread _ _ _ _ _ hhead hr
      · next hr => exact hread _ _ _ _ _ hhead hr
      · next hr => exact hread _ _ _ _ _ hhead hr

/-- What reading a log has left, once its outcome is known. -/
theorem readLog_of (h : Canonical s) {l : Launch} {m : Sparse TEntry} {x : Option (List LogRec)} (hr : s.readLog l m = (x, u)) :
    Canonical u := by
  have hread := h.readLog (l := l) (m := m)
  rwa [hr] at hread

theorem grant (h : Canonical s) {launch : Nat} : StaysCanonical (execGrant launch s) := by
  have hgo : ∀ (l : Launch) (m : Sparse TEntry) (v : State) (log : List LogRec), Canonical v → Canonical
      { ((v.copySteps l.asid m).onLaunch launch fun l => l.granted v m log).setCores l m with grants := v.grants + 1 } :=
    fun l m v log hv => (hv.copySteps.onLaunch (id := launch) (f := fun l => l.granted v m log)).setCores.other rfl
  unfold execGrant
  split
  · exact .next h
  · split
    · exact .next h
    · dsimp only
      refine .ite _ (.next h) (.ite _ ?_ (.next (hgo _ _ s _ h)))
      split
      · exact .next h
      · next hr => exact .next (hgo _ _ _ _ (h.readLog_of hr))

/-! ### Saving and resuming -/

theorem withdrawSteal (h : Canonical s) : Canonical (s.withdrawSteal c) := by
  unfold State.withdrawSteal
  split
  · exact h.onCore.onCore
  · exact h
theorem moveOut (h : Canonical s) {l : Launch} : Canonical (s.moveOut l) :=
  foldl (fun _ _ ht => ht.setCore) _ (h.foldl (fun _ _ ht => ht.setCore) _)
theorem endSave (h : Canonical s) {l : Launch} : Canonical (s.endSave l) := .ite _ h.moveOut.onLaunch h

theorem contextSave (h : Canonical s) : StaysCanonical (execContextSave c s) := by
  unfold execContextSave
  dsimp only
  split
  · exact .next h
  · refine .ite _ (.next h) ?_
    split
    · exact .next h
    · next hclose =>
      have hclosed := h.withdrawSteal.closeSegment hclose
      exact .ite _ (.next hclosed) (.next hclosed.onCore.endSave)

theorem moveIn (h : Canonical s) {l : Launch} : Canonical (s.moveIn l c) := h.setCore.setCore
theorem restore (h : Canonical s) {l : Launch} : Canonical (s.restore l c) := by
  have hin : Canonical ((s.moveIn l c).onCore c fun k => { k.reissueSteal with halt := .running }) := h.moveIn.onCore
  exact .ite _ (moveIn (.ite _ hin hin.onCore)) (.ite _ hin hin.onCore)
theorem resumption (h : Canonical s) {launch : Nat} : StaysCanonical (execResumption launch s) := by
  unfold execResumption
  split
  · exact .next h
  · exact .ite _ (.next h) (.next (h.foldl (fun _ _ ht => ht.restore) _).onLaunch.arbitrateFor)

/-! ### Ends -/

theorem digestMessage (h : Canonical s) {l : Launch} {m : Sparse TEntry} {outs : List OutRange} :
    Canonical (s.digestMessage l m outs).2 := by
  induction outs generalizing s with
  | nil => exact h
  | cons o rest ih =>
    unfold State.digestMessage
    dsimp only
    generalize hfold : List.foldl _ (RangeRead.got _, s) (List.range o.count) = p
    have hp : Canonical p.2 := by
      rw [← hfold]
      refine foldlSnd (fun q i hq => ?_) _ h
      split
      · split
        · next hr => exact hq.readVa_of hr
        · exact hq.readVa
      · exact hq
    split
    · have hrest := ih hp
      dsimp only at hrest
      split
      · next hd =>
        rw [hd] at hrest
        exact hrest
      · exact hrest
    · exact hp
/-- What computing a digest has left, once its outcome is known. -/
theorem digestMessage_of (h : Canonical s) {l : Launch} {m : Sparse TEntry} {outs : List OutRange} {r : RangeRead}
    (hr : s.digestMessage l m outs = (r, u)) : Canonical u := by
  have hread := h.digestMessage (l := l) (m := m) (outs := outs)
  rwa [hr] at hread

theorem writeEnd (h : Canonical s) {l : Launch} {status : Nat} {digest : List Byte} : Canonical (s.writeEnd l status digest) := by
  unfold State.writeEnd
  split
  · exact h
  · exact .ite _ h h.writeVa.writeVa

theorem release (h : Canonical s) {l : Launch} {status : Nat} : Canonical (s.release l status) := by
  have hfree : Canonical ((s.keysOf l).foldl (fun s c => s.setCore c Core.reset) s) := h.foldl (fun _ _ ht => ht.setCore) _
  have hheld := foldl (f := fun t c => if (t.core c).launch = some l.id then t.setCore c Core.reset else t)
    (fun t c ht => .ite _ ht.setCore ht) (l.held ++ l.held.map (savedKey l.id)) hfree
  have hunits := foldl (f := fun t cl => t.settleUnits cl) (fun _ _ ht => ht.settleUnits) (distinct (l.held.map clusterOf)) hheld
  exact hunits.other rfl

theorem launchEnd (h : Canonical s) {launch : Nat} : StaysCanonical (execLaunchEnd launch s) := by
  unfold execLaunchEnd
  split
  · exact .next h
  · refine .ite _ (.next h) ?_
    split
    · exact .next h
    · split
      · exact .next h.diverge
      · dsimp only
        split
        · exact .next h
        · next hr =>
          have hread := h.processFrame.digestMessage_of hr
          exact .ite _ (.next h) (.next (.ite _ hread.writeEnd.release hread.writeEnd.release.postSystem.postRing))

theorem replayHoldTimeout (h : Canonical s) {launch : Nat} : StaysCanonical (execReplayHoldTimeout launch s) := by
  unfold execReplayHoldTimeout
  split
  · exact .next h
  · split
    · exact .ite _ (.next h.diverge) (.next h)
    · exact .next h

theorem endLaunchPinned (h : Canonical s) {launch : Nat} : StaysCanonical (execEndLaunchPinned launch s) := by
  unfold execEndLaunchPinned
  split
  · exact .next h
  · split
    · exact .next h
    · exact .ite _ (.next h) (.ite _ (.next (h.foldl (fun _ _ ht => ht.onCore) _).onLaunch)
        (.ite _ (.next h) (.next h.writeEnd.release.postSystem.postRing)))

theorem kill (h : Canonical s) {l : Launch} : Canonical (s.kill l) := release (.ite _ h h.writeEnd)
theorem dropRequests (h : Canonical s) {asid : Nat} : Canonical (s.dropRequests asid) := h.other rfl
theorem quarantine (h : Canonical s) {asid a : Nat} : Canonical (s.quarantine asid a) := by
  unfold State.quarantine
  refine postSystem (h.settle ?_)
  split
  · exact (Hbm.Worked.poison ..).wf h.2.2.2.2
  · exact h.2.2.2.2

theorem teardown (h : Canonical s) {asid : Nat} : StaysCanonical (execTeardown asid s) := by
  unfold execTeardown
  split
  · exact .next h
  · split
    · exact .next h
    · exact .next (foldl (fun _ _ ht => ht.quarantine) _
        (h.setContext.dropRequests.foldl (fun _ _ ht => ht.kill) _)).dropContext.setContext.postSystem.postRing

end Sys2Proof.Safety.Canonical

/-! Proofs for the model's form of the tables (log entry 1): migrations, modules and the package keep them canonical; the invariant (O59). -/

namespace Sys2Proof.Safety.Canonical

open Machine

variable {s t u : State} {c : Nat}

/-! ### Moves of subpages -/

theorem onModule (h : Canonical s) {m : Nat} {f : Module → Module} : Canonical (s.onModule m f) := h.other rfl
theorem onTable (h : Canonical s) {x : Sub} {f : TEntry → TEntry} : Canonical (s.onTable x f) := h.onModule
theorem onEverywhere (h : Canonical s) {x : Sub} {f : TEntry → TEntry} : Canonical (s.onEverywhere x f) :=
  h.onTable.foldl (fun _ _ ht => ht.onCore) _
theorem onSpan (h : Canonical s) {asid lo hi : Nat} {f : Nat → TEntry → TEntry} : Canonical (s.onSpan asid lo hi f) :=
  h.foldl (fun _ _ ht => ht.onEverywhere) _
theorem withMigrations (h : Canonical s) {l : List Migration} : Canonical { s with migrations := l } := h.other rfl
theorem withFaults (h : Canonical s) {l : List FaultReq} : Canonical { s with faults := l } := h.other rfl
theorem withHoldOffs (h : Canonical s) {l : List HoldOff} : Canonical { s with holdOffs := l } := h.other rfl

theorem withRequests (h : Canonical s) {l : List Migration} {r : List FaultReq} : Canonical { s with migrations := l, faults := r } :=
  h.other rfl

theorem queueMigration (h : Canonical s) {asid hbase : Nat} {kind : MigKind} {x : Sub} : Canonical (s.queueMigration asid kind hbase x) := by
  unfold State.queueMigration
  split
  · exact h
  · exact h.withMigrations

theorem moveCommand (h : Canonical s) {asid va count hbase : Nat} {kind : MigKind} : Canonical (s.moveCommand asid va count kind hbase) :=
  h.command (h.foldl (fun _ _ ht => ht.foldl (fun _ _ ht => ht.queueMigration) _) _)

theorem noteFault (h : Canonical s) {asid : Nat} {byHost write : Bool} {x : Sub} {w : List (Nat × Bool)} :
    Canonical (s.noteFault asid byHost write x w) := by
  unfold State.noteFault
  split
  · exact h.withFaults
  · exact h.withFaults

theorem decideFault (h : Canonical s) {asid : Nat} {x : Sub} {e : TEntry} {byHost write : Bool} :
    Canonical (s.decideFault asid x e byHost write) := by
  unfold State.decideFault
  refine onSpan ?_
  exact h.other rfl

theorem takeFault (h : Canonical s) {asid : Nat} {byHost write : Bool} {x : Sub} {e : TEntry} {w : List (Nat × Bool)} :
    Canonical (s.takeFault asid byHost write x e w) :=
  .ite _ h.noteFault (.ite _ h.queueMigration (.ite _ h.withHoldOffs (.ite _ h.decideFault (.ite _ h.noteFault.queueMigration h.noteFault))))

theorem faultRequest (h : Canonical s) {va : Nat} {write : Bool} : StaysCanonical (execFaultRequest c va write s) := by
  unfold execFaultRequest
  split
  · exact .next h
  · dsimp only
    split
    · split
      · exact .next h
      · exact .next h.takeFault
    · exact .next h

theorem hostFaultRequest (h : Canonical s) {asid va : Nat} {write : Bool} : StaysCanonical (execHostFaultRequest asid va write s) := by
  refine .next (h.foldl (fun t x ht => ?_) _)
  split
  · exact ht
  · exact .ite _ ht ht.takeFault

theorem holdOffExpiry (h : Canonical s) {idx : Nat} : StaysCanonical (execHoldOffExpiry idx s) := by
  unfold execHoldOffExpiry
  split
  · exact .next h
  · dsimp only
    split
    · exact .next h.withHoldOffs
    · exact .next h.withHoldOffs.noteFault

theorem dropPiece (h : Canonical s) {key va n : Nat} {l : Launch} : Canonical (s.dropPiece key va n l) := by
  unfold State.dropPiece
  split
  · split
    · exact h.onCore.onCore.postEventFor
    · exact h
  · exact h
theorem dropPieces (h : Canonical s) {l : Launch} {va n : Nat} : Canonical (s.dropPieces l va n) :=
  h.foldl (fun _ _ ht => ht.foldl (fun _ _ ht => ht.dropPiece) _) _
theorem dropOwn (h : Canonical s) {l : Launch} {va n : Nat} : Canonical (s.dropOwn l va n) := h.foldl (fun _ _ ht => ht.onCore) _
theorem unresolvable (h : Canonical s) {e : TEntry} {sub : Nat} {w : Nat × Bool} : Canonical (s.unresolvable e sub w) := by
  unfold State.unresolvable
  split
  · exact h
  · exact .ite _ h.dropPieces h.dropPieces.dropOwn.pin

theorem declareUnresolvable (h : Canonical s) {asid va : Nat} : StaysCanonical (execDeclareUnresolvable asid va s) := by
  refine .next (h.command (foldl (fun t f ht => ?_) _ h.withFaults))
  split
  · exact ht
  · exact ht.foldl (fun _ _ ht => ht.unresolvable) _

theorem copySub (h : Canonical s) {asid key n dev host : Nat} {toHost : Bool} : Canonical (s.copySub asid toHost key n dev host) := by
  induction n generalizing s dev host with
  | zero => exact h
  | succ n ih =>
    unfold State.copySub
    have hread : Canonical (s.readPlace asid (.hbm dev key) 512).2 := h.readPlace
    refine ih ?_
    split
    · exact hread.withHost (putMem_wf hread.2.2.1)
    · exact h.writePlace

theorem beginMigration (h : Canonical s) {idx : Nat} {m : Migration} {e : TEntry} : Canonical (s.beginMigration idx m e) :=
  (h.foldl (fun _ _ ht => ht.onTable) _).withMigrations

theorem endMigration (h : Canonical s) {idx : Nat} {m : Migration} {e : TEntry} : Canonical (s.endMigration idx m e) := by
  unfold State.endMigration
  dsimp only
  refine withRequests (onSpan ?_)
  split
  · exact h.copySub
  · exact h

theorem migration (h : Canonical s) {idx : Nat} : StaysCanonical (execMigration idx s) := by
  unfold execMigration
  split
  · exact .next h
  · split
    · exact .next h.withMigrations
    · split
      · exact .ite _ (.next h) (.ite _ (.next h.withMigrations) (.next h.beginMigration))
      · exact .ite _ (.next h.endMigration) (.next h)

theorem invalidateCopy (h : Canonical s) {idx : Nat} : StaysCanonical (execInvalidate c idx s) := by
  unfold execInvalidate
  split
  · exact .next h
  · dsimp only
    split
    · exact .ite _ (.next h) (.next h.onCore.withMigrations)
    · exact .next h

/-! ### Modules -/

theorem fill (h : Canonical s) {asid n off : Nat} {place : Nat → Place} {l : List Byte} : Canonical (s.fill asid place l n off) := by
  induction n generalizing s off with
  | zero => exact h
  | succ n ih => exact ih h.writePlace

theorem placeData (h : Canonical s) {f : Hmo} {p : LoadPlan} {asid k : Nat} {kn : Kernel} : Canonical (s.placeData f p asid k kn) := by
  unfold State.placeData
  refine h.foldl (fun t x ht => ?_) _
  dsimp only
  split
  · exact ht
  · exact ht.fill
  · exact ht
theorem placeCode (h : Canonical s) {f : Hmo} {p : LoadPlan} {asid k : Nat} {kn : Kernel} {kp : KernelPlan} :
    Canonical (s.placeCode f p asid k kn kp) := by
  unfold State.placeCode
  split
  · exact h
  · exact h.fill

theorem moduleLoad (h : Canonical s) {asid addr size : Nat} {plan : LoadPlan} : StaysCanonical (execModuleLoad asid addr size plan s) := by
  unfold execModuleLoad
  split
  · exact .next h.refuse
  · dsimp only
    refine .ite _ (.next h.refuse) (.ite _ (.next h.reply) (.next (reply (foldlSnd (fun p x hp => ?_) _ ?_))))
    · exact hp.placeData.placeCode
    · exact h.other rfl

theorem moduleUnload (h : Canonical s) {handle : Nat} : StaysCanonical (execModuleUnload handle s) := .next (h.command (h.other rfl))

theorem weightBlockAccess (h : Canonical s) {module region offset : Nat} {write : Option W64} :
    StaysCanonical (execWeightBlockAccess module region offset write s) := by
  unfold execWeightBlockAccess
  split
  · exact .next h.refuse
  · refine .ite _ (.next h.refuse) ?_
    split
    · exact .next h.reply
    · exact .next h.onRegion.reply

/-! ### Stacked memory and the package -/

theorem flipCells_worked (m : Hbm) (stack q : Nat) (flips : List (Nat × Byte)) : Hbm.Worked m (m.flipCells stack q flips) :=
  Hbm.Worked.foldl _ (fun _ _ => .putRaw ..) _

theorem hbmSectorRead (h : Canonical s) {pa key asid : Nat} {flips : List (Nat × Byte)} {bus : List BusFault} :
    StaysCanonical (execHbmSectorRead pa key asid flips bus s) := by
  have hread : ∀ l, Memory.wf ({ (((s.hbm.flipCells (s.hbm.spot pa).data (s.hbm.spot pa).sector flips).expect bus).read pa (key % 16)
      ⟨asid, s.gtc⟩).2 with returned := l } : Hbm).dram = true :=
    fun _ => (Hbm.Worked.read pa (key % 16) ⟨asid, s.gtc⟩ _).wf ((flipCells_worked ..).wf h.2.2.2.2)
  unfold execHbmSectorRead
  refine .ite _ (.next h) (.next ?_)
  split
  · exact h.settle (hread _)
  · exact h.settle (hread _)
  · exact (h.settle (hread _)).tear

theorem hbmSectorWrite (h : Canonical s) {pa key asid : Nat} {data : List Byte} {bus : List BusFault} :
    StaysCanonical (execHbmSectorWrite pa key asid data bus s) := by
  have hwrite : Canonical (s.settleHbm ((s.hbm.expect bus).write pa (key % 16) (data.take (512 - pa % 512)) ⟨numCores, 0, asid, s.gtc⟩).2) :=
    h.settle ((Hbm.Worked.write ..).wf h.2.2.2.2)
  exact .ite _ (.next h) (.next (.ite _ hwrite hwrite.tear))

theorem parityDelta (h : Canonical s) {idx : Nat} : StaysCanonical (execParityDelta idx s) := .next (h.settleHbm (.applyDelta ..))

theorem withMarkhor (h : Canonical s) {m : Markhor} : Canonical { s with markhor := m } := h.other rfl

theorem stackLost (h : Canonical s) {stack : Nat} : StaysCanonical (execStackLost stack s) := by
  have hhealth : Canonical { s with markhor := { s.markhor with stackHealth := s.markhor.stackHealth.set stack false } } := h.other rfl
  exact .ite _ (.next h) (.next (postRing (hhealth.far (.loseStack ..))))

theorem restripe (h : Canonical s) : StaysCanonical (execRestripe s) := .next (h.command (h.other rfl))

theorem moveStripe_wf {m : Hbm} (hm : Memory.wf m.dram = true) (tick : Nat) : Memory.wf (m.moveStripe tick).dram = true := by
  cases hcursor : m.cursor with
  | none =>
    unfold Hbm.moveStripe
    rw [hcursor]
    exact hm
  | some c =>
    by_cases hc : c = 0
    · unfold Hbm.moveStripe
      rw [hcursor, hc]
      exact hm
    · rw [moveStripe_eq hcursor hc]
      generalize c - 20480 = base
      have hread : Memory.wf (m.stripeRead base tick).2.dram = true := (stripeRead_worked ..).wf hm
      generalize m.stripeRead base tick = read at hread ⊢
      exact (stripeWritten_worked { read.2 with cursor := some base } base tick fun i => (read.1[i]?).getD imgLost).wf hread
theorem restripeCursorAdvance (h : Canonical s) : StaysCanonical (execRestripeCursorAdvance s) :=
  .ite _ (.next (h.settle (moveStripe_wf h.2.2.2.2 _))) (.next h)

theorem keyWrite (h : Canonical s) {id : Nat} {xts : BitVec 512} {mac : BitVec 256} : StaysCanonical (execKeyWrite id xts mac s) :=
  .next (h.command (h.other rfl))

theorem scrubRange (h : Canonical s) {a : Nat} : Canonical (s.scrubRange a).2 := by
  unfold State.scrubRange
  split
  · exact h.settle ((Hbm.Worked.scrubRead ..).wf ((Hbm.Worked.scrubRead ..).wf ((Hbm.Worked.clear ..).wf h.2.2.2.2)))
  · exact h.putCsm

theorem scrub (h : Canonical s) {idx : Nat} {failed : Bool} : StaysCanonical (execScrub idx failed s) := by
  unfold execScrub
  split
  · exact .next h
  · next a asid _ =>
    have hscrub := h.scrubRange (a := a)
    dsimp only
    generalize (s.scrubRange a).2 = v at hscrub ⊢
    have hgone : Canonical { v with hbm := { v.hbm with quarantined := v.hbm.quarantined.eraseIdx idx } } := hscrub.other rfl
    refine .ite _ (.next hgone.postSystem.postRing) (.next (postRing (postSystem (withMarkhor (settle hgone ?_)))))
    split
    · exact (Hbm.Worked.poison ..).wf hscrub.2.2.2.2
    · exact hscrub.2.2.2.2

/-- The reset state of the package with host memory as it was, and stacked memory as boot makes it. -/
theorem booted (h : Canonical s) {m : Hbm} (hm : Memory.wf m.dram = true) : Canonical { State.reset with host := s.host, hbm := m } := by
  obtain ⟨hcores, hcsm, -, hstep, -⟩ := resetState.1
  exact ⟨hcores, hcsm, h.2.2.1, hstep, hm⟩

theorem packageReset (h : Canonical s) : StaysCanonical (execPackageReset s) := by
  have hdram : Memory.wf State.reset.hbm.dram = true := resetState.1.2.2.2.2
  unfold execPackageReset
  dsimp only
  split
  · exact .next ((h.booted hdram).other rfl)
  · refine .next (foldl (fun _ _ ht => ht.postSystem) _ ?_)
    exact (h.booted ((retire_worked s.markhor.kept.identify.configure.memory).wf hdram)).other rfl

theorem attestationRequest (h : Canonical s) {nonce : BitVec 256} : StaysCanonical (execAttestationRequest nonce s) := by
  unfold execAttestationRequest
  split
  · exact .next h.refuse
  · exact .next (h.command (h.other rfl))

end Sys2Proof.Safety.Canonical

/-! Proofs for the model's form of the tables (log entry 1): every step keeps them canonical (O59). -/

namespace Sys2Proof.Machine

open Safety

/-- A step of the device, whichever it is. -/
theorem canonical_device {s : State} {i : Instr} (hi : ¬ i.guard?.isSome = true) (h : Canonical s) : StaysCanonical (exec i s) := by
  cases i with
  | streamPartIssue core side => exact h.streamPartIssue
  | stallCountExpiry core side => exact h.stallCountExpiry
  | resultLands core side => exact h.resultLands
  | offCoreLoadReturn core req => exact h.offCoreLoadReturn
  | scratchpadAccessPoint core => exact h.scratchpadAccessPoint
  | trapEntry core => exact h.trapEntry
  | segmentClose core => exact h.segmentClose
  | rendezvous core => exact h.rendezvous
  | sideLogReplay core idx => exact h.sideLogReplay
  | operationStart core queue => exact h.operationStart
  | fieldArbitration cluster kind => exact h.fieldArbitration
  | stepBoundary core queue => exact h.stepBoundary
  | benchCycleSteal core side => exact h.benchCycleSteal
  | mmaClaim core queue => exact h.mmaClaim
  | mmaStep core queue => exact h.mmaStep
  | mmaWriteBack core queue => exact h.mmaWriteBack
  | mlatPerform core queue => exact h.mlatPerform
  | copyStep core queue => exact h.copyStep
  | copyPerformed core queue => exact h.copyPerformed
  | sfnStep core => exact h.sfnStep
  | gatherStep core => exact h.gatherStep
  | surrogateInvocation core => exact h.surrogateInvocation
  | eventEntry core idx => exact h.eventEntry
  | messageArrival core => exact h.messageArrival
  | stealAnswer core => exact h.stealAnswer
  | dequeTopDelivery idx => exact h.dequeTopDelivery
  | remoteAtomicRequest core req => exact h.remoteAtomicRequest
  | requestResend core req => exact h.requestResend
  | globalTick => exact h.globalTick
  | frameCounterStart launch => exact h.frameCounterStart
  | entryStart core => exact h.entryStart
  | frameEndProcessing launch => exact h.frameEndProcessing
  | launchMessage asid window words => exact h.launchMessage
  | grantDecision => exact h.grantDecision
  | grant launch => exact h.grant
  | contextSave core => exact h.contextSave
  | resumption launch => exact h.resumption
  | launchEnd launch => exact h.launchEnd
  | hostEventPost asid => exact h.hostEventPost
  | contextCreate asid rank => exact h.contextCreate
  | contextDestroy asid => exact h.contextDestroy
  | rankWrite asid rank => exact h.rankWrite
  | slotTableWrite die idx value => exact h.slotTableWrite
  | dieFabricArbitration die port ready => exact h.dieFabricArbitration
  | debugHalt launch => exact h.debugHalt
  | debugResume launch => exact h.debugResume
  | moduleLoad asid addr size plan => exact h.moduleLoad
  | moduleUnload handle => exact h.moduleUnload
  | registerHostEventArea asid base size widx ridx => exact h.registerHostEventArea
  | moveToDevice asid va count => exact .next h.moveCommand
  | moveToHost asid va count hbase => exact .next h.moveCommand
  | duplicate asid va count hbase => exact .next h.moveCommand
  | unmap asid va count => exact .next h.moveCommand
  | faultRequest core va write => exact h.faultRequest
  | declareUnresolvable asid va => exact h.declareUnresolvable
  | migration idx => exact h.migration
  | invalidate core idx => exact h.invalidateCopy
  | holdOffExpiry idx => exact h.holdOffExpiry
  | replayHoldTimeout launch => exact h.replayHoldTimeout
  | hbmSectorRead pa key asid flips bus => exact h.hbmSectorRead
  | hbmSectorWrite pa key asid data bus => exact h.hbmSectorWrite
  | parityDelta idx => exact h.parityDelta
  | stackLost stack => exact h.stackLost
  | restripe => exact h.restripe
  | restripeCursorAdvance => exact h.restripeCursorAdvance
  | keyWrite id xts mac => exact h.keyWrite
  | signatureCompare leader mismatch => exact h.signatureCompare
  | resultSignatureCompare leader queue mismatch => exact h.resultSignatureCompare
  | endLaunchPinned launch => exact h.endLaunchPinned
  | teardown asid => exact h.teardown
  | scrub idx failed => exact h.scrub
  | fieldmaskRemove cluster mask => exact h.fieldmaskRemove
  | retentionEntry u => exact h.retentionEntry
  | retentionExit u => exact h.retentionExit
  | weightBlockAccess module region offset write => exact h.weightBlockAccess
  | packageReset => exact h.packageReset
  | attestationRequest nonce => exact h.attestationRequest
  | hostFaultRequest asid va write => exact h.hostFaultRequest
  | registerSystemEventRing base size widx ridx => exact h.registerSystemEventRing
  | registerCoreSetHandle asid handle cores => exact h.registerCoreSetHandle
  | registerPublicKeys asid keys => exact h.registerPublicKeys
  | _ => exact absurd rfl hi

theorem canonical_exec {s : State} (i : Instr) (h : Canonical s) : StaysCanonical (exec i s) := by
  by_cases hi : i.guard?.isSome = true
  · exact fun _ ht => canonical_slot hi h ht
  · exact canonical_device hi h

theorem staysCanonical_fault {f : Fault} : StaysCanonical (.fault f) := fun _ ht => absurd ht (by simp)

/-- Settles O59: a step is a slot instruction (`canonical_slot`), a step of the device (`canonical_device`), a trap of a syllable that does not
decode, or a fault. -/
theorem stepsKeepCanonical : Obligations.StepsKeepCanonical := by
  unfold Obligations.StepsKeepCanonical
  intro s t h
  show step s = .next t → Canonical t
  revert t
  show StaysCanonical (step s)
  unfold step
  split
  · next w rest _ =>
    have hnext : Canonical (s.latchNext w rest) := h.other rfl
    split
    · exact canonical_exec _ hnext
    · exact .next hnext.cancelPart
  · split
    · exact .ite _ (canonical_exec _ (h.other rfl)) staysCanonical_fault
    · exact .ite _ (canonical_exec _ (h.other rfl)) staysCanonical_fault

end Sys2Proof.Machine

/-! Proofs for spec/19 and spec/26: how launches end (R349, R373 to R375, R381, R432 to R436), on which O51 rests. -/

namespace Sys2Proof.Machine

open Safety

/-! ### Cores are freed -/

/-- From `s` to `t` cores have been freed, and units with them. -/
def Freed (s t : State) : Prop := { t with cores := s.cores, fieldmask := s.fieldmask, pendingMask := s.pendingMask } = s

section Frees
variable {s t u : State} {c : Nat} {l : Launch}

theorem Freed.trans (h : Freed s t) (h' : Freed t u) : Freed s u := by
  have hfields := congrArg (fun x : State => { x with cores := s.cores, fieldmask := s.fieldmask, pendingMask := s.pendingMask }) h'
  exact hfields.trans h

theorem Freed.foldl {α : Type} {f : State → α → State} (hf : ∀ s x, Freed s (f s x)) (l : List α) (s : State) : Freed s (l.foldl f s) := by
  induction l generalizing s with
  | nil => rfl
  | cons x l ih => exact (hf s x).trans (ih (f s x))

theorem setCore_freed (s : State) (c : Nat) (k : Core) : Freed s (s.setCore c k) := rfl
theorem settleUnits_freed (s : State) (cl : Nat) : Freed s (s.settleUnits cl) := rfl

/-- A core that stands at its reset state is left so by a list of changes each of which at most sets cores back. -/
theorem foldl_core_reset {α : Type} {f : State → α → State} (hf : ∀ t x, CoresWf t → t.core c = Core.reset → CoresWf (f t x) ∧ (f t x).core c = Core.reset)
    (l : List α) (w : CoresWf s) (hc : s.core c = Core.reset) : CoresWf (l.foldl f s) ∧ (l.foldl f s).core c = Core.reset := by
  induction l generalizing s with
  | nil => exact ⟨w, hc⟩
  | cons x l ih =>
    obtain ⟨hw, hx⟩ := hf s x w hc
    exact ih hw hx

theorem setCore_reset_keeps (w : CoresWf s) (hc : s.core c = Core.reset) (d : Nat) :
    CoresWf (s.setCore d Core.reset) ∧ (s.setCore d Core.reset).core c = Core.reset := by
  refine ⟨Sparse.set_wf w, ?_⟩
  rw [State.core_setCore w]
  split
  · rfl
  · exact hc

theorem foldl_setCore_reset (l : List Nat) (w : CoresWf s) (hc : c ∈ l) :
    CoresWf (l.foldl (fun s c => s.setCore c Core.reset) s) ∧ (l.foldl (fun s c => s.setCore c Core.reset) s).core c = Core.reset := by
  induction l generalizing s with
  | nil => exact absurd hc (by simp)
  | cons d l ih =>
    by_cases hd : c = d
    · subst hd
      refine foldl_core_reset (fun t x ht hx => setCore_reset_keeps ht hx x) l (Sparse.set_wf w) ?_
      rw [State.core_setCore w, if_pos rfl]
    · exact ih (Sparse.set_wf w) ((List.mem_cons.mp hc).resolve_left hd)

/-- The contexts of a launch that runs stand on its cores. -/
theorem keysOf_running (hc : c ∈ l.cores) (hlaunch : (s.core c).launch = some l.id) : s.keysOf l = l.cores := by
  unfold State.keysOf
  rw [if_pos]
  rw [List.any_eq_true]
  exact ⟨c, hc, beq_iff_eq.mpr hlaunch⟩

/-- The state in which the cores and contexts of a launch are free (R349). -/
def State.freed (s : State) (l : Launch) : State :=
  (distinct (l.held.map clusterOf)).foldl (fun s cl => s.settleUnits cl)
    ((l.held ++ l.held.map (savedKey l.id)).foldl (fun s c => if (s.core c).launch = some l.id then s.setCore c Core.reset else s)
      ((s.keysOf l).foldl (fun s c => s.setCore c Core.reset) s))

theorem release_eq (s : State) (l : Launch) (status : Nat) : s.release l status =
    { (s.freed l).onLaunch l.id fun l => { l with state := .ended, status := status, streams := [], samples := [], cfgs := [], sgBegs := [] } with
      heldEvents := (s.freed l).heldEvents.filter fun e => e.launch ≠ l.id
      transits := (s.freed l).transits.filter fun e => e.launch ≠ l.id } := rfl

theorem freed_freed (s : State) (l : Launch) : Freed s (s.freed l) := by
  unfold State.freed
  refine Freed.trans (Freed.foldl (fun s c => setCore_freed s c _) _ s) (Freed.trans (Freed.foldl (fun s c => ?_) _ _)
    (Freed.foldl settleUnits_freed _ _))
  split
  · exact setCore_freed ..
  · rfl

theorem freed_core (w : CoresWf s) (hc : c ∈ l.cores) (hlaunch : (s.core c).launch = some l.id) : (s.freed l).core c = Core.reset := by
  unfold State.freed
  rw [keysOf_running hc hlaunch]
  obtain ⟨hw, hreset⟩ := foldl_setCore_reset l.cores w hc
  obtain ⟨hw', hreset'⟩ := foldl_core_reset (c := c)
    (f := fun t d => if (t.core d).launch = some l.id then t.setCore d Core.reset else t) (fun t d ht hd => by
      split
      · exact setCore_reset_keeps ht hd d
      · exact ⟨ht, hd⟩) (l.held ++ l.held.map (savedKey l.id)) hw hreset
  exact (foldl_core_reset (f := fun t cl => t.settleUnits cl) (fun t x ht hx => ⟨ht, hx⟩) _ hw' hreset').2

variable {status : Nat}

theorem release_core (w : CoresWf s) (hc : c ∈ l.cores) (hlaunch : (s.core c).launch = some l.id) :
    (s.release l status).core c = Core.reset := freed_core w hc hlaunch

theorem release_csm : (s.release l status).csm = s.csm := by
  have hfield := congrArg State.csm (freed_freed s l)
  exact hfield
theorem release_ring : (s.release l status).ring = s.ring := by
  have hfield := congrArg State.ring (freed_freed s l)
  exact hfield
theorem release_ringHeld : (s.release l status).ringHeld = s.ringHeld := by
  have hfield := congrArg State.ringHeld (freed_freed s l)
  exact hfield

theorem release_launches : (s.release l status).launches = (s.onLaunch l.id fun l =>
    { l with state := .ended, status := status, streams := [], samples := [], cfgs := [], sgBegs := [] }).launches := by
  have hfield := congrArg State.launches (freed_freed s l)
  exact congrArg (List.map fun m : Launch => if m.id = l.id then
    { m with state := .ended, status := status, streams := [], samples := [], cfgs := [], sgBegs := [] } else m) hfield

end Frees

/-! ### The record of an end (R349, R381) -/

section Records
variable {s : State} {l : Launch} {k : Kernel} {c pa status : Nat} {digest : List Byte}

theorem writeEnd_nowhere (h : l.larea = 0) : s.writeEnd l status digest = s := by
  unfold State.writeEnd
  split
  · rfl
  · rw [if_pos h]

theorem endAbsent_nowhere (h : l.larea = 0) : s.endAbsent l = false := by
  unfold State.endAbsent
  split
  · rfl
  · rw [h]
    rfl

/-- What a report of a watched write changes: a region, and the events held. -/
theorem invalidate_rest (m r core : Nat) (index : W64) (always : Bool) (s : State) :
    { s.invalidate m r core index always with modules := s.modules, heldEvents := s.heldEvents } = s := by
  unfold State.invalidate
  split
  · rfl
  · split
    · split
      · unfold State.postRegion State.postEvent
        split
        · rfl
        · rfl
      · rfl
    · unfold State.postRegion State.postEvent
      dsimp only
      split
      · rfl
      · rfl

theorem report_stores (core va n : Nat) (e : TEntry) (s : State) : ((s.report core e va n).cores, (s.report core e va n).csm) = (s.cores, s.csm) := by
  unfold State.report
  split
  · rfl
  · split
    · rfl
    · next m _ =>
      refine List.foldlRecOn (motive := fun t : State => (t.cores, t.csm) = (s.cores, s.csm)) _ _ rfl fun t ht r _ => ?_
      split
      · exact ht
      · split
        · have hfields := congrArg (fun t : State => (t.cores, t.csm)) (invalidate_rest m.handle r core 0 false t)
          exact hfields.trans ht
        · exact ht

/-- A record within one sector of chip shared memory. -/
theorem writeVa_csm {t : Sparse TEntry} {asid launch va i : Nat} {e : TEntry} {b : List Byte} (hva : va % 512 = 0) (hb : b ≠ [])
    (hlength : b.length ≤ 512) (hat : lookup t .write va = .at i e (.csm pa)) :
    (s.writeVa t asid launch va b).cores = s.cores ∧ (s.writeVa t asid launch va b).csm = putMem s.csm pa b := by
  have hempty : ∀ fuel core a (v : State), v.writeRange t asid launch core fuel a [] = v := by
    intro fuel core a v
    cases fuel with
    | zero => rfl
    | succ fuel => rfl
  have htake : b.take (512 - va % 512) = b := by
    rw [hva]
    exact List.take_of_length_le hlength
  have hdrop : b.drop (512 - va % 512) = [] := by
    rw [hva]
    exact List.drop_eq_nil_of_le hlength
  unfold State.writeVa
  dsimp only
  generalize ((s.cores.find? fun x => x.2.launch == some launch).map (·.1)).getD numCores = core
  have hfuel : b.length / 512 + 2 = (b.length / 512 + 1) + 1 := rfl
  rw [hfuel]
  unfold State.writeRange
  rw [if_neg (by simp [hb])]
  dsimp only
  rw [hat, htake, hdrop, hempty]
  dsimp only
  have hreport := report_stores core va (min (512 - va % 512) b.length) e (s.writePlace asid numCores launch (.csm pa) b)
  simp only [Prod.mk.injEq] at hreport
  obtain ⟨hcores, hcsm⟩ := hreport
  exact ⟨hcores, hcsm⟩

theorem writeVa_nothing {t : Sparse TEntry} {asid launch va : Nat} : s.writeVa t asid launch va [] = s := rfl

theorem endRecord_length (hdigest : digest.length = 32) : (l.endRecord status digest).length = 64 := by
  unfold Launch.endRecord
  simp only [List.length_append, leBytes_length, hdigest]

theorem writeEnd_csm {i : Nat} {e : TEntry} (hk : s.kernel? l = some k) (hlog : l.log = []) (harea : l.larea ≠ 0) (hsector : l.larea % 512 = 0)
    (hat : lookup k.table .write l.larea = .at i e (.csm pa)) (hdigest : digest.length = 32) :
    (s.writeEnd l status digest).cores = s.cores ∧ (s.writeEnd l status digest).csm = putMem s.csm pa (l.endRecord status digest) := by
  have hlength := endRecord_length (l := l) (status := status) hdigest
  unfold State.writeEnd
  rw [hk]
  dsimp only
  rw [if_neg harea, hlog]
  refine writeVa_csm hsector (fun hnil => ?_) (by omega) hat
  rw [hnil] at hlength
  exact absurd hlength (by decide)

theorem endAbsent_sector {i : Nat} {e : TEntry} {p : Place} (hk : s.kernel? l = some k) (hlog : l.log = []) (hsector : l.larea % 512 = 0)
    (hat : lookup k.table .write l.larea = .at i e p) : s.endAbsent l = false := by
  unfold State.endAbsent
  rw [hk, hlog]
  dsimp only
  have habsent : rangeAbsent k.table l.larea (64 + 16 * ([] : List LogRec).length) = false := by
    unfold rangeAbsent
    rw [List.any_eq_false]
    intro j _
    by_cases hj : j = 0
    · subst hj
      rw [if_pos rfl]
      dsimp only
      rw [hat]
      simp
    · rw [if_neg hj]
      have hbeyond : ¬ l.larea / 512 * 512 + 512 * j < l.larea + 64 := by omega
      simp [hbeyond]
  rw [habsent, Bool.and_false]

end Records

end Sys2Proof.Machine

/-! Proofs for spec/19, spec/21 and spec/26: how launches end, O51. -/

namespace Sys2Proof.Machine

open Safety

/-! ### The end of a launch that has finished (R349, R381) -/

section End
variable {s u : State} {id : Nat} {l : Launch} {k : Kernel} {b : List Byte}

theorem launchEnd_eq (hl : s.launch? id = some l) (hstate : l.state = .running) (hpinned : l.pinned = none) (hdebug : l.debugHalted = false)
    (hfinished : ∀ c ∈ l.cores, (s.core c).finished = true) (hk : s.kernel? l = some k) (hused : ∀ x ∈ l.replayLog, x.2 = true)
    (hdigest : (s.processFrame id).digestMessage l k.table k.outs = (.got b, u)) (habsent : u.endAbsent l = false) :
    exec (.launchEnd id) s = .next ((u.writeEnd l 0 (bytesOfVals (shake256 (b.map (·.toNat)) 32))).release l 0) := by
  have hall : (l.cores.all fun c => (s.core c).finished) = true := List.all_eq_true.mpr hfinished
  have hfirst : (l.replayLog.findIdx? fun x => !x.2) = none := by
    rw [List.findIdx?_eq_none_iff]
    intro x hx
    rw [hused x hx]
    rfl
  show execLaunchEnd id s = _
  unfold execLaunchEnd
  rw [hl]
  dsimp only
  rw [if_neg (by simp [hstate, hpinned, hdebug, hall]), hk]
  dsimp only
  rw [hfirst]
  dsimp only
  rw [hdigest]
  dsimp only
  rw [habsent, if_neg (by decide)]
  rfl

theorem launchEnd_nowhere (w : CoresWf u) (hl : s.launch? id = some l) (hstate : l.state = .running) (hpinned : l.pinned = none)
    (hdebug : l.debugHalted = false) (hfinished : ∀ c ∈ l.cores, (s.core c).finished = true) (hk : s.kernel? l = some k)
    (hused : ∀ x ∈ l.replayLog, x.2 = true) (hdigest : (s.processFrame id).digestMessage l k.table k.outs = (.got b, u))
    (hruns : ∀ c ∈ l.cores, (u.core c).launch = some l.id) (harea : l.larea = 0) :
    ∃ t, exec (.launchEnd id) s = .next t ∧ t.csm = u.csm ∧ ∀ c ∈ l.cores, t.core c = Core.reset := by
  refine ⟨_, launchEnd_eq hl hstate hpinned hdebug hfinished hk hused hdigest (endAbsent_nowhere harea), ?_⟩
  rw [writeEnd_nowhere harea]
  exact ⟨release_csm, fun c hc => release_core w hc (hruns c hc)⟩

theorem launchEnd_csm {pa i : Nat} {e : TEntry} (w : CoresWf u) (hw : Memory.wf u.csm = true) (hl : s.launch? id = some l)
    (hstate : l.state = .running) (hpinned : l.pinned = none) (hdebug : l.debugHalted = false)
    (hfinished : ∀ c ∈ l.cores, (s.core c).finished = true) (hk : s.kernel? l = some k) (hku : u.kernel? l = some k)
    (hused : ∀ x ∈ l.replayLog, x.2 = true) (hdigest : (s.processFrame id).digestMessage l k.table k.outs = (.got b, u)) (hlog : l.log = [])
    (hruns : ∀ c ∈ l.cores, (u.core c).launch = some l.id) (harea : l.larea ≠ 0) (hsector : l.larea % 512 = 0)
    (hat : lookup k.table .write l.larea = .at i e (.csm pa)) (hlength : (bytesOfVals (shake256 (b.map (·.toNat)) 32)).length = 32) :
    ∃ t, exec (.launchEnd id) s = .next t ∧ CsmPut u t pa (l.endRecord 0 (bytesOfVals (shake256 (b.map (·.toNat)) 32))) ∧
      ∀ c ∈ l.cores, t.core c = Core.reset := by
  refine ⟨_, launchEnd_eq hl hstate hpinned hdebug hfinished hk hused hdigest (endAbsent_sector hku hlog hsector hat), ?_⟩
  obtain ⟨hcores, hcsm⟩ := writeEnd_csm (status := 0) hku hlog harea hsector hat hlength
  refine ⟨csmPut_putMem hw (release_csm.trans hcsm), fun c hc => release_core ?_ hc ?_⟩
  · exact (congrArg (fun t => Sparse.wf Core.reset t = true) hcores).mpr w
  · exact (congrArg (fun t => (Sparse.get Core.reset t c).launch) hcores).trans (hruns c hc)

end End

/-! ### A replay that is held for too long (R375) -/

section Held
variable {s : State} {id i : Nat} {l : Launch} {r : LogRec}

/-- A record of the log that a candidate has waited for through 2^20 ticks. -/
def Launch.awaited (l : Launch) (r : LogRec) : Prop := ∃ h ∈ l.holds, 2 ^ 20 ≤ l.ran - h.since ∧ r.kind = h.kind ∧ r.tgt = h.tgt

theorem awaited_iff : ((l.holds.filter fun h => decide (2 ^ 20 ≤ l.ran - h.since)).any fun h => r.sameKey h.kind h.tgt) = true ↔ l.awaited r := by
  simp only [List.any_filter, List.any_eq_true, LogRec.sameKey, Bool.and_eq_true, decide_eq_true_eq, beq_iff_eq, Launch.awaited]

theorem expired_first (hi : l.replayLog[i]? = some (r, false)) (hr : l.awaited r)
    (hfirst : ∀ j x, j < i → l.replayLog[j]? = some x → x.2 = true ∨ ¬ l.awaited x.1) : l.expired = some (16 * i) := by
  unfold Launch.expired
  dsimp only
  obtain ⟨hlt, hget⟩ := List.getElem?_eq_some_iff.mp hi
  have hfound : (l.replayLog.findIdx? fun x => !x.2 && (l.holds.filter fun h => decide (2 ^ 20 ≤ l.ran - h.since)).any fun h =>
      x.1.sameKey h.kind h.tgt) = some i := by
    rw [List.findIdx?_eq_some_iff_getElem]
    refine ⟨hlt, ?_, fun j hj => ?_⟩
    · rw [hget, awaited_iff.mpr hr]
      rfl
    · have hjth : l.replayLog[j]? = some l.replayLog[j] := List.getElem?_eq_getElem (by omega)
      rcases hfirst j _ hj hjth with hused | hnot
      · rw [hused]
        simp
      · rw [← awaited_iff, Bool.not_eq_true] at hnot
        rw [hnot]
        simp
  rw [hfound]
  rfl

theorem expired_none (h : ∀ h ∈ l.holds, l.ran - h.since < 2 ^ 20) : l.expired = none := by
  have hempty : (l.holds.filter fun h => decide (2 ^ 20 ≤ l.ran - h.since)) = [] := by
    rw [List.filter_eq_nil_iff]
    intro x hx
    have hlt := h x hx
    simp only [decide_eq_true_eq]
    omega
  unfold Launch.expired
  rw [hempty]
  simp

theorem logFail_first (m : Launch) (off : Nat) :
    (if m.logFail = none then { m with logFail := some off } else m) = { m with logFail := m.logFail.or (some off) } := by
  split
  · next h =>
    rw [h]
    rfl
  · next h =>
    obtain ⟨v, hv⟩ := Option.ne_none_iff_exists'.mp h
    rw [hv]
    show m = { m with logFail := some v }
    rw [← hv]

theorem pinned_first (m : Launch) (x : Nat × Nat) :
    (if m.pinned = none then { m with pinned := some x } else m) = { m with pinned := m.pinned.or (some x) } := by
  split
  · next h =>
    rw [h]
    rfl
  · next h =>
    obtain ⟨v, hv⟩ := Option.ne_none_iff_exists'.mp h
    rw [hv]
    show m = { m with pinned := some v }
    rw [← hv]

theorem diverge_launches (off src : Nat) : (s.diverge id off src).launches = s.launches.map fun m => if m.id = id then
    { m with logFail := m.logFail.or (some off), pinned := m.pinned.or (some (6, src)) } else m := by
  have hor : s.diverge id off src = (s.onLaunch id fun m => { m with logFail := m.logFail.or (some off) }).onLaunch id fun m =>
      { m with pinned := m.pinned.or (some (6, src)) } := by
    unfold State.diverge State.pin
    simp only [logFail_first, pinned_first, causeOrderLog]
  rw [hor]
  show (s.launches.map _).map _ = _
  rw [List.map_map]
  refine List.map_congr_left fun m _ => ?_
  by_cases hid : m.id = id
  · simp [hid]
  · simp [hid]

theorem replayHoldTimeout_none (hl : s.launch? id = some l) (h : ∀ h ∈ l.holds, l.ran - h.since < 2 ^ 20) :
    exec (.replayHoldTimeout id) s = .next s := by
  show execReplayHoldTimeout id s = _
  unfold execReplayHoldTimeout
  rw [hl]
  dsimp only
  rw [expired_none h]

theorem replayHoldTimeout_diverges (hl : s.launch? id = some l) (hreplay : l.replay = true) (hstate : l.state = .running)
    (hpinned : l.pinned = none) (hexpired : l.expired = some i) : exec (.replayHoldTimeout id) s = .next (s.diverge id i 0) := by
  show execReplayHoldTimeout id s = _
  unfold execReplayHoldTimeout
  rw [hl]
  dsimp only
  rw [hexpired]
  dsimp only
  rw [if_pos (by simp [hreplay, hstate, hpinned])]

end Held

/-! ### An end by a pinned error (R433) -/

section Pinned
variable {s : State} {id c cause addr : Nat} {l : Launch}

theorem release_launch? {status : Nat} (hl : s.launch? l.id = some l) : (s.release l status).launch? l.id =
    some { l with state := .ended, status := status, streams := [], samples := [], cfgs := [], sgBegs := [] } := by
  have hkept := congrArg (List.find? fun m : Launch => m.id == l.id) (release_launches (s := s) (l := l) (status := status))
  refine hkept.trans ?_
  exact launch?_onLaunch (fun _ => rfl) hl

theorem keysOf_one (hcores : l.cores = [c]) (hlaunch : (s.core c).launch = some l.id) : s.keysOf l = [c] := by
  rw [keysOf_running (c := c) (by rw [hcores]; exact List.mem_singleton_self c) hlaunch, hcores]

theorem endLaunchPinned_halts (w : CoresWf s) (hl : s.launch? id = some l) (hpinned : l.pinned = some (cause, addr)) (hcores : l.cores = [c])
    (hlaunch : (s.core c).launch = some l.id) (hstate : l.state = .running ∨ l.state = .halting) :
    ∃ t, exec (.endLaunchPinned id) s = .next t ∧ t.core c = (s.core c).discard ∧
      t.launches = s.launches.map fun m => if m.id = id then { m with state := .ending } else m := by
  refine ⟨(s.onCore c Core.discard).onLaunch id fun l => { l with state := .ending }, ?_, ?_, rfl⟩
  · show execEndLaunchPinned id s = _
    unfold execEndLaunchPinned
    rw [hl]
    dsimp only
    rw [hpinned]
    dsimp only
    rw [if_neg (by rcases hstate with h | h <;> simp [h]), if_pos (by rcases hstate with h | h <;> simp [h]),
      keysOf_one hcores hlaunch]
    rfl
  · show (s.onCore c Core.discard).core c = _
    rw [State.onCore, State.core_setCore w, if_pos rfl]

theorem endLaunchPinned_ends (hl : s.launch? id = some l) (hpinned : l.pinned = some (cause, addr)) (hcores : l.cores = [c])
    (hlaunch : (s.core c).launch = some l.id) (hstate : l.state = .ending) (hout : (s.core c).out = []) (hside : (s.core c).side = [])
    (harea : l.larea = 0) (hring : s.ring = none) :
    exec (.endLaunchPinned id) s = .next ((s.release l 5).postSystem 1 l.asid cause addr) := by
  have hdrained : s.drained l = true := by
    unfold State.drained
    rw [keysOf_one hcores hlaunch]
    simp [hout, hside]
  show execEndLaunchPinned id s = _
  unfold execEndLaunchPinned
  rw [hl]
  dsimp only
  rw [hpinned]
  dsimp only
  rw [if_neg (by simp [hstate]), if_neg (by simp [hstate]), hdrained, endAbsent_nowhere harea, if_neg (by decide),
    writeEnd_nowhere harea, postRing_unregistered (s := (s.release l 5).postSystem 1 l.asid cause addr)]
  exact (release_ring (s := s) (l := l) (status := 5)).trans hring

end Pinned

/-! ### The teardown of an address space (R434) -/

section Teardown
variable {s : State} {asid cause : Nat} {x : Context} {l : Launch}

/-- What a teardown begins with: the mark on the context, and its requests gone. -/
def State.marked (s : State) (asid : Nat) (x : Context) : State := (s.setContext asid (some { x with tombstone := true })).dropRequests asid
/-- What a teardown of a context without a range to be quarantined leaves. -/
def State.emptied (s : State) (asid cause : Nat) : State :=
  ((s.dropContext asid).setContext asid (some { Context.fresh 0 with live := false, tombstone := true })).postSystem 2 asid cause 0

theorem teardown_eq (hx : s.context? asid = some x) (htearing : x.tearing = some (cause, []))
    {t : State} (ht : t = (((s.marked asid x).launches.filter fun l => l.asid == asid && l.state ≠ .ended).foldl (fun s l => s.kill l)
      (s.marked asid x))) (hring : t.ring = none) : exec (.teardown asid) s = .next (t.emptied asid cause) := by
  obtain ⟨live, rank, area, posts, coreSets, keys, tombstone, tearing⟩ := x
  obtain rfl : tearing = some (cause, []) := htearing
  show execTeardown asid s = _
  unfold execTeardown
  rw [hx]
  subst ht
  exact congrArg Host.Outcome.next (postRing_unregistered (s := State.emptied _ asid cause) hring)

theorem emptied_context (w : Sparse.wf none s.contexts = true) : (s.emptied asid cause).context? asid =
    some ⟨false, 0, none, [], [], [], true, none⟩ := by
  show Sparse.get none (Sparse.set none s.contexts asid _) asid = _
  rw [Sparse.get_set w, if_pos rfl]
  rfl

theorem emptied_launches : (s.emptied asid cause).launches = s.launches := rfl

theorem emptied_ringHeld : (s.emptied asid cause).ringHeld =
    s.ringHeld ++ [(BitVec.ofNat 64 (2 * 2 ^ 60 + asid % 4096 * 2 ^ 48 + cause % 256 * 2 ^ 40), 0)] := by
  have hzero : (0 : W64) = BitVec.ofNat 64 0 := rfl
  rw [hzero]
  unfold State.emptied State.postSystem
  dsimp only
  rfl

theorem emptied_modules : (s.emptied asid cause).modules = s.modules.filter fun m => m.asid ≠ asid := rfl

theorem emptied_cores : (s.emptied asid cause).cores = s.cores := rfl
theorem emptied_csm : (s.emptied asid cause).csm = s.csm := rfl
theorem marked_cores : (s.marked asid x).cores = s.cores := rfl
theorem marked_csm : (s.marked asid x).csm = s.csm := rfl
theorem marked_modules : (s.marked asid x).modules = s.modules := rfl
theorem marked_ringHeld : (s.marked asid x).ringHeld = s.ringHeld := rfl

theorem teardown_idle (hx : s.context? asid = some x) (htearing : x.tearing = some (cause, [])) (hring : s.ring = none)
    (hended : ∀ l ∈ s.launches, l.asid = asid → l.state = .ended) : exec (.teardown asid) s = .next ((s.marked asid x).emptied asid cause) := by
  refine teardown_eq hx htearing ?_ hring
  have hnone : (s.launches.filter fun l => l.asid == asid && l.state ≠ .ended) = [] := by
    rw [List.filter_eq_nil_iff]
    intro l hl
    by_cases hasid : l.asid = asid
    · simp [hended l hl hasid]
    · simp [hasid]
  have hlist : (s.marked asid x).launches.filter (fun l => l.asid == asid && l.state ≠ .ended) = [] := hnone
  rw [hlist]
  rfl

/-- A launch that has not been granted is discarded, its record unwritten. -/
theorem kill_waiting (h : l.grantNo = 0) : s.kill l = s.release l 6 := by
  unfold State.kill
  rw [if_pos h]

theorem teardown_waiting (hx : s.context? asid = some x) (htearing : x.tearing = some (cause, [])) (hring : s.ring = none)
    (hlaunches : s.launches = [l]) (hasid : l.asid = asid) (hstate : l.state ≠ .ended) (hgrant : l.grantNo = 0) :
    exec (.teardown asid) s = .next (((s.marked asid x).release l 6).emptied asid cause) := by
  refine teardown_eq hx htearing ?_ ((release_ring (s := s.marked asid x) (l := l) (status := 6)).trans hring)
  have hlist : (s.marked asid x).launches.filter (fun l => l.asid == asid && l.state ≠ .ended) = [l] := by
    have hmarked : (s.marked asid x).launches = [l] := hlaunches
    rw [hmarked]
    simp [hasid, hstate]
  rw [hlist, List.foldl_cons, List.foldl_nil, kill_waiting hgrant]

theorem release_singleton {status : Nat} (h : s.launches = [l]) : (s.release l status).launches =
    [{ l with state := .ended, status := status, streams := [], samples := [], cfgs := [], sgBegs := [] }] := by
  have honly := onLaunch_singleton h fun l => { l with state := .ended, status := status, streams := [], samples := [], cfgs := [], sgBegs := [] }
  exact release_launches.trans (congrArg State.launches honly)

end Teardown

/-- Settles O51, with the launch's record, the hold of a replay, the pinned error and the teardown each by the lemma on its step. -/
theorem launchesEnd : Obligations.LaunchesEnd := by
  unfold Obligations.LaunchesEnd
  refine ⟨?_, ?_, ?_, ?_⟩
  · intro s u id l k b w hw hl hstate hpinned hdebug hfinished hk hku hused hdigest hlog hruns
    refine ⟨fun harea => launchEnd_nowhere w hl hstate hpinned hdebug hfinished hk hused hdigest hruns harea, ?_⟩
    intro pa i e harea hsector hat hlength
    exact launchEnd_csm w hw hl hstate hpinned hdebug hfinished hk hku hused hdigest hlog hruns harea hsector hat hlength
  · intro s id l hl
    refine ⟨fun i r hreplay hstate hpinned hi hr hfirst => ?_, replayHoldTimeout_none hl⟩
    exact ⟨_, replayHoldTimeout_diverges hl hreplay hstate hpinned (expired_first hi hr hfirst), diverge_launches .., rfl⟩
  · intro s id c cause addr l w hl hpinned hcores hlaunch hdoubles
    refine ⟨fun hstate => ?_, fun hstate hout hside harea hring => ?_⟩
    · obtain ⟨t, ht, hcore, hlaunches⟩ := endLaunchPinned_halts w hl hpinned hcores hlaunch hstate
      refine ⟨t, ht, ?_⟩
      rw [hcore]
      exact ⟨rfl, rfl, rfl, rfl, rfl, rfl, rfl, rfl, hlaunches⟩
    · have hmem : c ∈ l.cores := by
        rw [hcores]
        exact List.mem_singleton_self c
      obtain rfl := launch?_id hl
      refine ⟨_, endLaunchPinned_ends hl hpinned hcores hlaunch hstate hout hside harea hring, release_core (status := 5) w hmem hlaunch,
        ⟨_, release_launch? hl, rfl, rfl⟩, ?_⟩
      exact congrArg (· ++ [_]) (release_ringHeld (s := s) (l := l) (status := 5))
  · intro s asid cause x hx htearing hring hw
    refine ⟨fun hended => ?_, fun l hlaunches hasid hstate hgrant => ?_⟩
    · refine ⟨_, teardown_idle hx htearing hring hended, emptied_context (Sparse.set_wf hw), ?_⟩
      rw [emptied_modules, emptied_ringHeld, emptied_cores, emptied_csm, marked_cores, marked_csm, marked_modules, marked_ringHeld]
      exact ⟨rfl, rfl, rfl, rfl⟩
    · have hkilled : (((s.marked asid x).release l 6).emptied asid cause).launches = _ :=
        emptied_launches.trans (release_singleton (s := s.marked asid x) hlaunches)
      refine ⟨_, _, teardown_waiting hx htearing hring hlaunches hasid hstate hgrant, hkilled, ?_⟩
      exact ⟨rfl, rfl, rfl⟩

end Sys2Proof.Machine

/-! Proofs for spec/19 R340 to R347: launch records, grants, pre-emption, saved contexts, on which O50 rests. -/

namespace Sys2Proof.Machine

open Safety

/-! ### Launch messages (R342, R343) -/

section Messages
variable {s : State} {asid window : Nat} {words : List W64} {x : Context}

theorem fld_flag (w : W64) (i : Nat) (h : i < 16) : (fld w 48 16 / 2 ^ i % 2 == 1) = w.getLsbD (48 + i) := by
  have hbit : w.getLsbD (48 + i) = w.toNat.testBit (48 + i) := rfl
  have hpow : (2 : Nat) ^ 16 = 2 ^ i * 2 ^ (16 - i) := by
    rw [← Nat.pow_add]
    congr 1
    omega
  rw [hbit, Nat.testBit_eq_decide_div_mod_eq, Nat.pow_add, ← Nat.div_div_eq_div_mul]
  unfold fld
  rw [hpow, Nat.mod_mul_right_div_self, Nat.mod_mod_of_dvd _ (Nat.pow_dvd_pow 2 (m := 1) (by omega))]
  rfl

/-- What a launch message is answered with. -/
def Context.answered (x : Context) (st window : Nat) : Context :=
  { x with posts := x.posts ++ [(BitVec.ofNat 64 (6 * 2 ^ 60 + st % 65536 * 2 ^ 40), BitVec.ofNat 64 window)] }

theorem eventWord_launch (st : Nat) : eventWord 6 0 st 0 0 = BitVec.ofNat 64 (6 * 2 ^ 60 + st % 65536 * 2 ^ 40) := by
  unfold eventWord
  refine congrArg (BitVec.ofNat 64) ?_
  omega

theorem postHost_answer (hx : s.context? asid = some x) (st : Nat) : s.postHost asid (eventWord 6 0 st 0 0) (BitVec.ofNat 64 window) =
    s.setContext asid (some (x.answered st window)) := by
  unfold State.postHost State.onContext
  rw [hx, eventWord_launch]
  rfl

theorem launchMessage_eq (hx : s.context? asid = some x) (hlive : x.live = true) : exec (.launchMessage asid window words) s =
    .next ((s.submit asid words).2.postHost asid (eventWord 6 0 (s.recordStatus asid (launchRec words)) 0 0) (BitVec.ofNat 64 window)) := by
  have hlives : s.isLive asid = true := by
    unfold State.isLive
    rw [hx]
    exact hlive
  show execLaunchMessage asid window words s = _
  unfold execLaunchMessage
  rw [hlives]
  rfl

theorem launchMessage_refused (hx : s.context? asid = some x) (hlive : x.live = true) {st : Nat}
    (hst : s.recordStatus asid (launchRec words) = st) (hne : st ≠ 0) :
    exec (.launchMessage asid window words) s = .next (s.setContext asid (some (x.answered st window))) := by
  rw [launchMessage_eq hx hlive, hst]
  unfold State.submit
  dsimp only
  rw [hst, if_neg hne, postHost_answer hx]

/-- The launch that an accepted record makes. -/
def State.accepted (s : State) (asid : Nat) (r : LaunchRec) : Launch := s.newLaunch asid r
  ((((s.context? asid).bind fun x => x.coreSets.find? fun e => e.1 == r.coreset).map (·.2)).getD [])

theorem launchMessage_accepted (hx : s.context? asid = some x) (hlive : x.live = true)
    (hst : s.recordStatus asid (launchRec words) = 0) : exec (.launchMessage asid window words) s =
      .next (State.setContext { s with launches := s.launches ++ [s.accepted asid (launchRec words)], launchIds := s.launchIds + 1 } asid
        (some (x.answered (s.recordStatus asid (launchRec words)) window))) := by
  rw [launchMessage_eq hx hlive]
  unfold State.submit
  dsimp only
  rw [if_pos hst]
  exact congrArg Host.Outcome.next (postHost_answer (s := { s with
    launches := s.launches ++ [s.accepted asid (launchRec words)], launchIds := s.launchIds + 1 }) hx _)

end Messages

/-! ### The grant decision (R344, R346) -/

section Decision
variable {s : State} {l h : Launch}

theorem grantDecision_one (hmsgs : s.launchMsgs = []) (hwaiters : s.waiters = [l]) :
    exec .grantDecision s = .next (s.decideOne [] l).2 := by
  show execGrantDecision s = _
  unfold execGrantDecision
  rw [hmsgs]
  show (Host.Outcome.next s.decideGrants : Out) = _
  unfold State.decideGrants
  rw [hwaiters]
  rfl

theorem decideOne_free (hholders : l.held.flatMap s.holders = []) :
    (s.decideOne [] l).2 = s.onLaunch l.id fun l => { l with state := .granting } := by
  unfold State.decideOne
  rw [hholders]
  rfl

theorem decideOne_passed (hh : h ∈ l.held.flatMap s.holders) (hrank : s.launchRank l ≤ s.launchRank h) : (s.decideOne [] l).2 = s := by
  have hany : ((l.held.flatMap s.holders).any fun h => decide (s.launchRank l ≤ s.launchRank h)) = true :=
    List.any_eq_true.mpr ⟨h, hh, decide_eq_true hrank⟩
  unfold State.decideOne
  dsimp only
  rw [hany, Bool.or_true, if_pos rfl]

/-- A running launch that is pre-empted: its cores are asked to halt. -/
def State.preempted (s : State) (h : Launch) : State :=
  h.cores.foldl (fun s c => s.onCore c fun k => { k with halt := .requested }) (s.onLaunch h.id fun l => { l with state := .halting })

theorem preempt_running (hstate : h.state = .running) : s.preempt h = s.preempted h := by
  unfold State.preempt
  rw [if_neg (by simp [hstate]), if_pos hstate]
  rfl

theorem preempt_halting (hstate : h.state = .halting) : s.preempt h = s := by
  unfold State.preempt
  rw [if_neg (by simp [hstate]), if_neg (by simp [hstate])]

theorem foldl_halt_rest (cores : List Nat) (s : State) :
    { cores.foldl (fun s c => s.onCore c fun k => { k with halt := .requested }) s with cores := s.cores } = s := by
  refine List.foldlRecOn (motive := fun t : State => { t with cores := s.cores } = s) cores _ rfl fun t ht c _ => ?_
  have hfields := congrArg (fun x : State => { x with cores := s.cores }) ht
  exact hfields

theorem preempted_launches : (s.preempted h).launches = s.launches.map fun m => if m.id = h.id then { m with state := .halting } else m := by
  have hfield := congrArg State.launches (foldl_halt_rest h.cores (s.onLaunch h.id fun l => { l with state := .halting }))
  exact hfield

theorem foldl_halt_core (cores : List Nat) (w : CoresWf s) (c : Nat) :
    (cores.foldl (fun s c => s.onCore c fun k => { k with halt := .requested }) s).core c =
      if c ∈ cores then { s.core c with halt := .requested } else s.core c := by
  induction cores generalizing s with
  | nil => rfl
  | cons d cores ih =>
    have hd : CoresWf (s.onCore d fun k => { k with halt := .requested }) := Sparse.set_wf w
    rw [List.foldl_cons, ih hd, State.core_onCore w]
    by_cases hd : c = d
    · subst hd
      simp
    · simp [hd]

theorem preempted_core (w : CoresWf s) (c : Nat) :
    (s.preempted h).core c = if c ∈ h.cores then { s.core c with halt := .requested } else s.core c :=
  foldl_halt_core (s := s.onLaunch h.id fun l => { l with state := .halting }) h.cores w c

theorem preempted_launch? (hh : s.launch? h.id = some h) : (s.preempted h).launch? h.id = some { h with state := .halting } := by
  have hkept := congrArg (List.find? fun m : Launch => m.id == h.id) (preempted_launches (s := s) (h := h))
  refine hkept.trans ?_
  exact launch?_onLaunch (f := fun l => { l with state := .halting }) (fun _ => rfl) hh

/-- What a decision does with one holder. -/
def State.preemptHolder (s : State) (h : Launch) : State :=
  match s.launch? h.id with
  | some h => s.preempt h
  | none => s

theorem foldl_preempt_halting (hs : List Launch) (hsame : ∀ g ∈ hs, g = h) {m : Launch} (hm : s.launch? h.id = some m)
    (hstate : m.state = .halting) : hs.foldl State.preemptHolder s = s := by
  induction hs with
  | nil => rfl
  | cons g hs ih =>
    obtain rfl := hsame g List.mem_cons_self
    have hkept : s.preemptHolder g = s := by
      unfold State.preemptHolder
      rw [hm]
      exact preempt_halting hstate
    rw [List.foldl_cons, hkept]
    exact ih fun x hx => hsame x (List.mem_cons_of_mem _ hx)

theorem foldl_preempt_running (hs : List Launch) (hsome : hs ≠ []) (hsame : ∀ g ∈ hs, g = h) (hh : s.launch? h.id = some h)
    (hstate : h.state = .running) : hs.foldl State.preemptHolder s = s.preempted h := by
  cases hs with
  | nil => exact absurd rfl hsome
  | cons g hs =>
    obtain rfl := hsame g List.mem_cons_self
    have hfirst : s.preemptHolder g = s.preempted g := by
      unfold State.preemptHolder
      rw [hh]
      exact preempt_running hstate
    rw [List.foldl_cons, hfirst]
    exact foldl_preempt_halting hs (fun x hx => hsame x (List.mem_cons_of_mem _ hx)) (preempted_launch? hh) rfl

theorem decideOne_preempts (hsome : l.held.flatMap s.holders ≠ []) (hsame : ∀ g ∈ l.held.flatMap s.holders, g = h)
    (hrank : s.launchRank h < s.launchRank l) (hh : s.launch? h.id = some h) (hstate : h.state = .running) :
    (s.decideOne [] l).2 = (s.preempted h).onLaunch l.id fun l => { l with state := .granting } := by
  have hany : ((l.held.flatMap s.holders).any fun h => decide (s.launchRank l ≤ s.launchRank h)) = false := by
    rw [List.any_eq_false]
    intro g hg
    rw [hsame g hg]
    simp only [decide_eq_true_eq]
    omega
  have hfold := foldl_preempt_running _ hsome hsame hh hstate
  unfold State.decideOne
  dsimp only
  rw [hany, List.any_nil, Bool.or_false, if_neg (by decide)]
  exact congrArg (fun t : State => t.onLaunch l.id fun l => { l with state := .granting }) hfold

end Decision

end Sys2Proof.Machine

/-! Proofs for spec/19 R344 to R347: grants, saved contexts and resumption, O50. -/

namespace Sys2Proof.Machine

open Safety

/-! ### The grant (R15, R22, R345) -/

section Grant
variable {s t : State} {id c : Nat} {l : Launch} {k : Kernel}

/-- What the step-start copies of a grant leave: the cores, and every launch but for an error pinned to it. -/
def KeepsLaunches (s t : State) : Prop := t.cores = s.cores ∧ t.launches.map unpinned = s.launches.map unpinned

theorem KeepsLaunches.foldl {α : Type} (xs : List α) {f : State → α → State} (hf : ∀ s x, KeepsLaunches s (f s x)) (s : State) :
    KeepsLaunches s (xs.foldl f s) := by
  induction xs generalizing s with
  | nil => exact ⟨rfl, rfl⟩
  | cons x xs ih =>
    obtain ⟨hcores, hlaunches⟩ := hf s x
    obtain ⟨hcores', hlaunches'⟩ := ih (f s x)
    exact ⟨hcores'.trans hcores, hlaunches'.trans hlaunches⟩

theorem stepStart_keeps (s : State) (asid : Nat) (e : TEntry) (line : Nat) : KeepsLaunches s (s.stepStart asid e line) := by
  have hread := Stores.readPlace asid (s.residence asid e line) 128 s
  exact ⟨hread.cores, hread.launches⟩

theorem copySteps_keeps (s : State) (asid : Nat) (m : Sparse TEntry) : KeepsLaunches s (s.copySteps asid m) :=
  .foldl _ (fun s _ => .foldl _ (fun s _ => stepStart_keeps s ..) s) s

theorem KeepsLaunches.launch? (h : KeepsLaunches s t) (hl : s.launch? id = some l) : ∃ m, t.launch? id = some m ∧ unpinned m = unpinned l := by
  have hfind : ∀ u : State, (u.launch? id).map unpinned = (u.launches.map unpinned).find? (·.id == id) := by
    intro u
    rw [List.find?_map]
    rfl
  have hkept : (t.launch? id).map unpinned = some (unpinned l) := by
    rw [hfind, h.2, ← hfind, hl]
    rfl
  exact Option.map_eq_some_iff.mp hkept

/-- Cores that are set up, each with what stands beside it. -/
theorem foldl_setCore_pairs {f : Nat → Core} (ps : List (Nat × Nat)) (w : CoresWf s) (hdistinct : (ps.map Prod.snd).Nodup) :
    (∀ i c, (i, c) ∈ ps → (ps.foldl (fun s x => s.setCore x.2 (f x.1)) s).core c = f i) ∧
      ∀ c, c ∉ ps.map Prod.snd → (ps.foldl (fun s x => s.setCore x.2 (f x.1)) s).core c = s.core c := by
  induction ps generalizing s with
  | nil => exact ⟨fun i c h => absurd h List.not_mem_nil, fun c _ => rfl⟩
  | cons p ps ih =>
    have hp : CoresWf (s.setCore p.2 (f p.1)) := Sparse.set_wf w
    obtain ⟨hnot, hrest⟩ := List.nodup_cons.mp hdistinct
    obtain ⟨hin, hout⟩ := ih hp hrest
    refine ⟨fun i c h => ?_, fun c h => ?_⟩
    · rcases List.mem_cons.mp h with hfirst | hlater
      · obtain rfl := hfirst
        exact (hout c hnot).trans (State.core_setCore_same w)
      · exact hin i c hlater
    · rw [List.map_cons, List.mem_cons, not_or] at h
      exact (hout c h.2).trans ((State.core_setCore w c).trans (if_neg h.1))

theorem numbered_cores (cores : List Nat) : (cores.mapIdx fun i c => (i, c)).map Prod.snd = cores := by
  refine List.ext_getElem? fun i => ?_
  rw [List.getElem?_map, List.getElem?_mapIdx, Option.map_map]
  exact Option.map_id'

theorem setCores_single (hdoubles : l.doubles = false) (m : Sparse TEntry) :
    s.setCores l m = (l.cores.mapIdx fun i c => (i, c)).foldl (fun s x => s.setCore x.2 (grantedCore l x.1 m)) s := by
  unfold State.setCores
  simp only [hdoubles, Bool.false_eq_true, if_false]

theorem setCores_core (w : CoresWf s) (hdoubles : l.doubles = false) (hdistinct : l.cores.Nodup) (m : Sparse TEntry) :
    (∀ i c, l.cores[i]? = some c → (s.setCores l m).core c = grantedCore l i m) ∧
      ∀ c, c ∉ l.cores → (s.setCores l m).core c = s.core c := by
  have hnumbered := numbered_cores l.cores
  rw [setCores_single hdoubles]
  obtain ⟨hin, hout⟩ := foldl_setCore_pairs (f := fun i => grantedCore l i m) (l.cores.mapIdx fun i c => (i, c)) w (by rwa [hnumbered])
  rw [hnumbered] at hout
  refine ⟨fun i c hi => hin i c (List.mem_of_getElem? (i := i) ?_), hout⟩
  rw [List.getElem?_mapIdx, hi]
  rfl

theorem setCores_launches (hdoubles : l.doubles = false) (m : Sparse TEntry) : (s.setCores l m).launches = s.launches := by
  rw [setCores_single hdoubles]
  exact List.foldlRecOn (motive := fun t : State => t.launches = s.launches) _ _ rfl fun t ht x _ => ht

/-- The state that a grant of a launch that replays nothing leaves. -/
def State.grantedTo (s : State) (l : Launch) (k : Kernel) : State :=
  { ((s.copySteps l.asid (stepTable l.id k.table)).onLaunch l.id fun m => m.granted s (stepTable l.id k.table) []).setCores l
      (stepTable l.id k.table) with grants := s.grants + 1 }

theorem grant_eq (hl : s.launch? id = some l) (hk : s.kernel? l = some k) (hstate : l.state = .granting) (hgrant : l.grantNo = 0)
    (hfree : ∀ c ∈ l.held, (s.core c).launch = none ∧ (s.core c).retention = []) (hreplay : l.replay = false) :
    exec (.grant id) s = .next (s.grantedTo l k) := by
  have hfrees : s.coresFree l = true := by
    unfold State.coresFree
    rw [List.all_eq_true]
    intro c hc
    obtain ⟨hlaunch, hretention⟩ := hfree c hc
    rw [hlaunch, hretention]
    rfl
  obtain rfl := launch?_id hl
  show execGrant l.id s = _
  unfold execGrant
  rw [hl]
  dsimp only
  rw [hk]
  dsimp only
  rw [if_neg (by simp [hstate, hgrant, hfrees]), hreplay, if_neg Bool.false_ne_true]
  rfl

theorem grantedTo_launch? (hl : s.launch? l.id = some l) (hdoubles : l.doubles = false) :
    ∃ m, (s.grantedTo l k).launch? l.id = some m ∧ m.state = .running ∧ m.grantNo = s.grants + 1 ∧
      m.startTick = (if l.kickoff = 0 then s.gtc else max l.kickoff s.gtc) ∧
      m.kickLate = (if l.kickoff = 0 then 0 else s.gtc - l.kickoff) ∧ m.cores = l.cores := by
  obtain ⟨m, hm, hsame⟩ := (copySteps_keeps s l.asid (stepTable l.id k.table)).launch? hl
  have hkickoff : m.kickoff = l.kickoff := by
    have hfield := congrArg Launch.kickoff hsame
    exact hfield
  have hcores : m.cores = l.cores := by
    have hfield := congrArg Launch.cores hsame
    exact hfield
  have hset := congrArg (List.find? fun m : Launch => m.id == l.id) (setCores_launches
    (s := (s.copySteps l.asid (stepTable l.id k.table)).onLaunch l.id fun m => m.granted s (stepTable l.id k.table) []) hdoubles
    (stepTable l.id k.table))
  refine ⟨m.granted s (stepTable l.id k.table) [], hset.trans ?_, rfl, rfl, ?_, ?_, hcores⟩
  · exact launch?_onLaunch (f := fun l' => l'.granted s (stepTable l.id k.table) []) (fun _ => rfl) hm
  · rw [← hkickoff]
    rfl
  · rw [← hkickoff]
    rfl

theorem grantedTo_core (w : CoresWf s) (hdoubles : l.doubles = false) (hdistinct : l.cores.Nodup) :
    (∀ i c, l.cores[i]? = some c → (s.grantedTo l k).core c = grantedCore l i (stepTable l.id k.table)) ∧
      ∀ c, c ∉ l.cores → (s.grantedTo l k).core c = s.core c := by
  have hcopied := (copySteps_keeps s l.asid (stepTable l.id k.table)).1
  have hw : CoresWf ((s.copySteps l.asid (stepTable l.id k.table)).onLaunch l.id fun m => m.granted s (stepTable l.id k.table) []) :=
    (congrArg (fun t => Sparse.wf Core.reset t = true) hcopied).mpr w
  obtain ⟨hin, hout⟩ := setCores_core hw hdoubles hdistinct (stepTable l.id k.table)
  exact ⟨hin, fun c hc => (hout c hc).trans (core_of_cores hcopied c)⟩

/-- A core at its grant is a core at reset but for its launch, its table and the two registers. -/
theorem grantedCore_single (hdoubles : l.doubles = false) (i : Nat) (m : Sparse TEntry) : grantedCore l i m = { Core.reset with
    arch := grantedArch l i, seg := Segment.openAt (grantedArch l i), run := .waiting, launch := some l.id, ordinal := i, table := m } := by
  unfold grantedCore
  dsimp only
  rw [hdoubles]
  rfl

theorem grantedArch_getS (l : Launch) (i n : Nat) :
    (grantedArch l i).getS n = if n = 1 then l.argptr else if n = 2 then BitVec.ofNat 64 i else 0 := by
  have hw : Sparse.wf (0 : W64) (Sparse.set 0 [] 1 l.argptr) = true := Sparse.set_wf rfl
  show (if n = 0 then 0 else Sparse.get 0 (Sparse.set 0 (Sparse.set 0 [] 1 l.argptr) 2 (BitVec.ofNat 64 i)) n) = _
  rw [Sparse.get_set hw, Sparse.get_set rfl]
  by_cases h1 : n = 1
  · subst h1
    rfl
  · by_cases h2 : n = 2
    · subst h2
      rfl
    · simp [h1, h2, Sparse.get]

end Grant

/-! ### Saved contexts (R347) -/

section Save
variable {s : State} {c : Nat} {l : Launch}

theorem withdrawSteal_none (h : ∀ v, (s.core c).wait ≠ .steal v) : s.withdrawSteal c = s := by
  unfold State.withdrawSteal
  split
  · next v hv => exact absurd hv (h v)
  · rfl

/-- A core without a commit buffer, all its writes gone, commits at its save. -/
theorem closeSegment_saves (hoffs : (s.core c).offs = []) (hunchecked : (s.core c).unchecked = []) (hout : (s.core c).out = [])
    (herror : (s.core c).seg.errorAt = none) (hbad : (s.core c).seg.bad = false) (hcommit : (s.core c).seg.commit = [])
    (haccs : (s.core c).arch.accs = []) (hside : (s.core c).side.length ≤ 256) :
    s.closeSegment c true = some (s.setCore c (s.core c).commit) := by
  have hleave : (s.core c).leave = { s.core c with seg := { (s.core c).seg with commit := [], leaving := true } } := by
    unfold Core.leave
    rw [hcommit]
    rfl
  have hfits : (s.core c).leave.fits = true := by
    rw [fits_iff, hleave]
    exact hside
  have hcommits : (s.core c).leave.commit = (s.core c).commit := by
    rw [hleave]
    rfl
  have hleft : (s.core c).leave.out = [] := by
    rw [hleave]
    exact hout
  unfold State.closeSegment
  cases hleaving : (s.core c).seg.leaving with
  | true => simp [hoffs, hunchecked, hout, hleaving]
  | false => simp [hoffs, hunchecked, hleaving, herror, hbad, haccs, hfits, hleft, hcommits]

/-- The context of a core that is saved. -/
def Core.saved (k : Core) : Core := { k.commit with halt := .saved }

theorem launchOf_launch? (hl : s.launchOf c = some l) : s.launch? l.id = some l := by
  obtain ⟨id, -, hid⟩ := Option.bind_eq_some_iff.mp hl
  rw [launch?_id hid]
  exact hid

theorem contextSave_saves (w : CoresWf s) (hl : s.launchOf c = some l) (hstate : l.state = .halting) (hpinned : l.pinned = none)
    (hhalt : (s.core c).halt = .requested) (hstands : (s.core c).stands = true) (hparked : (s.core c).opsParked = true)
    (hout : (s.core c).out = []) (hsteal : ∀ v, (s.core c).wait ≠ .steal v) (hawake : s.banksAwake l c = true)
    (hclose : s.closeSegment c true = some (s.setCore c (s.core c).commit)) :
    exec (.contextSave c) s = .next ((s.setCore c (s.core c).saved).endSave l) := by
  have hcommitted : (s.setCore c (s.core c).commit).core c = (s.core c).commit := State.core_setCore_same w
  have hunpinned : (((s.setCore c (s.core c).commit).launch? l.id).bind (·.pinned)).isSome = false := by
    have hkept : (s.setCore c (s.core c).commit).launch? l.id = some l := launchOf_launch? (s := s) hl
    rw [hkept]
    show l.pinned.isSome = false
    rw [hpinned]
    rfl
  have hempty : (s.core c).commit.out = [] := hout
  show execContextSave c s = _
  unfold execContextSave
  dsimp only
  rw [hl]
  dsimp only
  rw [if_neg (by simp [hstate, hpinned, hhalt, hstands, hparked, hout, hawake]), withdrawSteal_none hsteal, hclose]
  dsimp only
  rw [hunpinned, hcommitted, hempty, if_neg (by decide), State.onCore, hcommitted, State.setCore_setCore w]
  rfl

theorem endSave_waits {d : Nat} (hd : d ∈ l.cores) (hwaits : (s.core d).halt ≠ .saved) : s.endSave l = s := by
  unfold State.endSave
  rw [if_neg]
  rw [List.all_eq_true]
  intro hall
  exact hwaits (beq_iff_eq.mp (hall d hd))

theorem savedKey_ne (id c : Nat) : savedKey id c ≠ c := by
  unfold savedKey
  have hpos : numCores * (id + 1) ≠ 0 := Nat.mul_ne_zero (by decide) (Nat.succ_ne_zero id)
  omega

theorem held_single (hcores : l.cores = [c]) (hdoubles : l.doubles = false) : l.held = [c] := by
  unfold Launch.held
  rw [hdoubles, hcores]
  rfl

theorem endSave_single (hcores : l.cores = [c]) (hdoubles : l.doubles = false) (hsaved : (s.core c).halt = .saved) :
    s.endSave l = ((s.setCore (savedKey l.id c) (s.core c)).setCore c Core.reset).onLaunch l.id fun l => { l with state := .preempted } := by
  unfold State.endSave
  rw [if_pos (by rw [hcores]; simp [hsaved]), State.moveOut, held_single hcores hdoubles]
  rfl

end Save

/-! ### Resumption (R344, R347) -/

section Resume
variable {s : State} {id c : Nat} {l : Launch}

theorem reissueSteal_none {k : Core} (h : ∀ v, k.wait ≠ .steal v) : k.reissueSteal = k := by
  unfold Core.reissueSteal
  split
  · next v hv => exact absurd hv (h v)
  · rfl

theorem unpark_rest (k : Core) : { k.unpark with ops := k.ops } = k := by
  unfold Core.unpark
  refine List.foldlRecOn (motive := fun t : Core => { t with ops := k.ops } = k) _ _ rfl fun t ht q _ => ?_
  have hfields := congrArg (fun x : Core => { x with ops := k.ops }) ht
  exact hfields

/-- A context that runs again: its parked operations go on, unless a debugger has halted the launch. -/
def Core.resumed (k : Core) (debugHalted : Bool) : Core :=
  if debugHalted then { k with halt := .running } else { k with halt := .running }.unpark

theorem resumed_rest (k : Core) (debugHalted : Bool) :
    (k.resumed debugHalted).halt = .running ∧ { k.resumed debugHalted with ops := k.ops, halt := k.halt } = k := by
  unfold Core.resumed
  split
  · exact ⟨rfl, rfl⟩
  · have hrest := unpark_rest { k with halt := .running }
    refine ⟨?_, ?_⟩
    · have hhalt := congrArg Core.halt hrest
      exact hhalt
    · have hfields := congrArg (fun x : Core => { x with halt := k.halt }) hrest
      exact hfields

theorem restore_single (w : CoresWf s) (hdoubles : l.doubles = false) (hsteal : ∀ v, (s.core (savedKey l.id c)).wait ≠ .steal v) :
    (s.restore l c).core c = (s.core (savedKey l.id c)).resumed l.debugHalted ∧ (s.restore l c).core (savedKey l.id c) = Core.reset ∧
      (s.restore l c).launches = s.launches := by
  have hne := savedKey_ne l.id c
  have hmoved : CoresWf (s.setCore c (s.core (savedKey l.id c))) := Sparse.set_wf w
  have hin : CoresWf (s.moveIn l c) := Sparse.set_wf hmoved
  have hcore : (s.moveIn l c).core c = s.core (savedKey l.id c) := by
    unfold State.moveIn
    rw [State.core_setCore hmoved, if_neg hne.symm, State.core_setCore w, if_pos rfl]
  have hkey : (s.moveIn l c).core (savedKey l.id c) = Core.reset := by
    unfold State.moveIn
    rw [State.core_setCore hmoved, if_pos rfl]
  have hon : CoresWf ((s.moveIn l c).onCore c fun k => { k.reissueSteal with halt := .running }) := Sparse.set_wf hin
  unfold State.restore Core.resumed
  dsimp only
  rw [hdoubles, if_neg (by decide)]
  split
  · rw [State.core_onCore hin, if_pos rfl, State.core_onCore hin, if_neg hne, hcore, hkey, reissueSteal_none hsteal]
    exact ⟨rfl, rfl, rfl⟩
  · rw [State.core_onCore hon, if_pos rfl, State.core_onCore hon, if_neg hne, State.core_onCore hin, if_pos rfl, State.core_onCore hin,
      if_neg hne, hcore, hkey, reissueSteal_none hsteal]
    exact ⟨rfl, rfl, rfl⟩

theorem resumption_eq (hl : s.launch? id = some l) (hstate : l.state = .granting) (hgrant : l.grantNo ≠ 0)
    (hlaunch : (s.core c).launch = none) (hretention : (s.core c).retention = []) (hcores : l.cores = [c]) (hdoubles : l.doubles = false) :
    exec (.resumption id) s = .next (((s.restore l c).onLaunch id fun l => { l with state := .running }).arbitrateFor [c]) := by
  have hfree : s.coresFree l = true := by
    unfold State.coresFree
    rw [held_single hcores hdoubles]
    simp [hlaunch, hretention]
  show execResumption id s = _
  unfold execResumption
  rw [hl]
  dsimp only
  rw [if_neg (by simp [hstate, hgrant, hfree]), hcores]
  rfl

end Resume

end Sys2Proof.Machine

/-! Proofs for spec/19 R340 to R347: launch records, grants, pre-emption, saved contexts, O50. -/

namespace Sys2Proof.Machine

open Safety

/-- Settles O50, each clause by the lemma on its step. -/
theorem launchesGranted : Obligations.LaunchesGranted := by
  unfold Obligations.LaunchesGranted
  refine ⟨?messages, ?decisions, ?grants, ?saves, ?resumes⟩
  case messages =>
    intro s asid window w0 w1 w2 w3 w4 w5 w6 w7 x hx hlive words st answered
    refine ⟨fun hst => ?_, fun hst => ?_⟩
    · exact launchMessage_refused hx hlive rfl hst
    · refine ⟨s.accepted asid (launchRec words), launchMessage_accepted hx hlive hst, rfl, rfl, ?_, rfl, ?_, ?_, ?_, ?_, rfl, ?_, rfl, rfl, rfl,
        rfl, rfl, rfl⟩
      · exact congrArg (· % 2 ^ 32) (Nat.div_one w0.toNat)
      · exact fld_flag w0 0 (by decide)
      · exact fld_flag w0 1 (by decide)
      · exact fld_flag w0 2 (by decide)
      · exact fld_flag w0 3 (by decide)
      · exact fun hseed => if_neg hseed
  case decisions =>
    intro s l w hmsgs hwaiters
    rw [grantDecision_one hmsgs hwaiters]
    refine ⟨fun hholders => ?_, fun h hh hrank => ?_, fun h hsome hsame hrank hl hstate => ?_⟩
    · rw [decideOne_free hholders]
      rfl
    · rw [decideOne_passed hh hrank]
    · refine ⟨_, congrArg Host.Outcome.next (decideOne_preempts hsome hsame hrank hl hstate), ?_, fun c => preempted_core w c⟩
      exact congrArg (List.map fun m : Launch => if m.id = l.id then { m with state := .granting } else m) preempted_launches
  case grants =>
    intro s id l k w hl hk hstate hgrant hfree hreplay hdoubles hdistinct
    obtain rfl := launch?_id hl
    obtain ⟨hin, hout⟩ := grantedTo_core (k := k) w hdoubles hdistinct
    refine ⟨_, grant_eq hl hk hstate hgrant hfree hreplay, rfl, grantedTo_launch? hl hdoubles, fun i c hi => ?_, hout⟩
    rw [hin i c hi, grantedCore_single hdoubles]
    exact ⟨rfl, rfl, rfl, rfl, grantedArch_getS l i, rfl, rfl⟩
  case saves =>
    intro s c l w hl hstate hpinned hhalt hstands hparked hout hsteal hoffs hunchecked herror hbad hcommit haccs hside hawake a k
    have hclose := closeSegment_saves hoffs hunchecked hout herror hbad hcommit haccs hside
    have hsave := contextSave_saves w hl hstate hpinned hhalt hstands hparked hout hsteal hawake hclose
    have hk : (s.core c).saved = k := by
      unfold Core.saved Core.commit
      dsimp only
      rw [herror, hbad]
      rfl
    rw [hk] at hsave
    have hset : CoresWf (s.setCore c k) := Sparse.set_wf w
    have hcore : (s.setCore c k).core c = k := State.core_setCore_same w
    refine ⟨fun ⟨d, hd, hne, hwaits⟩ => ?_, fun hcores hdoubles => ?_⟩
    · have hother : ((s.setCore c k).core d).halt ≠ .saved := by
        rw [State.core_setCore w, if_neg hne]
        exact hwaits
      rw [hsave, endSave_waits hd hother]
    · have hsaved : ((s.setCore c k).core c).halt = .saved := by
        rw [hcore]
      have hmoved : CoresWf ((s.setCore c k).setCore (savedKey l.id c) k) := Sparse.set_wf hset
      rw [endSave_single hcores hdoubles hsaved, hcore] at hsave
      refine ⟨_, hsave, ?_, State.core_setCore_same hmoved, fun d hd hkey => ?_, rfl⟩
      · exact ((State.core_setCore hmoved _).trans (if_neg (savedKey_ne l.id c))).trans (State.core_setCore_same hset)
      · refine ((State.core_setCore hmoved d).trans (if_neg hd)).trans ?_
        refine ((State.core_setCore hset d).trans (if_neg hkey)).trans ?_
        rw [State.core_setCore w, if_neg hd]
  case resumes =>
    intro s id c l w hl hstate hgrant hlaunch hretention hcores hdoubles key hsteal
    obtain ⟨hcore, hkey, hlaunches⟩ := restore_single w hdoubles hsteal
    obtain ⟨hhalt, hrest⟩ := resumed_rest (s.core key) l.debugHalted
    refine ⟨_, resumption_eq hl hstate hgrant hlaunch hretention hcores hdoubles, ?_, ?_, hkey, ?_⟩
    · exact (congrArg Core.halt hcore).trans hhalt
    · exact (congrArg (fun k : Core => { k with ops := (s.core key).ops, halt := (s.core key).halt }) hcore).trans hrest
    · exact congrArg (List.map fun m : Launch => if m.id = id then { m with state := .running } else m) hlaunches

end Sys2Proof.Machine

/-! Proofs for spec/20 (R355, R356, R365): the subpages of an entry and the tables that show them, on which O52 rests. -/

namespace Sys2Proof.Machine

open Safety

/-! ### The state of a subpage (R355) -/

section Digits
variable {i j d x b w : Nat}

/-- A digit to base 4 of a number put together above and below a place. -/
theorem digit_join (hb : b < 4 ^ i) : (4 ^ i * x + b) / 4 ^ j % 4 = if i ≤ j then x / 4 ^ (j - i) % 4 else b / 4 ^ j % 4 := by
  split
  · next h =>
    obtain ⟨n, rfl⟩ := Nat.exists_eq_add_of_le h
    rw [Nat.add_sub_cancel_left, Nat.pow_add, ← Nat.div_div_eq_div_mul, Nat.mul_add_div (Nat.pow_pos (by decide)), Nat.div_eq_of_lt hb, Nat.add_zero]
  · next h =>
    obtain ⟨n, rfl⟩ := Nat.exists_eq_add_of_lt (Nat.lt_of_not_le h)
    have hjoin : 4 ^ (j + n + 1) * x + b = b + 4 ^ j * (4 * (4 ^ n * x)) := by
      rw [Nat.pow_succ, Nat.pow_add]
      ac_rfl
    rw [hjoin, Nat.add_mul_div_left _ _ (Nat.pow_pos (by decide)), Nat.add_mul_mod_self_left]

/-- Replacing a digit to base 4 changes that digit alone. -/
theorem digit_replace : (w - w / 4 ^ i % 4 * 4 ^ i + d % 4 * 4 ^ i) / 4 ^ j % 4 = if j = i then d % 4 else w / 4 ^ j % 4 := by
  have hlow : w % 4 ^ i < 4 ^ i := Nat.mod_lt _ (Nat.pow_pos (by decide))
  have hhigh : 4 * (w / 4 ^ i / 4) + w / 4 ^ i % 4 = w / 4 ^ i := Nat.div_add_mod ..
  have hw : w = 4 ^ i * (4 * (w / 4 ^ i / 4) + w / 4 ^ i % 4) + w % 4 ^ i := by rw [hhigh, Nat.div_add_mod]
  have hnew : w - w / 4 ^ i % 4 * 4 ^ i + d % 4 * 4 ^ i = 4 ^ i * (4 * (w / 4 ^ i / 4) + d % 4) + w % 4 ^ i := by
    generalize w / 4 ^ i / 4 = a at hw ⊢
    generalize w / 4 ^ i % 4 = c at hw ⊢
    generalize w % 4 ^ i = b at hw ⊢
    generalize 4 ^ i = p at hw ⊢
    have hsum : w = c * p + (p * (4 * a) + b) := by rw [hw, Nat.mul_add]; ac_rfl
    rw [hsum, Nat.add_sub_cancel_left, Nat.mul_add]
    ac_rfl
  rw [hnew, digit_join hlow]
  have hold := digit_join (x := 4 * (w / 4 ^ i / 4) + w / 4 ^ i % 4) (j := j) hlow
  rw [← hw] at hold
  rw [hold]
  rcases Nat.lt_trichotomy j i with h | rfl | h
  · rw [if_neg (by omega), if_neg (by omega), if_neg (by omega)]
  · rw [if_pos (Nat.le_refl _), if_pos rfl, Nat.sub_self, Nat.pow_zero, Nat.div_one]
    omega
  · obtain ⟨n, rfl⟩ := Nat.exists_eq_add_of_lt h
    rw [if_pos (by omega), if_neg (by omega), if_pos (by omega), show i + n + 1 - i = n + 1 from by omega, Nat.pow_succ', ← Nat.div_div_eq_div_mul,
      ← Nat.div_div_eq_div_mul]
    congr 2
    omega

/-- The digits that a word of 128 bits holds are those of the number it is made of. -/
theorem digit_word (hj : j < 64) : w % 2 ^ 128 / 4 ^ j % 4 = w / 4 ^ j % 4 := by
  have hpow : 2 ^ 128 = 4 ^ j * (4 * 4 ^ (63 - j)) := by
    have hvalue : 2 ^ 128 = 4 ^ 64 := rfl
    rw [← Nat.pow_succ', ← Nat.pow_add, show j + (63 - j + 1) = 64 from by omega, hvalue]
  rw [hpow, Nat.mod_mul_right_div_self, Nat.mod_mul_right_mod]

end Digits

section Subpages
variable {e : TEntry} {i j st : Nat} {here : Bool}

theorem stateOf_eq : e.stateOf j = e.states.toNat / 4 ^ j % 4 := by
  have hpow : 2 ^ (2 * j) = 4 ^ j := Nat.pow_mul 2 2 j
  show e.states.toNat / 2 ^ (2 * j) % 4 = _
  rw [hpow]

theorem stateOf_setSub (hj : j < 64) : (e.setSub i st here).stateOf j = if j = i then st % 4 else e.stateOf j := by
  rw [stateOf_eq, stateOf_eq]
  unfold TEntry.setSub
  dsimp only
  rw [BitVec.toNat_ofNat, digit_word hj, digit_replace]

theorem has_setSub (hi : i < 64) (hj : j < 64) : (e.setSub i st here).has j = if j = i then here else e.has j := by
  have hbit : (BitVec.shiftLeft (1 : W64) i).getLsbD j = decide (j = i) := by
    show ((1 : W64) <<< i).getLsbD j = _
    have hone : ∀ n, (1 : W64).getLsbD n = decide (n = 0) := fun n => by
      show (1#64).getLsbD n = _
      rw [BitVec.getLsbD_one]
      rfl
    rw [BitVec.getLsbD_shiftLeft, hone, decide_eq_true hj, Bool.true_and, ← decide_not, ← Bool.decide_and]
    exact decide_eq_decide.mpr (by omega)
  unfold TEntry.setSub TEntry.has
  cases here with
  | true =>
    simp only [if_true, BitVec.getLsbD_or, hbit]
    split
    · simp_all
    · simp_all
  | false =>
    simp only [Bool.false_eq_true, if_false, BitVec.getLsbD_and, BitVec.getLsbD_not, hbit]
    split
    · simp_all
    · simp_all

end Subpages

/-! ### Entries in the tables (R365 step 4) -/

/-- Do two names mean subpages of one entry? -/
def Sub.sameEntry (x y : Sub) : Bool := x.module == y.module && x.kernel == y.kernel && x.entry == y.entry

section Tables
variable {s : State} {x y : Sub} {f : TEntry → TEntry}

theorem sameEntry_self (x : Sub) : x.sameEntry x = true := by
  unfold Sub.sameEntry
  simp only [beq_self_eq_true, Bool.and_self]

theorem find?_onEntry (idx n : Nat) (m : Sparse TEntry) : ((onEntry idx f m).find? fun e => e.1 == n).map (·.2) =
    ((m.find? fun e => e.1 == n).map (·.2)).map fun e => if idx = n then f e else e := by
  have hkey : ((fun e : Nat × TEntry => e.1 == n) ∘ fun x : Nat × TEntry => if x.1 = idx then (x.1, f x.2) else x) = fun e => e.1 == n := by
    funext e
    show ((if e.1 = idx then (e.1, f e.2) else e).1 == n) = (e.1 == n)
    split
    · rfl
    · rfl
  unfold onEntry
  rw [List.find?_map, hkey]
  cases hfind : m.find? fun e => e.1 == n with
  | none => rfl
  | some e =>
    have hn : e.1 = n := beq_iff_eq.mp (List.find?_some (p := fun e : Nat × TEntry => e.1 == n) hfind)
    subst hn
    by_cases hidx : idx = e.1
    · simp [hidx]
    · simp [hidx, Ne.symm hidx]

theorem module?_onModule {h n : Nat} {g : Module → Module} (hg : ∀ m, (g m).handle = m.handle) :
    (s.onModule h g).module? n = (s.module? n).map fun m => if h = n then g m else m := by
  have hsame : ((fun m : Module => m.handle == n) ∘ fun m => if m.handle = h then g m else m) = fun m : Module => m.handle == n := by
    funext m
    show ((if m.handle = h then g m else m).handle == n) = _
    split
    · rw [hg]
    · rfl
  show (s.modules.map fun m => if m.handle = h then g m else m).find? (fun m => m.handle == n) = _
  rw [List.find?_map, hsame]
  show (s.module? n).map _ = _
  cases hm : s.module? n with
  | none => rfl
  | some m =>
    have hn : m.handle = n := beq_iff_eq.mp (List.find?_some (p := fun m : Module => m.handle == n) hm)
    subst hn
    by_cases hh : h = m.handle
    · simp [hh]
    · simp [hh, Ne.symm hh]

theorem subEntry_onTable : (s.onTable x f).subEntry y = (s.subEntry y).map fun e => if x.sameEntry y then f e else e := by
  have htable : (s.onTable x f).module? y.module = _ := module?_onModule fun _ => rfl
  unfold State.subEntry State.tableEntry?
  rw [htable]
  unfold Sub.sameEntry
  cases s.module? y.module with
  | none => rfl
  | some m =>
    by_cases hmodule : x.module = y.module
    · simp only [Option.map_some, if_pos hmodule, Option.bind_some, List.getElem?_mapIdx]
      cases m.kernels[y.kernel]? with
      | none => rfl
      | some k =>
        by_cases hkernel : y.kernel = x.kernel
        · simp only [Option.map_some, if_pos hkernel, Option.bind_some, find?_onEntry]
          simp [hmodule, hkernel]
        · simp [hkernel, Ne.symm hkernel, Function.comp_def]
    · simp [hmodule]

theorem foldl_tables_modules (keys : List Nat) (g : Core → Core) (s : State) :
    { keys.foldl (fun s c => s.onCore c g) s with cores := s.cores } = s := by
  refine List.foldlRecOn (motive := fun t : State => { t with cores := s.cores } = s) keys _ rfl fun t ht c _ => ?_
  have hfields := congrArg (fun x : State => { x with cores := s.cores }) ht
  exact hfields

theorem subEntry_of_modules {t : State} (h : t.modules = s.modules) (y : Sub) : t.subEntry y = s.subEntry y := by
  unfold State.subEntry State.tableEntry? State.module?
  rw [h]

theorem subEntry_onEverywhere : (s.onEverywhere x f).subEntry y = (s.subEntry y).map fun e => if x.sameEntry y then f e else e := by
  have hmodules := congrArg State.modules (foldl_tables_modules (s.keysWith x) (fun k => { k with table := onEntry x.entry f k.table })
    (s.onTable x f))
  exact (subEntry_of_modules hmodules y).trans subEntry_onTable

end Tables

/-- An entry after the subpages of a list that are its own have been changed in turn. -/
def entryAfter (f : Nat → TEntry → TEntry) (own : Sub → Bool) (l : List Sub) (e : TEntry) : TEntry :=
  l.foldl (fun e x => if own x then f x.sub e else e) e

section Spans
variable {s : State} {y : Sub} {f : Nat → TEntry → TEntry} {own : Sub → Bool} {l : List Sub}

theorem subEntry_foldl {g : State → Sub → State}
    (hg : ∀ s x, (g s x).subEntry y = (s.subEntry y).map fun e => if x.sameEntry y then f x.sub e else e) (l : List Sub) (s : State) :
    (l.foldl g s).subEntry y = (s.subEntry y).map (entryAfter f (·.sameEntry y) l) := by
  induction l generalizing s with
  | nil => exact Option.map_id'.symm
  | cons x l ih =>
    rw [List.foldl_cons, ih, hg, Option.map_map]
    rfl

theorem subEntry_onSpan {asid lo hi : Nat} :
    (s.onSpan asid lo hi f).subEntry y = (s.subEntry y).map (entryAfter f (·.sameEntry y) (s.aliases asid lo hi)) :=
  subEntry_foldl (fun _ _ => subEntry_onEverywhere) _ _

/-- What the change of a subpage brings about holds of its entry in the end, where a change of another one keeps it. -/
theorem entryAfter_of_mem {P : TEntry → Prop} (hy : y ∈ l) (hown : own y = true) (hset : ∀ e, P (f y.sub e)) (hkeep : ∀ x ∈ l, ∀ e, P e → P (f x.sub e))
    (e : TEntry) : P (entryAfter f own l e) := by
  have hkept : ∀ l, (∀ x ∈ l, ∀ e, P e → P (f x.sub e)) → ∀ e, P e → P (entryAfter f own l e) := by
    intro l hl e he
    refine List.foldlRecOn l _ he fun e he x hx => ?_
    split
    · exact hl x hx e he
    · exact he
  induction l generalizing e with
  | nil => exact absurd hy List.not_mem_nil
  | cons x l ih =>
    have hrest : ∀ x ∈ l, ∀ e, P e → P (f x.sub e) := fun x hx => hkeep x (List.mem_cons_of_mem _ hx)
    rcases List.mem_cons.mp hy with rfl | hlater
    · refine hkept l hrest _ ?_
      dsimp only
      rw [if_pos hown]
      exact hset e
    · exact ih hlater hrest _

theorem aliases_sub {asid lo hi : Nat} (hy : y ∈ s.aliases asid lo hi) : y.sub < 64 := by
  unfold State.aliases at hy
  obtain ⟨t, -, ht⟩ := List.mem_flatMap.mp hy
  obtain ⟨x, -, hx⟩ := List.mem_flatMap.mp ht
  split at hx
  · exact absurd hx List.not_mem_nil
  · obtain ⟨i, hi, hsome⟩ := List.mem_filterMap.mp hx
    dsimp only at hsome
    split at hsome
    · have hsub := congrArg Sub.sub (Option.some.inj hsome)
      exact hsub ▸ List.mem_range.mp hi
    · exact absurd hsome (by simp)

/-- Setting subpages in turn leaves each of them as it was set. -/
theorem entryAfter_setSub {st : Nat} {here : Bool} {f : Nat → TEntry → TEntry} (hl : ∀ x ∈ l, x.sub < 64) (hy : y ∈ l) (hown : own y = true)
    (hf : ∀ i e, ((f i e).present, (f i e).states) = ((e.setSub i st here).present, (e.setSub i st here).states)) (e : TEntry) :
    (entryAfter f own l e).stateOf y.sub = st % 4 ∧ (entryAfter f own l e).has y.sub = here := by
  have hstate : ∀ i e, (f i e).stateOf y.sub = (e.setSub i st here).stateOf y.sub := fun i e =>
    congrArg (fun p : W64 × BitVec 128 => fld p.2 (2 * y.sub) 2) (hf i e)
  have hhas : ∀ i e, (f i e).has y.sub = (e.setSub i st here).has y.sub := fun i e =>
    congrArg (fun p : W64 × BitVec 128 => p.1.getLsbD y.sub) (hf i e)
  have hsub := hl y hy
  refine entryAfter_of_mem (P := fun e => e.stateOf y.sub = st % 4 ∧ e.has y.sub = here) hy hown (fun e => ?_) (fun x hx e he => ?_) e
  · rw [hstate, hhas, stateOf_setSub hsub, has_setSub hsub hsub, if_pos rfl, if_pos rfl]
    exact ⟨rfl, rfl⟩
  · rw [hstate, hhas, stateOf_setSub hsub, has_setSub (hl x hx) hsub, he.1, he.2, ite_self, ite_self]
    exact ⟨rfl, rfl⟩

/-- Marking subpages present in turn leaves each of them present. -/
theorem entryAfter_present (hl : ∀ x ∈ l, x.sub < 64) (hy : y ∈ l) (hown : own y = true) (e : TEntry) :
    (entryAfter (fun i f => f.setSub i (f.stateOf i) true) own l e).has y.sub = true := by
  have hsub := hl y hy
  refine entryAfter_of_mem (P := fun e => e.has y.sub = true) hy hown (fun e => ?_) (fun x hx e he => ?_) e
  · rw [has_setSub hsub hsub, if_pos rfl]
  · rw [has_setSub (hl x hx) hsub, he, ite_self]

end Spans

end Sys2Proof.Machine

/-! Proofs for spec/20 (R359, R360, R367, R368): move commands, faults, hold-offs, on which O52 rests. -/

namespace Sys2Proof.Machine

open Safety

/-! ### What a state's modules decide -/

section Modules
variable {s t : State} (h : t.modules = s.modules)
include h

theorem tablesOf_of_modules (asid : Nat) : t.tablesOf asid = s.tablesOf asid := by
  unfold State.tablesOf
  rw [h]

theorem widen_of_modules (asid n : Nat) (r : Nat × Nat) : t.widen asid n r = s.widen asid n r := by
  induction n generalizing r with
  | zero => rfl
  | succ n ih =>
    rw [State.widen, State.widen, tablesOf_of_modules h]
    exact ih _

theorem spanOf_of_modules (asid : Nat) (e : TEntry) (sub : Nat) : t.spanOf asid e sub = s.spanOf asid e sub := by
  unfold State.spanOf
  rw [tablesOf_of_modules h]
  exact widen_of_modules h ..

theorem aliases_of_modules (asid lo hi : Nat) : t.aliases asid lo hi = s.aliases asid lo hi := by
  unfold State.aliases
  rw [tablesOf_of_modules h]

theorem sameSub_of_modules (asid : Nat) (x y : Sub) : t.sameSub asid x y = s.sameSub asid x y := by
  unfold State.sameSub
  simp only [subEntry_of_modules h, spanOf_of_modules h]

end Modules

/-! ### Move commands (R359) -/

section Commands
variable {s : State} {asid va count hbase : Nat} {kind : MigKind} {l : List Sub} {x : Sub} {e : TEntry}

/-- The device addresses that move with a subpage, none for one that no table holds. -/
def State.spanAt (s : State) (asid : Nat) (x : Sub) : Nat × Nat := ((s.subEntry x).map fun e => s.spanOf asid e x.sub).getD (0, 0)
/-- The migration that a command queues for a subpage. -/
def State.queuedMove (s : State) (asid : Nat) (kind : MigKind) (hbase : Nat) (x : Sub) : Migration :=
  ⟨asid, x.module, x.kernel, x.entry, x.sub, (s.spanAt asid x).1, (s.spanAt asid x).2, kind, .queued, [], hbase, 0⟩

theorem queuedMove_of_modules {t : State} (h : t.modules = s.modules) (asid : Nat) (kind : MigKind) (hbase : Nat) (x : Sub) :
    t.queuedMove asid kind hbase x = s.queuedMove asid kind hbase x := by
  unfold State.queuedMove State.spanAt
  simp only [subEntry_of_modules h, spanOf_of_modules h]

theorem queueMigration_queues (h : s.subEntry x = some e) (asid : Nat) (kind : MigKind) (hbase : Nat) :
    s.queueMigration asid kind hbase x = { s with migrations := s.migrations ++ [s.queuedMove asid kind hbase x] } := by
  unfold State.queueMigration State.queuedMove State.spanAt
  rw [h]
  rfl

theorem foldl_queueMigration (h : ∀ x ∈ l, (s.subEntry x).isSome) (ms : List Migration) :
    l.foldl (fun s x => s.queueMigration asid kind hbase x) { s with migrations := ms } =
      { s with migrations := ms ++ l.map (s.queuedMove asid kind hbase) } := by
  induction l generalizing ms with
  | nil => rw [List.map_nil, List.append_nil, List.foldl_nil]
  | cons x l ih =>
    obtain ⟨e, he⟩ := Option.isSome_iff_exists.mp (h x List.mem_cons_self)
    have hfirst : State.queueMigration { s with migrations := ms } asid kind hbase x =
        { s with migrations := ms ++ [s.queuedMove asid kind hbase x] } := by
      have hqueue := queueMigration_queues (s := { s with migrations := ms }) he asid kind hbase
      rw [queuedMove_of_modules (s := s) (t := { s with migrations := ms }) rfl] at hqueue
      exact hqueue
    rw [List.foldl_cons, hfirst, ih fun y hy => h y (List.mem_cons_of_mem _ hy), List.append_assoc]
    rfl

/-- May a command be given on a subpage, and gets it no memory of a context that is being torn down? -/
def State.mayTake (s : State) (asid : Nat) (kind : MigKind) (hbase : Nat) (x : Sub) : Bool :=
  s.mayMove kind x && !((kind == .toHost || kind == .duplicate) && s.givesAway asid hbase x)

/-- A command whose addresses each name one subpage. -/
theorem moveCommand_single (hnamed : s.named asid count va = l.map fun x => [x]) : s.moveCommand asid va count kind hbase =
    s.command (s.isLive asid && count ≠ 0 && l.length == count && l.all (s.mayTake asid kind hbase))
      (l.foldl (fun s x => s.queueMigration asid kind hbase x) s) := by
  unfold State.moveCommand
  dsimp only
  rw [hnamed, List.length_map, List.all_map, List.foldl_map]
  simp only [Function.comp_def, List.isEmpty_cons, Bool.not_false, Bool.true_and, List.all_cons, List.all_nil, Bool.and_true]
  rfl

theorem mayTake_iff : s.mayTake asid kind hbase x = true ↔
    s.mayMove kind x = true ∧ ¬ ((kind = .toHost ∨ kind = .duplicate) ∧ s.givesAway asid hbase x = true) := by
  unfold State.mayTake
  simp only [Bool.and_eq_true, Bool.not_eq_true', ← Bool.not_eq_true, Bool.or_eq_true, beq_iff_eq]

theorem mayMove_isSome (h : s.mayMove kind x = true) : (s.subEntry x).isSome := by
  unfold State.mayMove at h
  cases he : s.subEntry x with
  | none =>
    rw [he] at h
    exact absurd h (by simp)
  | some e => rfl

theorem moveCommand_done (hnamed : s.named asid count va = l.map fun x => [x]) (hcount : count ≠ 0) (hb : s.markhor.booted = true)
    (hlive : s.isLive asid = true) (hlength : l.length = count) (hmay : ∀ x ∈ l, s.mayTake asid kind hbase x = true) :
    s.moveCommand asid va count kind hbase = { s with
      migrations := s.migrations ++ l.map (s.queuedMove asid kind hbase), answers := s.answers ++ [Answer.ok] } := by
  have hok : (s.isLive asid && count ≠ 0 && l.length == count && l.all (s.mayTake asid kind hbase)) = true := by
    rw [hlive, hlength, List.all_eq_true.mpr hmay]
    simp [hcount]
  rw [moveCommand_single hnamed, command_done hb hok]
  have hfold := foldl_queueMigration (asid := asid) (kind := kind) (hbase := hbase) (s := s) (l := l)
    (fun x hx => mayMove_isSome (mayTake_iff.mp (hmay x hx)).1) s.migrations
  exact congrArg (fun t : State => { t with answers := t.answers ++ [Answer.ok] }) hfold

theorem moveCommand_refused (hnamed : s.named asid count va = l.map fun x => [x])
    (hwhy : s.markhor.booted = false ∨ s.isLive asid = false ∨ l.length ≠ count ∨ ∃ x ∈ l, s.mayTake asid kind hbase x = false) :
    s.moveCommand asid va count kind hbase = { s with answers := s.answers ++ [.refused 1] } := by
  rw [moveCommand_single hnamed]
  rcases hwhy with hb | hlive | hlength | ⟨x, hx, hmay⟩
  · exact command_closed hb
  · exact command_refuses (by rw [hlive]; rfl)
  · exact command_refuses (by simp [hlength])
  · refine command_refuses ?_
    have hall : l.all (s.mayTake asid kind hbase) = false := List.all_eq_false.mpr ⟨x, hx, by rw [hmay]; exact Bool.false_ne_true⟩
    rw [hall, Bool.and_false]

end Commands

/-! ### Faults (R360, R367, R368) -/

section Faults
variable {s : State} {c va asid i sub : Nat} {byHost write : Bool} {l : Launch} {x : Sub} {e : TEntry} {w : List (Nat × Bool)}

/-- The request that a fault makes. -/
def FaultReq.of (asid : Nat) (byHost write : Bool) (x : Sub) (w : List (Nat × Bool)) : FaultReq :=
  ⟨asid, x.module, x.kernel, x.entry, x.sub, byHost, write, w⟩

theorem faultRequest_takes (hl : s.launchOf c = some l)
    (hat : lookup (s.core c).table (if write then .write else .read) va = .absent i sub) (he : s.subEntry ⟨l.module, l.kernel, i, sub⟩ = some e) :
    exec (.faultRequest c va write) s = .next (s.takeFault l.asid false write ⟨l.module, l.kernel, i, sub⟩ e
      [(l.id, (s.core c).pieceAt va && !(s.core c).otherAt va)]) := by
  have hruns : (s.core c).launch.isSome = true := by
    obtain ⟨id, hid, -⟩ := Option.bind_eq_some_iff.mp hl
    rw [hid]
    rfl
  have hkey : (s.contextKeys c).find? (fun key => (s.core key).launch.isSome) = some c := List.find?_cons_of_pos hruns
  show execFaultRequest c va write s = _
  unfold execFaultRequest
  rw [hkey]
  dsimp only
  rw [hl, hat]
  dsimp only
  rw [he]

theorem noteFault_new (h : s.faultOf asid byHost x = none) :
    s.noteFault asid byHost write x w = { s with faults := s.faults ++ [.of asid byHost write x w] } := by
  unfold State.noteFault
  rw [h]
  rfl

variable (hquiet : s.migrating asid x = false)
include hquiet

theorem takeFault_collapses (he : s.subEntry x = some e) (hdup : e.stateOf x.sub = stDup) : s.takeFault asid byHost write x e w =
    { s with migrations := s.migrations ++ [s.queuedMove asid (if byHost then .collapseHost else .collapseDevice) 0 x] } := by
  unfold State.takeFault
  rw [if_neg (by rw [hquiet]; exact Bool.false_ne_true), if_pos hdup, queueMigration_queues he]

variable (hdup : e.stateOf x.sub ≠ stDup) (hheld : s.heldOff asid byHost x = false)
include hdup hheld

theorem takeFault_decides (hother : (s.faultOf asid (!byHost) x).isSome) :
    s.takeFault asid byHost write x e w = s.decideFault asid x e byHost write := by
  unfold State.takeFault
  rw [if_neg (by rw [hquiet]; exact Bool.false_ne_true), if_neg hdup, if_neg (by rw [hheld]; exact Bool.false_ne_true), if_pos hother]

variable (hother : s.faultOf asid (!byHost) x = none) (hnew : s.faultOf asid byHost x = none)
include hother hnew

theorem takeFault_notes (hcode : (s.isCode x && !byHost) = false) :
    s.takeFault asid byHost write x e w = { s with faults := s.faults ++ [.of asid byHost write x w] } := by
  have hisCode : (State.isCode { s with faults := s.faults ++ [.of asid byHost write x w] } x && !byHost) = false := hcode
  unfold State.takeFault
  dsimp only
  rw [if_neg (by rw [hquiet]; exact Bool.false_ne_true), if_neg hdup, if_neg (by rw [hheld]; exact Bool.false_ne_true), hother,
    if_neg (by exact Bool.false_ne_true), noteFault_new hnew, hisCode, if_neg Bool.false_ne_true]

theorem takeFault_code (he : s.subEntry x = some e) (hcode : (s.isCode x && !byHost) = true) : s.takeFault asid byHost write x e w =
    { s with faults := s.faults ++ [.of asid byHost write x w], migrations := s.migrations ++ [s.queuedMove asid .toDevice 0 x] } := by
  have hisCode : (State.isCode { s with faults := s.faults ++ [.of asid byHost write x w] } x && !byHost) = true := hcode
  unfold State.takeFault
  dsimp only
  rw [if_neg (by rw [hquiet]; exact Bool.false_ne_true), if_neg hdup, if_neg (by rw [hheld]; exact Bool.false_ne_true), hother,
    if_neg (by exact Bool.false_ne_true), noteFault_new hnew, hisCode, if_pos rfl]
  have hqueue := queueMigration_queues (s := { s with faults := s.faults ++ [.of asid byHost write x w] }) he asid .toDevice 0
  rw [queuedMove_of_modules (s := s) (t := { s with faults := s.faults ++ [.of asid byHost write x w] }) rfl] at hqueue
  exact hqueue

end Faults

end Sys2Proof.Machine

/-! Proofs for spec/20 (R360, R367 to R369): requests of both sides, the host's faults, faults without a way out, on which O52 rests. -/

namespace Sys2Proof.Machine

open Safety

section Spans
variable {s : State} {asid lo hi : Nat} {x : Sub} {f : TEntry → TEntry}

/-- From `s` to `t` tables have changed, in modules and in cores. -/
def Tabled (s t : State) : Prop := { t with modules := s.modules, cores := s.cores } = s

theorem Tabled.foldl {α : Type} {g : State → α → State} (hg : ∀ s x, Tabled s (g s x)) (l : List α) (s : State) : Tabled s (l.foldl g s) := by
  refine List.foldlRecOn (motive := fun t : State => Tabled s t) l _ rfl fun t ht x _ => ?_
  have hfields := congrArg (fun x : State => { x with modules := s.modules, cores := s.cores }) (hg t x)
  exact hfields.trans ht

theorem onEverywhere_tabled (s : State) (x : Sub) (f : TEntry → TEntry) : Tabled s (s.onEverywhere x f) := by
  have hfields := congrArg (fun x : State => { x with modules := s.modules, cores := s.cores })
    (foldl_tables_modules (s.keysWith x) (fun k => { k with table := onEntry x.entry f k.table }) (s.onTable x f))
  exact hfields

theorem onSpan_tabled (s : State) (asid lo hi : Nat) (f : Nat → TEntry → TEntry) : Tabled s (s.onSpan asid lo hi f) :=
  Tabled.foldl (fun s x => onEverywhere_tabled s x (f x.sub)) _ s

end Spans

/-! ### Requests that meet (R368) -/

section Meeting
variable {s : State} {asid : Nat} {x y : Sub} {e f : TEntry} {g : FaultReq} {byHost write : Bool}

/-- The request that is held off where both sides ask for a subpage: the loser's. -/
def heldRequest (asid : Nat) (write : Bool) (x : Sub) (e : TEntry) (g : FaultReq) : FaultReq :=
  if e.stateOf x.sub = 1 then .of asid false write x [] else { g with waits := [] }

/-- The state in which the loser's request is held off, the tables still as they were. -/
def State.heldOffFor (s : State) (asid : Nat) (x : Sub) (r : FaultReq) : State := { s with
  faults := s.faults.filter fun f => !(f.asid == asid && s.sameSub asid f.at x), holdOffs := s.holdOffs ++ [⟨r⟩] }

theorem decideFault_eq (hg : s.faultOf asid true x = some g) : s.decideFault asid x e false write =
    (s.heldOffFor asid x (heldRequest asid write x e g)).onSpan asid (s.spanOf asid e x.sub).1 (s.spanOf asid e x.sub).2
      fun i f => f.setSub i (f.stateOf i) true := by
  have hheld : ({ (if false = !(e.stateOf x.sub == stHost) then FaultReq.of asid false write x []
      else (s.faultOf asid (!false) x).getD (.of asid false write x [])) with waits := [] } : FaultReq) = heldRequest asid write x e g := by
    unfold heldRequest
    by_cases hhome : e.stateOf x.sub = 1
    · rw [hhome]
      rfl
    · have hne : (e.stateOf x.sub == stHost) = false := beq_false_of_ne hhome
      rw [hne, if_neg hhome]
      show ({ (s.faultOf asid true x).getD _ with waits := [] } : FaultReq) = _
      rw [hg]
      rfl
  have hspan : (s.heldOffFor asid x (heldRequest asid write x e g)).spanOf asid e x.sub = s.spanOf asid e x.sub :=
    spanOf_of_modules (s := s) (t := s.heldOffFor asid x (heldRequest asid write x e g)) rfl ..
  rw [← hspan, ← hheld]
  rfl

theorem decideFault_present (hg : s.faultOf asid true x = some g) (hy : y ∈ s.aliases asid (s.spanOf asid e x.sub).1 (s.spanOf asid e x.sub).2)
    (hf : (s.decideFault asid x e false write).subEntry y = some f) : f.has y.sub = true := by
  have hmodules : (s.heldOffFor asid x (heldRequest asid write x e g)).modules = s.modules := rfl
  rw [decideFault_eq hg, subEntry_onSpan, aliases_of_modules hmodules] at hf
  obtain ⟨e', -, rfl⟩ := Option.map_eq_some_iff.mp hf
  exact entryAfter_present (own := (·.sameEntry y)) (fun _ h => aliases_sub h) hy (sameEntry_self y) e'

theorem decideFault_holds (hg : s.faultOf asid true x = some g) :
    (s.decideFault asid x e false write).faults = s.faults.filter (fun f => !(f.asid == asid && s.sameSub asid f.at x)) ∧
      (s.decideFault asid x e false write).holdOffs = s.holdOffs ++ [⟨heldRequest asid write x e g⟩] := by
  have htabled := onSpan_tabled (s.heldOffFor asid x (heldRequest asid write x e g)) asid (s.spanOf asid e x.sub).1
    (s.spanOf asid e x.sub).2 fun i f => f.setSub i (f.stateOf i) true
  have hfaults := congrArg State.faults htabled
  have hholdOffs := congrArg State.holdOffs htabled
  rw [decideFault_eq hg]
  exact ⟨hfaults, hholdOffs⟩

/-! ### Faults of the host, and hold-offs that end (R367, R368) -/

theorem hostFaultRequest_takes {va : Nat} (hx : s.subsAt asid va = [x]) (he : s.subEntry x = some e) (hmovable : e.movable = true)
    (hcode : s.isCode x = false) (hhome : ¬ (e.stateOf x.sub = 1 ∧ e.has x.sub = true)) (hdup : e.stateOf x.sub ≠ 2) :
    exec (.hostFaultRequest asid va write) s = .next (s.takeFault asid true write x e []) := by
  have hnothome : (e.stateOf x.sub == stHost && e.has x.sub) = false := by
    rw [Bool.eq_false_iff]
    intro h
    obtain ⟨hstate, hhas⟩ := Bool.and_eq_true_iff.mp h
    exact hhome ⟨beq_iff_eq.mp hstate, hhas⟩
  have hnotdup : (e.stateOf x.sub == stDup) = false := beq_false_of_ne hdup
  show execHostFaultRequest asid va write s = _
  unfold execHostFaultRequest
  rw [hx]
  show (Host.Outcome.next (match s.subEntry x with | none => s | some e => _) : Out) = _
  rw [he]
  dsimp only
  rw [hmovable, hcode, hnotdup, hnothome]
  rfl

theorem faultOf_of_modules {t : State} (h : t.modules = s.modules) (hfaults : t.faults = s.faults) :
    t.faultOf asid byHost x = s.faultOf asid byHost x := by
  unfold State.faultOf
  simp only [hfaults, sameSub_of_modules h]

theorem holdOffExpiry_notes {idx : Nat} {h : HoldOff} (hidx : s.holdOffs[idx]? = some h) (he : s.subEntry h.entry.at = some e)
    (hnone : s.faultOf h.entry.asid h.entry.byHost h.entry.at = none) :
    exec (.holdOffExpiry idx) s = .next { s with holdOffs := s.holdOffs.eraseIdx idx, faults := s.faults ++ [h.entry] } := by
  have hnote := noteFault_new (s := { s with holdOffs := s.holdOffs.eraseIdx idx }) (write := h.entry.write) (w := h.entry.waits)
    (asid := h.entry.asid) (byHost := h.entry.byHost) (x := h.entry.at)
    ((faultOf_of_modules (s := s) (t := { s with holdOffs := s.holdOffs.eraseIdx idx }) rfl rfl).trans hnone)
  show execHoldOffExpiry idx s = _
  unfold execHoldOffExpiry
  rw [hidx]
  dsimp only
  have he' : State.subEntry { s with holdOffs := s.holdOffs.eraseIdx idx } h.entry.at = some e := he
  rw [he']
  exact congrArg Host.Outcome.next hnote

end Meeting

/-! ### Faults without a way out (R360, R369) -/

section Unresolvable
variable {s : State} {asid va id : Nat} {f : FaultReq} {l : Launch} {e : TEntry}

/-- From `s` to `t` cores have changed and events been posted. -/
def Dropped (s t : State) : Prop := { t with cores := s.cores, heldEvents := s.heldEvents } = s

theorem Dropped.trans {s t u : State} (h : Dropped s t) (h' : Dropped t u) : Dropped s u := by
  have hfields := congrArg (fun x : State => { x with cores := s.cores, heldEvents := s.heldEvents }) h'
  exact hfields.trans h

theorem Dropped.foldl {α : Type} {g : State → α → State} (hg : ∀ s x, Dropped s (g s x)) (l : List α) (s : State) : Dropped s (l.foldl g s) :=
  List.foldlRecOn (motive := fun t : State => Dropped s t) l _ rfl fun t ht x _ => ht.trans (hg t x)

theorem dropPiece_dropped (key va n : Nat) (l : Launch) (s : State) : Dropped s (s.dropPiece key va n l) := by
  unfold State.dropPiece
  split
  · split
    · rfl
    · rfl
  · rfl

theorem dropPieces_dropped (l : Launch) (va n : Nat) (s : State) : Dropped s (s.dropPieces l va n) :=
  Dropped.foldl (fun s key => Dropped.foldl (fun s _ => dropPiece_dropped key va n l s) _ s) _ s

theorem dropOwn_dropped (l : Launch) (va n : Nat) (s : State) : Dropped s (s.dropOwn l va n) := by
  unfold State.dropOwn
  refine Dropped.foldl (fun s key => ?_) _ s
  rfl

/-- A launch that waits on a fault without a way out, with an access that is no piece of a copy. -/
theorem unresolvable_pins (hl : s.launch? id = some l) (sub : Nat) :
    ∃ t, Dropped s t ∧ s.unresolvable e sub (id, false) = t.pin id causeUnresolvable 0 := by
  obtain rfl := launch?_id hl
  refine ⟨(s.dropPieces l (e.va + e.subSize * sub) e.subSize).dropOwn l (e.va + e.subSize * sub) e.subSize,
    (dropPieces_dropped ..).trans (dropOwn_dropped ..), ?_⟩
  unfold State.unresolvable
  rw [hl]
  rfl

theorem declareUnresolvable_ends (hb : s.markhor.booted = true)
    (hfs : (s.faults.filter fun g => g.asid == asid && !g.byHost && (s.subsAt asid va).any fun x => s.sameSub asid g.at x) = [f])
    (he : s.subEntry f.at = some e) (hwaits : f.waits = [(id, false)]) (hl : s.launch? id = some l) (hpinned : l.pinned = none) :
    ∃ t m, exec (.declareUnresolvable asid va) s = .next t ∧ t.launch? id = some m ∧ m.pinned = some (5, 0) ∧
      t.faults = s.faults.filter (fun g => g ≠ f) ∧ t.answers = s.answers ++ [.ok] := by
  obtain ⟨t, hdropped, hpins⟩ := unresolvable_pins (s := { s with faults := s.faults.filter fun g => !([f].contains g) }) (e := e) hl f.sub
  have hfaults := congrArg State.faults hdropped
  have hanswers := congrArg State.answers hdropped
  have hlaunches := congrArg State.launches hdropped
  have hkept : t.launch? id = some l := (congrArg (List.find? fun l : Launch => l.id == id) hlaunches).trans hl
  refine ⟨{ t.pin id causeUnresolvable 0 with answers := t.answers ++ [.ok] }, { l with pinned := some (5, 0) }, ?_, launch?_pin hkept hpinned, rfl,
    hfaults.trans ?_, congrArg (· ++ [Answer.ok]) hanswers⟩
  · show execDeclareUnresolvable asid va s = _
    unfold execDeclareUnresolvable
    dsimp only
    rw [hfs]
    refine (congrArg Host.Outcome.next (command_done hb rfl)).trans ?_
    have he' : State.subEntry { s with faults := s.faults.filter fun g => !([f].contains g) } f.at = some e := he
    rw [List.foldl_cons, List.foldl_nil, he']
    dsimp only
    rw [hwaits, List.foldl_cons, List.foldl_nil, hpins]
    rfl
  · refine List.filter_congr fun g _ => ?_
    by_cases hg : g = f
    · simp [hg]
    · simp [hg]

end Unresolvable

end Sys2Proof.Machine

/-! Proofs for spec/20 (R365 to R367): migrations and invalidates, on which O52 rests. -/

namespace Sys2Proof.Machine

open Safety

/-! ### A migration begins (R365 steps 1 and 2) -/

section Begin
variable {s : State} {idx : Nat} {m : Migration} {e : TEntry}

theorem migration_at (hm : s.migrations[idx]? = some m) (he : s.subEntry m.at = some e) : exec (.migration idx) s =
    match m.phase with
    | .queued =>
      if s.mustWait idx m then .next s
      else if s.atHome m e then .next { s with migrations := s.migrations.eraseIdx idx }
      else .next (s.beginMigration idx m e)
    | .invalidating => if !(m.waiting.any s.hasContext) then .next (s.endMigration idx m e) else .next s := by
  show execMigration idx s = _
  unfold execMigration
  rw [hm]
  dsimp only
  rw [he] <;> rfl

/-- The contexts of cores that a migration waits for. -/
def State.sharers (s : State) (m : Migration) : List Nat :=
  distinct (((s.aliases m.asid m.lo m.hi).flatMap s.keysWith).filterMap s.contextCode)

theorem beginMigration_migrations : (s.beginMigration idx m e).migrations =
    (s.migrations.set idx { m with phase := .invalidating, waiting := s.sharers m, old := e.stateOf m.sub }) := by
  have hkept : ((s.aliases m.asid m.lo m.hi).foldl (fun s x => s.onTable x fun f => f.setSub x.sub stMig false) s).migrations = s.migrations :=
    List.foldlRecOn (motive := fun t : State => t.migrations = s.migrations) _ _ rfl fun t ht x _ => ht
  exact congrArg (fun l : List Migration => l.set idx { m with phase := .invalidating, waiting := s.sharers m, old := e.stateOf m.sub }) hkept

theorem beginMigration_rest : { s.beginMigration idx m e with migrations := s.migrations, modules := s.modules } = s := by
  have hkept : { (s.aliases m.asid m.lo m.hi).foldl (fun s x => s.onTable x fun f => f.setSub x.sub stMig false) s with modules := s.modules } = s :=
    List.foldlRecOn (motive := fun t : State => { t with modules := s.modules } = s) _ _ rfl fun t ht x _ => by
      have hfields := congrArg (fun x : State => { x with modules := s.modules }) ht
      exact hfields
  have hfields := congrArg (fun x : State => { x with migrations := s.migrations }) hkept
  exact hfields

theorem beginMigration_marks {x : Sub} {f : TEntry} (hx : x ∈ s.aliases m.asid m.lo m.hi) (hf : (s.beginMigration idx m e).subEntry x = some f) :
    f.stateOf x.sub = 3 ∧ f.has x.sub = false := by
  have hfold := subEntry_foldl (y := x) (f := fun i f => f.setSub i stMig false) (g := fun s x => s.onTable x fun f => f.setSub x.sub stMig false)
    (fun _ _ => subEntry_onTable) (s.aliases m.asid m.lo m.hi) s
  have hentry : (s.beginMigration idx m e).subEntry x = _ := hfold
  obtain ⟨e', -, rfl⟩ := Option.map_eq_some_iff.mp (hentry.symm.trans hf)
  exact entryAfter_setSub (own := (·.sameEntry x)) (fun _ h => aliases_sub h) hx (sameEntry_self x) (fun _ _ => rfl) e'

end Begin

/-! ### The bytes move (R365 step 3) -/

section Copies
variable {s : State} {asid key dev host n : Nat} {toHost : Bool}

/-- What a sector that goes to the host puts there. -/
def State.sectorOut (s : State) (asid key dev : Nat) : List Byte :=
  let r := s.readPlace asid (.hbm dev key) 512
  if r.1.2 then (List.range 512).map fun i => Config.freeByte r.2.choice (dev + i) else r.1.1
/-- A sector goes to its other place. -/
def State.copySector (s : State) (asid : Nat) (toHost : Bool) (key dev host : Nat) : State :=
  let u := (s.readPlace asid (.hbm dev key) 512).2
  if toHost then { u with host := putMem u.host host (s.sectorOut asid key dev) }
  else s.writePlace asid numCores 0 (.hbm dev key) (memBytes s.host host 512)

/-- What the first sectors of a subpage leave. -/
def State.copied (s : State) (asid : Nat) (toHost : Bool) (key dev host : Nat) : Nat → State
  | 0 => s
  | n + 1 => (State.copied s asid toHost key dev host n).copySector asid toHost key (dev + 512 * n) (host + 512 * n)

theorem copied_shift (n : Nat) : s.copied asid toHost key dev host (n + 1) =
    (s.copySector asid toHost key dev host).copied asid toHost key (dev + 512) (host + 512) n := by
  induction n with
  | zero => rfl
  | succ n ih =>
    rw [State.copied, ih, State.copied, show dev + 512 * (n + 1) = dev + 512 + 512 * n from by omega,
      show host + 512 * (n + 1) = host + 512 + 512 * n from by omega]

theorem copySub_copied (n : Nat) : s.copySub asid toHost key n dev host = s.copied asid toHost key dev host n := by
  induction n generalizing s dev host with
  | zero => rfl
  | succ n ih =>
    rw [copied_shift, ← ih, State.copySub]
    refine congrArg (fun t : State => t.copySub asid toHost key n (dev + 512) (host + 512)) ?_
    cases toHost with
    | false => rfl
    | true => rfl

theorem copySector_csm : (s.copySector asid toHost key dev host).csm = s.csm := by
  unfold State.copySector
  split
  · exact (FarWork.readPlace ..).csm
  · exact (FarWork.writePlace_hbm ..).csm

theorem copied_csm (n : Nat) : (s.copied asid toHost key dev host n).csm = s.csm := by
  induction n with
  | zero => rfl
  | succ n ih => exact copySector_csm.trans ih

theorem copySector_fromHost : s.copySector asid false key dev host = s.writePlace asid numCores 0 (.hbm dev key) (memBytes s.host host 512) := by
  unfold State.copySector
  rw [if_neg Bool.false_ne_true]

/-- Host memory is read only where the bytes go to the device. -/
theorem copied_fromHost (n : Nat) : (s.copied asid false key dev host n).host = s.host := by
  induction n with
  | zero => rfl
  | succ n ih =>
    rw [State.copied, copySector_fromHost, (FarWork.writePlace_hbm ..).host]
    exact ih

theorem copySector_toHost : s.copySector asid true key dev host =
    { (s.readPlace asid (.hbm dev key) 512).2 with host := putMem (s.readPlace asid (.hbm dev key) 512).2.host host (s.sectorOut asid key dev) } := rfl

theorem sectorOut_good (h : (s.readPlace asid (.hbm dev key) 512).1.2 = false) :
    s.sectorOut asid key dev = (s.readPlace asid (.hbm dev key) 512).1.1 := by
  unfold State.sectorOut
  rw [if_neg (by rw [h]; exact Bool.false_ne_true)]

theorem sectorOut_bad (h : (s.readPlace asid (.hbm dev key) 512).1.2 = true) : (s.sectorOut asid key dev).length = 512 := by
  unfold State.sectorOut
  rw [if_pos h, List.length_map, List.length_range]

theorem sectorOut_length (h : (s.readPlace asid (.hbm dev key) 512).1.1.length = 512) : (s.sectorOut asid key dev).length = 512 := by
  cases hbad : (s.readPlace asid (.hbm dev key) 512).1.2 with
  | true => exact sectorOut_bad hbad
  | false => rw [sectorOut_good hbad, h]

theorem copySector_host : (s.copySector asid true key dev host).host = putMem s.host host (s.sectorOut asid key dev) :=
  congrArg (putMem · host (s.sectorOut asid key dev)) (FarWork.readPlace asid (.hbm dev key) 512 s).host

/-- Host memory after the first sectors: each has what its sector has given, where that could be read, and nothing else has changed. -/
theorem copied_toHost (w : Memory.wf s.host = true) (n : Nat)
    (hlength : ∀ i, i < n → ((s.copied asid true key dev host i).readPlace asid (.hbm (dev + 512 * i) key) 512).1.1.length = 512) :
    Memory.wf (s.copied asid true key dev host n).host = true ∧
      (∀ i b, i < n → b < 512 → Sparse.get 0 (s.copied asid true key dev host n).host (host + 512 * i + b) =
        (((s.copied asid true key dev host i).sectorOut asid key (dev + 512 * i))[b]?).getD 0) ∧
      ∀ a, ¬ (host ≤ a ∧ a < host + 512 * n) → Sparse.get 0 (s.copied asid true key dev host n).host a = Sparse.get 0 s.host a := by
  induction n with
  | zero => exact ⟨w, fun i b hi => absurd hi (Nat.not_lt_zero i), fun a _ => rfl⟩
  | succ n ih =>
    obtain ⟨hw, hin, hout⟩ := ih fun i hi => hlength i (by omega)
    have hn := sectorOut_length (hlength n (by omega))
    have hhost : (s.copied asid true key dev host (n + 1)).host = _ := copySector_host
    rw [hhost]
    refine ⟨putMem_wf hw, fun i b hi hb => ?_, fun a ha => ?_⟩
    · rw [get_putMem hw, hn]
      by_cases hlast : i = n
      · subst hlast
        rw [if_pos (by omega), Nat.add_sub_cancel_left, List.getD_eq_getElem?_getD]
      · rw [if_neg (by omega)]
        exact hin i b (by omega) hb
    · rw [get_putMem hw, hn, if_neg (by omega)]
      exact hout a (by omega)

end Copies

/-! ### A migration ends (R365 steps 4 and 5) -/

section End
variable {s : State} {idx : Nat} {m : Migration} {e : TEntry}

/-- The entries of an address space that name device memory which moves. -/
def State.near (s : State) (m : Migration) : List TEntry :=
  (s.tablesOf m.asid).flatMap fun t => (t.2.2.filter fun x => x.2.meets m.lo m.hi).map (·.2)
/-- HBASE of the migration's entry while its bytes move. -/
def State.baseFor (s : State) (m : Migration) (e : TEntry) : Nat := m.hostBase e ((s.near m).find? (s.hostElsewhere m))
/-- An entry with one subpage moved. -/
def State.movedEntry (s : State) (m : Migration) (e : TEntry) (i : Nat) (f : TEntry) : TEntry :=
  { f.setSub i m.final (m.kind ≠ .unmap) with
    hbase := if hostState m.final || ((s.near m).filter (s.hostElsewhere m)).any fun g => g.pa == f.pa && g.m == f.m
      then s.baseFor m e + f.pa - e.pa else 0 }
/-- The state with the bytes of a migration moved. -/
def State.bytesMoved (s : State) (m : Migration) (e : TEntry) : State :=
  match m.direction with
  | some toHost => s.copySub m.asid toHost e.key ((m.hi - m.lo) / 512) m.lo (s.baseFor m e + m.lo - e.pa)
  | none => s

theorem endMigration_memory : ((s.endMigration idx m e).csm, (s.endMigration idx m e).host, (s.endMigration idx m e).hbm) =
    ((s.bytesMoved m e).csm, (s.bytesMoved m e).host, (s.bytesMoved m e).hbm) := by
  have htabled := onSpan_tabled (s.bytesMoved m e) m.asid m.lo m.hi (s.movedEntry m e)
  have hfields := congrArg (fun t : State => (t.csm, t.host, t.hbm)) htabled
  exact hfields

variable (hdirection : m.direction = none)
include hdirection

theorem bytesMoved_none : s.bytesMoved m e = s := by
  unfold State.bytesMoved
  rw [hdirection]

theorem endMigration_migrations : (s.endMigration idx m e).migrations = s.migrations.eraseIdx idx := by
  have hfield : ((s.bytesMoved m e).onSpan m.asid m.lo m.hi (s.movedEntry m e)).migrations = (s.bytesMoved m e).migrations := by
    have hfields := congrArg State.migrations (onSpan_tabled (s.bytesMoved m e) m.asid m.lo m.hi (s.movedEntry m e))
    exact hfields
  rw [bytesMoved_none hdirection] at hfield
  have hends : (s.endMigration idx m e).migrations = ((s.bytesMoved m e).onSpan m.asid m.lo m.hi (s.movedEntry m e)).migrations.eraseIdx idx :=
    rfl
  rw [hends, bytesMoved_none hdirection, hfield]

theorem endMigration_entry {x : Sub} {f : TEntry} (hx : x ∈ s.aliases m.asid m.lo m.hi) (hf : (s.endMigration idx m e).subEntry x = some f) :
    f.stateOf x.sub = m.final % 4 ∧ f.has x.sub = decide (m.kind ≠ .unmap) ∧
      ((s.near m).filter (s.hostElsewhere m) = [] → m.final ≠ 1 → m.final ≠ 2 → f.hbase = 0) := by
  have hends : (s.endMigration idx m e).subEntry x = ((s.bytesMoved m e).onSpan m.asid m.lo m.hi (s.movedEntry m e)).subEntry x := rfl
  rw [hends, bytesMoved_none hdirection, subEntry_onSpan] at hf
  obtain ⟨e', -, rfl⟩ := Option.map_eq_some_iff.mp hf
  obtain ⟨hstate, hhas⟩ := entryAfter_setSub (own := (·.sameEntry x)) (f := s.movedEntry m e) (fun _ h => aliases_sub h) hx (sameEntry_self x)
    (fun _ _ => rfl) e'
  refine ⟨hstate, hhas, fun hnone hhost hdup => ?_⟩
  have hzero : ∀ i f, (s.movedEntry m e i f).hbase = 0 := by
    intro i f
    have hstays : hostState m.final = false := by
      unfold hostState
      exact Bool.or_eq_false_iff.mpr ⟨beq_false_of_ne hhost, beq_false_of_ne hdup⟩
    unfold State.movedEntry
    dsimp only
    rw [hnone, hstays]
    rfl
  exact entryAfter_of_mem (own := (·.sameEntry x)) (P := fun e => e.hbase = 0) hx (sameEntry_self x) (fun e => hzero ..)
    (fun _ _ e _ => hzero ..) e'

end End

/-! ### Invalidates (R366) -/

section Invalidates
variable {s : State} {c idx code : Nat} {m : Migration}

/-- The subpages of a migration that a context holds. -/
def State.heldBy (s : State) (m : Migration) (key : Nat) : List Sub :=
  (s.aliases m.asid m.lo m.hi).filter fun x => (s.keysWith x).contains key
/-- Is a write to one of them under way? -/
def State.busyOn (s : State) (m : Migration) (key : Nat) : Bool :=
  (s.heldBy m key).any fun x => ((s.subEntry x).map fun f => (s.core key).writesTo f x.sub).getD false
/-- A context's copy without the subpages. -/
def Core.without (k : Core) (l : List Sub) : Core := l.foldl (fun k x => k.invalidate x.entry x.sub) k

theorem heldBy_iff {x : Sub} : x ∈ s.heldBy m c ↔ x ∈ s.aliases m.asid m.lo m.hi ∧ c ∈ s.keysWith x := by
  unfold State.heldBy
  rw [List.mem_filter, List.contains_iff_mem]

theorem busyOn_iff : s.busyOn m c = true ↔
    ∃ x f, (x ∈ s.aliases m.asid m.lo m.hi ∧ c ∈ s.keysWith x) ∧ s.subEntry x = some f ∧ (s.core c).writesTo f x.sub = true := by
  unfold State.busyOn
  rw [List.any_eq_true]
  constructor
  · rintro ⟨x, hx, hwrites⟩
    cases hf : s.subEntry x with
    | none =>
      rw [hf] at hwrites
      exact absurd hwrites Bool.false_ne_true
    | some f =>
      rw [hf] at hwrites
      exact ⟨x, f, heldBy_iff.mp hx, hf, hwrites⟩
  · rintro ⟨x, f, hx, hf, hwrites⟩
    refine ⟨x, heldBy_iff.mpr hx, ?_⟩
    rw [hf]
    exact hwrites

theorem without_rest (k : Core) (l : List Sub) : { k.without l with table := k.table } = k := by
  refine List.foldlRecOn (motive := fun t : Core => { t with table := k.table } = k) l _ rfl fun t ht x _ => ?_
  have hfields := congrArg (fun x : Core => { x with table := k.table }) ht
  exact hfields

theorem without_table (k : Core) (l : List Sub) : (k.without l).table =
    k.table.map fun p => (p.1, entryAfter (fun i f => f.setSub i stMig false) (fun x => x.entry == p.1) l p.2) := by
  induction l generalizing k with
  | nil => exact (List.map_id' _).symm
  | cons x l ih =>
    have hfirst : (k.without (x :: l)).table = ((k.invalidate x.entry x.sub).without l).table := rfl
    have htable : (k.invalidate x.entry x.sub).table = onEntry x.entry (fun e => e.setSub x.sub stMig false) k.table := rfl
    rw [hfirst, ih, htable, onEntry, List.map_map]
    refine List.map_congr_left fun p _ => ?_
    by_cases hp : p.1 = x.entry
    · simp [hp, entryAfter]
    · simp [hp, Ne.symm hp, entryAfter]

theorem without_absent {k : Core} {l : List Sub} (hl : ∀ x ∈ l, x.sub < 64) {x : Sub} (hx : x ∈ l) {p : Nat × TEntry}
    (hp : p ∈ (k.without l).table) (hentry : p.1 = x.entry) : p.2.stateOf x.sub = 3 ∧ p.2.has x.sub = false := by
  rw [without_table] at hp
  obtain ⟨q, -, rfl⟩ := List.mem_map.mp hp
  exact entryAfter_setSub (own := fun x => x.entry == q.1) hl hx (beq_iff_eq.mpr hentry.symm) (fun _ _ => rfl) q.2

theorem invalidate_at (hm : s.migrations[idx]? = some m) (hcode : s.contextCode c = some code) (hwaits : code ∈ m.waiting) :
    exec (.invalidate c idx) s = if s.busyOn m c then .next s else .next { s.onCore c (·.without (s.heldBy m c)) with
      migrations := s.migrations.set idx { m with
        waiting := m.waiting.filter fun x => some x ≠ (s.onCore c (·.without (s.heldBy m c))).contextCode c } } := by
  have hdue : ((s.contextCode c).map fun x => m.waiting.contains x).getD false = true := by
    rw [hcode]
    exact List.contains_iff_mem.mpr hwaits
  have hkey : (s.contextKeys c).find? (fun key => ((s.contextCode key).map fun x => m.waiting.contains x).getD false) = some c :=
    List.find?_cons_of_pos hdue
  show execInvalidate c idx s = _
  unfold execInvalidate
  rw [hm]
  dsimp only
  rw [hkey]
  rfl

end Invalidates

end Sys2Proof.Machine

/-! Proofs for spec/20: move commands, faults, hold-offs, migrations and invalidates, O52. -/

namespace Sys2Proof.Machine

open Safety

section Moves
variable {s : State} {idx : Nat} {m : Migration} {e : TEntry}

theorem moveCommand_of {asid va count hbase hb : Nat} {i : Instr} {kind : MigKind}
    (hi : i = .moveToDevice asid va count ∧ kind = .toDevice ∧ hb = 0 ∨ i = .moveToHost asid va count hbase ∧ kind = .toHost ∧ hb = hbase ∨
      i = .duplicate asid va count hbase ∧ kind = .duplicate ∧ hb = hbase ∨ i = .unmap asid va count ∧ kind = .unmap ∧ hb = 0) :
    exec i s = .next (s.moveCommand asid va count kind hb) := by
  rcases hi with ⟨rfl, rfl, rfl⟩ | ⟨rfl, rfl, rfl⟩ | ⟨rfl, rfl, rfl⟩ | ⟨rfl, rfl, rfl⟩
  · rfl
  · rfl
  · rfl
  · rfl

theorem migration_ends (hm : s.migrations[idx]? = some m) (he : s.subEntry m.at = some e) (hphase : m.phase = .invalidating)
    (hgone : ∀ x ∈ m.waiting, s.hasContext x = false) : exec (.migration idx) s = .next (s.endMigration idx m e) := by
  have hnone : (m.waiting.any s.hasContext) = false := by
    rw [List.any_eq_false]
    intro x hx
    rw [hgone x hx]
    exact Bool.false_ne_true
  rw [migration_at hm he, hphase, hnone]
  rfl

theorem endMigration_copies {toHost : Bool} (hdirection : m.direction = some toHost) :
    ((s.endMigration idx m e).csm, (s.endMigration idx m e).host, (s.endMigration idx m e).hbm) =
      let v := s.copied m.asid toHost e.key m.lo (s.baseFor m e + m.lo - e.pa) ((m.hi - m.lo) / 512)
      (v.csm, v.host, v.hbm) := by
  have hmoved : s.bytesMoved m e = s.copied m.asid toHost e.key m.lo (s.baseFor m e + m.lo - e.pa) ((m.hi - m.lo) / 512) := by
    unfold State.bytesMoved
    rw [hdirection]
    exact copySub_copied _
  rw [endMigration_memory, hmoved]

end Moves

/-- Settles O52, each clause by the lemmas on its step. -/
theorem subpagesMove : Obligations.SubpagesMove := by
  unfold Obligations.SubpagesMove
  refine ⟨?commands, ?faults, ?hostFaults, ?holdOffs, ?unresolvable, ?migrations, ?invalidates⟩
  case commands =>
    intro s asid va count hbase l i kind hb hi hnamed hcount gives span
    have hexec := moveCommand_of (s := s) hi
    refine ⟨fun hbooted hlive hlength hmay => ?_, fun hwhy => ?_⟩
    · rw [hexec, moveCommand_done hnamed hcount hbooted hlive hlength fun x hx => mayTake_iff.mpr (hmay x hx)]
      rfl
    · rw [hexec, moveCommand_refused hnamed]
      refine hwhy.imp_right (.imp_right (.imp_right ?_))
      rintro ⟨x, hx, hnot⟩
      refine ⟨x, hx, Bool.eq_false_iff.mpr fun hmay => ?_⟩
      obtain ⟨hmoves, hkeeps⟩ := mayTake_iff.mp hmay
      rcases hnot with hfixed | hgives
      · exact Bool.eq_false_iff.mp hfixed hmoves
      · exact hkeeps hgives
  case faults =>
    intro s c va i sub write l e hl hat he hheld hquiet x piece noted r queued
    have hspan : s.spanAt l.asid x = r := by
      unfold State.spanAt
      rw [he]
      rfl
    have hqueued : ∀ kind, s.migrations ++ [s.queuedMove l.asid kind 0 x] = queued kind := by
      intro kind
      unfold State.queuedMove
      rw [hspan]
    have hexec := faultRequest_takes (write := write) hl hat he
    refine ⟨fun hdup => ?_, fun hdup hother hnew hcode => ?_, fun hdup hother hnew hcode => ?_, fun g hdup hother hsub => ?_⟩
    · rw [hexec, takeFault_collapses hquiet he hdup]
      exact congrArg (fun l => (Host.Outcome.next { s with migrations := l } : Out)) (hqueued .collapseDevice)
    · rw [hexec, takeFault_notes hquiet hdup hheld hother hnew (by rw [hcode]; rfl)]
      rfl
    · rw [hexec, takeFault_code hquiet hdup hheld hother hnew he (by rw [hcode]; rfl)]
      exact congrArg (fun l => (Host.Outcome.next { s with faults := noted, migrations := l } : Out)) (hqueued .toDevice)
    · obtain ⟨hfaults, hholdOffs⟩ := decideFault_holds (e := e) (write := write) hother
      refine ⟨_, hexec.trans (congrArg Host.Outcome.next (takeFault_decides hquiet hdup hheld (Option.isSome_iff_exists.mpr ⟨g, hother⟩))), hfaults,
        hholdOffs, fun y hy f hf => decideFault_present hother hy hf⟩
  case hostFaults =>
    intro s asid va write x e hx he hmovable hcode hhome hdup hheld hquiet hother hnew
    rw [hostFaultRequest_takes hx he hmovable hcode hhome hdup, takeFault_notes hquiet hdup hheld hother hnew (by rw [hcode]; rfl)]
    rfl
  case holdOffs =>
    intro s idx h e hidx he hnone
    exact holdOffExpiry_notes hidx he hnone
  case unresolvable =>
    intro s asid va id f l e hb hfs he hwaits hl hpinned
    exact declareUnresolvable_ends hb hfs he hwaits hl hpinned
  case migrations =>
    intro s idx m e hm he near
    refine ⟨fun hphase hwait hhome => ?_, fun hphase hwait hhome => ?_, fun hphase hwait => ?_, fun hphase hgone hdirection => ?_, ?_⟩
    · rw [migration_at hm he, hphase]
      dsimp only
      rw [hwait, hhome]
      rfl
    · refine ⟨s.beginMigration idx m e, s.sharers m, ?_, beginMigration_migrations, fun x hx f hf => beginMigration_marks hx hf,
        beginMigration_rest⟩
      rw [migration_at hm he, hphase]
      dsimp only
      rw [hwait, hhome]
      rfl
    · rw [migration_at hm he, hphase]
      dsimp only
      rw [hwait]
      rfl
    · have hmemory := endMigration_memory (s := s) (idx := idx) (m := m) (e := e)
      rw [bytesMoved_none hdirection] at hmemory
      simp only [Prod.mk.injEq] at hmemory
      obtain ⟨hcsm, hhost, hhbm⟩ := hmemory
      exact ⟨_, migration_ends hm he hphase hgone, endMigration_migrations hdirection, fun x hx f hf => endMigration_entry hdirection hx hf,
        hcsm, hhost, hhbm⟩
    · intro toHost hphase hgone hdirection w n host
      have hmemory := endMigration_copies (s := s) (idx := idx) (e := e) hdirection
      simp only [Prod.mk.injEq] at hmemory
      obtain ⟨hcsm, hhost, hhbm⟩ := hmemory
      refine ⟨_, s.copied m.asid toHost e.key m.lo host, migration_ends hm he hphase hgone, rfl, hhbm, hcsm.trans (copied_csm _), ?_⟩
      intro got
      refine ⟨fun hto => ?_, fun hto => ?_⟩
      · subst hto
        refine ⟨hhost.trans (copied_fromHost _), fun i _ => ?_⟩
        rw [State.copied, copySector_fromHost, copied_fromHost]
      · subst hto
        refine ⟨fun i _ => ?_, fun hlength => ?_⟩
        · exact ⟨(s.copied m.asid true e.key m.lo host i).sectorOut m.asid e.key (m.lo + 512 * i), copySector_toHost, sectorOut_good, sectorOut_bad⟩
        · obtain ⟨-, hin, hout⟩ := copied_toHost w n hlength
          rw [hhost]
          refine ⟨fun i b hi hb hgood => ?_, hout⟩
          refine (hin i b hi hb).trans ?_
          rw [sectorOut_good hgood]
  case invalidates =>
    intro s c idx code m e w hm he hcode hwaits mine busy
    have hexec := invalidate_at hm hcode hwaits
    have hbusy : s.busyOn m c = true ↔ busy := busyOn_iff
    refine ⟨fun h => by rw [hexec, if_pos (hbusy.mpr h)], fun h => ?_⟩
    rw [hexec, if_neg (mt hbusy.mp h)]
    have hcore : (s.onCore c (·.without (s.heldBy m c))).core c = (s.core c).without (s.heldBy m c) := State.core_setCore_same w
    have hname : (s.onCore c (·.without (s.heldBy m c))).contextCode c = some code := by
      have hlaunch := congrArg Core.launch (without_rest (s.core c) (s.heldBy m c))
      unfold State.contextCode at hcode ⊢
      rw [hcore]
      exact (congrArg (Option.map fun id => savedKey id (flat c)) hlaunch).trans hcode
    refine ⟨_, rfl, ?_, fun x hx y hy hentry => ?_, ?_, fun d hd => ?_⟩
    · rw [hname]
      simp only [ne_eq, Option.some.injEq]
    · have htable : y ∈ ((s.core c).without (s.heldBy m c)).table := hcore ▸ hy
      exact without_absent (fun x hx => aliases_sub (heldBy_iff.mp hx).1) (heldBy_iff.mpr hx) htable hentry
    · exact (congrArg (fun k : Core => { k with table := (s.core c).table }) hcore).trans (without_rest ..)
    · exact (State.core_setCore w d).trans (if_neg hd)

end Sys2Proof.Machine

/-! Proofs for spec/25: how a sector's image is found and written (R410 to R414, R417, R418), on which O53 rests. -/

namespace Sys2Proof.Machine

open Safety

/-! ### The image of a sector (R410, R411, R414, R423) -/

section Images
variable {h f g : Hbm} {sp : Spot} {w : Asker} {x img : List Nat}

/-- The stacked memory once the sector has been read, with its metadata area. -/
def Hbm.fetched (h : Hbm) (sp : Spot) (w : Asker) : Hbm := (h.touch sp.data sp.sector w).transfer sp.data sp.sector (rawData sp.sector) w

theorem seek_gone {stack q : Nat} (hgone : h.gone stack q = true) : h.seek stack q w = (none, h) := by
  unfold Hbm.seek
  rw [if_pos hgone]

section Sound
variable (hf : f.gone sp.data sp.sector = false) (hg : (f.fetched sp w).gone sp.data sp.sector = false)
include hf hg

theorem seek_decoded : f.seek sp.data sp.sector w = match rsDecode ((f.fetched sp w).word sp.data sp.sector) with
    | none => (none, f.fetched sp w)
    | some (x, 0) => (some (x.drop 10), f.fetched sp w)
    | some (x, n) => (some (x.drop 10),
        ((f.fetched sp w).putImage sp.data sp.sector (x.drop 10) w).logArray 1 sp.data sp.sector n w) := by
  unfold Hbm.fetched at hg ⊢
  unfold Hbm.seek
  dsimp only
  rw [if_neg (by rw [hf]; exact Bool.false_ne_true), if_neg (by rw [hg]; exact Bool.false_ne_true)] <;> rfl

theorem image_clean (hx : rsDecode ((f.fetched sp w).word sp.data sp.sector) = some (x, 0)) :
    f.image sp w = (some (x.drop 10), f.fetched sp w) := by
  unfold Hbm.image
  rw [seek_decoded hf hg, hx] <;> rfl

theorem image_corrected {n : Nat} (hx : rsDecode ((f.fetched sp w).word sp.data sp.sector) = some (x, n)) (hn : n ≠ 0) :
    f.image sp w = (some (x.drop 10),
      ((f.fetched sp w).putImage sp.data sp.sector (x.drop 10) w).logArray 1 sp.data sp.sector n w) := by
  obtain ⟨n, rfl⟩ := Nat.exists_eq_succ_of_ne_zero hn
  unfold Hbm.image
  rw [seek_decoded hf hg, hx] <;> rfl

theorem image_repaired (hx : rsDecode ((f.fetched sp w).word sp.data sp.sector) = none)
    (hrec : (f.fetched sp w).reconstruct sp w = (some img, h)) (hgone : h.gone sp.data sp.sector = false) :
    f.image sp w = (some img, (h.putImage sp.data sp.sector img w).logArray 2 sp.data sp.sector 0 ⟨0, w.tick⟩) := by
  unfold Hbm.image
  rw [seek_decoded hf hg, hx]
  dsimp only
  rw [hrec]
  dsimp only
  rw [if_neg (by rw [hgone]; exact Bool.false_ne_true)]

theorem image_unrepaired (hx : rsDecode ((f.fetched sp w).word sp.data sp.sector) = none)
    (hrec : (f.fetched sp w).reconstruct sp w = (none, h)) : f.image sp w = (none, h.logArray 3 sp.data sp.sector 0 w) := by
  unfold Hbm.image
  rw [seek_decoded hf hg, hx]
  dsimp only
  rw [hrec]

end Sound

section Gone
variable (hf : f.gone sp.data sp.sector = true)
include hf

theorem image_reconstructed (hrec : f.reconstruct sp w = (some img, h)) (hgone : h.gone sp.data sp.sector = true) :
    f.image sp w = (some img, h) := by
  unfold Hbm.image
  rw [seek_gone hf]
  dsimp only
  rw [hrec]
  dsimp only
  rw [if_pos hgone]

theorem image_missing (hrec : f.reconstruct sp w = (none, h)) : f.image sp w = (none, h.logArray 3 sp.data sp.sector 0 w) := by
  unfold Hbm.image
  rw [seek_gone hf]
  dsimp only
  rw [hrec]

end Gone

end Images

/-! ### The bus without errors, and the check-bit cache (R407, R410, R413) -/

section Quiet
variable {h : Hbm} {stack q : Nat} {img : List Nat} {w : Asker}

theorem transfer_quiet (hbus : h.bus = []) (stack q raw : Nat) (w : Asker) : h.transfer stack q raw w = h := by
  unfold Hbm.transfer
  rw [hbus]
  rfl

theorem putRaw_eq (stack a : Nat) (l : List Byte) (h : Hbm) :
    h.putRaw stack a l = { h with dram := putMem h.dram (stack * 2 ^ 36 + a) l } := by
  induction l generalizing h a with
  | nil => rfl
  | cons b l ih => rw [Hbm.putRaw, ih, putMem, Nat.add_assoc]

/-- A miss reads the metadata area of its group into the cache, where the cache has room. -/
theorem touch_miss (hbus : h.bus = []) (hline : h.line? stack (groupOf q) = none)
    (hroom : (h.cache.filter fun l => l.stack == stack && l.group % 32 == channelOf q).length < 128) :
    h.touch stack q w = { h with cache := h.cache ++ [⟨stack, groupOf q, h.area stack (groupOf q), false⟩] } := by
  have hevict : h.evict stack (channelOf q) w = h := by
    unfold Hbm.evict
    dsimp only
    rw [if_pos (show _ < cacheLines from hroom)]
  unfold Hbm.touch
  dsimp only
  rw [hline, if_neg (show ¬ (none : Option CheckLine).isSome = true from Bool.false_ne_true), hevict, transfer_quiet hbus]

theorem touch_hit (hline : (h.line? stack (groupOf q)).isSome = true) : h.touch stack q w = h := by
  unfold Hbm.touch
  rw [if_pos hline]

/-- Without errors on the bus storing changes raw bytes and the check-bit cache alone. -/
def Stored (h t : Hbm) : Prop := { t with dram := h.dram, cache := h.cache } = h

theorem Stored.trans {h t u : Hbm} (a : Stored h t) (b : Stored t u) : Stored h u := by
  have hfields := congrArg (fun x : Hbm => { x with dram := h.dram, cache := h.cache }) b
  exact hfields.trans a

theorem Stored.bus {h t : Hbm} (a : Stored h t) : t.bus = h.bus := by
  have hfield := congrArg Hbm.bus a
  exact hfield
theorem Stored.deltas {h t : Hbm} (a : Stored h t) : t.deltas = h.deltas := by
  have hfield := congrArg Hbm.deltas a
  exact hfield
theorem Stored.gone {h t : Hbm} (a : Stored h t) (stack q : Nat) : t.gone stack q = h.gone stack q := by
  have hfields := congrArg (fun x : Hbm => x.gone stack q) a
  exact hfields

theorem putRaw_stored (stack a : Nat) (l : List Byte) (h : Hbm) : Stored h (h.putRaw stack a l) := by
  rw [putRaw_eq]
  rfl

theorem evict_stored (hbus : h.bus = []) (stack ch : Nat) (w : Asker) : Stored h (h.evict stack ch w) := by
  unfold Hbm.evict
  dsimp only
  split
  · rfl
  · split
    · rfl
    · next l _ _ =>
      split
      · have hput := putRaw_stored l.stack (rawArea l.group) l.bytes { h with cache := h.cache.erase l }
        rw [transfer_quiet (hput.bus.trans hbus)]
        exact Stored.trans (t := { h with cache := h.cache.erase l }) rfl hput
      · rfl

theorem touch_stored (hbus : h.bus = []) (stack q : Nat) (w : Asker) : Stored h (h.touch stack q w) := by
  have hevict := evict_stored hbus stack (channelOf q) w
  unfold Hbm.touch
  dsimp only
  split
  · rfl
  · rw [transfer_quiet (hevict.bus.trans hbus)]
    exact hevict.trans rfl

theorem putImage_stored (hbus : h.bus = []) (stack q : Nat) (img : List Nat) (w : Asker) : Stored h (h.putImage stack q img w) := by
  have hraw := putRaw_stored stack (rawData q) (bytesOfSymbols (img.take 256)) h
  unfold Hbm.putImage Hbm.putBlock
  rw [transfer_quiet (hraw.bus.trans hbus)]
  exact (hraw.trans (touch_stored (hraw.bus.trans hbus) ..)).trans rfl

theorem putIn_stored (hbus : h.bus = []) (stack q : Nat) (img : List Nat) (w : Asker) : Stored h (h.putIn stack q img w) := by
  unfold Hbm.putIn
  split
  · rfl
  · exact putImage_stored hbus ..

/-- An image whose check bits are in the cache is written as its bytes stand. -/
theorem putImage_dram (hbus : h.bus = []) (hline : (h.line? stack (groupOf q)).isSome = true) :
    (h.putImage stack q img w).dram = putMem h.dram (stack * 2 ^ 36 + rawData q) (bytesOfSymbols (img.take 256)) := by
  have hraw := putRaw_eq stack (rawData q) (bytesOfSymbols (img.take 256)) h
  have hhit : (Hbm.line? (h.putRaw stack (rawData q) (bytesOfSymbols (img.take 256))) stack (groupOf q)).isSome = true := by
    rw [hraw]
    exact hline
  unfold Hbm.putImage Hbm.putBlock
  rw [transfer_quiet ((putRaw_stored ..).bus.trans hbus), touch_hit hhit, hraw]

end Quiet

/-! ### Symbols and bytes (R409) -/

theorem bytesOfSymbols_append (l m : List Nat) : bytesOfSymbols (l ++ m) = bytesOfSymbols l ++ bytesOfSymbols m := List.flatMap_append

/-- The bytes of an even number of bytes' symbols are those bytes, whatever comes behind them. -/
theorem bytesOfSymbols_take (n : Nat) (l m : List Byte) (tail : List Nat) (hl : l.length = 2 * n) :
    bytesOfSymbols ((symbolsOf (l ++ m) ++ tail).take n) = l := by
  induction n generalizing l with
  | zero =>
    obtain rfl := List.length_eq_zero_iff.mp hl
    rfl
  | succ n ih =>
    match l, hl with
    | a :: b :: l, hl =>
      have hrest := ih l (by simpa [Nat.mul_add] using hl)
      have hlow : BitVec.ofNat 8 (a.toNat + 256 * b.toNat) = a := by
        apply BitVec.eq_of_toNat_eq
        rw [BitVec.toNat_ofNat]
        have ha := a.isLt
        omega
      have hhigh : BitVec.ofNat 8 ((a.toNat + 256 * b.toNat) / 256) = b := by
        apply BitVec.eq_of_toNat_eq
        rw [BitVec.toNat_ofNat]
        have ha := a.isLt
        have hb := b.isLt
        omega
      show [BitVec.ofNat 8 (a.toNat + 256 * b.toNat), BitVec.ofNat 8 ((a.toNat + 256 * b.toNat) / 256)] ++
        bytesOfSymbols ((symbolsOf (l ++ m) ++ tail).take n) = _
      rw [hrest, hlow, hhigh]
      rfl
    | [a], hl => exact absurd hl (by simp; omega)
    | [], hl => exact absurd hl (by simp)

end Sys2Proof.Machine

/-! Proofs for spec/25: reads, writes and parity deltas of sectors, O53. -/

namespace Sys2Proof.Machine

open Safety

/-! ### Reads (R412, R414, R436) -/

section Reads
variable {s : State} {f h : Hbm} {pa key asid : Nat} {sp : Spot} {w : Asker} {img : List Nat} {flips : List (Nat × Byte)} {bus : List BusFault}

/-- The stacked memory whose cells and coming transfers are to meet errors. -/
def Hbm.troubled (h : Hbm) (sp : Spot) (flips : List (Nat × Byte)) (bus : List BusFault) : Hbm :=
  (h.flipCells sp.data sp.sector flips).expect bus

theorem troubled_spot : (h.troubled sp flips bus).spot pa = h.spot pa :=
  spot_of_worked ((Canonical.flipCells_worked h sp.data sp.sector flips).trans (.of_eq rfl rfl)) pa

theorem read_missing (hsp : f.spot pa = sp) (himage : f.image sp w = (none, h)) : f.read pa key w = (.poisoned, h) := by
  unfold Hbm.read
  dsimp only
  rw [hsp, himage]

variable (hsp : f.spot pa = sp) (himage : f.image sp w = (some img, h))
include hsp himage

theorem read_poisoned (hbad : imgPoison img = true ∨ h.barred (pa / 512 * 512) = true) : f.read pa key w = (.poisoned, h) := by
  unfold Hbm.read
  dsimp only
  rw [hsp, himage]
  dsimp only
  rw [if_pos (Bool.or_eq_true_iff.mpr hbad)]

variable (hgood : imgPoison img = false) (hopen : h.barred (pa / 512 * 512) = false)
include hgood hopen

theorem read_open : f.read pa key w =
    if imgKey img = 0 then (.data (imgData img), h)
    else if imgKey img ≠ key ∨ h.tagOf (imgKey img) pa (imgMisc img) (imgData img) ≠ imgTag img then
      (.integrity, h.logArray 4 sp.data sp.sector 0 w)
    else (.data (h.crypt true (imgKey img) pa (imgData img)), h) := by
  unfold Hbm.read
  dsimp only
  rw [hsp, himage]
  dsimp only
  rw [if_neg (by rw [hgood, hopen]; exact Bool.false_ne_true)]

end Reads

section ReadSteps
variable {s : State} {h : Hbm} {pa key asid : Nat} {flips : List (Nat × Byte)} {bus : List BusFault}

theorem sectorRead_waits (hready : s.hbmReady pa = false) : exec (.hbmSectorRead pa key asid flips bus) s = .next s := by
  show execHbmSectorRead pa key asid flips bus s = _
  unfold execHbmSectorRead
  rw [hready]
  rfl

theorem sectorRead_data {l : List Byte} (hready : s.hbmReady pa = true)
    (hread : (s.hbm.troubled (s.hbm.spot pa) flips bus).read pa (key % 16) ⟨asid, s.gtc⟩ = (.data l, h)) :
    exec (.hbmSectorRead pa key asid flips bus) s = .next (s.settleHbm { h with returned := some l }) := by
  unfold Hbm.troubled at hread
  show execHbmSectorRead pa key asid flips bus s = _
  unfold execHbmSectorRead
  rw [hready, if_neg (by decide)]
  dsimp only
  rw [hread]

theorem sectorRead_poisoned (hready : s.hbmReady pa = true)
    (hread : (s.hbm.troubled (s.hbm.spot pa) flips bus).read pa (key % 16) ⟨asid, s.gtc⟩ = (.poisoned, h)) :
    exec (.hbmSectorRead pa key asid flips bus) s = .next (s.settleHbm { h with returned := none }) := by
  unfold Hbm.troubled at hread
  show execHbmSectorRead pa key asid flips bus s = _
  unfold execHbmSectorRead
  rw [hready, if_neg (by decide)]
  dsimp only
  rw [hread]

theorem sectorRead_integrity (hready : s.hbmReady pa = true)
    (hread : (s.hbm.troubled (s.hbm.spot pa) flips bus).read pa (key % 16) ⟨asid, s.gtc⟩ = (.integrity, h)) :
    exec (.hbmSectorRead pa key asid flips bus) s = .next ((s.settleHbm { h with returned := none }).tear asid [pa / 512 * 512]) := by
  unfold Hbm.troubled at hread
  show execHbmSectorRead pa key asid flips bus s = _
  unfold execHbmSectorRead
  rw [hready, if_neg (by decide)]
  dsimp only
  rw [hread]

end ReadSteps

/-! ### Writes (R413, R417, R418) -/

section Writes
variable {f h : Hbm} {pa key : Nat} {sp : Spot} {w : Writer} {old : List Nat} {found : Option (List Nat)} {bytes : List Byte}

/-- A write into an image that can be read, under the sector's key or over a sector without one. -/
def Hbm.renewed (h : Hbm) (pa key : Nat) (old : List Nat) (bytes : List Byte) : List Nat :=
  h.makeImage key pa (spliceBytes (h.crypt true (imgKey old) pa (imgData old)) (pa % 512) bytes)

theorem write_readable (hsp : f.spot pa = sp) (himage : f.image sp w.asker = (some old, h)) (hgood : imgPoison old = false)
    (hopen : h.barred (pa / 512 * 512) = false) : f.write pa key bytes w =
      if imgKey old ≠ 0 ∧ imgKey old ≠ key then (false, h.logArray 4 sp.data sp.sector 0 w.asker)
      else (true, h.replaceImage pa sp old (h.renewed pa key old bytes) w) := by
  unfold Hbm.write
  dsimp only
  rw [hsp, himage]
  dsimp only
  rw [Option.filter_some, if_pos (by rw [hgood, hopen]; rfl)]
  rfl

/-- A write over an image that gives a reader nothing. -/
theorem write_unreadable (hsp : f.spot pa = sp) (himage : f.image sp w.asker = (found, h))
    (hbad : ∀ img, found = some img → imgPoison img = true ∨ h.barred (pa / 512 * 512) = true) : f.write pa key bytes w =
      if (bytes.length == 512 && !f.barred (pa / 512 * 512)) = true then
        (true, (h.putIn sp.data sp.sector (h.makeImage key pa bytes) w.asker).recompute sp (some (h.makeImage key pa bytes)) w.asker)
      else (true, ((h.putIn sp.data sp.sector imgLost w.asker).logArray 5 sp.data sp.sector 0 w.asker).recompute sp (some imgLost) w.asker) := by
  have hnone : (found.filter fun img => !imgPoison img && !h.barred (pa / 512 * 512)) = none := by
    cases found with
    | none => rfl
    | some img =>
      rw [Option.filter_some, if_neg]
      rcases hbad img rfl with hpoison | hbarred
      · rw [hpoison]
        simp
      · rw [hbarred]
        simp
  unfold Hbm.write
  dsimp only
  rw [hsp, himage]
  dsimp only
  rw [hnone]
  dsimp only
  split
  · rfl
  · rfl

/-- A replaced image whose units both stand sends its delta to the parity stack. -/
theorem replaceImage_delta {new : List Nat} (hdata : h.gone sp.data sp.sector = false) (hparity : h.gone sp.parity sp.sector = false)
    (hbus : h.bus = []) : (h.replaceImage pa sp old new w).deltas = h.deltas ++
      [⟨pa / 512 * 512, sp.parity, sp.sector, sp.data, imgXor old new, w.core, w.launch, w.asker.asid, none⟩] := by
  have hput := putIn_stored hbus sp.data sp.sector new w.asker
  unfold Hbm.replaceImage
  dsimp only
  rw [if_neg (by rw [hput.gone, hdata]; exact Bool.false_ne_true), if_neg (by rw [hput.gone, hparity]; exact Bool.false_ne_true), hput.deltas]

/-- A replaced image stands in its unit. -/
theorem replaceImage_dram {new : List Nat} (hdata : h.gone sp.data sp.sector = false) (hbus : h.bus = [])
    (hline : (h.line? sp.data (groupOf sp.sector)).isSome = true) : (h.replaceImage pa sp old new w).dram =
      putMem h.dram (sp.data * 2 ^ 36 + rawData sp.sector) (bytesOfSymbols (new.take 256)) := by
  have hput := putIn_stored hbus sp.data sp.sector new w.asker
  have hdram : (h.putIn sp.data sp.sector new w.asker).dram =
      putMem h.dram (sp.data * 2 ^ 36 + rawData sp.sector) (bytesOfSymbols (new.take 256)) := by
    unfold Hbm.putIn
    rw [if_neg (by rw [hdata]; exact Bool.false_ne_true), putImage_dram hbus hline]
  unfold Hbm.replaceImage
  dsimp only
  rw [if_neg (by rw [hput.gone, hdata]; exact Bool.false_ne_true)]
  split
  · exact hdram
  · exact hdram

/-- A whole sector written without a key stands as its bytes. -/
theorem renewed_bytes (hbytes : bytes.length = 512) (hsector : pa % 512 = 0) :
    bytesOfSymbols ((h.renewed pa 0 old bytes).take 256) = bytes := by
  unfold Hbm.renewed Hbm.makeImage Hbm.crypt spliceBytes
  dsimp only
  rw [if_pos rfl, hsector, List.take_zero, List.nil_append, List.append_assoc]
  exact bytesOfSymbols_take 256 bytes _ _ hbytes

end Writes

section WriteSteps
variable {s : State} {h : Hbm} {pa key asid : Nat} {data : List Byte} {bus : List BusFault}

theorem sectorWrite_waits (hready : s.hbmReady pa = false) : exec (.hbmSectorWrite pa key asid data bus) s = .next s := by
  show execHbmSectorWrite pa key asid data bus s = _
  unfold execHbmSectorWrite
  rw [hready]
  rfl

theorem sectorWrite_done (hready : s.hbmReady pa = true) (hwrite : (s.hbm.expect bus).write pa (key % 16) (data.take (512 - pa % 512))
    ⟨288, 0, ⟨asid, s.gtc⟩⟩ = (true, h)) : exec (.hbmSectorWrite pa key asid data bus) s = .next (s.settleHbm h) := by
  show execHbmSectorWrite pa key asid data bus s = _
  unfold execHbmSectorWrite
  rw [hready, if_neg (by decide)]
  show (match (s.hbm.expect bus).write pa (key % 16) (data.take (512 - pa % 512)) ⟨288, 0, ⟨asid, s.gtc⟩⟩ with
    | (ok, h) => (Host.Outcome.next (if ok then s.settleHbm h else (s.settleHbm h).tear asid [pa / 512 * 512]) : Out)) = _
  rw [hwrite] <;> rfl

theorem sectorWrite_refused (hready : s.hbmReady pa = true) (hwrite : (s.hbm.expect bus).write pa (key % 16) (data.take (512 - pa % 512))
    ⟨288, 0, ⟨asid, s.gtc⟩⟩ = (false, h)) :
    exec (.hbmSectorWrite pa key asid data bus) s = .next ((s.settleHbm h).tear asid [pa / 512 * 512]) := by
  show execHbmSectorWrite pa key asid data bus s = _
  unfold execHbmSectorWrite
  rw [hready, if_neg (by decide)]
  show (match (s.hbm.expect bus).write pa (key % 16) (data.take (512 - pa % 512)) ⟨288, 0, ⟨asid, s.gtc⟩⟩ with
    | (ok, h) => (Host.Outcome.next (if ok then s.settleHbm h else (s.settleHbm h).tear asid [pa / 512 * 512]) : Out)) = _
  rw [hwrite] <;> rfl

end WriteSteps

/-! ### Parity deltas (R417, R419, R420) -/

section Deltas
variable {s : State} {idx : Nat} {d : Delta} {p : List Nat} {h : Hbm}

theorem parityDelta_applied (hd : s.hbm.deltas[idx]? = some d) (hseek : s.hbm.seek d.stack d.sector ⟨d.asid, s.gtc⟩ = (some p, h)) :
    exec (.parityDelta idx) s = .next (s.settleHbm (({ h with deltas := h.deltas.eraseIdx idx }.putIn d.stack d.sector (imgXor p d.diff)
      ⟨d.asid, s.gtc⟩).noteShadow d.stack d.request)) := by
  show execParityDelta idx s = _
  unfold execParityDelta Hbm.applyDelta
  rw [hd]
  dsimp only
  rw [hseek]

theorem parityDelta_dropped (hd : s.hbm.deltas[idx]? = some d) (hgone : s.hbm.gone d.stack d.sector = true) :
    exec (.parityDelta idx) s = .next { s with hbm := { s.hbm with deltas := s.hbm.deltas.eraseIdx idx } } := by
  show execParityDelta idx s = _
  unfold execParityDelta Hbm.applyDelta
  rw [hd]
  dsimp only
  rw [seek_gone hgone]
  dsimp only
  rw [if_pos hgone]
  exact congrArg Host.Outcome.next (settleHbm_quiet rfl rfl)

end Deltas

end Sys2Proof.Machine

/-! Proofs for spec/25: the stacked memory, O53. -/

namespace Sys2Proof.Machine

open Safety

/-- Settles O53, each clause by the lemma on its step. -/
theorem stackedMemory : Obligations.StackedMemory := by
  unfold Obligations.StackedMemory
  refine ⟨fun s h hlanes hfailed => settleHbm_quiet hlanes hfailed, ?reads, ?waits, ?writes, ?deltas⟩
  case reads =>
    intro s pa key asid flips bus hready w sp f g sound
    have hsp : f.spot pa = sp := troubled_spot
    refine ⟨?_, ?_, ?_, ?_, ?_, ?_⟩
    · exact fun x hsound hx => image_clean hsound.1 hsound.2 hx
    · exact fun x n hsound hx hn => image_corrected hsound.1 hsound.2 hx hn
    · exact fun img h hsound hx hrec hgone => image_repaired hsound.1 hsound.2 hx hrec hgone
    · exact fun img h hf hrec hgone => image_reconstructed hf hrec hgone
    · rintro h (⟨hsound, hx, hrec⟩ | ⟨hf, hrec⟩)
      · exact image_unrepaired hsound.1 hsound.2 hx hrec
      · exact image_missing hf hrec
    · intro read
      refine ⟨fun h himage => sectorRead_poisoned hready (read_missing hsp himage), fun img h himage => ⟨fun hbad => ?_, fun hgood hopen hkey => ?_,
        fun hgood hopen hkeyed hkey htag => ?_, fun hgood hopen hkeyed hwrong => ?_⟩, ?_⟩
      · exact sectorRead_poisoned hready (read_poisoned hsp himage hbad)
      · exact sectorRead_data hready ((read_open hsp himage hgood hopen).trans (if_pos hkey))
      · refine sectorRead_data hready ((read_open hsp himage hgood hopen).trans ?_)
        rw [if_neg hkeyed, if_neg (not_or.mpr ⟨not_not_intro hkey, not_not_intro htag⟩)]
      · refine sectorRead_integrity hready ((read_open hsp himage hgood hopen).trans ?_)
        rw [if_neg hkeyed, if_pos hwrong]
      · rintro rfl rfl hbus hgone hline hroom ⟨x, hx⟩
        have hf : f = s.hbm := by
          show { s.hbm with bus := s.hbm.bus ++ [] } = s.hbm
          rw [List.append_nil]
        have htouch := touch_miss (w := w) hbus hline hroom
        have hfetched : f.fetched sp w = s.hbm.touch sp.data sp.sector w := by
          rw [hf]
          exact transfer_quiet ((touch_stored hbus ..).bus.trans hbus) ..
        have hgone' : (f.fetched sp w).gone sp.data sp.sector = false := by
          rw [hfetched, (touch_stored hbus ..).gone, hgone]
        rw [image_clean (by rw [hf]; exact hgone) hgone' (by rw [hfetched]; exact hx), hfetched, htouch]
  case waits =>
    exact fun s pa key asid flips data bus hready => ⟨sectorRead_waits hready, sectorWrite_waits hready⟩
  case writes =>
    intro s pa key asid data bus hready w sp bytes whole write
    have hsp : (s.hbm.expect bus).spot pa = sp := rfl
    refine ⟨fun old h himage hgood hopen => ⟨fun hkeyed hwrong => ?_, fun hkey => ?_⟩, fun img h himage hbad => ⟨fun hwhole => ?_, fun hpart => ?_⟩⟩
    · refine sectorWrite_refused hready ((write_readable (w := ⟨288, 0, w⟩) hsp himage hgood hopen).trans ?_)
      rw [if_pos ⟨hkeyed, hwrong⟩]
    · intro new
      refine ⟨?_, fun hdata hparity hbus => replaceImage_delta hdata hparity hbus, fun hdata hbus hline hdram hplain hlength j hj => ?_⟩
      · refine sectorWrite_done hready ((write_readable (w := ⟨288, 0, w⟩) hsp himage hgood hopen).trans ?_)
        rw [if_neg fun hboth => hkey.elim hboth.1 hboth.2]
        rfl
      · have hsector : pa % 512 = 0 := by
          have hshort : bytes.length ≤ 512 - pa % 512 := List.length_take_le ..
          omega
        have hnew : bytesOfSymbols (new.take 256) = bytes := by
          have hrenewed := renewed_bytes (h := h) (old := old) hlength hsector
          rw [← hplain] at hrenewed
          exact hrenewed
        show Sparse.get 0 (h.replaceImage pa sp old new ⟨288, 0, w⟩).dram (sp.data * 2 ^ 36 + (rawData sp.sector + j)) = _
        rw [replaceImage_dram hdata hbus hline, hnew, get_putMem hdram, if_pos (by omega), List.getD_eq_getElem?_getD, ← Nat.add_assoc,
          Nat.add_sub_cancel_left]
    · refine sectorWrite_done hready ((write_unreadable (w := ⟨288, 0, w⟩) hsp himage hbad).trans ?_)
      rw [if_pos]
      exact Bool.and_eq_true_iff.mpr ⟨beq_iff_eq.mpr hwhole.1, by rw [Bool.not_eq_true']; exact hwhole.2⟩
    · refine sectorWrite_done hready ((write_unreadable (w := ⟨288, 0, w⟩) hsp himage hbad).trans ?_)
      rw [if_neg]
      intro hboth
      obtain ⟨hlength, hopen⟩ := Bool.and_eq_true_iff.mp hboth
      exact hpart ⟨beq_iff_eq.mp hlength, by rw [Bool.not_eq_true'] at hopen; exact hopen⟩
  case deltas =>
    exact fun s idx d hd => ⟨fun p h hseek => parityDelta_applied hd hseek, parityDelta_dropped hd⟩

end Sys2Proof.Machine

/-! Proofs for spec/08: tables written entry by entry, the claim of a tile, the steps of an MMA (R176 to R179), on which O45 rests. -/

namespace Sys2Proof.Machine

open Safety

/-! ### Tables written entry by entry -/

section Sets
variable {α : Type} [DecidableEq α] {d : α} {m : Sparse α} {n : Nat}

/-- A table with entries set in order. -/
def Sparse.sets (d : α) (m : Sparse α) (l : List (Nat × α)) : Sparse α := l.foldl (fun m x => Sparse.set d m x.1 x.2) m

theorem Sparse.sets_wf (w : Sparse.wf d m = true) (l : List (Nat × α)) : Sparse.wf d (Sparse.sets d m l) = true :=
  List.foldlRecOn (motive := fun m : Sparse α => Sparse.wf d m = true) l _ w fun _ hm _ _ => Sparse.set_wf hm

theorem Sparse.get_sets_outside (w : Sparse.wf d m = true) (l : List (Nat × α)) (h : ∀ x ∈ l, x.1 ≠ n) :
    Sparse.get d (Sparse.sets d m l) n = Sparse.get d m n := by
  induction l generalizing m with
  | nil => rfl
  | cons x l ih =>
    refine (ih (Sparse.set_wf w) fun y hy => h y (List.mem_cons_of_mem _ hy)).trans ?_
    rw [Sparse.get_set w, if_neg (h x List.mem_cons_self).symm]

/-- An entry that is set, always to one value, has it. -/
theorem Sparse.get_sets_of_mem (w : Sparse.wf d m = true) (l : List (Nat × α)) {v : α} (hmem : (n, v) ∈ l) (h : ∀ x ∈ l, x.1 = n → x.2 = v) :
    Sparse.get d (Sparse.sets d m l) n = v := by
  induction l generalizing m with
  | nil => exact absurd hmem List.not_mem_nil
  | cons x l ih =>
    by_cases hlater : (n, v) ∈ l
    · exact ih (Sparse.set_wf w) hlater fun y hy => h y (List.mem_cons_of_mem _ hy)
    · obtain rfl := (List.mem_cons.mp hmem).resolve_right hlater
      have hnot : ∀ y ∈ l, y.1 ≠ n := by
        rintro ⟨k, u⟩ hy rfl
        have hu : u = v := h (k, u) (List.mem_cons_of_mem _ hy) rfl
        exact hlater (hu ▸ hy)
      refine (Sparse.get_sets_outside (Sparse.set_wf w) l hnot).trans ?_
      rw [Sparse.get_set w, if_pos rfl]

theorem Sparse.get_sets_const (w : Sparse.wf d m = true) (l : List Nat) (v : α) :
    Sparse.get d (l.foldl (fun m i => Sparse.set d m i v) m) n = if n ∈ l then v else Sparse.get d m n := by
  have hmap : l.foldl (fun m i => Sparse.set d m i v) m = Sparse.sets d m (l.map fun i => (i, v)) := by
    unfold Sparse.sets
    rw [List.foldl_map]
  rw [hmap]
  split
  · next h =>
    refine Sparse.get_sets_of_mem w _ (List.mem_map.mpr ⟨n, h, rfl⟩) fun x hx _ => ?_
    obtain ⟨i, -, rfl⟩ := List.mem_map.mp hx
    rfl
  · next h =>
    refine Sparse.get_sets_outside w _ fun x hx hn => ?_
    obtain ⟨i, hi, rfl⟩ := List.mem_map.mp hx
    exact h (hn ▸ hi)

end Sets

theorem get_memBytes (m : Memory) (a k : Nat) {n : Nat} (h : n < k) : Sparse.get 0 (putMem [] 0 (memBytes m a k)) n = Sparse.get 0 m (a + n) := by
  have hlength : (memBytes m a k).length = k := by simp [memBytes]
  rw [get_putMem rfl, hlength, if_pos (by omega), Nat.sub_zero, List.getD_eq_getElem?_getD]
  simp [memBytes, h]

/-! ### The claim (R176, R177, R432) -/

section Claim
variable {s : State} {c q : Nat} {o : Op} {rest : List Op} {cb cstr l : Nat}

theorem mem_tileLines : l ∈ tileLines cb cstr ↔ InTile cb cstr l := by
  unfold tileLines InTile
  simp only [List.mem_flatMap, List.mem_range, List.mem_cons, List.not_mem_nil, or_false]

/-- A core whose lines have been marked empty, or full. -/
theorem foldl_setFull (lines : List Nat) (b : Bool) (k : Core) :
    lines.foldl (fun k l => k.setFull l b) k = { k with full := lines.foldl (fun m l => Sparse.set true m l b) k.full } := by
  induction lines generalizing k with
  | nil => rfl
  | cons x lines ih => exact ih (k.setFull x b)

/-- The words of a tile, by their places. -/
def tileWords (k : Core) (cb cstr : Nat) : List (Nat × W32) := (List.range 64).flatMap fun i => (List.range 64).map fun j =>
  (64 * i + j, BitVec.ofNat 32 (leNat (k.bytes (cb + i * cstr + 4 * j) 4) 4))

theorem tile_eq (k : Core) (cb cstr : Nat) : k.tile cb cstr = Sparse.sets 0 [] (tileWords k cb cstr) := by
  unfold Core.tile Sparse.sets tileWords
  rw [List.foldl_flatMap]
  simp only [List.foldl_map]

theorem get_tile (k : Core) (cb cstr : Nat) {i j : Nat} (hi : i < 64) (hj : j < 64) : Sparse.get 0 (k.tile cb cstr) (64 * i + j) =
    BitVec.ofNat 32 (leNat (k.bytes (cb + i * cstr + 4 * j) 4) 4) := by
  rw [tile_eq]
  refine Sparse.get_sets_of_mem rfl _ ?_ ?_
  · exact List.mem_flatMap.mpr ⟨i, List.mem_range.mpr hi, List.mem_map.mpr ⟨j, List.mem_range.mpr hj, rfl⟩⟩
  · intro x hx hplace
    obtain ⟨i', hi', hrow⟩ := List.mem_flatMap.mp hx
    obtain ⟨j', hj', rfl⟩ := List.mem_map.mp hrow
    rw [List.mem_range] at hi' hj'
    dsimp only at hplace
    obtain rfl : i' = i := by omega
    obtain rfl : j' = j := by omega
    rfl

/-- The accumulators, the latch and its scales that a claim takes. -/
def Op.withTile (o : Op) (k : Core) (q : Nat) : Op := { o with
  claimed := true, blocked := false
  acc := if o.zc then [] else k.tile o.o1.toNat (cstrOf (k.cfgOf q)), base := if o.zc then [] else k.tile o.o1.toNat (cstrOf (k.cfgOf q))
  snapE := (if o.at then ([], []) else k.arch.latchBytes o.latch).1, snapS := (if o.at then ([], []) else k.arch.latchBytes o.latch).2 }

/-- The full bits of a core whose tile's lines have been emptied. -/
def Core.emptied (k : Core) (q : Nat) (o : Op) : Sparse Bool := (k.clinesOf q o).foldl (fun m l => Sparse.set true m l false) k.full

theorem claim_good (w : CoresWf s) (h : AtHead s c q o rest) (hgood : (s.core c).claimSpoiled q o = false) : s.claim c q o =
    s.setCore c (withHead { s.core c with full := (s.core c).emptied q o } q (o.withTile (s.core c) q) rest) := by
  have hset : (s.setCore c { s.core c with full := (s.core c).emptied q o }).core c = { s.core c with full := (s.core c).emptied q o } :=
    State.core_setCore_same w
  have hhead : AtHead (s.setCore c { s.core c with full := (s.core c).emptied q o }) c q o rest := by
    unfold AtHead
    rw [hset]
    exact h
  unfold State.claim
  dsimp only
  rw [if_neg (by rw [hgood]; exact Bool.false_ne_true), foldl_setFull]
  have honHead := onHead_atHead hhead fun p => { p with
    claimed := true, blocked := false, acc := (o.withTile (s.core c) q).acc, base := (o.withTile (s.core c) q).acc
    snapE := (o.withTile (s.core c) q).snapE, snapS := (o.withTile (s.core c) q).snapS }
  refine Eq.trans honHead ?_
  rw [hset, State.setCore_setCore w]
  rfl

theorem mmaClaim_eq (h : AtHead s c q o rest) (hcode : o.code = .mma) (hclaimed : o.claimed = false)
    (hstate : o.state = .claiming ∨ o.state = .field ∨ o.state = .bench) (hengines : s.engines c = true)
    (hfirst : (s.core c).claimWaits q o = false) (hawake : (s.core c).retained ((s.core c).clinesOf q o) = false)
    (hfull : o.em.getLsbD 2 = true ∨ (∀ l ∈ (s.core c).clinesOf q o, (s.core c).isFull l = true) ∧
      (s.core c).othersWait (readerOp c q) ((s.core c).clinesOf q o) = false) : exec (.mmaClaim c q) s = .next (s.claim c q o) := by
  have hclaims : o.claims = true := by
    unfold Op.claims
    rw [hcode, hclaimed]
    rcases hstate with h | h | h
    · rw [h]; rfl
    · rw [h]; rfl
    · rw [h]; rfl
  have hmay : s.mayClaim c q o = true := by
    have hready : (o.zc || (((s.core c).clinesOf q o).all (s.core c).isFull &&
        !(s.core c).othersWait (readerOp c q) ((s.core c).clinesOf q o))) = true := by
      rcases hfull with hzc | ⟨hlines, hothers⟩
      · rw [show o.zc = true from hzc, Bool.true_or]
      · rw [List.all_eq_true.mpr hlines, hothers]
        simp
    unfold State.mayClaim
    dsimp only
    rw [hfirst, hawake, hready]
    rfl
  show execMmaClaim c q s = _
  unfold execMmaClaim
  rw [headOp_atHead h]
  dsimp only
  rw [hclaims, hengines, hmay]
  rfl

theorem claim_spoiled (hbad : (s.core c).claimSpoiled q o = true) : s.claim c q o = s.pinCore c 9 := by
  unfold State.claim
  dsimp only
  rw [if_pos hbad]
  rfl

end Claim

/-! ### Steps (R178, R179) -/

section Steps
variable {fmt : Nat} {acc : Sparse W32} {row col : Nat → List Nat × Nat}

/-- One cell of a step: its place, its block of A and its block of B. -/
abbrev Cell := Nat × (List Nat × Nat) × (List Nat × Nat)

/-- A step on one cell of the partial tile. -/
def cellStep (fmt : Nat) (t : Sparse W32 × BitVec 6) (x : Cell) : Sparse W32 × BitVec 6 :=
  let r := mmaCell fmt (Sparse.get 0 t.1 x.1).toNat x.2.1 x.2.2
  (Sparse.set 0 t.1 x.1 (BitVec.ofNat 32 r.1), t.2 ||| r.2)
/-- The cells of a step in their order. -/
def stepCells (row col : Nat → List Nat × Nat) : List Cell :=
  (List.range 64).flatMap fun i => (List.range 64).map fun j => (64 * i + j, row i, col j)

theorem mapIdx_map_range {α : Type} (f : Nat → α) (n : Nat) : ((List.range n).map f).mapIdx (fun i x => (i, x)) = (List.range n).map fun i => (i, f i) := by
  refine List.ext_getElem? fun i => ?_
  rw [List.getElem?_mapIdx, List.getElem?_map, List.getElem?_map]
  by_cases hi : i < n
  · rw [List.getElem?_range hi]
    rfl
  · rw [List.getElem?_eq_none (by simpa using hi)]
    rfl

theorem mmaTile_cells : mmaTile fmt acc ((List.range 64).map row) ((List.range 64).map col) =
    (stepCells row col).foldl (cellStep fmt) (acc, 0) := by
  unfold mmaTile stepCells
  rw [mapIdx_map_range, mapIdx_map_range, List.foldl_flatMap]
  simp only [List.foldl_map]
  rfl

theorem stepCells_distinct : (stepCells row col).Pairwise fun x y => x.1 ≠ y.1 := by
  unfold stepCells
  rw [List.pairwise_flatMap]
  refine ⟨fun i _ => ?_, ?_⟩
  · rw [List.pairwise_map]
    exact List.nodup_range.imp fun hne heq => hne (by dsimp only at heq; omega)
  · refine List.nodup_range.imp fun {i i'} hne x hx y hy heq => hne ?_
    obtain ⟨j, hj, rfl⟩ := List.mem_map.mp hx
    obtain ⟨j', hj', rfl⟩ := List.mem_map.mp hy
    rw [List.mem_range] at hj hj'
    dsimp only at heq
    omega

/-- Steps on cells that lie apart: each finds what its place has held, and raises what it raises. -/
theorem foldl_cellStep (xs : List Cell) (hd : xs.Pairwise fun x y => x.1 ≠ y.1) (w : Sparse.wf 0 acc = true) (fl : BitVec 6) :
    (∀ x ∈ xs, Sparse.get 0 (xs.foldl (cellStep fmt) (acc, fl)).1 x.1 =
      BitVec.ofNat 32 (mmaCell fmt (Sparse.get 0 acc x.1).toNat x.2.1 x.2.2).1) ∧
    (∀ n, (∀ x ∈ xs, x.1 ≠ n) → Sparse.get 0 (xs.foldl (cellStep fmt) (acc, fl)).1 n = Sparse.get 0 acc n) ∧
    (∀ n, (xs.foldl (cellStep fmt) (acc, fl)).2.getLsbD n = true ↔ fl.getLsbD n = true ∨
      ∃ x ∈ xs, (mmaCell fmt (Sparse.get 0 acc x.1).toNat x.2.1 x.2.2).2.getLsbD n = true) := by
  induction xs generalizing acc fl with
  | nil => exact ⟨fun x hx => absurd hx List.not_mem_nil, fun n _ => rfl, fun n => by simp⟩
  | cons x xs ih =>
    obtain ⟨hfirst, hrest⟩ := List.pairwise_cons.mp hd
    have hkept : ∀ y ∈ xs, Sparse.get 0 (cellStep fmt (acc, fl) x).1 y.1 = Sparse.get 0 acc y.1 := fun y hy =>
      (Sparse.get_set w y.1).trans (if_neg (hfirst y hy).symm)
    obtain ⟨hin, hout, hflags⟩ := ih hrest (acc := (cellStep fmt (acc, fl) x).1) (Sparse.set_wf w) (cellStep fmt (acc, fl) x).2
    rw [List.foldl_cons]
    refine ⟨fun y hy => ?_, fun n hn => ?_, fun n => ?_⟩
    · rcases List.mem_cons.mp hy with rfl | hlater
      · exact (hout y.1 fun z hz => (hfirst z hz).symm).trans (Sparse.get_set_same w)
      · rw [← hkept y hlater]
        exact hin y hlater
    · refine (hout n fun y hy => hn y (List.mem_cons_of_mem _ hy)).trans ?_
      exact (Sparse.get_set w n).trans (if_neg (hn x List.mem_cons_self).symm)
    · have hjoin : (cellStep fmt (acc, fl) x).2.getLsbD n = true ↔
          fl.getLsbD n = true ∨ (mmaCell fmt (Sparse.get 0 acc x.1).toNat x.2.1 x.2.2).2.getLsbD n = true := by
        unfold cellStep
        rw [BitVec.getLsbD_or, Bool.or_eq_true]
      refine (hflags n).trans ?_
      rw [hjoin, or_assoc]
      refine or_congr_right ?_
      simp only [List.mem_cons, or_and_right, exists_or, exists_eq_left]
      refine or_congr_right (exists_congr fun y => and_congr_right fun hy => ?_)
      rw [hkept y hy]

theorem mem_stepCells {x : Cell} : x ∈ stepCells row col ↔ ∃ i j, i < 64 ∧ j < 64 ∧ x = (64 * i + j, row i, col j) := by
  unfold stepCells
  simp only [List.mem_flatMap, List.mem_map, List.mem_range]
  constructor
  · rintro ⟨i, hi, j, hj, rfl⟩
    exact ⟨i, j, hi, hj, rfl⟩
  · rintro ⟨i, j, hi, hj, rfl⟩
    exact ⟨i, hi, j, hj, rfl⟩

end Steps

end Sys2Proof.Machine

/-! Proofs for spec/08: the step of an MMA, and the write-back of its tile (R178 to R180, R254, R255), on which O45 rests. -/

namespace Sys2Proof.Machine

open Safety

/-! ### The step of an MMA -/

section Step
variable {s u : State} {c q : Nat} {o p : Op} {rest more : List Op} {ls : List (Nat × List Byte)}

/-- What a step makes of the partial tile. -/
def Op.tileStep (o : Op) (k : Core) (c q : Nat) (ls : List (Nat × List Byte)) : Sparse W32 × BitVec 6 :=
  (stepCells (rowOf k c q o ls) (colOf c o ls)).foldl (cellStep o.fmt) (o.acc, 0)

theorem mmaStep_eq (h : AtHead s c q o rest) (hcode : o.code = .mma) (hclaimed : o.claimed = true) (hat : o.atStep = true)
    (hnext : o.next < o.total) (hlively : s.lively c = true) (hawake : s.arrayAsleep c o = false)
    (hread : s.operands c q o (recKeys c o.recB (o.cellsB o.next) ++ (if o.at then recKeys c o.recA (o.cellsA o.next) else [])) = (some ls, u))
    (hhead : AtHead u c q p more) : exec (.mmaStep c q) s = .next (u.setCore c (withHead (u.core c) q
      (stepDone { p with acc := (o.tileStep (s.core c) c q ls).1, flags := p.flags ||| (o.tileStep (s.core c) c q ls).2 }) more)) := by
  have hrows : (fun i => if o.at then recBlockOf ls c o.recA fun e => (64 * coordR o.o3 + i, coordK o.o3 + 32 * o.next + e)
      else o.latchBlock (lkbOf ((s.core c).cfgOf q)) o.next i) = rowOf (s.core c) c q o ls := rfl
  have hcols : (fun j => recBlockOf ls c o.recB fun e => (coordK o.o3 + 32 * o.next + e, 64 * coordC o.o3 + j)) = colOf c o ls := rfl
  show execMmaStep c q s = _
  unfold execMmaStep
  dsimp only
  rw [headOp_atHead h]
  dsimp only
  rw [if_neg (by simp [hcode, hclaimed, hat, hlively, hawake, Nat.not_le.mpr hnext]), hread]
  dsimp only
  rw [hrows, hcols, mmaTile_cells, onHead_atHead hhead, ← Op.tileStep]
  generalize o.tileStep (s.core c) c q ls = r
  rfl

end Step

/-! ### The bytes of the tile (R180, R438) -/

section Tile
variable {k : Core} {q a : Nat} {o : Op}

/-- A tile's row written, its lines full and its words good. -/
def Core.writeRow (k : Core) (a : Nat) (l : List Byte) : Core := { k with
  scratch := putMem k.scratch a l, full := Sparse.set true (Sparse.set true k.full (a / 128) true) (a / 128 + 1) true
  marks := (wordsWithin a 256).foldl (fun m i => Sparse.set false m i false) k.marks }

theorem writeRow_eq (l : List Byte) :
    (((k.put a l).mend (wordsWithin a 256)).setFull (a / 128) true).setFull (a / 128 + 1) true = k.writeRow a l := by
  unfold Core.writeRow Core.setFull Core.mend Core.put
  rfl
theorem writeRow_scratch (l : List Byte) : (k.writeRow a l).scratch = putMem k.scratch a l := rfl
theorem writeRow_full (l : List Byte) :
    (k.writeRow a l).full = Sparse.set true (Sparse.set true k.full (a / 128) true) (a / 128 + 1) true := rfl
theorem writeRow_marks (l : List Byte) :
    (k.writeRow a l).marks = (wordsWithin a 256).foldl (fun m i => Sparse.set false m i false) k.marks := rfl

theorem mem_wordsWithin {a n w : Nat} : w ∈ wordsWithin a n ↔ a ≤ 8 * w ∧ 8 * w + 8 ≤ a + n := by
  unfold wordsWithin
  rw [List.mem_map]
  constructor
  · rintro ⟨i, hi, rfl⟩
    rw [List.mem_range] at hi
    omega
  · rintro ⟨hlow, hhigh⟩
    exact ⟨w - (a + 7) / 8, List.mem_range.mpr (by omega), by omega⟩

/-- The bytes of a list of equally long pieces. -/
theorem flatMap_getD {n m i : Nat} {f : Nat → List Byte} (hf : ∀ j, (f j).length = m) (hi : i < m) {j : Nat} (hj : j < n) :
    ((List.range n).flatMap f).length = n * m ∧ ((List.range n).flatMap f).getD (m * j + i) 0 = (f j).getD i 0 := by
  induction n with
  | zero => exact absurd hj (Nat.not_lt_zero j)
  | succ n ih =>
    have hlength : ∀ n, ((List.range n).flatMap f).length = n * m := by
      intro n
      induction n with
      | zero => rw [List.range_zero, List.flatMap_nil, List.length_nil, Nat.zero_mul]
      | succ n ih => rw [List.range_succ, List.flatMap_append, List.flatMap_singleton, List.length_append, ih, hf, Nat.succ_mul]
    refine ⟨hlength (n + 1), ?_⟩
    have hsplit : (List.range (n + 1)).flatMap f = (List.range n).flatMap f ++ f n := by
      rw [List.range_succ, List.flatMap_append, List.flatMap_singleton]
    rw [hsplit, List.getD_eq_getElem?_getD, List.getD_eq_getElem?_getD]
    by_cases hlast : j = n
    · subst hlast
      rw [List.getElem?_append_right (by rw [hlength, Nat.mul_comm]; omega), hlength, Nat.mul_comm j m, Nat.add_sub_cancel_left]
    · have hlt : m * j + i < n * m := by
        have hle : m * (j + 1) ≤ m * n := Nat.mul_le_mul_left m (by omega)
        rw [Nat.mul_comm n m]
        rw [Nat.mul_succ] at hle
        omega
      rw [List.getElem?_append_left (by rw [hlength]; exact hlt)]
      have hrest := (ih (by omega)).2
      rw [List.getD_eq_getElem?_getD, List.getD_eq_getElem?_getD] at hrest
      exact hrest

theorem rowBytes_getD {i j b : Nat} (hj : j < 64) (hb : b < 4) : (o.rowBytes i).length = 256 ∧
    (o.rowBytes i).getD (4 * j + b) 0 = BitVec.ofNat 8 ((Sparse.get 0 o.acc (64 * i + j)).toNat / 2 ^ (8 * b)) := by
  obtain ⟨hlength, hbyte⟩ := flatMap_getD (f := fun j => leBytes (Sparse.get 0 o.acc (64 * i + j)).toNat 4) (fun _ => leBytes_length _ _) hb hj
  exact ⟨hlength, hbyte.trans (leBytes_getD hb _)⟩

/-- What rows that have been written leave in a core: the bytes, the full bits, the marks; nothing else changes. -/
structure RowsPut (k t : Core) (o : Op) (cb cstr n : Nat) : Prop where
  rest : { t with scratch := k.scratch, full := k.full, marks := k.marks } = k
  wf : SpmWf t
  bytes : ∀ i j b, i < n → j < 64 → b < 4 → Sparse.get 0 t.scratch (cb + i * cstr + 4 * j + b) =
    BitVec.ofNat 8 ((Sparse.get 0 o.acc (64 * i + j)).toNat / 2 ^ (8 * b))
  others : ∀ a, (∀ i, i < n → ¬ (cb + i * cstr ≤ a ∧ a < cb + i * cstr + 256)) → Sparse.get 0 t.scratch a = Sparse.get 0 k.scratch a
  full : ∀ l, Sparse.get true t.full l = true ↔
    (∃ i, i < n ∧ (l = (cb + i * cstr) / 128 ∨ l = (cb + i * cstr) / 128 + 1)) ∨ Sparse.get true k.full l = true
  marks : ∀ w, Sparse.get false t.marks w =
    if ∃ i, i < n ∧ cb + i * cstr ≤ 8 * w ∧ 8 * w + 8 ≤ cb + i * cstr + 256 then false else Sparse.get false k.marks w

end Tile

section Rows
variable {k t : Core} {o : Op} {cb cstr n : Nat}

theorem RowsPut.zero (w : SpmWf k) : RowsPut k k o cb cstr 0 :=
  ⟨rfl, w, fun i _ _ hi => absurd hi (Nat.not_lt_zero i), fun _ _ => rfl, fun l => by simp, fun w => by simp⟩

/-- A row joins those that have been written: rows lie apart. -/
theorem RowsPut.succ (h : RowsPut k t o cb cstr n) (hapart : 256 ≤ cstr) :
    RowsPut k (t.writeRow (cb + n * cstr) (o.rowBytes n)) o cb cstr (n + 1) := by
  obtain ⟨hscratch, hfull, hmarks⟩ := h.wf
  have hlength := (rowBytes_getD (o := o) (i := n) (j := 0) (b := 0) (by decide) (by decide)).1
  have hbelow : ∀ i, i < n → i * cstr + 256 ≤ n * cstr := by
    intro i hi
    have hle : (i + 1) * cstr ≤ n * cstr := Nat.mul_le_mul_right cstr hi
    rw [Nat.succ_mul] at hle
    omega
  refine ⟨?_, ⟨?_, ?_, ?_⟩, fun i j b hi hj hb => ?_, fun a ha => ?_, fun l => ?_, fun w => ?_⟩
  · unfold Core.writeRow
    have hfields := congrArg (fun x : Core => { x with scratch := k.scratch, full := k.full, marks := k.marks }) h.rest
    exact hfields
  · rw [writeRow_scratch]
    exact putMem_wf hscratch
  · rw [writeRow_full]
    exact Sparse.set_wf (Sparse.set_wf hfull)
  · rw [writeRow_marks]
    exact List.foldlRecOn (motive := fun m : Sparse Bool => Sparse.wf false m = true) (wordsWithin (cb + n * cstr) 256) _ hmarks
      fun _ hm _ _ => Sparse.set_wf hm
  · rw [writeRow_scratch, get_putMem hscratch, hlength]
    by_cases hlast : i = n
    · subst hlast
      rw [if_pos (by omega), show cb + i * cstr + 4 * j + b - (cb + i * cstr) = 4 * j + b from by omega]
      exact (rowBytes_getD hj hb).2
    · have hbefore := hbelow i (by omega)
      rw [if_neg (by omega)]
      exact h.bytes i j b (by omega) hj hb
  · have hlast := ha n (Nat.lt_succ_self n)
    rw [writeRow_scratch, get_putMem hscratch, hlength, if_neg (by omega)]
    exact h.others a fun i hi => ha i (by omega)
  · rw [writeRow_full, Sparse.get_set (Sparse.set_wf hfull), Sparse.get_set hfull]
    have hbefore := h.full l
    constructor
    · intro hl
      split at hl
      · next hnext => exact .inl ⟨n, Nat.lt_succ_self n, .inr hnext⟩
      · split at hl
        · next hfirst => exact .inl ⟨n, Nat.lt_succ_self n, .inl hfirst⟩
        · refine (hbefore.mp hl).imp_left ?_
          rintro ⟨i, hi, hline⟩
          exact ⟨i, by omega, hline⟩
    · intro hl
      split
      · rfl
      · next hnext =>
        split
        · rfl
        · next hfirst =>
          refine hbefore.mpr (hl.imp_left ?_)
          rintro ⟨i, hi, hline⟩
          refine ⟨i, ?_, hline⟩
          have hne : i ≠ n := by
            rintro rfl
            exact hline.elim hfirst hnext
          omega
  · rw [writeRow_marks, Sparse.get_sets_const hmarks, h.marks w]
    by_cases hlast : w ∈ wordsWithin (cb + n * cstr) 256
    · rw [if_pos hlast, if_pos ⟨n, Nat.lt_succ_self n, mem_wordsWithin.mp hlast⟩]
    · rw [if_neg hlast]
      refine ite_congr (propext ⟨?_, ?_⟩) (fun _ => rfl) fun _ => rfl
      · rintro ⟨i, hi, hwhole⟩
        exact ⟨i, by omega, hwhole⟩
      · rintro ⟨i, hi, hwhole⟩
        refine ⟨i, ?_, hwhole⟩
        have hne : i ≠ n := by
          rintro rfl
          exact hlast (mem_wordsWithin.mpr hwhole)
        omega

theorem writeTile_put {q : Nat} (w : SpmWf k) (hapart : 256 ≤ cstrOf (k.cfgOf q)) :
    RowsPut k (k.writeTile q o) o o.o1.toNat (cstrOf (k.cfgOf q)) 64 := by
  have hrows : ∀ n, RowsPut k ((List.range n).foldl
      (fun t i => t.writeRow (o.o1.toNat + i * cstrOf (k.cfgOf q)) (o.rowBytes i)) k) o o.o1.toNat (cstrOf (k.cfgOf q)) n := by
    intro n
    induction n with
    | zero => exact RowsPut.zero w
    | succ n ih =>
      rw [List.range_succ, List.foldl_append, List.foldl_cons, List.foldl_nil]
      exact ih.succ hapart
  unfold Core.writeTile
  simp only [writeRow_eq]
  exact hrows 64

end Rows

end Sys2Proof.Machine

/-! Proofs for spec/08 and spec/12: the write-back of a tile, where nobody waits on its lines (R180, R254, R255), on which O45 rests. -/

namespace Sys2Proof.Machine

open Safety

/-! ### Bytes that meet the step before (R255) -/

theorem Sparse.get_sets_or {α : Type} [DecidableEq α] {d : α} {m : Sparse α} (w : Sparse.wf d m = true) (l : List (Nat × α)) (n : Nat) :
    Sparse.get d (Sparse.sets d m l) n = Sparse.get d m n ∨ (n, Sparse.get d (Sparse.sets d m l) n) ∈ l := by
  induction l generalizing m with
  | nil => exact .inl rfl
  | cons x l ih =>
    have hsets : Sparse.sets d m (x :: l) = Sparse.sets d (Sparse.set d m x.1 x.2) l := rfl
    rw [hsets]
    rcases ih (m := Sparse.set d m x.1 x.2) (Sparse.set_wf w) with hkept | hlater
    · rw [hkept, Sparse.get_set w]
      split
      · next h =>
        rw [h]
        exact .inr List.mem_cons_self
      · exact .inl rfl
    · exact .inr (List.mem_cons_of_mem _ hlater)

section Landing
variable {s : State} {c : Nat} {k : Core} {addrs : List Nat}

theorem foldl_put_core (w : CoresWf s) (met : List (Nat × Nat × Byte)) (hmet : ∀ x ∈ met, x.1 = c) :
    met.foldl (fun s x => s.onCore x.1 fun k => k.put x.2.1 [x.2.2]) (s.setCore c k) =
      s.setCore c { k with scratch := Sparse.sets 0 k.scratch (met.map (·.2)) } := by
  induction met generalizing k with
  | nil => rfl
  | cons x met ih =>
    have hfirst : (s.setCore c k).onCore x.1 (fun k => k.put x.2.1 [x.2.2]) = s.setCore c (k.put x.2.1 [x.2.2]) := by
      rw [hmet x List.mem_cons_self, State.onCore, State.core_setCore_same w, State.setCore_setCore w]
    rw [List.foldl_cons, hfirst]
    exact ih fun y hy => hmet y (List.mem_cons_of_mem _ hy)

/-- What the device step just before has written among some bytes of a core, and what stays of it. -/
def State.met (s : State) (c : Nat) (addrs : List Nat) : List (Nat × Nat × Byte) :=
  if s.landedAt + 1 = s.choice then
    s.landed.filter fun x => (addrs.map fun a => (c, a)).contains (x.1, x.2.1) && Config.earlierStays s.choice x.2.1 else []

theorem mem_met {x : Nat × Nat × Byte} (hx : x ∈ s.met c addrs) :
    s.landedAt + 1 = s.choice ∧ x ∈ s.landed ∧ x.1 = c ∧ x.2.1 ∈ addrs := by
  unfold State.met at hx
  split at hx
  · next hstep =>
    obtain ⟨hlanded, hkept⟩ := List.mem_filter.mp hx
    obtain ⟨a, ha, heq⟩ := List.mem_map.mp (List.contains_iff_mem.mp (Bool.and_eq_true_iff.mp hkept).1)
    obtain ⟨hc, haddr⟩ := Prod.mk.inj heq
    exact ⟨hstep, hlanded, hc.symm, haddr ▸ ha⟩
  · exact absurd hx List.not_mem_nil

/-- The scratchpad after bytes have landed on those of the step before. -/
def State.landedScratch (s : State) (c : Nat) (addrs : List Nat) (m : Memory) : Memory := Sparse.sets 0 m ((s.met c addrs).map (·.2))

theorem landing_core (w : CoresWf s) : ∃ l, (s.setCore c k).landing (addrs.map fun a => (c, a)) =
    landedOn (s.setCore c { k with scratch := s.landedScratch c addrs k.scratch }) l := by
  have hfold := foldl_put_core (k := k) w (s.met c addrs) fun x hx => (mem_met hx).2.2.1
  refine ⟨(addrs.map fun a => (c, a)).map fun x : Nat × Nat =>
    (x.1, x.2, Sparse.get 0 ((s.setCore c { k with scratch := s.landedScratch c addrs k.scratch }).core x.1).scratch x.2), ?_⟩
  exact congrArg (fun t : State => { t with
    landed := (addrs.map fun a => (c, a)).map fun x : Nat × Nat => (x.1, x.2, Sparse.get 0 (t.core x.1).scratch x.2), landedAt := t.choice }) hfold

theorem landedScratch_outside {m : Memory} (w : Memory.wf m = true) {a : Nat} (h : a ∉ addrs) :
    Sparse.get 0 (s.landedScratch c addrs m) a = Sparse.get 0 m a := by
  refine Sparse.get_sets_outside w _ fun x hx hxa => ?_
  obtain ⟨y, hy, rfl⟩ := List.mem_map.mp hx
  exact h (hxa ▸ (mem_met hy).2.2.2)

theorem landedScratch_over {m : Memory} (w : Memory.wf m = true) (a : Nat) :
    LandedOver s c a (Sparse.get 0 m a) (Sparse.get 0 (s.landedScratch c addrs m) a) := by
  refine (Sparse.get_sets_or w ((s.met c addrs).map fun x : Nat × Nat × Byte => x.2) a).imp_right fun hmem => ?_
  obtain ⟨y, hy, hya⟩ := List.mem_map.mp hmem
  obtain ⟨hstep, hlanded, hc, -⟩ := mem_met hy
  refine ⟨hstep, ?_⟩
  have hpair : (c, a, Sparse.get 0 (s.landedScratch c addrs m) a) = y := Prod.ext hc.symm hya.symm
  rw [hpair]
  exact hlanded

end Landing

/-! ### Lines on which nobody waits (R254) -/

section Serve
variable {v : State} {c : Nat}

theorem setCore_self (w : CoresWf v) : v.setCore c (v.core c) = v := by
  unfold State.setCore State.core
  rw [Sparse.set_get w]

variable (hw : (v.core c).waiters = [])
include hw

theorem serveLine_idle (line : Nat) : v.serveLine c line = v := by
  unfold State.serveLine
  dsimp only
  rw [hw]
  rfl

theorem serveDirect_idle (lines : List Nat) : (v.core c).serveDirect lines = (v.core c, []) := by
  have hcatch : lines.foldl Core.catchLine (v.core c) = v.core c := by
    refine List.foldlRecOn (motive := fun k : Core => k = v.core c) lines _ rfl fun k hk line _ => ?_
    unfold Core.catchLine
    rw [hk, hw, if_neg (by exact Bool.false_ne_true)]
  unfold Core.serveDirect
  dsimp only
  rw [hw, hcatch, List.any_nil, Bool.false_and, if_neg Bool.false_ne_true]

omit hw in
theorem serveClaim_idle (hclaim : NoClaim v c) (lines : List Nat) : v.serveClaim c lines = v := by
  unfold State.serveClaim
  cases h0 : (v.core c).headOp 0 with
  | none =>
    cases h1 : (v.core c).headOp 1 with
    | none => simp [h0, h1]
    | some y => simp [h0, h1, hclaim 1 y h1]
  | some x =>
    cases h1 : (v.core c).headOp 1 with
    | none => simp [h0, h1, hclaim 0 x h0]
    | some y => simp [h0, h1, hclaim 0 x h0, hclaim 1 y h1]

variable (w : CoresWf v) (hclaim : NoClaim v c)
include w hclaim

theorem serveCore_idle (lines : List Nat) : v.serveCore c lines = (v, []) := by
  unfold State.serveCore
  rw [serveDirect_idle hw]
  dsimp only
  rw [setCore_self w, serveClaim_idle hclaim]
  rfl

theorem serveOnce_idle (keys : List Nat) (hkeys : ∀ x ∈ keys, x / 2 ^ 64 = c + 1) : v.serveOnce keys = (v, []) := by
  have hnames : ∀ x ∈ keys.filterMap fun x => if x / 2 ^ 64 = 0 then none else some (x / 2 ^ 64 - 1, x % 2 ^ 64), x.1 = c := by
    intro x hx
    obtain ⟨y, hy, hsome⟩ := List.mem_filterMap.mp hx
    rw [hkeys y hy, if_neg (Nat.succ_ne_zero c)] at hsome
    obtain rfl := Option.some.inj hsome
    exact Nat.add_sub_cancel ..
  unfold State.serveOnce
  dsimp only
  generalize (keys.filterMap fun x => if x / 2 ^ 64 = 0 then none else some (x / 2 ^ 64 - 1, x % 2 ^ 64)) = l at hnames ⊢
  have hlines : l.foldl (fun s x => s.serveLine x.1 x.2) v = v :=
    List.foldlRecOn (motive := fun t : State => t = v) l _ rfl fun t ht x hx => by
      rw [ht, hnames x hx]
      exact serveLine_idle hw x.2
  rw [hlines]
  refine List.foldlRecOn (motive := fun p : State × List Nat => p = (v, [])) _ _ rfl fun p hp t ht => ?_
  obtain ⟨x, hx, rfl⟩ := List.mem_map.mp (mem_of_mem_distinct ht)
  rw [hp, hnames x hx, serveCore_idle hw w hclaim]
  rfl

theorem serveLines_idle (keys : List Nat) (hkeys : ∀ x ∈ keys, x / 2 ^ 64 = c + 1) : v.serveLines keys = v := by
  unfold State.serveLines
  rw [serveOnce_idle hw w hclaim keys hkeys]
  dsimp only
  rw [serveOnce_idle hw w hclaim [] fun _ h => absurd h List.not_mem_nil]

end Serve

/-! ### The write-back (R180) -/

section WriteBack
variable {s : State} {c q : Nat} {o : Op} {rest : List Op}

theorem cstrOf_lt (x : W64) : cstrOf x < 65536 := by
  unfold cstrOf
  split
  · decide
  · exact Nat.mod_lt _ (by decide)

theorem tileKeys (s : State) (c q : Nat) (o : Op) : ∀ x ∈ ((s.core c).clinesOf q o).map (lineKey (c + 1)), x / 2 ^ 64 = c + 1 := by
  intro x hx
  obtain ⟨l, hl, rfl⟩ := List.mem_map.mp hx
  obtain ⟨i, hi, hline⟩ := mem_tileLines.mp hl
  have hcstr := cstrOf_lt ((s.core c).cfgOf q)
  have hbase := o.o1.isLt
  have hrow : i * cstrOf ((s.core c).cfgOf q) ≤ 63 * 65535 := Nat.mul_le_mul (by omega) (by omega)
  unfold lineKey
  omega

theorem mem_tileAddrs {k : Core} {a : Nat} : a ∈ k.tileAddrs q o ↔
    ∃ i, i < 64 ∧ o.o1.toNat + i * cstrOf (k.cfgOf q) ≤ a ∧ a < o.o1.toNat + i * cstrOf (k.cfgOf q) + 256 := by
  unfold Core.tileAddrs
  simp only [List.mem_flatMap, List.mem_map, List.mem_range]
  constructor
  · rintro ⟨i, hi, j, hj, rfl⟩
    exact ⟨i, hi, by omega, by omega⟩
  · rintro ⟨i, hi, hlow, hhigh⟩
    exact ⟨i, hi, a - (o.o1.toNat + i * cstrOf (k.cfgOf q)), by omega, by omega⟩

/-- The scratchpad with the tile written back. -/
def State.tileScratch (s : State) (c q : Nat) (o : Op) : Memory :=
  s.landedScratch c ((s.core c).tileAddrs q o) ((s.core c).writeTile q o).scratch
/-- The core with the tile written back. -/
def State.tiledCore (s : State) (c q : Nat) (o : Op) : Core := { s.core c with
  scratch := s.tileScratch c q o, full := ((s.core c).writeTile q o).full, marks := ((s.core c).writeTile q o).marks }

theorem writeTile_rest (h : RowsPut (s.core c) ((s.core c).writeTile q o) o o.o1.toNat (cstrOf ((s.core c).cfgOf q)) 64) :
    { (s.core c).writeTile q o with scratch := s.tileScratch c q o } = s.tiledCore c q o := by
  have hrest := h.rest
  unfold State.tiledCore
  generalize s.tileScratch c q o = m
  generalize (s.core c).writeTile q o = t at hrest ⊢
  exact congrArg (fun x : Core => { x with scratch := m, full := t.full, marks := t.marks }) hrest

theorem storeTile_lands (w : CoresWf s) (wk : SpmWf (s.core c)) (hwaiters : (s.core c).waiters = []) (hclaim : NoClaim s c)
    (hapart : 256 ≤ cstrOf ((s.core c).cfgOf q)) : ∃ l, s.storeTile c q o = landedOn (s.setCore c (s.tiledCore c q o)) l := by
  have hput := writeTile_put (o := o) wk hapart
  obtain ⟨l, hl⟩ := landing_core (k := (s.core c).writeTile q o) (addrs := (s.core c).tileAddrs q o) (c := c) w
  have hcore : (landedOn (s.setCore c (s.tiledCore c q o)) l).core c = s.tiledCore c q o := State.core_setCore_same w
  have hscratch : s.landedScratch c ((s.core c).tileAddrs q o) ((s.core c).writeTile q o).scratch = s.tileScratch c q o := rfl
  rw [hscratch, writeTile_rest hput] at hl
  refine ⟨l, ?_⟩
  unfold State.storeTile State.onCore
  rw [hl]
  have hwf : CoresWf (landedOn (s.setCore c (s.tiledCore c q o)) l) := Sparse.set_wf w
  refine serveLines_idle ?_ hwf ?_ _ (tileKeys s c q o)
  · rw [hcore]
    exact hwaiters
  · intro p x hx
    rw [hcore] at hx
    exact hclaim p x hx

theorem tiled_put (wk : SpmWf (s.core c)) (hapart : 256 ≤ cstrOf ((s.core c).cfgOf q)) :
    TilePut s c q o (s.tileScratch c q o) ((s.core c).writeTile q o).full ((s.core c).writeTile q o).marks := by
  have hput := writeTile_put (o := o) wk hapart
  refine ⟨fun x => ⟨fun hwhole => ?_, fun hpart => ?_⟩, fun i j b hi hj hb => ?_, fun a ha => ?_, fun l => hput.full l⟩
  · rw [hput.marks x, if_pos hwhole]
  · rw [hput.marks x, if_neg hpart]
  · rw [← hput.bytes i j b hi hj hb]
    exact landedScratch_over hput.wf.1 _
  · refine (landedScratch_outside hput.wf.1 fun hmem => ?_).trans (hput.others a ha)
    obtain ⟨i, hi, hrow⟩ := mem_tileAddrs.mp hmem
    exact ha i hi hrow

theorem mmaWriteBack_eq (h : AtHead s c q o rest) (hcode : o.code = .mma) (hclaimed : o.claimed = true) (hperformed : o.performed = false)
    (hnext : o.total ≤ o.next) (hlively : s.lively c = true) (hawake : (s.core c).retained ((s.core c).clinesOf q o) = false)
    (hsingle : s.doubled c = false) : exec (.mmaWriteBack c q) s = .next ((s.storeTile c q o).finish c q o) := by
  show execMmaWriteBack c q s = _
  unfold execMmaWriteBack
  rw [headOp_atHead h]
  dsimp only
  rw [if_neg (by simp [hcode, hclaimed, hperformed, hlively, hawake, Nat.not_lt.mpr hnext]), hsingle, if_neg Bool.false_ne_true]

end WriteBack

end Sys2Proof.Machine

/-! Proofs for spec/08: what an MLAT writes into its latch (R168, R181, R438), and O45. -/

namespace Sys2Proof.Machine

open Safety

/-! ### Words written whole (R438) -/

theorem mem_distinct {x : Nat} {l : List Nat} : x ∈ distinct l ↔ x ∈ l := by
  refine ⟨mem_of_mem_distinct, ?_⟩
  have enters : ∀ (l seen : List Nat), x ∈ seen ∨ x ∈ l →
      x ∈ l.foldl (fun seen y => if seen.contains y then seen else seen ++ [y]) seen := by
    intro l
    induction l with
    | nil => exact fun seen h => h.resolve_right List.not_mem_nil
    | cons y l later =>
      intro seen h
      refine later _ ?_
      dsimp only
      split
      · next hseen =>
        rcases h with h | h
        · exact .inl h
        · exact (List.mem_cons.mp h).imp_left fun hxy : x = y => hxy ▸ List.contains_iff_mem.mp hseen
      · rcases h with h | h
        · exact .inl (List.mem_append_left _ h)
        · exact (List.mem_cons.mp h).imp_left fun hxy : x = y => List.mem_append_right _ (List.mem_singleton.mpr hxy)
  exact fun h => enters l [] (.inr h)

theorem mem_coveredWords {addrs : List Nat} {w : Nat} : w ∈ coveredWords addrs ↔ ∀ n, n < 8 → 8 * w + n ∈ addrs := by
  unfold coveredWords
  rw [List.mem_filter, List.all_eq_true]
  simp only [List.mem_range, List.contains_iff_mem]
  refine and_iff_right_of_imp fun h => mem_distinct.mpr (List.mem_map.mpr ⟨8 * w + 0, h 0 (by decide), ?_⟩)
  omega

/-! ### The bytes of a latch (R168, R181) -/

section Latch
variable {o : Op} {ls : List (Nat × List Byte)} {c lkb : Nat} {a : Arch}

/-- The block that an MLAT reads for a row of its latch. -/
def Op.latchBlk (o : Op) (ls : List (Nat × List Byte)) (c i b : Nat) : List Nat × Nat :=
  recBlockOf ls c o.recA fun e => (64 * coordR o.o3 + i, coordK o.o3 + 32 * b + e)
/-- A byte of that block, and its scale. -/
def Op.latchByte (o : Op) (ls : List (Nat × List Byte)) (c i b n : Nat) : Byte :=
  BitVec.ofNat 8 (packElems (fmtBits o.fmt) (o.latchBlk ls c i b).1 / 2 ^ (8 * n))

theorem mem_latchElems {x : Nat × Byte} : x ∈ (o.latchPut ls c lkb).1 ↔ ∃ i b n, i < 64 ∧ b < o.blocks ∧ n < blockBytes o.fmt ∧
    x = (512 * i + (lkb + b) * blockBytes o.fmt + n, o.latchByte ls c i b n) := by
  unfold Op.latchPut
  dsimp only
  simp only [List.mem_flatMap, List.mem_map, List.mem_range, List.mem_mapIdx, leBytes_length]
  constructor
  · rintro ⟨y, ⟨i, hi, b, hb, rfl⟩, n, hn, rfl⟩
    refine ⟨i, b, n, hi, hb, hn, ?_⟩
    rw [List.getElem_eq_getD 0, leBytes_getD hn]
    rfl
  · rintro ⟨i, b, n, hi, hb, hn, rfl⟩
    refine ⟨_, ⟨i, hi, b, hb, rfl⟩, n, hn, ?_⟩
    rw [List.getElem_eq_getD 0, leBytes_getD hn]
    rfl

theorem mem_latchScales {x : Nat × Byte} : x ∈ (o.latchPut ls c lkb).2 ↔ isMx o.fmt = true ∧ ∃ i b, i < 64 ∧ b < o.blocks ∧
    x = (32 * i + lkb + b, BitVec.ofNat 8 (o.latchBlk ls c i b).2) := by
  unfold Op.latchPut
  dsimp only
  split
  · next hmx =>
    simp only [List.mem_map, List.mem_flatMap, List.mem_range]
    constructor
    · rintro ⟨y, ⟨i, hi, b, hb, rfl⟩, rfl⟩
      exact ⟨hmx, i, b, hi, hb, rfl⟩
    · rintro ⟨-, i, b, hi, hb, rfl⟩
      exact ⟨_, ⟨i, hi, b, hb, rfl⟩, rfl⟩
  · next hmx => exact ⟨fun h => absurd h List.not_mem_nil, fun h => absurd h.1 hmx⟩

/-- Two rows' blocks do not share a byte. -/
theorem latch_apart {bb i i' b b' n n' : Nat} (hn : n < bb) (hn' : n' < bb) (hb : (lkb + b) * bb + bb ≤ 512) (hb' : (lkb + b') * bb + bb ≤ 512)
    (h : 512 * i + (lkb + b) * bb + n = 512 * i' + (lkb + b') * bb + n') : i = i' ∧ b = b' ∧ n = n' := by
  have hrow : i = i' := by
    generalize (lkb + b) * bb = x at *
    generalize (lkb + b') * bb = y at *
    omega
  subst hrow
  have hin : (lkb + b) * bb + n = (lkb + b') * bb + n' := by omega
  have hblock : lkb + b = lkb + b' := by
    have hdiv := congrArg (· / bb) hin
    rwa [Nat.mul_comm, Nat.mul_add_div (by omega), Nat.div_eq_of_lt hn, Nat.mul_comm, Nat.mul_add_div (by omega), Nat.div_eq_of_lt hn'] at hdiv
  rw [hblock] at hin
  exact ⟨rfl, by omega, by omega⟩

theorem block_within {bb b : Nat} (hb : b < o.blocks) (hroom : (lkb + o.blocks) * bb ≤ 512) : (lkb + b) * bb + bb ≤ 512 := by
  have hle : (lkb + b + 1) * bb ≤ (lkb + o.blocks) * bb := Nat.mul_le_mul_right bb (by omega)
  rw [Nat.succ_mul] at hle
  omega

theorem latch_lt (o : Op) : o.latch < 4 := Nat.mod_lt _ (by decide)

/-- The element bytes of a latch with an MLAT's blocks. -/
def Arch.latchedE (a : Arch) (o : Op) (l : Memory) : Memory := Sparse.sets 0 a.latchE (l.map fun x => (o.latch * 32768 + x.1, x.2))
/-- The scale bytes of a latch with an MLAT's blocks. -/
def Arch.latchedS (a : Arch) (o : Op) (l : Memory) : Memory := Sparse.sets 0 a.latchS (l.map fun x => (o.latch * 2048 + x.1, x.2))
/-- The marks of the latches behind an MLAT. -/
def Arch.latchedMarks (a : Arch) (o : Op) (e sc : Memory) : List Nat :=
  if a.latchMarks.isEmpty then [] else a.latchMarks.filter fun x => !(coveredWords (e.map fun x => o.latch * 32768 + x.1) ++
    (coveredWords (sc.map fun x => o.latch * 2048 + x.1)).map (scaleMark + ·)).contains x

theorem putLatch_eq (p : Op) : a.putLatch p = { a with
    latchE := a.latchedE p p.snapE, latchS := a.latchedS p p.snapS, latchMarks := a.latchedMarks p p.snapE p.snapS } := by
  unfold Arch.putLatch Arch.latchedE Arch.latchedS Sparse.sets
  rw [List.foldl_map, List.foldl_map]
  rfl

theorem mem_latchedMarks {e sc : Memory} {w : Nat} : w ∈ a.latchedMarks o e sc ↔ w ∈ a.latchMarks ∧
    ¬ (w ∈ coveredWords (e.map fun x => o.latch * 32768 + x.1) ∨
      ∃ v ∈ coveredWords (sc.map fun x => o.latch * 2048 + x.1), 16384 + v = w) := by
  unfold Arch.latchedMarks
  split
  · next hempty =>
    rw [List.isEmpty_iff.mp hempty]
    exact ⟨fun h => absurd h List.not_mem_nil, fun h => absurd h.1 List.not_mem_nil⟩
  · rw [List.mem_filter, Bool.not_eq_true', ← Bool.not_eq_true, List.contains_iff_mem, List.mem_append, List.mem_map]
    rfl

theorem latched_elem (hroom : (lkb + o.blocks) * blockBytes o.fmt ≤ 512) (w : Sparse.wf 0 a.latchE = true) {i b n : Nat} (hi : i < 64)
    (hb : b < o.blocks) (hn : n < blockBytes o.fmt) : Sparse.get 0 (a.latchedE o (o.latchPut ls c lkb).1)
      (o.latch * 32768 + 512 * i + (lkb + b) * blockBytes o.fmt + n) = o.latchByte ls c i b n := by
  refine Sparse.get_sets_of_mem w _ (List.mem_map.mpr ⟨_, mem_latchElems.mpr ⟨i, b, n, hi, hb, hn, rfl⟩, ?_⟩) fun x hx hplace => ?_
  · exact Prod.ext (by dsimp only; omega) rfl
  · obtain ⟨y, hy, rfl⟩ := List.mem_map.mp hx
    obtain ⟨i', b', n', hi', hb', hn', rfl⟩ := mem_latchElems.mp hy
    dsimp only at hplace
    obtain ⟨rfl, rfl, rfl⟩ := latch_apart hn' hn (block_within hb' hroom) (block_within hb hroom) (i := i') (i' := i) (by omega)
    rfl

theorem latched_scale (hmx : isMx o.fmt = true) (hroom : lkb + o.blocks ≤ 32) (w : Sparse.wf 0 a.latchS = true) {i b : Nat} (hi : i < 64)
    (hb : b < o.blocks) : Sparse.get 0 (a.latchedS o (o.latchPut ls c lkb).2) (o.latch * 2048 + 32 * i + lkb + b) =
      BitVec.ofNat 8 (o.latchBlk ls c i b).2 := by
  refine Sparse.get_sets_of_mem w _ (List.mem_map.mpr ⟨_, mem_latchScales.mpr ⟨hmx, i, b, hi, hb, rfl⟩, ?_⟩) fun x hx hplace => ?_
  · exact Prod.ext (by dsimp only; omega) rfl
  · obtain ⟨y, hy, rfl⟩ := List.mem_map.mp hx
    obtain ⟨-, i', b', hi', hb', rfl⟩ := mem_latchScales.mp hy
    dsimp only at hplace
    obtain rfl : i' = i := by omega
    obtain rfl : b' = b := by omega
    rfl

theorem mem_elemAddrs {x : Nat} : x ∈ ((o.latchPut ls c lkb).1.map fun x => o.latch * 32768 + x.1) ↔ ∃ i b, i < 64 ∧ b < o.blocks ∧
    o.latch * 32768 + 512 * i + (lkb + b) * blockBytes o.fmt ≤ x ∧ x < o.latch * 32768 + 512 * i + (lkb + b + 1) * blockBytes o.fmt := by
  rw [List.mem_map]
  constructor
  · rintro ⟨y, hy, rfl⟩
    obtain ⟨i, b, n, hi, hb, hn, rfl⟩ := mem_latchElems.mp hy
    refine ⟨i, b, hi, hb, by dsimp only; omega, ?_⟩
    rw [Nat.succ_mul (lkb + b)]
    dsimp only
    omega
  · rintro ⟨i, b, hi, hb, hlow, hhigh⟩
    rw [Nat.succ_mul (lkb + b)] at hhigh
    exact ⟨_, mem_latchElems.mpr ⟨i, b, x - (o.latch * 32768 + 512 * i + (lkb + b) * blockBytes o.fmt), hi, hb, by omega, rfl⟩, by
      dsimp only
      omega⟩

theorem mem_scaleAddrs {x : Nat} : x ∈ ((o.latchPut ls c lkb).2.map fun x => o.latch * 2048 + x.1) ↔ isMx o.fmt = true ∧
    ∃ i b, i < 64 ∧ b < o.blocks ∧ x = o.latch * 2048 + 32 * i + lkb + b := by
  rw [List.mem_map]
  constructor
  · rintro ⟨y, hy, rfl⟩
    obtain ⟨hmx, i, b, hi, hb, rfl⟩ := mem_latchScales.mp hy
    exact ⟨hmx, i, b, hi, hb, by dsimp only; omega⟩
  · rintro ⟨hmx, i, b, hi, hb, rfl⟩
    exact ⟨_, mem_latchScales.mpr ⟨hmx, i, b, hi, hb, rfl⟩, by dsimp only; omega⟩

/-- The words of element bytes come before those of scales. -/
theorem elemWord_lt (hroom : (lkb + o.blocks) * blockBytes o.fmt ≤ 512) {w : Nat}
    (h : w ∈ coveredWords ((o.latchPut ls c lkb).1.map fun x => o.latch * 32768 + x.1)) : w < 16384 := by
  obtain ⟨i, b, hi, hb, -, hhigh⟩ := mem_elemAddrs.mp (mem_coveredWords.mp h 0 (by decide))
  have hwithin := block_within hb hroom
  have hlatch := latch_lt o
  rw [Nat.succ_mul (lkb + b)] at hhigh
  omega

end Latch

/-! ### MLAT_LATCH_COMPLETION (R181) -/

section Perform
variable {s u : State} {c q : Nat} {o p : Op} {rest more : List Op} {ls : List (Nat × List Byte)}

/-- An MLAT behind its step: what it writes into its latch, and what it has counted. -/
def Op.latched (o : Op) (ls : List (Nat × List Byte)) (c lkb : Nat) : Op :=
  stepDone { o with snapE := (o.latchPut ls c lkb).1, snapS := (o.latchPut ls c lkb).2 }

theorem mlatPerform_eq (h : AtHead s c q o rest) (hcode : o.code = .mlat) (hstate : o.state = .bench) (hperformed : o.performed = false)
    (hlively : s.lively c = true) (hsingle : u.doubled c = false)
    (hread : s.operands c q o (recKeys c o.recA ((List.range o.blocks).flatMap o.cellsA)) = (some ls, u)) :
    exec (.mlatPerform c q) s = .next ((u.setCore c { u.core c with
      arch := (u.core c).arch.putLatch (o.latched ls c (lkbOf ((s.core c).cfgOf q))) }).finish c q (o.latched ls c (lkbOf ((s.core c).cfgOf q)))) := by
  show execMlatPerform c q s = _
  unfold execMlatPerform
  dsimp only
  rw [headOp_atHead h]
  dsimp only
  rw [if_neg (by simp [hcode, hstate, hperformed, hlively]), hread]
  dsimp only
  rw [hsingle, if_neg Bool.false_ne_true]
  rfl

end Perform

end Sys2Proof.Machine

/-! Proofs for spec/08: the actions on matrix operations, clause by clause, and O45. -/

namespace Sys2Proof.Machine

open Safety

section Clauses
variable {s u : State} {c q : Nat} {o p : Op} {rest more : List Op} {ls : List (Nat × List Byte)} {k : Core}

theorem get_emptied (w : SpmWf k) (l : Nat) : Sparse.get true (k.emptied q o) l =
    if l ∈ k.clinesOf q o then false else k.isFull l := by
  obtain ⟨-, hfull, -⟩ := w
  exact Sparse.get_sets_const hfull (k.clinesOf q o) false

theorem withTile_words {i j : Nat} (hi : i < 64) (hj : j < 64) : Sparse.get 0 (o.withTile k q).acc (64 * i + j) = if o.em.getLsbD 2 then 0
    else BitVec.ofNat 32 (leNat (memBytes k.scratch (o.o1.toNat + i * cstrOf (k.cfgOf q) + 4 * j) 4) 4) := by
  have hacc : (o.withTile k q).acc = if o.em.getLsbD 2 then [] else k.tile o.o1.toNat (cstrOf (k.cfgOf q)) := rfl
  rw [hacc]
  split
  · rfl
  · exact get_tile k o.o1.toNat (cstrOf (k.cfgOf q)) hi hj

theorem withTile_latch (hlatch : o.em.getLsbD 5 = false) :
    ((o.withTile k q).snapE, (o.withTile k q).snapS) = k.arch.latchBytes o.latch := by
  show ((if o.em.getLsbD 5 then ([], []) else k.arch.latchBytes o.latch).1, (if o.em.getLsbD 5 then ([], []) else k.arch.latchBytes o.latch).2) = _
  rw [hlatch, if_neg Bool.false_ne_true]

theorem withTile_elems (hlatch : o.em.getLsbD 5 = false) {n : Nat} (hn : n < 32768) :
    Sparse.get 0 (o.withTile k q).snapE n = Sparse.get 0 k.arch.latchE (fld o.em 6 2 * 32768 + n) := by
  obtain ⟨helems, -⟩ := Prod.mk.inj (withTile_latch (q := q) (k := k) hlatch)
  rw [helems]
  exact get_memBytes k.arch.latchE (o.latch * 32768) 32768 hn

theorem withTile_scales (hlatch : o.em.getLsbD 5 = false) {n : Nat} (hn : n < 2048) :
    Sparse.get 0 (o.withTile k q).snapS n = Sparse.get 0 k.arch.latchS (fld o.em 6 2 * 2048 + n) := by
  obtain ⟨-, hscales⟩ := Prod.mk.inj (withTile_latch (q := q) (k := k) hlatch)
  rw [hscales]
  exact get_memBytes k.arch.latchS (o.latch * 2048) 2048 hn

/-- A step on the whole tile: every cell with its own row and column, and the flags of all. -/
theorem tileStep_cells (w : Sparse.wf 0 o.acc = true) :
    (∀ i j, i < 64 → j < 64 → Sparse.get 0 (o.tileStep k c q ls).1 (64 * i + j) = BitVec.ofNat 32
      (mmaCell o.fmt (Sparse.get 0 o.acc (64 * i + j)).toNat (rowOf k c q o ls i) (colOf c o ls j)).1) ∧
    ∀ n, (o.tileStep k c q ls).2.getLsbD n = true ↔ ∃ i j, i < 64 ∧ j < 64 ∧
      (mmaCell o.fmt (Sparse.get 0 o.acc (64 * i + j)).toNat (rowOf k c q o ls i) (colOf c o ls j)).2.getLsbD n = true := by
  obtain ⟨hin, -, hflags⟩ := foldl_cellStep (fmt := o.fmt) (stepCells (rowOf k c q o ls) (colOf c o ls)) stepCells_distinct w 0
  unfold Op.tileStep
  refine ⟨fun i j hi hj => hin (64 * i + j, rowOf k c q o ls i, colOf c o ls j) (mem_stepCells.mpr ⟨i, j, hi, hj, rfl⟩),
    fun n => (hflags n).trans ?_⟩
  have hnone : BitVec.getLsbD (0 : BitVec 6) n = false := BitVec.getLsbD_zero
  rw [hnone]
  constructor
  · intro h
    obtain ⟨x, hx, hraised⟩ := h.resolve_left Bool.false_ne_true
    obtain ⟨i, j, hi, hj, rfl⟩ := mem_stepCells.mp hx
    exact ⟨i, j, hi, hj, hraised⟩
  · rintro ⟨i, j, hi, hj, hraised⟩
    exact .inr ⟨_, mem_stepCells.mpr ⟨i, j, hi, hj, rfl⟩, hraised⟩

/-- The core whose latch an MLAT has written. -/
def Core.latched (k : Core) (o : Op) (ls : List (Nat × List Byte)) (c lkb : Nat) : Core := { k with
  arch := { k.arch with
    latchE := k.arch.latchedE o (o.latchPut ls c lkb).1, latchS := k.arch.latchedS o (o.latchPut ls c lkb).2
    latchMarks := k.arch.latchedMarks o (o.latchPut ls c lkb).1 (o.latchPut ls c lkb).2 } }

theorem latched_core (lkb : Nat) : ({ k with arch := k.arch.putLatch (o.latched ls c lkb) } : Core) = k.latched o ls c lkb := by
  rw [putLatch_eq]
  rfl

/-- An element word is good behind an MLAT that has written it whole. -/
theorem elemMark_latched {a : Arch} {lkb w : Nat} (hw : w < 16384) :
    w ∈ a.latchedMarks o (o.latchPut ls c lkb).1 (o.latchPut ls c lkb).2 ↔ w ∈ a.latchMarks ∧ ¬ ∀ n, n < 8 → ∃ i b, i < 64 ∧ b < o.blocks ∧
      o.latch * 32768 + 512 * i + (lkb + b) * blockBytes o.fmt ≤ 8 * w + n ∧
      8 * w + n < o.latch * 32768 + 512 * i + (lkb + b + 1) * blockBytes o.fmt := by
  rw [mem_latchedMarks, mem_coveredWords]
  simp only [mem_elemAddrs]
  refine and_congr_right fun _ => not_congr (or_iff_left ?_)
  rintro ⟨v, -, hv⟩
  omega

/-- A word of scales is good behind an MLAT that has written it whole. -/
theorem scaleMark_latched {a : Arch} {lkb w : Nat} (hroom : (lkb + o.blocks) * blockBytes o.fmt ≤ 512) :
    16384 + w ∈ a.latchedMarks o (o.latchPut ls c lkb).1 (o.latchPut ls c lkb).2 ↔ 16384 + w ∈ a.latchMarks ∧
      ¬ (isMx o.fmt = true ∧ ∀ n, n < 8 → ∃ i b, i < 64 ∧ b < o.blocks ∧ 8 * w + n = o.latch * 2048 + 32 * i + lkb + b) := by
  have hcovered : w ∈ coveredWords ((o.latchPut ls c lkb).2.map fun x => o.latch * 2048 + x.1) ↔
      isMx o.fmt = true ∧ ∀ n, n < 8 → ∃ i b, i < 64 ∧ b < o.blocks ∧ 8 * w + n = o.latch * 2048 + 32 * i + lkb + b := by
    rw [mem_coveredWords]
    simp only [mem_scaleAddrs]
    exact ⟨fun h => ⟨(h 0 (by decide)).1, fun n hn => (h n hn).2⟩, fun h n hn => ⟨h.1, h.2 n hn⟩⟩
  rw [mem_latchedMarks, ← hcovered]
  refine and_congr_right fun _ => not_congr ⟨fun h => ?_, fun h => .inr ⟨w, h, rfl⟩⟩
  rcases h with h | ⟨v, hv, hplace⟩
  · exact absurd (elemWord_lt hroom h) (Nat.not_lt.mpr (Nat.le_add_right 16384 w))
  · obtain rfl : v = w := by omega
    exact hv

end Clauses

/-- Settles O45, action by action: the claim by its equation, a step cell by cell as the cells lie apart, the write-back row by row with
nobody waiting on its lines, the latch by the list of bytes that an MLAT writes. -/
theorem matrixOperations : Obligations.MatrixOperations := by
  refine ⟨?claim, ?step, ?writeBack, ?latch⟩
  case claim =>
    intro s c q o rest w wk h hcode hclaimed hstate hengines hfirst hawake hfull
    have hexec := mmaClaim_eq h hcode hclaimed hstate hengines hfirst hawake hfull
    refine ⟨fun hbad => ?_, fun hgood => ?_⟩
    · rw [hexec, claim_spoiled hbad]
    · refine ⟨(s.core c).emptied q o, (o.withTile (s.core c) q).acc, (o.withTile (s.core c) q).snapE, (o.withTile (s.core c) q).snapS,
        ?_, fun l => ?_, fun i j hi hj => withTile_words hi hj, fun hlatch n hn => withTile_elems hlatch hn,
        fun hlatch n hn => withTile_scales hlatch hn⟩
      · rw [hexec, claim_good w h hgood]
        rfl
      · rw [get_emptied wk]
        exact ⟨fun hin => if_pos (mem_tileLines.mpr hin), fun hout => if_neg fun hmem => hout (mem_tileLines.mp hmem)⟩
  case step =>
    intro s u c q o p rest more ls h hcode hclaimed hat hnext hlively hawake wacc hread hhead
    obtain ⟨-, -, hpe, hp⟩ := hhead
    have hflags : p.flags = o.flags := by
      rw [hp]
    obtain ⟨hcells, hraised⟩ := tileStep_cells (k := s.core c) (c := c) (q := q) (ls := ls) wacc
    refine ⟨_, _, mmaStep_eq h hcode hclaimed hat hnext hlively hawake hread hpe, hcells, fun n => ?_⟩
    rw [BitVec.getLsbD_or, Bool.or_eq_true, hflags, hraised n]
  case writeBack =>
    intro s c q o rest w wk h hcode hclaimed hperformed hnext hlively hawake hsingle hwaiters hclaim hapart
    obtain ⟨l, hlands⟩ := storeTile_lands (q := q) (o := o) w wk hwaiters hclaim hapart
    refine ⟨_, _, _, _, l, mmaWriteBack_eq h hcode hclaimed hperformed hnext hlively hawake hsingle, tiled_put wk hapart, ?_⟩
    rw [hlands]
    exact finish_completed (s := landedOn s l) (u := landedOn (s.setCore c (s.tiledCore c q o)) l) (State.setCore_coresWf w)
      (State.core_setCore_same w) (fun d hd => (State.core_setCore w d).trans (if_neg hd)) rfl h
  case latch =>
    intro s u c q o p rest more ls h hcode hstate hperformed hlively hsingle husingle hread hhead wE wS
    obtain ⟨wu, -, hpe, -⟩ := hhead
    intro lkb bb blk hroom
    have hexec := mlatPerform_eq h hcode hstate hperformed hlively husingle hread
    rw [latched_core] at hexec
    refine ⟨_, (u.core c).arch.latchedE o (o.latchPut ls c lkb).1, (u.core c).arch.latchedS o (o.latchPut ls c lkb).2,
      (u.core c).arch.latchedMarks o (o.latchPut ls c lkb).1 (o.latchPut ls c lkb).2, (o.latchPut ls c lkb).1, (o.latchPut ls c lkb).2,
      hexec, ?_, fun w hw => elemMark_latched hw, fun w => scaleMark_latched hroom,
      fun i b n hi hb hn => latched_elem hroom wE hi hb hn, fun hmx hscales i b hi hb => latched_scale hmx hscales wS hi hb⟩
    exact finish_setCore wu hpe

end Sys2Proof.Machine
